-- ==== Sys2Proof/Word.lean ====
section
/-!
DEFINITION. The word types, and the plain data that commands carry as operands: requests' paths, fabric packets,
assembled messages, DRAM and SRAM upsets.
-/
namespace Sys2Proof

/-- One byte of memory, of a record, of a message. -/
abbrev Byte := BitVec 8

/-- A 32-bit word; an F32 code is one (R47, R49). -/
abbrev W32 := BitVec 32

/-- A 64-bit word: a peg value, a Grain coordinate (R68, R363). -/
abbrev W64 := BitVec 64

/-- A byte string, lowest address first. -/
abbrev Bytes := List Byte

/-- A 64-byte command record, bit 0 the least significant bit of byte 0 (R8). -/
abbrev Rec64 := BitVec 512

/-- How a dictionary request reaches Lantern (R478, R487): the BAR0 mailbox, the management Ethernet from a source
(its IPv4 address times 65,536 plus its UDP port) with or without a good tag, I3C, or the UART console. -/
inductive Path where
  | mailbox
  | odp (source : Nat) (auth : Bool)
  | i3c
  | uart
  deriving DecidableEq, Repr

/-- A fabric packet: the header fields of "Packet header, 32 bytes", the dateline set of the virtual channel it is on,
the data, and the header's reserved bits in their places (R10). -/
structure Packet where
  address : Nat := 0
  srcModule : Nat := 0
  srcDie : Nat := 0
  poison : Bool := false
  op : Nat := 0
  cls : Nat := 0
  phase : Bool := false
  via : Bool := false
  long : Nat := 0
  viaModule : Nat := 0
  tag : Nat := 0
  status : Nat := 0
  hops : Nat := 0
  endCheck : Nat := 0
  rsv : Nat := 0
  dateline : Bool := false
  data : Bytes := []
  deriving DecidableEq, Repr

/-- The reserved bits of a packet header: [111:109], [127:125], [191:167] and [255:224]. -/
def reservedBits : Nat := 7 * 2 ^ 109 + 7 * 2 ^ 125 + (2 ^ 25 - 1) * 2 ^ 167 + (2 ^ 32 - 1) * 2 ^ 224

/-- A message all of whose fragments have arrived (R323): its sender, the tag of the last fragment's request, the
operation, the message number, the step's low 32 bits, the receiving region and the body.  A SHARD_MULTICAST comes
fragment by fragment: `body` is one, from byte `off` of the message whose first 32 bytes are `head` (R331). -/
structure Msg where
  src : Nat := 0
  srcDie : Nat := 0
  tag : Nat := 0
  op : Nat := 0
  msgId : Nat := 0
  stepLo : Nat := 0
  region : Nat := 0
  body : Bytes := []
  off : Nat := 0
  last : Bool := true
  poison : Bool := false
  head : Bytes := []
  deriving DecidableEq, Repr

/-- An upset that physics has left: the bits of a DRAM sector that have changed, a 64-bit word of an SRAM line with a
single-bit (1) or an uncorrectable (2) error, or a transfer error that one of the six bridges has corrected (R43). -/
inductive Upset where
  | dram (region tier page sector mask : Nat)
  | sram (die line word kind : Nat)
  | bridge (number : Nat)
  deriving DecidableEq, Repr

/-- A PTP message (R362): its domain, whether it is a synchronisation message, and the wall time that it gives. -/
structure PtpMsg where
  domain : Nat := 0
  sync : Bool := false
  wallNs : Nat := 0
  deriving DecidableEq, Repr

/-- What the decoder of R296 found in the codeword that brought a flit: its symbol errors, and whether an earlier flit of the
same codeword has already been counted for it. -/
structure Codeword where
  errors : Nat := 0
  counted : Bool := false
  deriving DecidableEq, Repr

/-- The training record of a TRAIN flit, and the codeword that brought it (R296, R302, R434). -/
structure TrainRec where
  moduleNumber : Nat := 0
  numberValid : Bool := false
  port : Nat := 0
  levels : Nat := 0
  role : Nat := 0
  systemId : Nat := 0
  coordCheck : Nat := 0
  dimX : Nat := 0
  dimY : Nat := 0
  dimZ : Nat := 0
  selected : Nat := 0
  twinPeer : Nat := 0
  twinSide : Nat := 0
  twinEnable : Bool := false
  word : Codeword := {}
  deriving DecidableEq, Repr

/-- A data flit: its header fields, reserved bit included, its CRC-32 and its 120-byte body (R297). -/
structure Flit where
  seq : Nat := 0
  ack : Nat := 0
  vcClass : Nat := 0
  dateline : Bool := false
  phase : Bool := false
  first : Bool := false
  last : Bool := false
  rsv : Bool := false
  crc : Nat := 0
  body : Bytes := []
  deriving DecidableEq, Repr

/-- What a control flit carries beside its acknowledgement (R298): its CTRL_CODE, NAK_SEQ, and the cumulative credit
counts, keyed by PHASE × 10 + DATELINE × 5 + VC_CLASS; whether its CRC checks, and the codeword that brought it. -/
structure Control where
  code : Nat := 0
  ack : Nat := 0
  nakSeq : Nat := 0
  credits : List (Nat × Nat) := []
  crcGood : Bool := true
  word : Codeword := {}
  deriving DecidableEq, Repr

/-- A Guyline packet (R434): header fields, reserved bits [63:61] among them, and data; `path` is the die whose port
carries it. -/
structure GPacket where
  path : Nat := 0
  gop : Nat := 0
  cls : Nat := 0
  poison : Bool := false
  die : Nat := 0
  region : Nat := 0
  tag : Nat := 0
  status : Nat := 0
  stepLo : Nat := 0
  endCheck : Nat := 0
  rsv : Nat := 0
  data : Bytes := []
  deriving DecidableEq, Repr

/-- A response that reaches the module: over the fabric at a die, or over a Guyline path. -/
inductive Reply where
  | fabric (die : Nat) (packet : Packet)
  | guyline (packet : GPacket)
  deriving DecidableEq, Repr

/-- What waits for a RETRY_LATER back-off (R337): a fabric request, a message, or a Guyline request. -/
inductive Retry where
  | request (die tag : Nat)
  | message (key : Nat)
  | guyline (path tag : Nat)
  deriving DecidableEq, Repr

/-- How a descriptor read of host memory ends (R410): a record, or a completion that is not good. -/
inductive HostReply where
  | record (r : Rec64)
  | bad
  | device
  deriving DecidableEq, Repr

/-- What a REGISTER_WRITE writes: a dictionary entry, or a BAR0 access of some bytes (R399). -/
inductive RegTarget where
  | dict (path : Path) (index sub : Nat) (data : Bytes)
  | bar0 (offset size value : Nat)
  deriving DecidableEq, Repr

end Sys2Proof
end

