-- ==== Sys2Proof/Syntax.lean ====
section
/-!
DEFINITION. The commands of the module: one constructor per row of the opcode table, with what the row brings from
outside as its operands.
-/
namespace Sys2Proof

/-- A command, an operation on a bus or link, or an event, each one row of the opcode table.  The twenty-seven queue
commands carry the queue, the command index and the 64-byte record. -/
inductive Instr where
  /-- `NOP` (R372). Command 0x00 does no work and completes. -/
  | nop (queue index : Nat) (record : Rec64)
  /-- `PEG_SIGNAL` (R378). Command that signals a local or remote peg at ADDRESS and completes when the response arrives. -/
  | pegSignal (queue index : Nat) (record : Rec64)
  /-- `PEG_WAIT` (R378). Command that completes when its peg wait is satisfied, or fails on timeout. -/
  | pegWait (queue index : Nat) (record : Rec64)
  /-- `PEG_SET` (R366). Command that writes a peg value, refused while the peg has a waiting wait. -/
  | pegSet (queue index : Nat) (record : Rec64)
  /-- `DMA_COPY` (R379). Command that copies BYTES bit for bit in 4,096-byte pieces over the selected row engines. -/
  | dmaCopy (queue index : Nat) (record : Rec64)
  /-- `DMA_TRANSPOSE` (R212). Command that writes source element (i, j) as destination (j, i), converting once when formats differ. -/
  | dmaTranspose (queue index : Nat) (record : Rec64)
  /-- `RUCKSACK_PUSH` (R220). Command that copies a tensor into a new frame at the top of a region's Rucksack. -/
  | rucksackPush (queue index : Nat) (record : Rec64)
  /-- `RUCKSACK_POP` (R221). Command that copies the top Rucksack frame into a tensor and removes it, or refuses on order mismatch. -/
  | rucksackPop (queue index : Nat) (record : Rec64)
  /-- `GEMM` (R207). Command that checks and computes C = A x B tile by tile with chunk sums, SRD running sums, epilogue and conversion. -/
  | gemm (queue index : Nat) (record : Rec64)
  /-- `ROW_READ` (R386). Row operation that writes the current value of each record, metadata included, into a row image. -/
  | rowRead (queue index : Nat) (record : Rec64)
  /-- `ROW_WRITE` (R387). Row operation that stores the image's payload and exponents into each record at a COMMIT point. -/
  | rowWrite (queue index : Nat) (record : Rec64)
  /-- `ROW_FREEZE` (R387). Row operation that stores FROZEN in the ROW_META of each record. -/
  | rowFreeze (queue index : Nat) (record : Rec64)
  /-- `ROW_RESET` (R387). Row operation that zeroes moments, exponents and LAST_T, keeping the weights. -/
  | rowReset (queue index : Nat) (record : Rec64)
  /-- `ROWENG_FWD` (R228). Row-engine command computing layer norm, RMS norm or soft-maximum forward and storing statistics. -/
  | rowengFwd (queue index : Nat) (record : Rec64)
  /-- `ROWENG_BWD` (R227). Row-engine command computing the backward of a normalisation or soft-maximum from tagged statistics. -/
  | rowengBwd (queue index : Nat) (record : Rec64)
  /-- `GATHER_POOL` (R381). Command that binds the pooled outputs of a table set to output slots from FROM_STEP. -/
  | gatherPool (queue index : Nat) (record : Rec64)
  /-- `GRAD_SCATTER` (R383). Command that reads a table's pooled gradients and sends them as GRAD_MSG messages to the pitch positions. -/
  | gradScatter (queue index : Nat) (record : Rec64)
  /-- `DENSE_REDUCE` (R384). Command that sends this member's partial of every shard of a dense tensor to the shard owners. -/
  | denseReduce (queue index : Nat) (record : Rec64)
  /-- `SCHED` (R389). Command whose valid entries schedule parameter bank values for later steps. -/
  | sched (queue index : Nat) (record : Rec64)
  /-- `CHECK_SCAN` (R280). Command that checks a CRC scan request and queues it at the die's check-value unit. -/
  | checkScan (queue index : Nat) (record : Rec64)
  /-- `GEN_SETUP` (R461). Command that places the change map and hold area in each region's slow flat portion. -/
  | genSetup (queue index : Nat) (record : Rec64)
  /-- `GEN_CUT` (R462). Command that cuts a generation at (S, COMMIT) by exchanging the change-map planes. -/
  | genCut (queue index : Nat) (record : Rec64)
  /-- `GEN_EXPORT` (R465). Command that writes the open generation's shards to host memory or a gateway. -/
  | genExport (queue index : Nat) (record : Rec64)
  /-- `GEN_RELEASE` (R465). Command that releases the open generation without exporting the rest. -/
  | genRelease (queue index : Nat) (record : Rec64)
  /-- `FEED_BIND` (R426). Command that binds a table set's Feed export and gradient rings from FROM_STEP. -/
  | feedBind (queue index : Nat) (record : Rec64)
  /-- `LOAD` (R391). Command that checks a run plan image and then lays out, initialises and joins the run. -/
  | load (queue index : Nat) (record : Rec64)
  /-- `UNLOAD` (R393). Command that leaves the run at a COMMIT point, or at once with FORCE, and releases its portions. -/
  | unload (queue index : Nat) (record : Rec64)
  /-- `COMMAND_FETCH` (R408). A running queue fetches the next command when the producer index covers it and its completion slot is free. -/
  | commandFetch (queue : Nat) (reply : HostReply)
  /-- `DESCRIPTOR_RECHECK_EXPIRY` (R410). A recheck timer expires and a not-good record is read again; after the fourth the queue stops torn. -/
  | descriptorRecheckExpiry (queue : Nat) (reply : HostReply)
  /-- `COMMAND_START` (R375). A command starts once its predecessors have started and its header wait and fence are satisfied, and its start checks run. -/
  | commandStart (queue index : Nat)
  /-- `COMMAND_COMPLETE` (R376). A command's writes become visible; the header signal and completion summary follow, and a failure may stop the queue. -/
  | commandComplete (queue index : Nat)
  /-- `COMPLETION_FLUSH_DONE` (R413). The zero-length flush read completes and the pending completion records are written. -/
  | completionFlushDone (queue : Nat)
  /-- `INT_COALESCE_EXPIRY` (R414). The coalescing period ends and an MSI-X message covers records not yet signalled. -/
  | intCoalesceExpiry (queue : Nat)
  /-- `DOORBELL_SQ_PRODUCER` (R407). A KIND 0 doorbell sets a new submission producer index, or is ignored. -/
  | doorbellSqProducer (queue index : Nat)
  /-- `DOORBELL_CQ_HEAD` (R407). A KIND 1 doorbell sets a new completion head index, or is ignored. -/
  | doorbellCqHead (queue index : Nat)
  /-- `QUEUE_ENABLE` (R406). ENABLE moves a disabled queue to RUNNING when its configuration is valid. -/
  | queueEnable (queue : Nat)
  /-- `QUEUE_DISABLE` (R406). DISABLE stops fetching, discards unstarted commands and disables the queue once idle. -/
  | queueDisable (queue : Nat)
  /-- `QUEUE_RESTART` (R411). RESTART resumes a STOPPED_ERROR queue after the failed command. -/
  | queueRestart (queue : Nat)
  /-- `CAUSE_CLEAR` (R400). A W1C write clears CAUSE bits of the die-0 status page. -/
  | causeClear (mask : Nat)
  /-- `BAR2_READ` (R404). A host read through the movable window returns current values, or Unsupported Request when refused. -/
  | bar2Read (offset length : Nat)
  /-- `BAR2_WRITE` (R404). A host write through the movable window takes its place at the home crossbar, or is dropped when refused. -/
  | bar2Write (offset : Nat) (data : Bytes) (poison : Bool)
  /-- `INTAKE_WINDOW_WRITE` (R423). A write to a BATCH or GRADIENT ring window stores ring bytes, or is dropped by the requester filter. -/
  | intakeWindowWrite (requester offset : Nat) (data : Bytes) (poison : Bool)
  /-- `EXPORT_WINDOW_READ` (R423). A read of an EXPORT ring window returns pooled outputs from the backing range. -/
  | exportWindowRead (offset length : Nat)
  /-- `INTAKE_PRODUCER_WRITE` (R423). A PRODUCER write advances a ring, or stops it when invalid, and exposes new batches or entries. -/
  | intakeProducerWrite (ring size value : Nat)
  /-- `CONSUMED_STEP_WRITE` (R428). The peer releases export slots; a held module may leave HELD. -/
  | consumedStepWrite (ring value : Nat)
  /-- `RING_ENABLE` (R421). Setting ENABLE activates an intake ring when its geometry and backing are valid. -/
  | ringEnable (ring : Nat)
  /-- `RING_DISABLE` (R421). Clearing ENABLE turns a ring OFF, including out of STOPPED. -/
  | ringDisable (ring : Nat)
  /-- `FEED_EXPORT_PUBLISH` (R427). When every output of a step is written, the home module publishes READY_STEP, or counts an unmapped slot. -/
  | feedExportPublish (tableSet : Nat)
  /-- `MAILBOX_GO` (R483). GO starts a mailbox dictionary request, which Lantern answers into the response buffer. -/
  | mailboxGo
  /-- `PCIE_LINK_EXIT_L0` (R415). The PCIe link leaves L0 and outbound TLPs are held. -/
  | pcieLinkExitL0
  /-- `PCIE_LINK_RETURN_L0` (R415). The link returns to L0 within HOST_LOSS_MS and held TLPs are replayed. -/
  | pcieLinkReturnL0
  /-- `HOST_LOSS_TIMEOUT` (R416). The link has not returned to L0 within HOST_LOSS_MS, which is host loss. -/
  | hostLossTimeout
  /-- `PERST_ASSERT` (R416). PERST# is asserted, causing host loss. -/
  | perstAssert
  /-- `PERST_DEASSERT` (R506). PERST# is deasserted and the endpoint begins link training. -/
  | perstDeassert
  /-- `FUNCTION_LEVEL_RESET` (R416). A Function Level Reset is received, causing host loss. -/
  | functionLevelReset
  /-- `PCIE_HOT_RESET` (R416). The link enters Hot Reset or Disabled, causing host loss. -/
  | pcieHotReset
  /-- `D3HOT_ENTRY` (R416). The function enters D3hot, causing host loss. -/
  | d3hotEntry
  /-- `AXIS_SIGNAL` (R345). An AXIS peg signal raises the module's axis value and restarts the loss timer, or is refused if not from RIDGE_SOURCE. -/
  | axisSignal (packet : Packet)
  /-- `READY_REPORT` (R348). A participant reports ready for the next point once that point's ready conditions hold, or reports HOLD. -/
  | readyReport
  /-- `READY_SIGNAL` (R348). The timekeeper records a readiness report and advances when every participant has reported. -/
  | readySignal (packet : Packet)
  /-- `BEAT_EXPIRY` (R349). RIDGE_BEAT_US passes without an advance and the timekeeper sends a beat round. -/
  | beatExpiry
  /-- `JOIN_STEP_SIGNAL` (R351). The timekeeper records S0 for a joining member. -/
  | joinStepSignal (packet : Packet)
  /-- `JOIN_SIGNAL` (R352). The timekeeper registers, completes or refuses a run join and admits participants. -/
  | joinSignal (packet : Packet)
  /-- `LEAVE_SIGNAL` (R353). The timekeeper removes a leaving member and may advance. -/
  | leaveSignal (packet : Packet)
  /-- `EXCLUDE_SIGNAL` (R357). The standby removes a module from its participants. -/
  | excludeSignal (packet : Packet)
  /-- `ADMIT_SIGNAL` (R360). A new standby adds a participant to its state. -/
  | admitSignal (packet : Packet)
  /-- `STANDBY_ADMIT` (R360). Once no run is registered and incomplete, the timekeeper signals ADMIT to a new standby per participant. -/
  | standbyAdmit
  /-- `RIDGE_SOURCE_LOSS` (R358). No AXIS signal for RIDGE_LOSS_BEATS beats; the module switches to the standby or enters NO_KEEPER. -/
  | ridgeSourceLoss
  /-- `STANDBY_TAKEOVER` (R359). One beat after declaring the timekeeper lost, the standby sends a takeover round and acts as timekeeper. -/
  | standbyTakeover
  /-- `STEP_WATCHDOG_EXPIRY` (R356). The axis has stayed at one point for STEP_WATCHDOG_S and the watchdog event is raised. -/
  | stepWatchdogExpiry
  /-- `BOUND_DELAY_EXPIRY` (R361). An event bound to a delay after a station takes place when the delay passes. -/
  | boundDelayExpiry (tag : Nat)
  /-- `PEG_WAIT_TIMEOUT` (R365). A peg wait's class timeout expires and it completes with PEG_WAIT_TIMEOUT. -/
  | pegWaitTimeout (queue index : Nat)
  /-- `DATA_FLIT_RECEIVE` (R299). A data flit is accepted in SEQ order or discarded with a NAK. -/
  | dataFlitReceive (port : Nat) (flit : Flit) (code : Codeword)
  /-- `CONTROL_FLIT_RECEIVE` (R298). An IDLE or CREDIT control flit updates cumulative ACK and credits. -/
  | controlFlitReceive (port : Nat) (flit : Control)
  /-- `NAK_RECEIVE` (R300). A NAK makes the transmitter replay from NAK_SEQ. -/
  | nakReceive (port : Nat) (flit : Control)
  /-- `TRAIN_FLIT_RECEIVE` (R302). A TRAIN record is checked and the level agreed, or the port is REFUSED. -/
  | trainFlitReceive (port : Nat) (record : TrainRec)
  /-- `HEARTBEAT_RECEIVE` (R436). A Guyline HEARTBEAT counts as a beat from the partner and carries its states. -/
  | heartbeatReceive (port moduleNumber modState twinState : Nat) (axis : W64) (runId : Nat)
  /-- `CONTROL_FLIT_INTERVAL` (R298). 64 flit times pass and the port sends a control flit. -/
  | controlFlitInterval (port : Nat)
  /-- `LINK_RETRY_EXPIRY` (R300). The link retry timer expires without ACK progress and the transmitter replays, retraining after 8 replays. -/
  | linkRetryExpiry (port : Nat)
  /-- `CODEWORD_LOCK_LOSS` (R304). Codeword lock is lost or the peer requests a retrain, and the port retrains. -/
  | codewordLockLoss (port : Nat)
  /-- `PORT_TRAINING_DONE` (R304). Training completes and the port is UP, resuming or starting its sequence state. -/
  | portTrainingDone (port : Nat)
  /-- `RETRAIN_TIMEOUT` (R305). A retrain has not completed in 100 ms and the port goes DOWN, discarding its flits. -/
  | retrainTimeout (port : Nat)
  /-- `LINK_DOWN_RETRY_EXPIRY` (R305). One second passes and a DOWN port tries to train again. -/
  | linkDownRetryExpiry (port : Nat)
  /-- `PACKET_TRANSIT` (R312). A router forwards a packet by dimension order, or returns or discards it when unreachable or over the hop limit. -/
  | packetTransit (port : Nat) (packet : Packet)
  /-- `READ` (R318). A fabric READ returns the current bytes at its place in the crossbar order. -/
  | read (packet : Packet) (upsets : List Upset)
  /-- `WRITE` (R318). A fabric WRITE takes its place at the crossbar before its response is sent. -/
  | write (packet : Packet)
  /-- `ATOMIC_ADD` (R318). A fabric ATOMIC_ADD adds to a U64 atomically and returns the old value. -/
  | atomicAdd (packet : Packet)
  /-- `FABRIC_PEG_SIGNAL` (R363). A PEG_SIGNAL operation adds its increment to a peg modulo 2^64. -/
  | fabricPegSignal (packet : Packet)
  /-- `POISONED_WRITE` (R321). A write whose destination sectors are all written poisoned. -/
  | poisonedWrite (packet : Packet)
  /-- `RESPONSE_RECEIVE` (R339). The first response completes a request; later ones are discarded and failure statuses fail it. -/
  | responseReceive (reply : Reply)
  /-- `FABRIC_REQUEST_TIMEOUT` (R336). The request timer elapses and the request is resent, or fails after FABRIC_RETRY_LIMIT. -/
  | fabricRequestTimeout (guyline : Bool) (die tag : Nat)
  /-- `RETRY_BACKOFF_EXPIRY` (R337). The RETRY_LATER delay ends and the request or message is resent. -/
  | retryBackoffExpiry (retry : Retry)
  /-- `MESSAGE_FRAGMENT_RECEIVE` (R324). A message fragment is accepted, answered RETRY_LATER, refused or misdirected. -/
  | messageFragmentReceive (packet : Packet)
  /-- `INDEX_RUN` (R326). A receiving module writes index run entries into retained-occurrence storage of the home regions. -/
  | indexRun (msg : Msg)
  /-- `BAND_PARTIAL` (R120). The home module combines a bag's band partials in pitch order. -/
  | bandPartial (msg : Msg)
  /-- `GRAD_MSG` (R132). A region checks a delivered gradient message and accepts, stages, holds early or refuses it. -/
  | gradMsg (msg : Msg)
  /-- `GRAD_CONSUME` (R142). A staged message is consumed in (sample, table, slice) order once its predecessors are consumed. -/
  | gradConsume (region : Nat)
  /-- `TARGET_SLICE_APPLY` (R147). A Burin lane reads a completed target, runs its update program and writes sector B then A. -/
  | targetSliceApply (region tableSet table row variant slice : Nat)
  /-- `SHARD_GRAD` (R328). The owner combines members' shard partials in member order and applies the dense groups. -/
  | shardGrad (msg : Msg)
  /-- `LEDGER_UP` (R330). A member adds a child's subtree Ledger and sends its sum upward once every child has reported. -/
  | ledgerUp (msg : Msg)
  /-- `LEDGER_DOWN` (R330). A member records the run's Ledger total, forwards it to its children and derives norm and clip. -/
  | ledgerDown (msg : Msg)
  /-- `SHARD_MULTICAST` (R331). A member writes a received shard-weight fragment into its replica and forwards it to its children. -/
  | shardMulticast (msg : Msg)
  /-- `STEP_REPORT` (R153). The position-0 member collects a pitch member's counters and multicasts the verdict. -/
  | stepReport (msg : Msg)
  /-- `STEP_VERDICT` (R153). A pitch member records the agreement verdict and counts disagreements. -/
  | stepVerdict (msg : Msg)
  /-- `PORT_ENABLE_MASK_WRITE` (R320). A write enables ports to train or disables them at once, discarding their flits. -/
  | portEnableMaskWrite (path : Path) (value : Nat)
  /-- `ROUTE_TABLE_COMMIT` (R311). A commit validates and stages a new route table for the next COMMIT. -/
  | routeTableCommit (path : Path) (value : Nat)
  /-- `TORUS_DIM_WRITE` (R289). A write of a torus dimension refills the whole coordinate table. -/
  | torusDimWrite (path : Path) (axis value : Nat)
  /-- `COORD_TABLE_WRITE` (R289). A coordinate table write is accepted or refused as inconsistent. -/
  | coordTableWrite (path : Path) (first : Nat) (data : Bytes)
  /-- `PARITY_FLUSH_EXPIRY` (R267). A parity-cache entry has held a change for PARITY_FLUSH_US and is written back. -/
  | parityFlushExpiry (page : Nat)
  /-- `BURNISHER_PAGE_CHECK` (R277). The Burnisher reads a page in spare channel cycles and repairs stale parity. -/
  | burnisherPageCheck (region tier : Nat) (upsets : List Upset)
  /-- `BURNISHER_LAP_ALARM` (R278). A lap in progress reaches BURNISHER_LAP_LIMIT_S and raises its alarm. -/
  | burnisherLapAlarm (region tier : Nat)
  /-- `REPAIR_REQUEST` (R435). The partner answers a repair request with its record image or poison status. -/
  | repairRequest (port : Nat) (packet : GPacket)
  /-- `TWIN_REPAIR_WRITE` (R279). The returned record is written whole between COMMIT and OPEN, or the repair is retried or abandoned. -/
  | twinRepairWrite (port : Nat) (packet : GPacket)
  /-- `CHECK_SCAN_RUN` (R282). The check-value unit takes a queued scan, computes its CRC and writes the result record. -/
  | checkScanRun (die : Nat)
  /-- `PROOF_RECOMPUTE` (R249). An idle row engine recomputes a queued Proof tile and bins its deviation. -/
  | proofRecompute (region : Nat)
  /-- `WATCH_RING_TAIL_WRITE` (R254). Software records consumed watch records, or the write is refused. -/
  | watchRingTailWrite (path : Path) (value : Nat)
  /-- `WATCH_HISTORY_RESET` (R241). A write requests that a slot's scale history be emptied at the next OPEN. -/
  | watchHistoryReset (path : Path) (value : Nat)
  /-- `WATCH_RESUME` (R245). Writing TRUE leaves HELD after a zero-streak alarm and clears alarmed streaks. -/
  | watchResume (path : Path) (value : Nat)
  /-- `STEP_AGREE_RESUME` (R154). Writing TRUE leaves HELD after step disagreement and resets the disagreement count. -/
  | stepAgreeResume (path : Path) (value : Nat)
  /-- `TSET_T` (R154). A write sets a table set's step counter while HELD, or is refused. -/
  | tsetT (path : Path) (value : Nat)
  /-- `SALVAGE` (R459). Writing TRUE restarts dies without fill, rebuilds the run layout, writes back caches and scans for torn records. -/
  | salvage (path : Path) (value : Nat)
  /-- `HEARTBEAT_SEND_EXPIRY` (R436). TWIN_HEARTBEAT_US passes and each UP Guyline port sends a HEARTBEAT. -/
  | heartbeatSendExpiry
  /-- `TWIN_BEAT_LOSS` (R447). No beat in TWIN_FAILOVER_BEATS periods and the module reads the partner's liveness word. -/
  | twinBeatLoss
  /-- `LIVENESS_DECISION` (R447). The liveness read result decides failover, re-reading, or severing side 1. -/
  | livenessDecision (ok : Bool) (word : Nat)
  /-- `TWIN_PROBE_EXPIRY` (R450). A member waited TWIN_PROBE_US for an owed message and probes the sender's liveness word. -/
  | twinProbeExpiry (member : Nat)
  /-- `MIRROR_LOG` (R442). The follower replays or skips mirror entries, or diverges. -/
  | mirrorLog (port : Nat) (packet : GPacket)
  /-- `STEP_OPERANDS` (R441). The follower records NORM and CLIP for the step's replays. -/
  | stepOperands (port : Nat) (packet : GPacket)
  /-- `STEP_MARK` (R445). The partner answers once every preceding entry is replayed or skipped. -/
  | stepMark (port : Nat) (packet : GPacket)
  /-- `COPY_PAGE` (R454). The copy target writes a received page with new light codes and parity. -/
  | copyPage (port : Nat) (packet : GPacket)
  /-- `OCCURRENCES` (R152). A twin stores the partner's occurrences of rows it leads. -/
  | occurrences (port : Nat) (packet : GPacket)
  /-- `CONTRIBUTIONS` (R152). The lead merges forwarded contributions into the bag order. -/
  | contributions (port : Nat) (packet : GPacket)
  /-- `ROW_CHANGE` (R388). The partner writes a mirrored row-operation record and acknowledges. -/
  | rowChange (port : Nat) (packet : GPacket)
  /-- `INPUT_POWER_ARRIVAL` (R502). A feed has been in range for 10 ms and a cold start begins. -/
  | inputPowerArrival (feed : Nat)
  /-- `BRINGUP_STAGE_COMPLETE` (R502). A cold-start stage completes and the next begins, reaching READY after stage 7. -/
  | bringupStageComplete (failedRails : List Nat)
  /-- `BRINGUP_STAGE_TIMEOUT` (R504). A stage exceeds its limit; rails turn off for a retry, or the start is abandoned. -/
  | bringupStageTimeout (unit : Nat)
  /-- `BRINGUP_RETRY_EXPIRY` (R504). One second after a stage failure the start restarts at stage 3. -/
  | bringupRetryExpiry
  /-- `FEED_UNDERVOLTAGE` (R515). A feed below 300 V for 1 ms raises an undervoltage event. -/
  | feedUndervoltage (feed : Nat)
  /-- `FEED_LOST` (R515). A feed below 200 V or absent is disconnected. -/
  | feedLost (feed : Nat)
  /-- `FEED_OVERVOLTAGE` (R516). A feed above 410 V for 100 µs is disconnected; the last one takes the module down. -/
  | feedOvervoltage (feed : Nat)
  /-- `FEED_RECONNECT` (R515). A feed back in range for its delay is reconnected. -/
  | feedReconnect (feed : Nat)
  /-- `POWER_FAIL_WARNING` (R518). The bulk bus below 290 V for 10 µs raises the warning and starts the drain. -/
  | powerFailWarning
  /-- `BULK_BUS_COLLAPSE` (R518). The bulk bus falls below 250 V, conversion stops and DRAM contents are lost. -/
  | bulkBusCollapse
  /-- `RAIL_FAULT` (R528). A rail leaves ±5 % for 50 µs after stage 3 and the module drains and turns rails off. -/
  | railFault (rail : Nat)
  /-- `THERMAL_THROTTLE` (R525). A die or HBM3 temperature crosses its throttle threshold and the clock level is lowered. -/
  | thermalThrottle (hbm : Bool) (unit value : Nat)
  /-- `THERMAL_SHUTDOWN` (R525). A die or HBM3 trip drains, turns rails off and enters STANDBY. -/
  | thermalShutdown (hbm : Bool) (unit value : Nat)
  /-- `COOLANT_FLOW_LOW` (R526). Flow below 1.6 L/min for 1 s caps the power limit at 1,000 W. -/
  | coolantFlowLow (low : Bool)
  /-- `POWER_LIMIT_INTERVAL` (R523). Each 10 ms the averaged input power is compared and the throttle level lowered if over the limit. -/
  | powerLimitInterval (milliwatts : Nat)
  /-- `THROTTLE_RAISE_INTERVAL` (R523). Each 100 ms with no cause and low power the throttle level rises by one. -/
  | throttleRaiseInterval (milliwatts : Nat)
  /-- `SENSE_SAMPLE` (R534). Lantern samples the 64 sense points every 10 ms. -/
  | senseSample (values : List W32)
  /-- `ENTER_RETENTION` (R521). Power-state request 1 drains and puts DRAM in self-refresh. -/
  | enterRetention (path : Path)
  /-- `EXIT_RETENTION` (R521). Power-state request 2 performs a retention exit start. -/
  | exitRetention (path : Path)
  /-- `MODULE_RESET` (R521). Power-state request 3 drains and performs a module reset start. -/
  | moduleReset (path : Path)
  /-- `STANDBY_REQUEST` (R521). Power-state request 4 drains and turns every main rail off. -/
  | standbyRequest (path : Path)
  /-- `COLD_START` (R521). Power-state request 5 restarts a cold start from stage 3. -/
  | coldStart (path : Path)
  /-- `RESET_REQ_ASSERT` (R521). RESET_REQ# held for 1 ms is a MODULE_RESET request. -/
  | resetReqAssert
  /-- `SERVICE_BUTTON_SHORT` (R533). A press under 2 s inverts LOCATE. -/
  | serviceButtonShort
  /-- `SERVICE_BUTTON_HOLD` (R533). A press held 5 s is a STANDBY request. -/
  | serviceButtonHold
  /-- `LANTERN_FAULT` (R468). A lockstep mismatch or watchdog expiry restarts Lantern alone. -/
  | lanternFault
  /-- `LANTERN_SERVING` (R468). Lantern serves again and takes the dies' buffered events. -/
  | lanternServing
  /-- `FW_BEGIN` (R473). FW_UPDATE_CONTROL BEGIN erases the inactive slot and enters RECEIVING. -/
  | fwBegin (path : Path)
  /-- `FW_UPDATE_DATA` (R473). A contiguous image piece is written to the inactive slot. -/
  | fwUpdateData (path : Path) (offset : Nat) (data : Bytes)
  /-- `FW_VERIFY` (R473). FW_UPDATE_CONTROL VERIFY starts verification of the received image. -/
  | fwVerify (path : Path)
  /-- `FW_VERIFY_DONE` (R470). Verification ends with VERIFIED or FAILED and a status. -/
  | fwVerifyDone
  /-- `FW_ACTIVATE` (R472). FW_UPDATE_CONTROL ACTIVATE makes a cold restart on the trial image. -/
  | fwActivate (path : Path)
  /-- `FW_ABORT` (R473). FW_UPDATE_CONTROL ABORT returns the update to IDLE. -/
  | fwAbort (path : Path)
  /-- `FW_CONFIRM` (R472). Writing TRUE confirms the trial image and may raise SVN_FLOOR. -/
  | fwConfirm (path : Path) (value : Nat)
  /-- `ODP_REQUEST` (R480). An ODP datagram is checked for format and authentication, or answered from the replay store. -/
  | odpRequest (source : Nat) (data : Bytes)
  /-- `ODP_READ` (R477). An ODP READ operation returns an entry's value. -/
  | odpRead (path : Path) (index sub : Nat)
  /-- `ODP_WRITE` (R476). An ODP WRITE operation writes an entry under the ordered write checks. -/
  | odpWrite (path : Path) (index sub : Nat) (data : Bytes)
  /-- `DESCRIBE` (R479). A DESCRIBE operation returns an entry's type, access, default and range. -/
  | describe (path : Path) (index sub : Nat)
  /-- `STAGE` (R488). A STAGE operation writes a value into the STAGED setting-set slot. -/
  | stage (path : Path) (index sub : Nat) (data : Bytes)
  /-- `REGISTER_WRITE` (R476). A write to a dictionary entry or BAR0 register that has no row of its own is checked and stored. -/
  | registerWrite (target : RegTarget)
  /-- `I3C_PRIVATE_WRITE` (R484). A three-byte private write selects an entry, any other length is refused. -/
  | i3cPrivateWrite (data : Bytes)
  /-- `I3C_PRIVATE_READ` (R484). A private read returns status and the selected I3C-readable entry. -/
  | i3cPrivateRead
  /-- `I3C_ADDRESS_ASSIGN` (R484). Lantern takes its dynamic address by ENTDAA or SETDASA; `inBand`: the controller enables in-band interrupts. -/
  | i3cAddressAssign (address : Nat) (inBand : Bool)
  /-- `UART_CONSOLE_COMMAND` (R486). The diagnostic console reads the dictionary, and writes only in recovery. -/
  | uartConsoleCommand (write : Bool) (index sub : Nat) (data : Bytes)
  /-- `GET_VERSION` (R474). SPDM GET_VERSION request answered. -/
  | getVersion (request : Bytes)
  /-- `GET_CAPABILITIES` (R474). SPDM GET_CAPABILITIES request answered with CERT, CHAL and signed MEAS capabilities. -/
  | getCapabilities (request : Bytes)
  /-- `NEGOTIATE_ALGORITHMS` (R474). SPDM algorithm negotiation limited to P-384 and SHA-384. -/
  | negotiateAlgorithms (request : Bytes)
  /-- `GET_DIGESTS` (R474). SPDM GET_DIGESTS request answered for slot 0. -/
  | getDigests (request : Bytes)
  /-- `GET_CERTIFICATE` (R474). SPDM GET_CERTIFICATE returns the slot-0 chain. -/
  | getCertificate (request : Bytes)
  /-- `CHALLENGE` (R474). SPDM CHALLENGE is answered with a signature by the device identity key. -/
  | challenge (request : Bytes)
  /-- `GET_MEASUREMENTS` (R474). SPDM GET_MEASUREMENTS returns the signed measurement blocks. -/
  | getMeasurements (request : Bytes)
  /-- `SPDM_UNSUPPORTED` (R474). Any other SPDM request receives ERROR UnsupportedRequest. -/
  | spdmUnsupported (request : Bytes)
  /-- `SET_COMMIT` (R490). A write makes a commit of the STAGED set pending, or is refused. -/
  | setCommit (path : Path) (value : Nat)
  /-- `SET_REVERT` (R492). A write makes a revert to the PREVIOUS set pending. -/
  | setRevert (path : Path) (value : Nat)
  /-- `SET_CONFIRM` (R493). A write confirms the ACTIVE set after a CONFIRM commit. -/
  | setConfirm (path : Path) (value : Nat)
  /-- `SET_CLEAR` (R488). Writing TRUE empties the STAGED slot. -/
  | setClear (path : Path) (value : Nat)
  /-- `SET_CONFIRM_TIMEOUT` (R493). CONFIG_CONFIRM_S passes unconfirmed and a revert becomes pending. -/
  | setConfirmTimeout
  /-- `FAULT_CODE_CLEAR` (R487). A zero write on the service path clears the fault record. -/
  | faultCodeClear (path : Path) (value : Nat)
  /-- `COUNTERS_CLEAR_ALL` (R499). Writing TRUE zeroes every counter of every range in one request. -/
  | countersClearAll (path : Path) (value : Nat)
  /-- `EVENT_RATE_INTERVAL` (R497). A one-second interval ends and event counting restarts. -/
  | eventRateInterval
  /-- `EVENT_LOG_FLASH_WRITE` (R497). Pending event records are written to the SPI NOR, erasing the oldest when full. -/
  | eventLogFlashWrite
  /-- `EVENT_RECORDS` (R498). A read of up to 16 event records from EVENT_READ_SEQ, refused outside the log. -/
  | eventRecords (path : Path)
  /-- `PTP_MESSAGE` (R362). A PTP message updates wall time and lock state. -/
  | ptpMessage (message : PtpMsg) (offsetNs : Int) (locked : Bool)
  /-- `UNIT_FAULT` (R29). A hardware fault disables a unit, cluster, region, die or bridge and the module records the fault and goes OUT_OF_SERVICE. -/
  | unitFault (unit : Nat)
  /-- `CONFIGURATION_WRITE` (R408). A PCIe configuration write changes Bus Master Enable, the MSI-X function mask or the power state, which stops or resumes queue fetching and writing. -/
  | configurationWrite (busMaster functionMask d3hot : Bool)
  /-- `PCIE_COMPLETION_TIMEOUT` (R410). A non-posted PCIe read the module mastered gets no completion in time and counts as not good or fails. -/
  | pcieCompletionTimeout (queue : Nat)
  /-- `DUP_FILTER_ENTRY_EXPIRY` (R338). A duplicate-filter entry reaches four request timeouts and is freed, so the die no longer answers RETRY_LATER for want of space. -/
  | dupFilterEntryExpiry (die src srcDie tag : Nat)
  /-- `HBM3_REFRESH_DOUBLED` (R257). An HBM3 stack's reported temperature crosses 85 °C and its controllers double or restore the refresh rate. -/
  | hbm3RefreshDoubled (stack : Nat) (hot : Bool)
  /-- `PTP_UNLOCKED` (R362). PTP lock is lost when the master's messages stop, so stamps fall back to the local timer and event 0x0A15 is raised. -/
  | ptpUnlocked
  deriving DecidableEq, Repr

end Sys2Proof
end

