-- ==== Sys2Proof/Decode.lean ====
section
/-!
DEFINITION. Words that spell commands.  The opcode table of this module gives no row any bits: its rows are transactions on
buses and links and events, which come with their operands and not as words.
-/
namespace Sys2Proof

/-- The command that a word spells by the table's bits: none, because the table gives bits to no row. -/
def decodeTableWord (_nbits _w : Nat) : Option Instr := none

end Sys2Proof
end

