-- ==== Sys2Proof/Config.lean ====
section
/-!
DEFINITION. What the manual leaves to the part or to nobody: constants of one module (identity, keys, certificates) and
free values, all opaque, so that no proof can rest on what they are.
-/
namespace Sys2Proof

/-- A byte of which the manual says nothing: byte `i` of the `n`-th free value a run takes. -/
opaque Config.freeByte (n i : Nat) : Byte

/-- A 64-bit free value. -/
opaque Config.freeWord (n : Nat) : W64

/-- Constants of this module (chapter 17): character `i` of the 16 of the serial number, manufacture date as year × 10,000 + month × 100 +
day, its MAC address, and the slot straps of R531. -/
opaque Config.serialChar (i : Nat) : Byte
opaque Config.manufactureDate : Nat
opaque Config.macAddress : Nat
opaque Config.slotId : Nat

/-- The certificate chain of the device identity, and what only the secret key can compute: a signature over bytes. -/
opaque Config.attestChain : Bytes
opaque Config.signature (message : Bytes) : Bytes

/-- Constants of the boot ROM (R470, R474): its own hash, the hashes of the four signing keys, and whether a signature over
a hash verifies under a public key by FIPS 186-5. -/
opaque Config.bootRomHash : Bytes
opaque Config.keyHash (key : Nat) : Bytes
opaque Config.signatureGood (publicKey digest signature : Bytes) : Bool

/-- The firmware image that the factory puts into slot A: VERSION, SVN and BODY_HASH of its header. -/
opaque Config.factoryVersion : Nat
opaque Config.factorySvn : Nat
opaque Config.factoryHash : Bytes

/-- An answer to an SPDM request, of which only the measurements and the capabilities are this manual's. -/
opaque Config.spdmAnswer (n : Nat) (request : Bytes) : Bytes

/-- Constants of the endpoint's configuration space (R395): class code, Max Payload Size, largest Max Read Request Size, tags,
MSI-X vectors, and the BARs of R397 by number, prefetchable or not, and size; all are 64-bit memory BARs. -/
def Config.classCode : Nat := 0x120000
def Config.maxPayload : Nat := 512
def Config.maxReadRequest : Nat := 4096
def Config.nonPosted : Nat := 512
def Config.msixVectors : Nat := 65
def Config.bars : List (Nat × Bool × Nat) := [(0, false, 2 ^ 25), (2, true, 2 ^ 30), (4, true, 2 ^ 32)]

/-- The rate (1 for 2.5 GT/s to 5 for 32 GT/s) and width at which the partner and the channel let the link train (R395). -/
def Config.linkSpeed (n : Nat) : Nat := 1 + (Config.freeByte n 0).toNat % 5
def Config.linkWidth (n : Nat) : Nat := 2 ^ ((Config.freeByte n 1).toNat % 5)

end Sys2Proof
end

