-- ==== Sys2Proof/Machine/Entries.lean ====
section
/-!
DEFINITION. The entries of the object dictionary, chapter by chapter, as the manual's dictionary tables list them:
index and subindex, type, access, default, range, and when a written value takes effect (R43, R76, R104, R128, R162,
R187, R210, R232, R255, R285, R320, R341, R370, R394, R430, R466, R499, R500, R535).  An entry's key is its index times
256 plus its subindex.
-/
namespace Sys2Proof.Machine

/-- The entry types of R475. -/
inductive EType where
  | u8 | u16 | u32 | u64 | i64 | f32 | bool | string | domain | steptime
  deriving DecidableEq, Repr

/-- The access codes of R9. -/
inductive Access where
  | ro | rw | wo | rws | const
  deriving DecidableEq, Repr

/-- When a written value takes effect (R477 and each chapter's dictionary rule). -/
inductive Effect where
  | immediate | atOpen | atLoad | atCommit | atTraining | atReset
  deriving DecidableEq, Repr

/-- One dictionary entry.  `ranges` are the admitted intervals; `mult`: the value is a multiple of it. -/
structure Entry where
  key : Nat
  ty : EType
  access : Access
  dflt : Nat
  ranges : List (Nat × Nat)
  mult : Nat
  counter : Bool
  selector : Bool
  secured : Bool
  i3c : Bool
  effect : Effect
  deriving DecidableEq, Repr

/-- 0x2000.01, U16 RWS. -/
abbrev E.MODULE_NUMBER : Nat := 0x200001
/-- 0x2000.02, BOOL RWS. -/
abbrev E.MODULE_NUMBER_VALID : Nat := 0x200002
/-- 0x2000.03, U32 RWS. -/
abbrev E.SYSTEM_ID : Nat := 0x200003
/-- 0x2000.04, U8 RO. -/
abbrev E.MODULE_STATE : Nat := 0x200004
/-- 0x2001.01, U8 CONST. -/
abbrev E.DIE_COUNT : Nat := 0x200101
/-- 0x2001.02, U8 CONST. -/
abbrev E.REGIONS_PER_DIE : Nat := 0x200102
/-- 0x2001.03, U8 CONST. -/
abbrev E.ARRAYS_PER_REGION : Nat := 0x200103
/-- 0x2001.04, U8 CONST. -/
abbrev E.GATHER_LANES_PER_REGION : Nat := 0x200104
/-- 0x2001.05, U8 CONST. -/
abbrev E.BURIN_LANES_PER_REGION : Nat := 0x200105
/-- 0x2001.06, U8 CONST. -/
abbrev E.SLOW_CHANNELS_PER_REGION : Nat := 0x200106
/-- 0x2001.07, U8 CONST. -/
abbrev E.FAST_PCS_PER_REGION : Nat := 0x200107
/-- 0x2001.08, U8 CONST. -/
abbrev E.PEG_BANKS_PER_DIE : Nat := 0x200108
/-- 0x2002.01, U32 RO. -/
abbrev E.RUN_ID : Nat := 0x200201
/-- 0x2002.02, U8 RO. -/
abbrev E.PITCH_SIZE : Nat := 0x200202
/-- 0x2002.03, U16 RO. -/
abbrev E.PITCH_COUNT : Nat := 0x200203
/-- 0x2002.04, U16 RO. -/
abbrev E.PITCH_INDEX : Nat := 0x200204
/-- 0x2002.05, U8 RO. -/
abbrev E.PITCH_POSITION : Nat := 0x200205
/-- 0x2002.06, U16 RO. -/
abbrev E.RUN_MEMBER_COUNT : Nat := 0x200206
/-- 0x2003.01, U32 RO. -/
abbrev E.FAULT_COORD : Nat := 0x200301
/-- 0x2003.02, U16 RO. -/
abbrev E.FAULT_CODE : Nat := 0x200302
/-- 0x2003.03, STEPTIME RO. -/
abbrev E.FAULT_POINT : Nat := 0x200303
/-- 0x2003.04, U32 RO. -/
abbrev E.BRIDGE_ERRORS : Nat := 0x200304
/-- 0x2100.01, U8 RW. -/
abbrev E.OVERFLOW_MODE : Nat := 0x210001
/-- 0x2100.02, U8 RW. -/
abbrev E.ACT_ROUND : Nat := 0x210002
/-- 0x2100.03, U8 CONST. -/
abbrev E.RECORD_ROUND_NATIVE : Nat := 0x210003
/-- 0x2100.04, U8 CONST. -/
abbrev E.RECORD_ROUND_COMPAT : Nat := 0x210004
/-- 0x2100.05, U16 RW. -/
abbrev E.SCALE_WINDOW : Nat := 0x210005
/-- 0x2100.06, U8 RW. -/
abbrev E.SCALE_MARGIN : Nat := 0x210006
/-- 0x2100.07, U64 RO. -/
abbrev E.GRAIN_SEED : Nat := 0x210007
/-- 0x2101.01, U64 RW. -/
abbrev E.SAT_EVENTS : Nat := 0x210101
/-- 0x2101.02, U64 RW. -/
abbrev E.INF_EVENTS : Nat := 0x210102
/-- 0x2101.03, U64 RW. -/
abbrev E.NAN_EVENTS : Nat := 0x210103
/-- 0x2101.04, U64 RW. -/
abbrev E.UNDERFLOW_EVENTS : Nat := 0x210104
/-- 0x2101.05, U64 RW. -/
abbrev E.BLOCK_BUMP_EVENTS : Nat := 0x210105
/-- 0x2101.06, U64 RW. -/
abbrev E.JIT_TILES : Nat := 0x210106
/-- 0x2101.07, U64 RW. -/
abbrev E.U8Z_CLAMP_EVENTS : Nat := 0x210107
/-- 0x2101.08, U32 RW. -/
abbrev E.S8_NEGATIVE_EVENTS : Nat := 0x210108
/-- 0x3000.01, U16 CONST. -/
abbrev E.TABLE_SETS_MAX : Nat := 0x300001
/-- 0x3000.02, U16 CONST. -/
abbrev E.TABLE_WIDTH_MAX : Nat := 0x300002
/-- 0x3000.03, U16 CONST. -/
abbrev E.VARIANTS_MAX : Nat := 0x300003
/-- 0x3000.04, U16 CONST. -/
abbrev E.GRANULE_PAGES : Nat := 0x300004
/-- 0x3001.01, U16 RO. -/
abbrev E.FAST_FLAT : Nat := 0x300101
/-- 0x3001.02, U16 RO. -/
abbrev E.FAST_PINNED : Nat := 0x300102
/-- 0x3001.03, U16 RO. -/
abbrev E.FAST_DIRECTORY : Nat := 0x300103
/-- 0x3001.04, U16 RO. -/
abbrev E.FAST_CACHE : Nat := 0x300104
/-- 0x3001.05, U16 RO. -/
abbrev E.SLOW_TABLE : Nat := 0x300105
/-- 0x3001.06, U16 RO. -/
abbrev E.SLOW_OVERLAY : Nat := 0x300106
/-- 0x3001.07, U16 RO. -/
abbrev E.SLOW_FLAT : Nat := 0x300107
/-- 0x3002.01, U32 RW. -/
abbrev E.TABLE_SELECT : Nat := 0x300201
/-- 0x3002.02, U16 RO. -/
abbrev E.SEL_WIDTH : Nat := 0x300202
/-- 0x3002.03, U64 RO. -/
abbrev E.SEL_ROWS : Nat := 0x300203
/-- 0x3002.04, U16 RO. -/
abbrev E.SEL_FIRST_SLICE : Nat := 0x300204
/-- 0x3002.05, U16 RO. -/
abbrev E.SEL_LOCAL_SLICES : Nat := 0x300205
/-- 0x3002.06, U64 RO. -/
abbrev E.SEL_BAND_START : Nat := 0x300206
/-- 0x3002.07, U64 RO. -/
abbrev E.SEL_BAND_ROWS : Nat := 0x300207
/-- 0x3002.08, U16 RO. -/
abbrev E.SEL_BASE_GRANULE : Nat := 0x300208
/-- 0x3002.09, U16 RO. -/
abbrev E.SEL_GRANULES : Nat := 0x300209
/-- 0x3002.0A, U8 RO. -/
abbrev E.SEL_PLACEMENT : Nat := 0x30020A
/-- 0x3003.01, U64 RW. -/
abbrev E.OVERLAYS_CREATED : Nat := 0x300301
/-- 0x3003.02, U32 RW. -/
abbrev E.OVERLAY_DIR_DROPS : Nat := 0x300302
/-- 0x3003.03, U32 RW. -/
abbrev E.OVERLAY_POOL_DROPS : Nat := 0x300303
/-- 0x3003.04, U32 RO. -/
abbrev E.DIR_ENTRIES_USED : Nat := 0x300304
/-- 0x3003.05, U64 RO. -/
abbrev E.POOL_RECORDS_USED : Nat := 0x300305
/-- 0x3003.06, U32 RW. -/
abbrev E.PROTECTED_WRITES : Nat := 0x300306
/-- 0x3100.01, BOOL RW. -/
abbrev E.LOOKAHEAD_ENABLE : Nat := 0x310001
/-- 0x3100.02, U16 RW. -/
abbrev E.GATHER_BUFFER_KIB : Nat := 0x310002
/-- 0x3100.03, BOOL RW. -/
abbrev E.BATCH_CHECK_ENABLE : Nat := 0x310003
/-- 0x3101.01, U64 RW. -/
abbrev E.INDICES_POOLED : Nat := 0x310101
/-- 0x3101.02, U64 RW. -/
abbrev E.SECTOR_READS_CACHED : Nat := 0x310102
/-- 0x3101.03, U64 RW. -/
abbrev E.SECTOR_READS_COLD : Nat := 0x310103
/-- 0x3101.04, U64 RW. -/
abbrev E.MULTICAST_ADDS : Nat := 0x310104
/-- 0x3101.05, U64 RW. -/
abbrev E.BUFFER_REFETCHES : Nat := 0x310105
/-- 0x3101.06, U32 RW. -/
abbrev E.POISON_DROPS : Nat := 0x310106
/-- 0x3102.01, U64 RW. -/
abbrev E.INVALID_SENTINEL : Nat := 0x310201
/-- 0x3102.02, U64 RW. -/
abbrev E.INVALID_RANGE : Nat := 0x310202
/-- 0x3102.03, U64 RW. -/
abbrev E.INVALID_VARIANT : Nat := 0x310203
/-- 0x3102.04, U64 RW. -/
abbrev E.INVALID_WEIGHT : Nat := 0x310204
/-- 0x3102.05, U64 RW. -/
abbrev E.EMPTY_BAGS : Nat := 0x310205
/-- 0x3102.06, U64 RW. -/
abbrev E.BATCHES_ACCEPTED : Nat := 0x310206
/-- 0x3102.07, U32 RW. -/
abbrev E.BATCHES_REFUSED : Nat := 0x310207
/-- 0x3102.08, U32 RW. -/
abbrev E.BATCHES_LATE : Nat := 0x310208
/-- 0x3102.09, U32 RW. -/
abbrev E.HELD_FOR_BATCH : Nat := 0x310209
/-- 0x3103.01, U64 RW. -/
abbrev E.LA_RECORDS_FETCHED : Nat := 0x310301
/-- 0x3103.02, U64 RW. -/
abbrev E.LA_RECORDS_EVICTED : Nat := 0x310302
/-- 0x3103.03, U64 RW. -/
abbrev E.LA_DIRTY_WRITEBACKS : Nat := 0x310303
/-- 0x3103.04, U32 RW. -/
abbrev E.LA_CACHE_FULL_STEPS : Nat := 0x310304
/-- 0x3103.05, U32 RW. -/
abbrev E.LA_LATE_RUNS : Nat := 0x310305
/-- 0x3103.06, U64 RO. -/
abbrev E.CACHE_RECORDS_RESIDENT : Nat := 0x310306
/-- 0x3103.07, U64 RO. -/
abbrev E.LAST_PLAN_RECORDS : Nat := 0x310307
/-- 0x3200.01, U8 RW. -/
abbrev E.COALESCE_MODE : Nat := 0x320001
/-- 0x3200.02, U8 RW. -/
abbrev E.LEDGER_FRAC_COALESCE : Nat := 0x320002
/-- 0x3200.03, U8 RW. -/
abbrev E.LEDGER_FRAC_NORM : Nat := 0x320003
/-- 0x3200.04, U32 RW. -/
abbrev E.HOT_ROW_THRESHOLD : Nat := 0x320004
/-- 0x3200.05, U8 RW. -/
abbrev E.NORM_MODE : Nat := 0x320005
/-- 0x3200.06, F32 RW. -/
abbrev E.CLIP_MAX_NORM : Nat := 0x320006
/-- 0x3200.07, U8 RW. -/
abbrev E.STEP_AGREE_LIMIT : Nat := 0x320007
/-- 0x3200.08, U16 RW. -/
abbrev E.EARLY_QUEUE_KIB : Nat := 0x320008
/-- 0x3200.09, U16 RW. -/
abbrev E.COALESCE_WORKSPACE_KIB : Nat := 0x320009
/-- 0x3200.0A, BOOL WO. -/
abbrev E.STEP_AGREE_RESUME : Nat := 0x32000A
/-- 0x3200.0B, U32 RO. -/
abbrev E.DENSE_SHARD_GROUPS : Nat := 0x32000B
/-- 0x3200.0C, U64 RO. -/
abbrev E.GRAD_STAGING_BYTES : Nat := 0x32000C
/-- 0x3200.0D, U64 RO. -/
abbrev E.COALESCE_SPILL_BYTES : Nat := 0x32000D
/-- 0x3201.01, U8 RW. -/
abbrev E.TSET_SELECT : Nat := 0x320101
/-- 0x3201.02, U64 RW. -/
abbrev E.TSET_T : Nat := 0x320102
/-- 0x3201.03, U64 RO. -/
abbrev E.TSET_T_START : Nat := 0x320103
/-- 0x3202.01, F32 RO. -/
abbrev E.LAST_NORM : Nat := 0x320201
/-- 0x3202.02, F32 RO. -/
abbrev E.LAST_CLIP : Nat := 0x320202
/-- 0x3202.03, U64 RO. -/
abbrev E.LAST_NORM_STEP : Nat := 0x320203
/-- 0x3202.04, U64 RO. -/
abbrev E.LAST_NORM_LEDGER_LO : Nat := 0x320204
/-- 0x3202.05, U64 RO. -/
abbrev E.LAST_NORM_LEDGER_HI : Nat := 0x320205
/-- 0x3203.01, U64 RW. -/
abbrev E.SLICE_UPDATES : Nat := 0x320301
/-- 0x3203.02, U64 RW. -/
abbrev E.CONTRIBUTIONS : Nat := 0x320302
/-- 0x3203.03, U64 RW. -/
abbrev E.SLOW_TIER_UPDATES : Nat := 0x320303
/-- 0x3203.04, U64 RW. -/
abbrev E.HOT_ROW_SPLITS : Nat := 0x320304
/-- 0x3203.05, U32 RW. -/
abbrev E.OCCURRENCE_SATURATIONS : Nat := 0x320305
/-- 0x3203.06, U64 RW. -/
abbrev E.FROZEN_SKIPS : Nat := 0x320306
/-- 0x3203.07, U32 RW. -/
abbrev E.POISON_SKIPS : Nat := 0x320307
/-- 0x3203.08, U32 RW. -/
abbrev E.MALFORMED_REFUSED : Nat := 0x320308
/-- 0x3203.09, U32 RW. -/
abbrev E.NOT_OWNER_REFUSED : Nat := 0x320309
/-- 0x3203.0A, U32 RW. -/
abbrev E.STALE_REFUSED : Nat := 0x32030A
/-- 0x3203.0B, U32 RW. -/
abbrev E.AHEAD_REFUSED : Nat := 0x32030B
/-- 0x3203.0C, U32 RW. -/
abbrev E.EARLY_HELD : Nat := 0x32030C
/-- 0x3203.0D, U32 RW. -/
abbrev E.STAGING_RETRIES : Nat := 0x32030D
/-- 0x3203.0E, U32 RW. -/
abbrev E.STEP_DISAGREEMENTS : Nat := 0x32030E
/-- 0x3203.0F, U64 RW. -/
abbrev E.TWIN_FORWARDS : Nat := 0x32030F
/-- 0x3203.10, U32 RW. -/
abbrev E.COALESCE_DROPS : Nat := 0x320310
/-- 0x3203.11, U64 RW. -/
abbrev E.GRAD_NONFINITE : Nat := 0x320311
/-- 0x3203.12, U32 RW. -/
abbrev E.LEDGER_OVERFLOWS : Nat := 0x320312
/-- 0x3203.13, U64 RW. -/
abbrev E.LEDGER_UNDERFLOWS : Nat := 0x320313
/-- 0x3203.14, U64 RW. -/
abbrev E.DENSE_GROUP_UPDATES : Nat := 0x320314
/-- 0x3300.01, U8 CONST. -/
abbrev E.PROGRAM_SLOTS : Nat := 0x330001
/-- 0x3300.02, U8 CONST. -/
abbrev E.PROGRAM_LENGTH_MAX : Nat := 0x330002
/-- 0x3300.03, U8 CONST. -/
abbrev E.INVR_SIZE_MAX : Nat := 0x330003
/-- 0x3300.04, F32 CONST. -/
abbrev E.INVR_DAMP_BASE : Nat := 0x330004
/-- 0x3300.05, F32 CONST. -/
abbrev E.INVR_DAMP_STEP : Nat := 0x330005
/-- 0x3300.06, U8 CONST. -/
abbrev E.INVR_DAMPED_ATTEMPTS : Nat := 0x330006
/-- 0x3301.01, U8 RW. -/
abbrev E.PROGRAM_SELECT : Nat := 0x330101
/-- 0x3301.02, U8 RO. -/
abbrev E.SEL_LENGTH : Nat := 0x330102
/-- 0x3301.03, U8 RO. -/
abbrev E.SEL_MODES : Nat := 0x330103
/-- 0x3301.04, U16 RO. -/
abbrev E.SEL_CLOCKS : Nat := 0x330104
/-- 0x3301.05, U32 RO. -/
abbrev E.SEL_TAG : Nat := 0x330105
/-- 0x3302.01, U8 RW. -/
abbrev E.PARAM_SET_SELECT : Nat := 0x330201
/-- 0x3302.02 and the subindices after it, F32 RO. -/
abbrev E.PARAM : Nat := 0x330202
/-- 0x3302.12, U64 RO. -/
abbrev E.PARAM_STEP : Nat := 0x330212
/-- 0x3303.01 and the subindices after it, F32 RO. -/
abbrev E.DERIVED : Nat := 0x330301
/-- 0x3304.01, U64 RW. -/
abbrev E.PROGRAM_RUNS : Nat := 0x330401
/-- 0x3304.02, U64 RW. -/
abbrev E.INVR_CALLS : Nat := 0x330402
/-- 0x3304.03, U32 RW. -/
abbrev E.INVR_DAMPED : Nat := 0x330403
/-- 0x3304.04, U32 RW. -/
abbrev E.INVR_FALLBACKS : Nat := 0x330404
/-- 0x3304.05, BOOL RW. -/
abbrev E.INVR_FALLBACK_FLAG : Nat := 0x330405
/-- 0x3304.06, U32 RW. -/
abbrev E.SCHED_APPLIED : Nat := 0x330406
/-- 0x3304.07, U32 RW. -/
abbrev E.SCHED_REFUSED : Nat := 0x330407
/-- 0x2200.01, U8 CONST. -/
abbrev E.ARRAYS_PER_MODULE : Nat := 0x220001
/-- 0x2200.02, U8 CONST. -/
abbrev E.ARRAY_DIM : Nat := 0x220002
/-- 0x2200.03, U8 CONST. -/
abbrev E.CHUNK_WINDOW_BITS : Nat := 0x220003
/-- 0x2200.04, U8 CONST. -/
abbrev E.REPLAY_LIMIT : Nat := 0x220004
/-- 0x2200.05, U8 CONST. -/
abbrev E.K_SPLIT_MAX : Nat := 0x220005
/-- 0x2201.01, U64 RW. -/
abbrev E.GEMM_COMPLETED : Nat := 0x220101
/-- 0x2201.02, U32 RW. -/
abbrev E.GEMM_REFUSED : Nat := 0x220102
/-- 0x2201.03, U64 RW. -/
abbrev E.ARRAY_TILES : Nat := 0x220103
/-- 0x2201.04, U64 RW. -/
abbrev E.ARRAY_CHUNKS : Nat := 0x220104
/-- 0x2201.05, U64 RW. -/
abbrev E.CHUNK_TRUNCATIONS : Nat := 0x220105
/-- 0x2201.06, U32 RW. -/
abbrev E.ACC_REPLAYS : Nat := 0x220106
/-- 0x2201.07, U32 RW. -/
abbrev E.CONV_REPLAYS : Nat := 0x220107
/-- 0x2201.08, U32 RW. -/
abbrev E.ARRAY_SAT_TILES : Nat := 0x220108
/-- 0x2201.09, BOOL RW. -/
abbrev E.ARRAY_SAT_FLAG : Nat := 0x220109
/-- 0x2201.0A, U64 RW. -/
abbrev E.ARRAY_NONFINITE : Nat := 0x22010A
/-- 0x2201.0B, U64 RW. -/
abbrev E.ARRAY_ACTIVE_CLOCKS : Nat := 0x22010B
/-- 0x2201.0C, U64 RW. -/
abbrev E.ARRAY_STALL_CLOCKS : Nat := 0x22010C
/-- 0x2300.01, U8 CONST. -/
abbrev E.ROW_ENGINES : Nat := 0x230001
/-- 0x2300.02, U16 CONST. -/
abbrev E.SIDE_MEMORY_KIB : Nat := 0x230002
/-- 0x2300.03, U32 CONST. -/
abbrev E.STATS_ENTRIES : Nat := 0x230003
/-- 0x2300.04, U16 CONST. -/
abbrev E.ROW_LEN_MAX : Nat := 0x230004
/-- 0x2300.05, U16 CONST. -/
abbrev E.ROW_ACC_BITS : Nat := 0x230005
/-- 0x2300.06, U8 CONST. -/
abbrev E.TRANSPOSE_BYTES_PER_CLOCK : Nat := 0x230006
/-- 0x2301.01, U16 RO. -/
abbrev E.RUCKSACK_GRANULES : Nat := 0x230101
/-- 0x2301.02, U8 RW. -/
abbrev E.RUCKSACK_SELECT : Nat := 0x230102
/-- 0x2301.03, U32 RO. -/
abbrev E.RUCKSACK_DEPTH : Nat := 0x230103
/-- 0x2301.04, U32 RO. -/
abbrev E.RUCKSACK_TOP_PAGE : Nat := 0x230104
/-- 0x2301.05, U32 RO. -/
abbrev E.RUCKSACK_HIGH_WATER : Nat := 0x230105
/-- 0x2302.01, U64 RW. -/
abbrev E.ROWENG_ROWS_FWD : Nat := 0x230201
/-- 0x2302.02, U64 RW. -/
abbrev E.ROWENG_ROWS_BWD : Nat := 0x230202
/-- 0x2302.03, U64 RW. -/
abbrev E.ROW_NONFINITE : Nat := 0x230203
/-- 0x2302.04, U64 RW. -/
abbrev E.ROW_EMPTY : Nat := 0x230204
/-- 0x2302.05, U64 RW. -/
abbrev E.STATS_SPILLED : Nat := 0x230205
/-- 0x2302.06, U32 RW. -/
abbrev E.ROWENG_REFUSED : Nat := 0x230206
/-- 0x2302.07, U64 RW. -/
abbrev E.TRANSPOSE_COMMANDS : Nat := 0x230207
/-- 0x2302.08, U64 RW. -/
abbrev E.TRANSPOSE_BYTES : Nat := 0x230208
/-- 0x2302.09, U64 RW. -/
abbrev E.RUCKSACK_PUSHES : Nat := 0x230209
/-- 0x2302.0A, U64 RW. -/
abbrev E.RUCKSACK_POPS : Nat := 0x23020A
/-- 0x2302.0B, U32 RW. -/
abbrev E.RUCKSACK_REFUSED : Nat := 0x23020B
/-- 0x2302.0C, U32 RW. -/
abbrev E.RUCKSACK_RESIDUE_FRAMES : Nat := 0x23020C
/-- 0x2302.0D, U64 RW. -/
abbrev E.ROWENG_ACTIVE_CLOCKS : Nat := 0x23020D
/-- 0x3400.01, U16 RW. -/
abbrev E.ZERO_STREAK_LIMIT : Nat := 0x340001
/-- 0x3400.02, U8 RW. -/
abbrev E.ZERO_STREAK_ACTION : Nat := 0x340002
/-- 0x3400.03, BOOL RW. -/
abbrev E.PROOF_ENABLE : Nat := 0x340003
/-- 0x3400.04, U8 RW. -/
abbrev E.PROOF_RATE_LOG2 : Nat := 0x340004
/-- 0x3400.05, U8 RW. -/
abbrev E.PROOF_THRESHOLD_BIN : Nat := 0x340005
/-- 0x3400.06, U16 RW. -/
abbrev E.UNDERFLOW_TRIM_SHARE : Nat := 0x340006
/-- 0x3400.07, U16 RW. -/
abbrev E.WATCH_RECORD_PERIOD : Nat := 0x340007
/-- 0x3400.08, U16 WO. -/
abbrev E.WATCH_HISTORY_RESET : Nat := 0x340008
/-- 0x3400.09, BOOL WO. -/
abbrev E.WATCH_RESUME : Nat := 0x340009
/-- 0x3400.0A, U8 CONST. -/
abbrev E.PROOF_QUEUE_TILES : Nat := 0x34000A
/-- 0x3401.01, U16 RO. -/
abbrev E.WATCH_SLOTS : Nat := 0x340101
/-- 0x3401.02, U64 RO. -/
abbrev E.WATCH_RING_ADDR : Nat := 0x340102
/-- 0x3401.03, U32 RO. -/
abbrev E.WATCH_RING_RECORDS : Nat := 0x340103
/-- 0x3401.04, U64 RO. -/
abbrev E.WATCH_RING_HEAD : Nat := 0x340104
/-- 0x3401.05, U64 RW. -/
abbrev E.WATCH_RING_TAIL : Nat := 0x340105
/-- 0x3402.01, U16 RW. -/
abbrev E.WATCH_SELECT : Nat := 0x340201
/-- 0x3402.02, U8 RO. -/
abbrev E.SEL_KIND : Nat := 0x340202
/-- 0x3402.03, U32 RO. -/
abbrev E.SEL_TARGET : Nat := 0x340203
/-- 0x3402.04, U16 RO. -/
abbrev E.SEL_ZERO_STREAK : Nat := 0x340204
/-- 0x3402.05, U16 RO. -/
abbrev E.SEL_HISTORY_STEPS : Nat := 0x340205
/-- 0x3402.06, U8 RO. -/
abbrev E.SEL_NEXT_TILE_EXP : Nat := 0x340206
/-- 0x3402.07, F32 RO. -/
abbrev E.SEL_WINDOW_AMAX : Nat := 0x340207
/-- 0x3402.08, U64 RO. -/
abbrev E.SEL_LAST_RECORD_STEP : Nat := 0x340208
/-- 0x3403.01 and the subindices after it, U32 RW. -/
abbrev E.PROOF_BIN : Nat := 0x340301
/-- 0x3404.01, U64 RW. -/
abbrev E.PROOF_TILES_CHECKED : Nat := 0x340401
/-- 0x3404.02, U32 RW. -/
abbrev E.PROOF_TILES_SKIPPED : Nat := 0x340402
/-- 0x3404.03, U32 RW. -/
abbrev E.PROOF_EXCEEDED : Nat := 0x340403
/-- 0x3404.04, U32 RW. -/
abbrev E.ZERO_STREAK_ALARMS : Nat := 0x340404
/-- 0x3404.05, U32 RW. -/
abbrev E.SCALE_TRIMS : Nat := 0x340405
/-- 0x3404.06, U32 RW. -/
abbrev E.HISTORY_RESETS : Nat := 0x340406
/-- 0x3404.07, U64 RW. -/
abbrev E.WATCH_RECORDS_WRITTEN : Nat := 0x340407
/-- 0x3404.08, U32 RW. -/
abbrev E.WATCH_RECORDS_LOST : Nat := 0x340408
/-- 0x4000.01, U16 CONST. -/
abbrev E.PAGE_PAYLOAD_BYTES : Nat := 0x400001
/-- 0x4000.02, U8 CONST. -/
abbrev E.SECTOR_PAYLOAD_BYTES : Nat := 0x400002
/-- 0x4000.03, U16 CONST. -/
abbrev E.SLOW_CHANNELS : Nat := 0x400003
/-- 0x4000.04, U16 CONST. -/
abbrev E.FAST_PCS : Nat := 0x400004
/-- 0x4000.05, U16 RO. -/
abbrev E.FILL_TIME_MS : Nat := 0x400005
/-- 0x4001.01, U16 RW. -/
abbrev E.PARITY_CACHE_KIB : Nat := 0x400101
/-- 0x4001.02, U16 RW. -/
abbrev E.PARITY_FLUSH_US : Nat := 0x400102
/-- 0x4001.03, BOOL RW. -/
abbrev E.BURNISHER_ENABLE : Nat := 0x400103
/-- 0x4001.04, U16 RW. -/
abbrev E.BURNISHER_WINDOW_PERMILLE : Nat := 0x400104
/-- 0x4001.05, U32 RW. -/
abbrev E.BURNISHER_LAP_LIMIT_S : Nat := 0x400105
/-- 0x4001.06, BOOL RW. -/
abbrev E.TWIN_REPAIR_ENABLE : Nat := 0x400106
/-- 0x4002.01, U8 RW. -/
abbrev E.REGION_SELECT : Nat := 0x400201
/-- 0x4002.02, U32 RO. -/
abbrev E.SEL_SLOW_LAP_S : Nat := 0x400202
/-- 0x4002.03, U32 RO. -/
abbrev E.SEL_FAST_LAP_S : Nat := 0x400203
/-- 0x4002.04, U32 RO. -/
abbrev E.SEL_SLOW_LAP_PAGES : Nat := 0x400204
/-- 0x4002.05, U32 RO. -/
abbrev E.SEL_FAST_LAP_PAGES : Nat := 0x400205
/-- 0x4002.06, U32 RO. -/
abbrev E.SEL_SLOW_LAPS : Nat := 0x400206
/-- 0x4002.07, U32 RO. -/
abbrev E.SEL_FAST_LAPS : Nat := 0x400207
/-- 0x4002.08, BOOL RO. -/
abbrev E.SEL_PARITY_SUSPECT : Nat := 0x400208
/-- 0x4003.01, U16 RW. -/
abbrev E.CHANNEL_SELECT : Nat := 0x400301
/-- 0x4003.02, U32 RO. -/
abbrev E.SEL_CHANNEL_CORRECTED : Nat := 0x400302
/-- 0x4003.03, U32 RO. -/
abbrev E.SEL_CHANNEL_POISONED : Nat := 0x400303
/-- 0x4004.01, U64 RW. -/
abbrev E.CE_CORRECTED : Nat := 0x400401
/-- 0x4004.02, U32 RW. -/
abbrev E.SECTORS_RECONSTRUCTED : Nat := 0x400402
/-- 0x4004.03, U32 RW. -/
abbrev E.SECTORS_POISONED : Nat := 0x400403
/-- 0x4004.04, U64 RW. -/
abbrev E.POISON_PROPAGATED : Nat := 0x400404
/-- 0x4004.05, U32 RW. -/
abbrev E.POISON_CLEARED : Nat := 0x400405
/-- 0x4004.06, U32 RW. -/
abbrev E.PARITY_REPAIRS : Nat := 0x400406
/-- 0x4004.07, U64 RW. -/
abbrev E.PARITY_WRITEBACKS : Nat := 0x400407
/-- 0x4004.08, U32 RW. -/
abbrev E.TWIN_REPAIRS : Nat := 0x400408
/-- 0x4004.09, U32 RW. -/
abbrev E.TWIN_REPAIR_FAILS : Nat := 0x400409
/-- 0x4004.0A, U32 RW. -/
abbrev E.RESERVED_ACCESSES : Nat := 0x40040A
/-- 0x4004.0B, U64 RW. -/
abbrev E.SRAM_CORRECTED : Nat := 0x40040B
/-- 0x4004.0C, U32 RW. -/
abbrev E.SRAM_POISONED : Nat := 0x40040C
/-- 0x4004.0D, U32 RW. -/
abbrev E.BURNISHER_ALARMS : Nat := 0x40040D
/-- 0x4005.01, U8 CONST. -/
abbrev E.CHECK_QUEUE_DEPTH : Nat := 0x400501
/-- 0x4005.02, U8 RW. -/
abbrev E.CHECK_DIE_SELECT : Nat := 0x400502
/-- 0x4005.03, U8 RO. -/
abbrev E.SEL_CHECK_QUEUED : Nat := 0x400503
/-- 0x4005.04, U64 RO. -/
abbrev E.SEL_CHECK_LAST_RESULT : Nat := 0x400504
/-- 0x4005.05, U16 RO. -/
abbrev E.SEL_CHECK_LAST_STATUS : Nat := 0x400505
/-- 0x4005.06, U64 RW. -/
abbrev E.CHECK_SCANS : Nat := 0x400506
/-- 0x4005.07, U32 RW. -/
abbrev E.CHECK_MISMATCHES : Nat := 0x400507
/-- 0x5000.01, U8 CONST. -/
abbrev E.FABRIC_PORTS : Nat := 0x500001
/-- 0x5000.02, U8 CONST. -/
abbrev E.LANES_PER_PORT : Nat := 0x500002
/-- 0x5000.03, U32 CONST. -/
abbrev E.LANE_RATE_MBPS : Nat := 0x500003
/-- 0x5000.04, U8 CONST. -/
abbrev E.LEVELS_OFFERED : Nat := 0x500004
/-- 0x5000.05, U16 CONST. -/
abbrev E.RETRY_BUFFER_FLITS : Nat := 0x500005
/-- 0x5000.06, U8 CONST. -/
abbrev E.REPLAY_LIMIT_5000 : Nat := 0x500006
/-- 0x5000.07, U8 CONST. -/
abbrev E.VC_BUFFER_FLITS : Nat := 0x500007
/-- 0x5001.01, U8 RWS. -/
abbrev E.TORUS_DIM_X : Nat := 0x500101
/-- 0x5001.02, U8 RWS. -/
abbrev E.TORUS_DIM_Y : Nat := 0x500102
/-- 0x5001.03, U8 RWS. -/
abbrev E.TORUS_DIM_Z : Nat := 0x500103
/-- 0x5001.04, DOMAIN RWS. -/
abbrev E.COORD_TABLE : Nat := 0x500104
/-- 0x5001.05, U32 RO. -/
abbrev E.COORD_TABLE_CHECK : Nat := 0x500105
/-- 0x5001.06, U16 RO. -/
abbrev E.MY_COORD : Nat := 0x500106
/-- 0x5001.07, U8 RWS. -/
abbrev E.PORT6_ROLE : Nat := 0x500107
/-- 0x5001.08, U8 RWS. -/
abbrev E.PORT7_ROLE : Nat := 0x500108
/-- 0x5001.09, U16 RWS. -/
abbrev E.EXPRESS_PEER6 : Nat := 0x500109
/-- 0x5001.0A, U16 RWS. -/
abbrev E.EXPRESS_PEER7 : Nat := 0x50010A
/-- 0x5001.0B, U8 RWS. -/
abbrev E.LEVEL_CAP : Nat := 0x50010B
/-- 0x5001.0C, U8 RWS. -/
abbrev E.PORT_ENABLE_MASK : Nat := 0x50010C
/-- 0x5002.01, U8 RW. -/
abbrev E.ROUTE_MODE : Nat := 0x500201
/-- 0x5002.02, DOMAIN RW. -/
abbrev E.ROUTE_TABLE : Nat := 0x500202
/-- 0x5002.03, BOOL WO. -/
abbrev E.ROUTE_TABLE_COMMIT : Nat := 0x500203
/-- 0x5002.04, U8 RW. -/
abbrev E.HOP_LIMIT : Nat := 0x500204
/-- 0x5003.01, U8 RW. -/
abbrev E.PORT_SELECT : Nat := 0x500301
/-- 0x5003.02, U8 RO. -/
abbrev E.SEL_PORT_STATE : Nat := 0x500302
/-- 0x5003.03, U8 RO. -/
abbrev E.SEL_PORT_LEVEL : Nat := 0x500303
/-- 0x5003.04, U16 RO. -/
abbrev E.SEL_PEER_MODULE : Nat := 0x500304
/-- 0x5003.05, U8 RO. -/
abbrev E.SEL_PEER_PORT : Nat := 0x500305
/-- 0x5003.06, U16 RO. -/
abbrev E.SEL_REFUSE_CODE : Nat := 0x500306
/-- 0x5003.07, U64 RO. -/
abbrev E.SEL_FEC_CORRECTED : Nat := 0x500307
/-- 0x5003.08, U32 RO. -/
abbrev E.SEL_FEC_UNCORRECTABLE : Nat := 0x500308
/-- 0x5003.09, U32 RO. -/
abbrev E.SEL_CRC_ERRORS : Nat := 0x500309
/-- 0x5003.0A, U32 RO. -/
abbrev E.SEL_REPLAYS : Nat := 0x50030A
/-- 0x5003.0B, U32 RO. -/
abbrev E.SEL_RETRAINS : Nat := 0x50030B
/-- 0x5004.01, U64 RW. -/
abbrev E.PACKETS_ISSUED : Nat := 0x500401
/-- 0x5004.02, U64 RW. -/
abbrev E.PACKETS_DELIVERED : Nat := 0x500402
/-- 0x5004.03, U64 RW. -/
abbrev E.TRANSIT_FLITS : Nat := 0x500403
/-- 0x5004.04, U32 RW. -/
abbrev E.TRANSIT_RETURNS : Nat := 0x500404
/-- 0x5004.05, U32 RW. -/
abbrev E.TRANSIT_DISCARDS : Nat := 0x500405
/-- 0x5004.06, U32 RW. -/
abbrev E.END_CHECK_ERRORS : Nat := 0x500406
/-- 0x5004.07, U32 RW. -/
abbrev E.REQUESTS_REFUSED : Nat := 0x500407
/-- 0x5004.08, U32 RW. -/
abbrev E.LINK_DOWN_EVENTS : Nat := 0x500408
/-- 0x5100.01, U8 CONST. -/
abbrev E.DRAIN_CLASSES : Nat := 0x510001
/-- 0x5100.02, U16 RW. -/
abbrev E.RESPONSE_POOL_KIB : Nat := 0x510002
/-- 0x5100.03, U16 RW. -/
abbrev E.OUTSTANDING_MAX : Nat := 0x510003
/-- 0x5100.04, U8 RW. -/
abbrev E.FABRIC_RETRY_LIMIT : Nat := 0x510004
/-- 0x5100.05, U16 RW. -/
abbrev E.RETRY_BACKOFF_MAX_US : Nat := 0x510005
/-- 0x5100.06, U16 CONST. -/
abbrev E.DUP_FILTER_ENTRIES : Nat := 0x510006
/-- 0x5100.07, U8 CONST. -/
abbrev E.MCAST_FANOUT : Nat := 0x510007
/-- 0x5100.08, U32 CONST. -/
abbrev E.MESSAGE_BYTES_MAX : Nat := 0x510008
/-- 0x5100.09, U8 CONST. -/
abbrev E.BRIDGE_CLASS_FLITS : Nat := 0x510009
/-- 0x5101.01, U8 RW. -/
abbrev E.CLASS_SELECT : Nat := 0x510101
/-- 0x5101.02, U64 RO. -/
abbrev E.SEL_FLITS_SENT : Nat := 0x510102
/-- 0x5101.03, U64 RO. -/
abbrev E.SEL_FLITS_RECEIVED : Nat := 0x510103
/-- 0x5101.04, U64 RO. -/
abbrev E.SEL_CREDIT_STALLS : Nat := 0x510104
/-- 0x5101.05, U32 RO. -/
abbrev E.SEL_RETRY_LATER_SENT : Nat := 0x510105
/-- 0x5101.06, U32 RO. -/
abbrev E.SEL_RETRY_LATER_RECEIVED : Nat := 0x510106
/-- 0x5102.01, U32 RW. -/
abbrev E.REQUEST_TIMEOUTS : Nat := 0x510201
/-- 0x5102.02, U32 RW. -/
abbrev E.REQUESTS_RESENT : Nat := 0x510202
/-- 0x5102.03, U32 RW. -/
abbrev E.REQUESTS_FAILED : Nat := 0x510203
/-- 0x5102.04, U32 RW. -/
abbrev E.LATE_RESPONSES : Nat := 0x510204
/-- 0x5102.05, U32 RW. -/
abbrev E.DUPLICATES_FILTERED : Nat := 0x510205
/-- 0x5102.06, U64 RW. -/
abbrev E.RESPONSE_POOL_STALLS : Nat := 0x510206
/-- 0x5102.07, U32 RW. -/
abbrev E.POISONED_RESPONSES : Nat := 0x510207
/-- 0x5102.08, U64 RW. -/
abbrev E.MESSAGES_SENT : Nat := 0x510208
/-- 0x5102.09, U32 RW. -/
abbrev E.MESSAGES_REFUSED : Nat := 0x510209
/-- 0x5102.0A, U64 RW. -/
abbrev E.MCAST_FORWARDS : Nat := 0x51020A
/-- 0x5102.0B, U32 RW. -/
abbrev E.LEDGER_ROUNDS : Nat := 0x51020B
/-- 0x5800.01, U16 RWS. -/
abbrev E.RIDGE_KEEPER : Nat := 0x580001
/-- 0x5800.02, U16 RWS. -/
abbrev E.RIDGE_STANDBY : Nat := 0x580002
/-- 0x5800.03, U16 RO. -/
abbrev E.RIDGE_SOURCE : Nat := 0x580003
/-- 0x5800.04, U8 RO. -/
abbrev E.RIDGE_STATE : Nat := 0x580004
/-- 0x5800.05, STEPTIME RO. -/
abbrev E.RIDGE_POINT : Nat := 0x580005
/-- 0x5800.06, U64 RO. -/
abbrev E.RIDGE_AXIS_VALUE : Nat := 0x580006
/-- 0x5801.01, U16 RW. -/
abbrev E.LINK_RETRY_NS : Nat := 0x580101
/-- 0x5801.02, U16 RW. -/
abbrev E.FABRIC_REQUEST_TIMEOUT_US : Nat := 0x580102
/-- 0x5801.03, U16 RWS. -/
abbrev E.RIDGE_BEAT_US : Nat := 0x580103
/-- 0x5801.04, U8 RWS. -/
abbrev E.RIDGE_LOSS_BEATS : Nat := 0x580104
/-- 0x5801.05, U32 RW. -/
abbrev E.PEG_TIMEOUT_1_US : Nat := 0x580105
/-- 0x5801.06, U32 RW. -/
abbrev E.PEG_TIMEOUT_2_US : Nat := 0x580106
/-- 0x5801.07, U32 RW. -/
abbrev E.PEG_TIMEOUT_3_US : Nat := 0x580107
/-- 0x5801.08, U32 RWS. -/
abbrev E.STEP_WATCHDOG_S : Nat := 0x580108
/-- 0x5802.01, U16 RO. -/
abbrev E.RIDGE_PARTICIPANTS : Nat := 0x580201
/-- 0x5802.02, U16 RO. -/
abbrev E.RIDGE_READY_COUNT : Nat := 0x580202
/-- 0x5802.03, U16 RO. -/
abbrev E.RIDGE_HELD_COUNT : Nat := 0x580203
/-- 0x5802.04, U16 RO. -/
abbrev E.RIDGE_PENDING_RUNS : Nat := 0x580204
/-- 0x5802.05, U16 RO. -/
abbrev E.RIDGE_LATE_MODULE : Nat := 0x580205
/-- 0x5802.06, U16 RO. -/
abbrev E.RIDGE_LATE_COUNT : Nat := 0x580206
/-- 0x5802.07, U32 RO. -/
abbrev E.RIDGE_POINT_AGE_MS : Nat := 0x580207
/-- 0x5803.01, U8 RWS. -/
abbrev E.PTP_DOMAIN : Nat := 0x580301
/-- 0x5803.02, BOOL RO. -/
abbrev E.PTP_LOCKED : Nat := 0x580302
/-- 0x5803.03, I64 RO. -/
abbrev E.PTP_OFFSET_NS : Nat := 0x580303
/-- 0x5803.04, U64 RO. -/
abbrev E.WALL_TIME_NS : Nat := 0x580304
/-- 0x5804.01, U64 RW. -/
abbrev E.RIDGE_POINTS_SEEN : Nat := 0x580401
/-- 0x5804.02, U32 RW. -/
abbrev E.RIDGE_STRAY_REPORTS : Nat := 0x580402
/-- 0x5804.03, U32 RW. -/
abbrev E.RIDGE_EXCLUSIONS : Nat := 0x580403
/-- 0x5804.04, U32 RW. -/
abbrev E.RIDGE_SOURCE_REFUSALS : Nat := 0x580404
/-- 0x5804.05, U32 RW. -/
abbrev E.RIDGE_TAKEOVERS : Nat := 0x580405
/-- 0x5804.06, U32 RW. -/
abbrev E.STEP_WATCHDOG_EVENTS : Nat := 0x580406
/-- 0x5804.07, U64 RW. -/
abbrev E.PEG_SIGNALS : Nat := 0x580407
/-- 0x5804.08, U64 RW. -/
abbrev E.PEG_WAITS : Nat := 0x580408
/-- 0x5804.09, U32 RW. -/
abbrev E.PEG_WAIT_TIMEOUTS : Nat := 0x580409
/-- 0x5804.0A, U32 RW. -/
abbrev E.PEG_SET_REFUSED : Nat := 0x58040A
/-- 0x5804.0B, U32 RW. -/
abbrev E.PEG_WRAPS : Nat := 0x58040B
/-- 0x5805.01, U16 CONST. -/
abbrev E.PEG_WAITERS_MAX : Nat := 0x580501
/-- 0x5805.02, U16 CONST. -/
abbrev E.PEG_RIDGELINE_FIRST : Nat := 0x580502
/-- 0x6100.01, U8 RO. -/
abbrev E.LOAD_STATE : Nat := 0x610001
/-- 0x6100.02, U64 RO. -/
abbrev E.PLAN_ADDR_LOADED : Nat := 0x610002
/-- 0x6100.03, U32 RO. -/
abbrev E.PLAN_CHECK_LOADED : Nat := 0x610003
/-- 0x6100.04, U64 RO. -/
abbrev E.START_STEP : Nat := 0x610004
/-- 0x6100.05, BOOL RO. -/
abbrev E.RUN_PAIRED : Nat := 0x610005
/-- 0x6100.06, BOOL RO. -/
abbrev E.RUN_FEED : Nat := 0x610006
/-- 0x6100.07, U16 RO. -/
abbrev E.PEGS_USED : Nat := 0x610007
/-- 0x6100.08, U64 RO. -/
abbrev E.QUEUE_MASK : Nat := 0x610008
/-- 0x6100.09, U16 RO. -/
abbrev E.TENSOR_COUNT : Nat := 0x610009
/-- 0x6100.0A, U16 RO. -/
abbrev E.MEMBER_ORDER : Nat := 0x61000A
/-- 0x6100.0B, U64 RO. -/
abbrev E.ROW_RECORDS_PENDING : Nat := 0x61000B
/-- 0x6100.0C, U32 CONST. -/
abbrev E.PLAN_BYTES_MAX : Nat := 0x61000C
/-- 0x6100.0D, U16 RO. -/
abbrev E.LAST_LOAD_STATUS : Nat := 0x61000D
/-- 0x6101.01, U64 RW. -/
abbrev E.COMMANDS_COMPLETED : Nat := 0x610101
/-- 0x6101.02, U32 RW. -/
abbrev E.COMMANDS_FAILED : Nat := 0x610102
/-- 0x6101.03, U64 RW. -/
abbrev E.ZERO_WORK_COMPLETIONS : Nat := 0x610103
/-- 0x6101.04, U32 RW. -/
abbrev E.COMMANDS_LATE : Nat := 0x610104
/-- 0x6101.05, U32 RW. -/
abbrev E.POOL_UNBOUND_BATCHES : Nat := 0x610105
/-- 0x6101.06, U32 RW. -/
abbrev E.POOL_OUTPUT_OVERFLOWS : Nat := 0x610106
/-- 0x6101.07, U64 RW. -/
abbrev E.ROW_RECORDS_WRITTEN : Nat := 0x610107
/-- 0x6101.08, U32 RW. -/
abbrev E.ROW_RECORDS_REFUSED : Nat := 0x610108
/-- 0x6101.09, U32 RW. -/
abbrev E.LOADS_REFUSED : Nat := 0x610109
/-- 0x6101.0A, U32 RW. -/
abbrev E.FORCED_UNLOADS : Nat := 0x61010A
/-- 0x6000.01, U8 RO. -/
abbrev E.PCIE_LINK_SPEED : Nat := 0x600001
/-- 0x6000.02, U8 RO. -/
abbrev E.PCIE_LINK_WIDTH : Nat := 0x600002
/-- 0x6000.03, U16 RO. -/
abbrev E.HOST_EPOCH : Nat := 0x600003
/-- 0x6000.04, U8 CONST. -/
abbrev E.QUEUE_PAIRS : Nat := 0x600004
/-- 0x6000.05, U8 CONST. -/
abbrev E.INTAKE_RINGS : Nat := 0x600005
/-- 0x6000.06, U8 CONST. -/
abbrev E.ERROR_VECTOR : Nat := 0x600006
/-- 0x6001.01, U16 RW. -/
abbrev E.DESC_RECHECK_1_US : Nat := 0x600101
/-- 0x6001.02, U16 RW. -/
abbrev E.DESC_RECHECK_2_US : Nat := 0x600102
/-- 0x6001.03, U16 RW. -/
abbrev E.DESC_RECHECK_3_US : Nat := 0x600103
/-- 0x6001.04, U16 RW. -/
abbrev E.DESC_RECHECK_4_US : Nat := 0x600104
/-- 0x6001.05, U16 RW. -/
abbrev E.HOST_LOSS_MS : Nat := 0x600105
/-- 0x6001.06, U16 RW. -/
abbrev E.INT_COALESCE_US : Nat := 0x600106
/-- 0x6002.01, U32 RW. -/
abbrev E.HOST_LOSS_EVENTS : Nat := 0x600201
/-- 0x6002.02, U32 RW. -/
abbrev E.HOST_LINK_RECOVERIES : Nat := 0x600202
/-- 0x6002.03, U32 RW. -/
abbrev E.TORN_DESCRIPTORS : Nat := 0x600203
/-- 0x6002.04, U32 RW. -/
abbrev E.DESC_RECHECKS : Nat := 0x600204
/-- 0x6002.05, U32 RW. -/
abbrev E.DOORBELLS_IGNORED : Nat := 0x600205
/-- 0x6002.06, U32 RW. -/
abbrev E.BAR_ACCESS_REFUSED : Nat := 0x600206
/-- 0x6002.07, U32 RW. -/
abbrev E.HOST_POISON_READS : Nat := 0x600207
/-- 0x6002.08, U32 RW. -/
abbrev E.HOST_POISON_WRITES : Nat := 0x600208
/-- 0x6002.09, U32 RW. -/
abbrev E.INTAKE_WRITES_REFUSED : Nat := 0x600209
/-- 0x6002.0A, U32 RW. -/
abbrev E.FEED_GRAD_REFUSED : Nat := 0x60020A
/-- 0x6002.0B, U32 RW. -/
abbrev E.FEED_EXPORT_UNMAPPED : Nat := 0x60020B
/-- 0x6002.0C, U32 RW. -/
abbrev E.FEED_SLOT_HOLDS : Nat := 0x60020C
/-- 0x7000.01, BOOL RWS. -/
abbrev E.TWIN_ENABLE : Nat := 0x700001
/-- 0x7000.02, U16 RWS. -/
abbrev E.TWIN_PEER : Nat := 0x700002
/-- 0x7000.03, U8 RWS. -/
abbrev E.TWIN_SIDE : Nat := 0x700003
/-- 0x7000.04, U8 RO. -/
abbrev E.TWIN_STATE : Nat := 0x700004
/-- 0x7000.05, U16 RWS. -/
abbrev E.TWIN_HEARTBEAT_US : Nat := 0x700005
/-- 0x7000.06, U8 RWS. -/
abbrev E.TWIN_FAILOVER_BEATS : Nat := 0x700006
/-- 0x7000.07, U32 RW. -/
abbrev E.TWIN_PROBE_US : Nat := 0x700007
/-- 0x7000.08, BOOL WO. -/
abbrev E.SALVAGE : Nat := 0x700008
/-- 0x7000.09, U32 RO. -/
abbrev E.COPY_PAGES_LEFT : Nat := 0x700009
/-- 0x7000.0A, U16 RO. -/
abbrev E.DRAIN_TIME_US : Nat := 0x70000A
/-- 0x7001.01, U8 RW. -/
abbrev E.GPORT_SELECT : Nat := 0x700101
/-- 0x7001.02, U8 RO. -/
abbrev E.SEL_GPORT_STATE : Nat := 0x700102
/-- 0x7001.03, U16 RO. -/
abbrev E.SEL_GPORT_REFUSE_CODE : Nat := 0x700103
/-- 0x7002.01, U64 RW. -/
abbrev E.MIRROR_ENTRIES_SENT : Nat := 0x700201
/-- 0x7002.02, U64 RW. -/
abbrev E.MIRROR_ENTRIES_REPLAYED : Nat := 0x700202
/-- 0x7002.03, U32 RW. -/
abbrev E.MIRROR_SKIPS : Nat := 0x700203
/-- 0x7002.04, U32 RW. -/
abbrev E.FAILOVERS : Nat := 0x700204
/-- 0x7002.05, U64 RW. -/
abbrev E.FAILOVER_DROPS : Nat := 0x700205
/-- 0x7002.06, U32 RW. -/
abbrev E.MEMBERS_LOST : Nat := 0x700206
/-- 0x7002.07, U32 RW. -/
abbrev E.PROBES : Nat := 0x700207
/-- 0x7002.08, U32 RW. -/
abbrev E.COPIES_COMPLETED : Nat := 0x700208
/-- 0x7002.09, U64 RW. -/
abbrev E.TORN_RECORDS : Nat := 0x700209
/-- 0x7002.0A, U32 RW. -/
abbrev E.GEN_CUTS : Nat := 0x70020A
/-- 0x7002.0B, U64 RW. -/
abbrev E.GEN_SHARDS_EXPORTED : Nat := 0x70020B
/-- 0x7002.0C, U64 RW. -/
abbrev E.GEN_BYTES_EXPORTED : Nat := 0x70020C
/-- 0x7002.0D, U32 RW. -/
abbrev E.GEN_HOLD_OVERFLOWS : Nat := 0x70020D
/-- 0x7003.01, U32 RO. -/
abbrev E.GEN_OPEN : Nat := 0x700301
/-- 0x7003.02, U64 RO. -/
abbrev E.GEN_OPEN_STEP : Nat := 0x700302
/-- 0x1000.01, STRING CONST. -/
abbrev E.VENDOR_NAME : Nat := 0x100001
/-- 0x1000.02, STRING CONST. -/
abbrev E.PRODUCT_NAME : Nat := 0x100002
/-- 0x1000.03, STRING CONST. -/
abbrev E.PART_NUMBER : Nat := 0x100003
/-- 0x1000.04, STRING CONST. -/
abbrev E.SERIAL_NUMBER : Nat := 0x100004
/-- 0x1000.05, U16 CONST. -/
abbrev E.PCI_VENDOR_ID : Nat := 0x100005
/-- 0x1000.06, U16 CONST. -/
abbrev E.PCI_DEVICE_ID : Nat := 0x100006
/-- 0x1000.07, U8 CONST. -/
abbrev E.PCI_REVISION : Nat := 0x100007
/-- 0x1000.08, U8 CONST. -/
abbrev E.ARCH_LEVEL : Nat := 0x100008
/-- 0x1000.09, U8 CONST. -/
abbrev E.ARCH_LEVELS : Nat := 0x100009
/-- 0x1000.0A, U32 CONST. -/
abbrev E.MANUFACTURE_DATE : Nat := 0x10000A
/-- 0x1000.0B, U64 CONST. -/
abbrev E.MAC_ADDRESS : Nat := 0x10000B
/-- 0x1001.01, U16 RWS. -/
abbrev E.CAP_DISABLE_MASK : Nat := 0x100101
/-- 0x1008.01, U8 RO. -/
abbrev E.CAP_HEAD : Nat := 0x100801
/-- 0x1008.02 and the subindices after it, U64 RO. -/
abbrev E.CAP_ENTRY : Nat := 0x100802
/-- 0x1100.01, U32 RW. -/
abbrev E.SET_STAGED_NUMBER : Nat := 0x110001
/-- 0x1100.02, U16 RO. -/
abbrev E.SET_STAGED_ENTRIES : Nat := 0x110002
/-- 0x1100.03, DOMAIN RO. -/
abbrev E.SET_STAGED_IMAGE : Nat := 0x110003
/-- 0x1100.04, BOOL WO. -/
abbrev E.SET_CLEAR : Nat := 0x110004
/-- 0x1101.01, U32 RO. -/
abbrev E.SET_ACTIVE_NUMBER : Nat := 0x110101
/-- 0x1101.02, U32 RO. -/
abbrev E.SET_ACTIVE_CHECK : Nat := 0x110102
/-- 0x1101.03, DOMAIN RO. -/
abbrev E.SET_ACTIVE_IMAGE : Nat := 0x110103
/-- 0x1101.04, U32 RO. -/
abbrev E.SET_PREVIOUS_NUMBER : Nat := 0x110104
/-- 0x1101.05, U32 RO. -/
abbrev E.SET_PREVIOUS_CHECK : Nat := 0x110105
/-- 0x1101.06, DOMAIN RO. -/
abbrev E.SET_PREVIOUS_IMAGE : Nat := 0x110106
/-- 0x1102.01, U64 WO. -/
abbrev E.SET_COMMIT : Nat := 0x110201
/-- 0x1102.02, U32 WO. -/
abbrev E.SET_REVERT : Nat := 0x110202
/-- 0x1102.03, U32 WO. -/
abbrev E.SET_CONFIRM : Nat := 0x110203
/-- 0x1102.04, U8 RO. -/
abbrev E.SET_PENDING : Nat := 0x110204
/-- 0x1102.05, U16 RWS. -/
abbrev E.CONFIG_CONFIRM_S : Nat := 0x110205
/-- 0x1102.06, U16 RO. -/
abbrev E.SET_LAST_STATUS : Nat := 0x110206
/-- 0x1102.07, U32 RO. -/
abbrev E.SET_LAST_DETAIL : Nat := 0x110207
/-- 0x1102.08, BOOL RWS. -/
abbrev E.SET_APPLY_AT_RESET : Nat := 0x110208
/-- 0x9000.01, U64 RO. -/
abbrev E.EVENT_SEQ_LATEST : Nat := 0x900001
/-- 0x9000.02, U64 RO. -/
abbrev E.EVENT_SEQ_OLDEST : Nat := 0x900002
/-- 0x9000.03, U64 RW. -/
abbrev E.EVENT_READ_SEQ : Nat := 0x900003
/-- 0x9000.04, DOMAIN RO. -/
abbrev E.EVENT_RECORDS : Nat := 0x900004
/-- 0x9000.05, U32 CONST. -/
abbrev E.EVENT_LOG_RECORDS : Nat := 0x900005
/-- 0x9000.06, U16 RWS. -/
abbrev E.EVENT_RATE_MAX : Nat := 0x900006
/-- 0x9000.07, U32 RW. -/
abbrev E.EVENTS_SUPPRESSED : Nat := 0x900007
/-- 0x9001.01, BOOL WO. -/
abbrev E.COUNTERS_CLEAR_ALL : Nat := 0x900101
/-- 0x9001.02, U32 RW. -/
abbrev E.LANTERN_RESTARTS : Nat := 0x900102
/-- 0x9001.03, U64 RW. -/
abbrev E.ODP_REQUESTS : Nat := 0x900103
/-- 0x9001.04, U32 RW. -/
abbrev E.ODP_REFUSED : Nat := 0x900104
/-- 0x9001.05, U64 RW. -/
abbrev E.MAILBOX_REQUESTS : Nat := 0x900105
/-- 0x9001.06, U64 RW. -/
abbrev E.I3C_READS : Nat := 0x900106
/-- 0xA000.01, U8 RO. -/
abbrev E.FW_ACTIVE_SLOT : Nat := 0xA00001
/-- 0xA000.02, U64 RO. -/
abbrev E.FW_ACTIVE_VERSION : Nat := 0xA00002
/-- 0xA000.03, U32 RO. -/
abbrev E.FW_ACTIVE_SVN : Nat := 0xA00003
/-- 0xA000.04, U64 RO. -/
abbrev E.FW_OTHER_VERSION : Nat := 0xA00004
/-- 0xA000.05, BOOL RO. -/
abbrev E.FW_TRIAL : Nat := 0xA00005
/-- 0xA000.06, BOOL RWS. -/
abbrev E.FW_AUTO_CONFIRM : Nat := 0xA00006
/-- 0xA000.07, BOOL WO. -/
abbrev E.FW_CONFIRM : Nat := 0xA00007
/-- 0xA001.01, U8 WO. -/
abbrev E.FW_UPDATE_CONTROL : Nat := 0xA00101
/-- 0xA001.02, DOMAIN WO. -/
abbrev E.FW_UPDATE_DATA : Nat := 0xA00102
/-- 0xA001.03, U8 RO. -/
abbrev E.FW_UPDATE_STATE : Nat := 0xA00103
/-- 0xA001.04, U16 RO. -/
abbrev E.FW_UPDATE_STATUS : Nat := 0xA00104
/-- 0xA001.05, U32 RO. -/
abbrev E.FW_UPDATE_BYTES : Nat := 0xA00105
/-- 0xA002.01, BOOL CONST. -/
abbrev E.SECURE_BOOT : Nat := 0xA00201
/-- 0xA002.02, U32 RO. -/
abbrev E.SVN_FLOOR : Nat := 0xA00202
/-- 0xA002.03, U8 RO. -/
abbrev E.KEY_REVOKED_MASK : Nat := 0xA00203
/-- 0xA002.04, U8 RWS. -/
abbrev E.ODP_AUTH_MODE : Nat := 0xA00204
/-- 0xA002.05, DOMAIN WO. -/
abbrev E.ODP_KEY : Nat := 0xA00205
/-- 0xA002.06, BOOL RO. -/
abbrev E.ODP_KEY_SET : Nat := 0xA00206
/-- 0xA002.07, U64 RO. -/
abbrev E.ODP_LAST_SEQ : Nat := 0xA00207
/-- 0xA002.08, DOMAIN RO. -/
abbrev E.ATTEST_CHAIN : Nat := 0xA00208
/-- 0x8000.01, U8 RO. -/
abbrev E.POWER_STATE : Nat := 0x800001
/-- 0x8000.02, U8 WO. -/
abbrev E.POWER_STATE_REQUEST : Nat := 0x800002
/-- 0x8000.03, U16 RWS. -/
abbrev E.POWER_LIMIT_W : Nat := 0x800003
/-- 0x8000.04, U8 RO. -/
abbrev E.THROTTLE_N : Nat := 0x800004
/-- 0x8000.05, U8 RO. -/
abbrev E.THROTTLE_CAUSE : Nat := 0x800005
/-- 0x8000.06, U8 RO. -/
abbrev E.FEED_STATE : Nat := 0x800006
/-- 0x8000.07, U8 RO. -/
abbrev E.SLOT_ID : Nat := 0x800007
/-- 0x8000.08, U8 RO. -/
abbrev E.I3C_STATIC_ADDR : Nat := 0x800008
/-- 0x8000.09, BOOL RW. -/
abbrev E.LOCATE : Nat := 0x800009
/-- 0x8001.01, F32 RO. -/
abbrev E.INPUT_POWER_W : Nat := 0x800101
/-- 0x8001.02, F32 RO. -/
abbrev E.DIE_TEMP_MAX_C : Nat := 0x800102
/-- 0x8001.03, F32 RO. -/
abbrev E.HBM_TEMP_MAX_C : Nat := 0x800103
/-- 0x8001.04, F32 RO. -/
abbrev E.COOLANT_INLET_C : Nat := 0x800104
/-- 0x8001.05, F32 RO. -/
abbrev E.COOLANT_FLOW_LPM : Nat := 0x800105
/-- 0x8001.06, F32 RO. -/
abbrev E.FEED_A_V : Nat := 0x800106
/-- 0x8001.07, F32 RO. -/
abbrev E.FEED_B_V : Nat := 0x800107
/-- 0x8002.01, U8 RW. -/
abbrev E.SENSE_SELECT : Nat := 0x800201
/-- 0x8002.02, F32 RO. -/
abbrev E.SEL_SENSE_VALUE : Nat := 0x800202
/-- 0x8002.03, F32 RO. -/
abbrev E.SEL_SENSE_MAX : Nat := 0x800203
/-- 0x8002.04, F32 RO. -/
abbrev E.SEL_SENSE_MIN : Nat := 0x800204
/-- 0x8003.01, U32 RW. -/
abbrev E.THERMAL_THROTTLE_STEPS : Nat := 0x800301
/-- 0x8003.02, U32 RW. -/
abbrev E.POWER_LIMIT_STEPS : Nat := 0x800302
/-- 0x8003.03, U64 RW. -/
abbrev E.THROTTLED_MS : Nat := 0x800303
/-- 0x8003.04, U32 RW. -/
abbrev E.FEED_LOSS_EVENTS : Nat := 0x800304
/-- 0x8003.05, U32 RW. -/
abbrev E.POWER_FAIL_WARNINGS : Nat := 0x800305
/-- 0x8003.06, U32 RW. -/
abbrev E.FLOW_LOW_EVENTS : Nat := 0x800306
/-- 0x8003.07, U64 RW. -/
abbrev E.ENERGY_KJ : Nat := 0x800307
/-- 0x8004.01, U8 CONST. -/
abbrev E.DIE_THROTTLE_C : Nat := 0x800401
/-- 0x8004.02, U8 CONST. -/
abbrev E.DIE_TRIP_C : Nat := 0x800402
/-- 0x8004.03, U8 CONST. -/
abbrev E.HBM_THROTTLE_C : Nat := 0x800403
/-- 0x8004.04, U8 CONST. -/
abbrev E.HBM_TRIP_C : Nat := 0x800404
/-- 0x8004.05, U32 CONST. -/
abbrev E.PF_WARN_MV : Nat := 0x800405
/-- 0x8004.06, U8 CONST. -/
abbrev E.HOLDUP_MS : Nat := 0x800406

/-- Entries of the range 0x2000. -/
def entries20 : List Entry := [
  ⟨0x200001, .u16, .rws, 0, [(0, 8191)], 1, false, false, false, true, .atTraining⟩,
  ⟨0x200002, .bool, .rws, 0, [(0, 1)], 1, false, false, false, false, .atTraining⟩,
  ⟨0x200003, .u32, .rws, 0, [(0, 4294967295)], 1, false, false, false, false, .atTraining⟩,
  ⟨0x200004, .u8, .ro, 0, [(0, 5)], 1, false, false, false, true, .immediate⟩,
  ⟨0x200101, .u8, .const, 4, [(4, 4)], 1, false, false, false, false, .immediate⟩,
  ⟨0x200102, .u8, .const, 4, [(4, 4)], 1, false, false, false, false, .immediate⟩,
  ⟨0x200103, .u8, .const, 4, [(4, 4)], 1, false, false, false, false, .immediate⟩,
  ⟨0x200104, .u8, .const, 12, [(12, 12)], 1, false, false, false, false, .immediate⟩,
  ⟨0x200105, .u8, .const, 8, [(8, 8)], 1, false, false, false, false, .immediate⟩,
  ⟨0x200106, .u8, .const, 20, [(20, 20)], 1, false, false, false, false, .immediate⟩,
  ⟨0x200107, .u8, .const, 16, [(16, 16)], 1, false, false, false, false, .immediate⟩,
  ⟨0x200108, .u8, .const, 16, [(16, 16)], 1, false, false, false, false, .immediate⟩,
  ⟨0x200201, .u32, .ro, 0, [(0, 4294967295)], 1, false, false, false, false, .immediate⟩,
  ⟨0x200202, .u8, .ro, 0, [(0, 0), (1, 1), (2, 2), (4, 4), (8, 8), (16, 16)], 1, false, false, false, false, .immediate⟩,
  ⟨0x200203, .u16, .ro, 0, [(0, 512)], 1, false, false, false, false, .immediate⟩,
  ⟨0x200204, .u16, .ro, 0, [(0, 511)], 1, false, false, false, false, .immediate⟩,
  ⟨0x200205, .u8, .ro, 0, [(0, 15)], 1, false, false, false, false, .immediate⟩,
  ⟨0x200206, .u16, .ro, 0, [(0, 8192)], 1, false, false, false, false, .immediate⟩,
  ⟨0x200301, .u32, .ro, 0, [(0, 4294967295)], 1, false, false, false, false, .immediate⟩,
  ⟨0x200302, .u16, .ro, 0, [(0, 65535)], 1, false, false, false, false, .immediate⟩,
  ⟨0x200303, .steptime, .ro, 0, [(0, 340282366920938463463374607431768211455)], 1, false, false, false, false, .immediate⟩,
  ⟨0x200304, .u32, .ro, 0, [(0, 4294967295)], 1, false, false, false, false, .immediate⟩]
/-- Entries of the range 0x2100. -/
def entries21 : List Entry := [
  ⟨0x210001, .u8, .rw, 0, [(0, 1)], 1, false, false, false, false, .atOpen⟩,
  ⟨0x210002, .u8, .rw, 0, [(0, 3)], 1, false, false, false, false, .atOpen⟩,
  ⟨0x210003, .u8, .const, 3, [(3, 3)], 1, false, false, false, false, .immediate⟩,
  ⟨0x210004, .u8, .const, 0, [(0, 0)], 1, false, false, false, false, .immediate⟩,
  ⟨0x210005, .u16, .rw, 16, [(1, 256)], 1, false, false, false, false, .atLoad⟩,
  ⟨0x210006, .u8, .rw, 0, [(0, 3)], 1, false, false, false, false, .atLoad⟩,
  ⟨0x210007, .u64, .ro, 0, [(0, 18446744073709551615)], 1, false, false, false, false, .immediate⟩,
  ⟨0x210101, .u64, .rw, 0, [(0, 0)], 1, true, false, false, false, .immediate⟩,
  ⟨0x210102, .u64, .rw, 0, [(0, 0)], 1, true, false, false, false, .immediate⟩,
  ⟨0x210103, .u64, .rw, 0, [(0, 0)], 1, true, false, false, false, .immediate⟩,
  ⟨0x210104, .u64, .rw, 0, [(0, 0)], 1, true, false, false, false, .immediate⟩,
  ⟨0x210105, .u64, .rw, 0, [(0, 0)], 1, true, false, false, false, .immediate⟩,
  ⟨0x210106, .u64, .rw, 0, [(0, 0)], 1, true, false, false, false, .immediate⟩,
  ⟨0x210107, .u64, .rw, 0, [(0, 0)], 1, true, false, false, false, .immediate⟩,
  ⟨0x210108, .u32, .rw, 0, [(0, 0)], 1, true, false, false, false, .immediate⟩]
/-- Entries of the range 0x3000. -/
def entries30 : List Entry := [
  ⟨0x300001, .u16, .const, 256, [(256, 256)], 1, false, false, false, false, .immediate⟩,
  ⟨0x300002, .u16, .const, 4096, [(4096, 4096)], 1, false, false, false, false, .immediate⟩,
  ⟨0x300003, .u16, .const, 1024, [(1024, 1024)], 1, false, false, false, false, .immediate⟩,
  ⟨0x300004, .u16, .const, 4096, [(4096, 4096)], 1, false, false, false, false, .immediate⟩,
  ⟨0x300101, .u16, .ro, 0, [(0, 1152)], 1, false, false, false, false, .immediate⟩,
  ⟨0x300102, .u16, .ro, 0, [(0, 1152)], 1, false, false, false, false, .immediate⟩,
  ⟨0x300103, .u16, .ro, 0, [(0, 1152)], 1, false, false, false, false, .immediate⟩,
  ⟨0x300104, .u16, .ro, 0, [(0, 1152)], 1, false, false, false, false, .immediate⟩,
  ⟨0x300105, .u16, .ro, 0, [(0, 20480)], 1, false, false, false, false, .immediate⟩,
  ⟨0x300106, .u16, .ro, 0, [(0, 20480)], 1, false, false, false, false, .immediate⟩,
  ⟨0x300107, .u16, .ro, 0, [(0, 20480)], 1, false, false, false, false, .immediate⟩,
  ⟨0x300201, .u32, .rw, 0, [(0, 16777215)], 1, false, true, false, false, .immediate⟩,
  ⟨0x300202, .u16, .ro, 0, [(0, 4096)], 1, false, false, false, false, .immediate⟩,
  ⟨0x300203, .u64, .ro, 0, [(0, 1099511627775)], 1, false, false, false, false, .immediate⟩,
  ⟨0x300204, .u16, .ro, 0, [(0, 255)], 1, false, false, false, false, .immediate⟩,
  ⟨0x300205, .u16, .ro, 0, [(0, 256)], 1, false, false, false, false, .immediate⟩,
  ⟨0x300206, .u64, .ro, 0, [(0, 1099511627775)], 1, false, false, false, false, .immediate⟩,
  ⟨0x300207, .u64, .ro, 0, [(0, 1099511627775)], 1, false, false, false, false, .immediate⟩,
  ⟨0x300208, .u16, .ro, 0, [(0, 20479)], 1, false, false, false, false, .immediate⟩,
  ⟨0x300209, .u16, .ro, 0, [(0, 20480)], 1, false, false, false, false, .immediate⟩,
  ⟨0x30020A, .u8, .ro, 0, [(0, 1)], 1, false, false, false, false, .immediate⟩,
  ⟨0x300301, .u64, .rw, 0, [(0, 0)], 1, true, false, false, false, .immediate⟩,
  ⟨0x300302, .u32, .rw, 0, [(0, 0)], 1, true, false, false, false, .immediate⟩,
  ⟨0x300303, .u32, .rw, 0, [(0, 0)], 1, true, false, false, false, .immediate⟩,
  ⟨0x300304, .u32, .ro, 0, [(0, 4294967295)], 1, false, false, false, false, .immediate⟩,
  ⟨0x300305, .u64, .ro, 0, [(0, 1099511627776)], 1, false, false, false, false, .immediate⟩,
  ⟨0x300306, .u32, .rw, 0, [(0, 0)], 1, true, false, false, false, .immediate⟩]
/-- Entries of the range 0x3100. -/
def entries31 : List Entry := [
  ⟨0x310001, .bool, .rw, 1, [(0, 1)], 1, false, false, false, false, .atLoad⟩,
  ⟨0x310002, .u16, .rw, 4096, [(1024, 8192)], 1024, false, false, false, false, .atLoad⟩,
  ⟨0x310003, .bool, .rw, 1, [(0, 1)], 1, false, false, false, false, .atLoad⟩,
  ⟨0x310101, .u64, .rw, 0, [(0, 0)], 1, true, false, false, false, .immediate⟩,
  ⟨0x310102, .u64, .rw, 0, [(0, 0)], 1, true, false, false, false, .immediate⟩,
  ⟨0x310103, .u64, .rw, 0, [(0, 0)], 1, true, false, false, false, .immediate⟩,
  ⟨0x310104, .u64, .rw, 0, [(0, 0)], 1, true, false, false, false, .immediate⟩,
  ⟨0x310105, .u64, .rw, 0, [(0, 0)], 1, true, false, false, false, .immediate⟩,
  ⟨0x310106, .u32, .rw, 0, [(0, 0)], 1, true, false, false, false, .immediate⟩,
  ⟨0x310201, .u64, .rw, 0, [(0, 0)], 1, true, false, false, false, .immediate⟩,
  ⟨0x310202, .u64, .rw, 0, [(0, 0)], 1, true, false, false, false, .immediate⟩,
  ⟨0x310203, .u64, .rw, 0, [(0, 0)], 1, true, false, false, false, .immediate⟩,
  ⟨0x310204, .u64, .rw, 0, [(0, 0)], 1, true, false, false, false, .immediate⟩,
  ⟨0x310205, .u64, .rw, 0, [(0, 0)], 1, true, false, false, false, .immediate⟩,
  ⟨0x310206, .u64, .rw, 0, [(0, 0)], 1, true, false, false, false, .immediate⟩,
  ⟨0x310207, .u32, .rw, 0, [(0, 0)], 1, true, false, false, false, .immediate⟩,
  ⟨0x310208, .u32, .rw, 0, [(0, 0)], 1, true, false, false, false, .immediate⟩,
  ⟨0x310209, .u32, .rw, 0, [(0, 0)], 1, true, false, false, false, .immediate⟩,
  ⟨0x310301, .u64, .rw, 0, [(0, 0)], 1, true, false, false, false, .immediate⟩,
  ⟨0x310302, .u64, .rw, 0, [(0, 0)], 1, true, false, false, false, .immediate⟩,
  ⟨0x310303, .u64, .rw, 0, [(0, 0)], 1, true, false, false, false, .immediate⟩,
  ⟨0x310304, .u32, .rw, 0, [(0, 0)], 1, true, false, false, false, .immediate⟩,
  ⟨0x310305, .u32, .rw, 0, [(0, 0)], 1, true, false, false, false, .immediate⟩,
  ⟨0x310306, .u64, .ro, 0, [(0, 1099511627776)], 1, false, false, false, false, .immediate⟩,
  ⟨0x310307, .u64, .ro, 0, [(0, 1099511627776)], 1, false, false, false, false, .immediate⟩]
/-- Entries of the range 0x3200. -/
def entries32a : List Entry := [
  ⟨0x320001, .u8, .rw, 0, [(0, 1)], 1, false, false, false, false, .atLoad⟩,
  ⟨0x320002, .u8, .rw, 96, [(32, 120)], 1, false, false, false, false, .atLoad⟩,
  ⟨0x320003, .u8, .rw, 64, [(32, 120)], 1, false, false, false, false, .atLoad⟩,
  ⟨0x320004, .u32, .rw, 4096, [(16, 4294967295)], 1, false, false, false, false, .atLoad⟩,
  ⟨0x320005, .u8, .rw, 2, [(0, 2)], 1, false, false, false, false, .atOpen⟩,
  ⟨0x320006, .f32, .rw, 0, [(0, 2139095039)], 1, false, false, false, false, .atOpen⟩,
  ⟨0x320007, .u8, .rw, 2, [(1, 16)], 1, false, false, false, false, .atOpen⟩,
  ⟨0x320008, .u16, .rw, 1024, [(256, 4096)], 1, false, false, false, false, .atLoad⟩,
  ⟨0x320009, .u16, .rw, 4096, [(1024, 8192)], 1, false, false, false, false, .atLoad⟩,
  ⟨0x32000A, .bool, .wo, 0, [(0, 1)], 1, false, false, false, false, .immediate⟩,
  ⟨0x32000B, .u32, .ro, 0, [(0, 4294967295)], 1, false, false, false, false, .immediate⟩,
  ⟨0x32000C, .u64, .ro, 0, [(0, 1099511627776)], 1, false, false, false, false, .immediate⟩,
  ⟨0x32000D, .u64, .ro, 0, [(0, 1099511627776)], 1, false, false, false, false, .immediate⟩,
  ⟨0x320101, .u8, .rw, 0, [(0, 255)], 1, false, true, false, false, .immediate⟩,
  ⟨0x320102, .u64, .rw, 0, [(1, 18446744073709551615)], 1, false, false, false, false, .immediate⟩,
  ⟨0x320103, .u64, .ro, 0, [(1, 18446744073709551615)], 1, false, false, false, false, .immediate⟩,
  ⟨0x320201, .f32, .ro, 0, [(0, 4294967295)], 1, false, false, false, false, .immediate⟩,
  ⟨0x320202, .f32, .ro, 1065353216, [(0, 1065353216)], 1, false, false, false, false, .immediate⟩,
  ⟨0x320203, .u64, .ro, 0, [(0, 18446744073709551615)], 1, false, false, false, false, .immediate⟩,
  ⟨0x320204, .u64, .ro, 0, [(0, 18446744073709551615)], 1, false, false, false, false, .immediate⟩,
  ⟨0x320205, .u64, .ro, 0, [(0, 18446744073709551615)], 1, false, false, false, false, .immediate⟩,
  ⟨0x320301, .u64, .rw, 0, [(0, 0)], 1, true, false, false, false, .immediate⟩,
  ⟨0x320302, .u64, .rw, 0, [(0, 0)], 1, true, false, false, false, .immediate⟩,
  ⟨0x320303, .u64, .rw, 0, [(0, 0)], 1, true, false, false, false, .immediate⟩,
  ⟨0x320304, .u64, .rw, 0, [(0, 0)], 1, true, false, false, false, .immediate⟩,
  ⟨0x320305, .u32, .rw, 0, [(0, 0)], 1, true, false, false, false, .immediate⟩,
  ⟨0x320306, .u64, .rw, 0, [(0, 0)], 1, true, false, false, false, .immediate⟩,
  ⟨0x320307, .u32, .rw, 0, [(0, 0)], 1, true, false, false, false, .immediate⟩,
  ⟨0x320308, .u32, .rw, 0, [(0, 0)], 1, true, false, false, false, .immediate⟩,
  ⟨0x320309, .u32, .rw, 0, [(0, 0)], 1, true, false, false, false, .immediate⟩]
/-- Entries of the range 0x3200. -/
def entries32b : List Entry := [
  ⟨0x32030A, .u32, .rw, 0, [(0, 0)], 1, true, false, false, false, .immediate⟩,
  ⟨0x32030B, .u32, .rw, 0, [(0, 0)], 1, true, false, false, false, .immediate⟩,
  ⟨0x32030C, .u32, .rw, 0, [(0, 0)], 1, true, false, false, false, .immediate⟩,
  ⟨0x32030D, .u32, .rw, 0, [(0, 0)], 1, true, false, false, false, .immediate⟩,
  ⟨0x32030E, .u32, .rw, 0, [(0, 0)], 1, true, false, false, false, .immediate⟩,
  ⟨0x32030F, .u64, .rw, 0, [(0, 0)], 1, true, false, false, false, .immediate⟩,
  ⟨0x320310, .u32, .rw, 0, [(0, 0)], 1, true, false, false, false, .immediate⟩,
  ⟨0x320311, .u64, .rw, 0, [(0, 0)], 1, true, false, false, false, .immediate⟩,
  ⟨0x320312, .u32, .rw, 0, [(0, 0)], 1, true, false, false, false, .immediate⟩,
  ⟨0x320313, .u64, .rw, 0, [(0, 0)], 1, true, false, false, false, .immediate⟩,
  ⟨0x320314, .u64, .rw, 0, [(0, 0)], 1, true, false, false, false, .immediate⟩]
/-- Entries of the range 0x3300. -/
def entries33a : List Entry := [
  ⟨0x330001, .u8, .const, 8, [(8, 8)], 1, false, false, false, false, .immediate⟩,
  ⟨0x330002, .u8, .const, 64, [(64, 64)], 1, false, false, false, false, .immediate⟩,
  ⟨0x330003, .u8, .const, 16, [(16, 16)], 1, false, false, false, false, .immediate⟩,
  ⟨0x330004, .f32, .const, 897988541, [(0, 4294967295)], 1, false, false, false, false, .immediate⟩,
  ⟨0x330005, .f32, .const, 1120403456, [(0, 4294967295)], 1, false, false, false, false, .immediate⟩,
  ⟨0x330006, .u8, .const, 4, [(4, 4)], 1, false, false, false, false, .immediate⟩,
  ⟨0x330101, .u8, .rw, 0, [(0, 7)], 1, false, true, false, false, .immediate⟩,
  ⟨0x330102, .u8, .ro, 0, [(0, 64)], 1, false, false, false, false, .immediate⟩,
  ⟨0x330103, .u8, .ro, 0, [(0, 7)], 1, false, false, false, false, .immediate⟩,
  ⟨0x330104, .u16, .ro, 0, [(0, 36928)], 1, false, false, false, false, .immediate⟩,
  ⟨0x330105, .u32, .ro, 0, [(0, 4294967295)], 1, false, false, false, false, .immediate⟩,
  ⟨0x330201, .u8, .rw, 0, [(0, 255)], 1, false, true, false, false, .immediate⟩,
  ⟨0x330202, .f32, .ro, 0, [(0, 4294967295)], 1, false, false, false, false, .immediate⟩,
  ⟨0x330203, .f32, .ro, 0, [(0, 4294967295)], 1, false, false, false, false, .immediate⟩,
  ⟨0x330204, .f32, .ro, 0, [(0, 4294967295)], 1, false, false, false, false, .immediate⟩,
  ⟨0x330205, .f32, .ro, 0, [(0, 4294967295)], 1, false, false, false, false, .immediate⟩,
  ⟨0x330206, .f32, .ro, 0, [(0, 4294967295)], 1, false, false, false, false, .immediate⟩,
  ⟨0x330207, .f32, .ro, 0, [(0, 4294967295)], 1, false, false, false, false, .immediate⟩,
  ⟨0x330208, .f32, .ro, 0, [(0, 4294967295)], 1, false, false, false, false, .immediate⟩,
  ⟨0x330209, .f32, .ro, 0, [(0, 4294967295)], 1, false, false, false, false, .immediate⟩,
  ⟨0x33020A, .f32, .ro, 0, [(0, 4294967295)], 1, false, false, false, false, .immediate⟩,
  ⟨0x33020B, .f32, .ro, 0, [(0, 4294967295)], 1, false, false, false, false, .immediate⟩,
  ⟨0x33020C, .f32, .ro, 0, [(0, 4294967295)], 1, false, false, false, false, .immediate⟩,
  ⟨0x33020D, .f32, .ro, 0, [(0, 4294967295)], 1, false, false, false, false, .immediate⟩,
  ⟨0x33020E, .f32, .ro, 0, [(0, 4294967295)], 1, false, false, false, false, .immediate⟩,
  ⟨0x33020F, .f32, .ro, 0, [(0, 4294967295)], 1, false, false, false, false, .immediate⟩,
  ⟨0x330210, .f32, .ro, 0, [(0, 4294967295)], 1, false, false, false, false, .immediate⟩,
  ⟨0x330211, .f32, .ro, 0, [(0, 4294967295)], 1, false, false, false, false, .immediate⟩,
  ⟨0x330212, .u64, .ro, 0, [(0, 18446744073709551615)], 1, false, false, false, false, .immediate⟩,
  ⟨0x330301, .f32, .ro, 0, [(0, 4294967295)], 1, false, false, false, false, .immediate⟩]
/-- Entries of the range 0x3300. -/
def entries33b : List Entry := [
  ⟨0x330302, .f32, .ro, 0, [(0, 4294967295)], 1, false, false, false, false, .immediate⟩,
  ⟨0x330303, .f32, .ro, 0, [(0, 4294967295)], 1, false, false, false, false, .immediate⟩,
  ⟨0x330304, .f32, .ro, 0, [(0, 4294967295)], 1, false, false, false, false, .immediate⟩,
  ⟨0x330305, .f32, .ro, 0, [(0, 4294967295)], 1, false, false, false, false, .immediate⟩,
  ⟨0x330306, .f32, .ro, 0, [(0, 4294967295)], 1, false, false, false, false, .immediate⟩,
  ⟨0x330307, .f32, .ro, 0, [(0, 4294967295)], 1, false, false, false, false, .immediate⟩,
  ⟨0x330308, .f32, .ro, 0, [(0, 4294967295)], 1, false, false, false, false, .immediate⟩,
  ⟨0x330309, .f32, .ro, 0, [(0, 4294967295)], 1, false, false, false, false, .immediate⟩,
  ⟨0x330401, .u64, .rw, 0, [(0, 0)], 1, true, false, false, false, .immediate⟩,
  ⟨0x330402, .u64, .rw, 0, [(0, 0)], 1, true, false, false, false, .immediate⟩,
  ⟨0x330403, .u32, .rw, 0, [(0, 0)], 1, true, false, false, false, .immediate⟩,
  ⟨0x330404, .u32, .rw, 0, [(0, 0)], 1, true, false, false, false, .immediate⟩,
  ⟨0x330405, .bool, .rw, 0, [(0, 0)], 1, false, false, false, false, .immediate⟩,
  ⟨0x330406, .u32, .rw, 0, [(0, 0)], 1, true, false, false, false, .immediate⟩,
  ⟨0x330407, .u32, .rw, 0, [(0, 0)], 1, true, false, false, false, .immediate⟩]
/-- Entries of the range 0x2200. -/
def entries22 : List Entry := [
  ⟨0x220001, .u8, .const, 64, [(64, 64)], 1, false, false, false, false, .immediate⟩,
  ⟨0x220002, .u8, .const, 64, [(64, 64)], 1, false, false, false, false, .immediate⟩,
  ⟨0x220003, .u8, .const, 48, [(48, 48)], 1, false, false, false, false, .immediate⟩,
  ⟨0x220004, .u8, .const, 2, [(2, 2)], 1, false, false, false, false, .immediate⟩,
  ⟨0x220005, .u8, .const, 16, [(16, 16)], 1, false, false, false, false, .immediate⟩,
  ⟨0x220101, .u64, .rw, 0, [(0, 0)], 1, true, false, false, false, .immediate⟩,
  ⟨0x220102, .u32, .rw, 0, [(0, 0)], 1, true, false, false, false, .immediate⟩,
  ⟨0x220103, .u64, .rw, 0, [(0, 0)], 1, true, false, false, false, .immediate⟩,
  ⟨0x220104, .u64, .rw, 0, [(0, 0)], 1, true, false, false, false, .immediate⟩,
  ⟨0x220105, .u64, .rw, 0, [(0, 0)], 1, true, false, false, false, .immediate⟩,
  ⟨0x220106, .u32, .rw, 0, [(0, 0)], 1, true, false, false, false, .immediate⟩,
  ⟨0x220107, .u32, .rw, 0, [(0, 0)], 1, true, false, false, false, .immediate⟩,
  ⟨0x220108, .u32, .rw, 0, [(0, 0)], 1, true, false, false, false, .immediate⟩,
  ⟨0x220109, .bool, .rw, 0, [(0, 0)], 1, false, false, false, false, .immediate⟩,
  ⟨0x22010A, .u64, .rw, 0, [(0, 0)], 1, true, false, false, false, .immediate⟩,
  ⟨0x22010B, .u64, .rw, 0, [(0, 0)], 1, true, false, false, false, .immediate⟩,
  ⟨0x22010C, .u64, .rw, 0, [(0, 0)], 1, true, false, false, false, .immediate⟩]
/-- Entries of the range 0x2300. -/
def entries23 : List Entry := [
  ⟨0x230001, .u8, .const, 16, [(16, 16)], 1, false, false, false, false, .immediate⟩,
  ⟨0x230002, .u16, .const, 512, [(512, 512)], 1, false, false, false, false, .immediate⟩,
  ⟨0x230003, .u32, .const, 65536, [(65536, 65536)], 1, false, false, false, false, .immediate⟩,
  ⟨0x230004, .u16, .const, 8192, [(8192, 8192)], 1, false, false, false, false, .immediate⟩,
  ⟨0x230005, .u16, .const, 1152, [(1152, 1152)], 1, false, false, false, false, .immediate⟩,
  ⟨0x230006, .u8, .const, 64, [(64, 64)], 1, false, false, false, false, .immediate⟩,
  ⟨0x230101, .u16, .ro, 0, [(0, 20480)], 1, false, false, false, false, .immediate⟩,
  ⟨0x230102, .u8, .rw, 0, [(0, 15)], 1, false, true, false, false, .immediate⟩,
  ⟨0x230103, .u32, .ro, 0, [(0, 4294967295)], 1, false, false, false, false, .immediate⟩,
  ⟨0x230104, .u32, .ro, 0, [(0, 83886080)], 1, false, false, false, false, .immediate⟩,
  ⟨0x230105, .u32, .ro, 0, [(0, 83886080)], 1, false, false, false, false, .immediate⟩,
  ⟨0x230201, .u64, .rw, 0, [(0, 0)], 1, true, false, false, false, .immediate⟩,
  ⟨0x230202, .u64, .rw, 0, [(0, 0)], 1, true, false, false, false, .immediate⟩,
  ⟨0x230203, .u64, .rw, 0, [(0, 0)], 1, true, false, false, false, .immediate⟩,
  ⟨0x230204, .u64, .rw, 0, [(0, 0)], 1, true, false, false, false, .immediate⟩,
  ⟨0x230205, .u64, .rw, 0, [(0, 0)], 1, true, false, false, false, .immediate⟩,
  ⟨0x230206, .u32, .rw, 0, [(0, 0)], 1, true, false, false, false, .immediate⟩,
  ⟨0x230207, .u64, .rw, 0, [(0, 0)], 1, true, false, false, false, .immediate⟩,
  ⟨0x230208, .u64, .rw, 0, [(0, 0)], 1, true, false, false, false, .immediate⟩,
  ⟨0x230209, .u64, .rw, 0, [(0, 0)], 1, true, false, false, false, .immediate⟩,
  ⟨0x23020A, .u64, .rw, 0, [(0, 0)], 1, true, false, false, false, .immediate⟩,
  ⟨0x23020B, .u32, .rw, 0, [(0, 0)], 1, true, false, false, false, .immediate⟩,
  ⟨0x23020C, .u32, .rw, 0, [(0, 0)], 1, true, false, false, false, .immediate⟩,
  ⟨0x23020D, .u64, .rw, 0, [(0, 0)], 1, true, false, false, false, .immediate⟩]
/-- Entries of the range 0x3400. -/
def entries34a : List Entry := [
  ⟨0x340001, .u16, .rw, 32, [(0, 65535)], 1, false, false, false, false, .atOpen⟩,
  ⟨0x340002, .u8, .rw, 0, [(0, 1)], 1, false, false, false, false, .atOpen⟩,
  ⟨0x340003, .bool, .rw, 1, [(0, 1)], 1, false, false, false, false, .atOpen⟩,
  ⟨0x340004, .u8, .rw, 10, [(0, 24)], 1, false, false, false, false, .atOpen⟩,
  ⟨0x340005, .u8, .rw, 27, [(1, 31)], 1, false, false, false, false, .atOpen⟩,
  ⟨0x340006, .u16, .rw, 64, [(0, 65535)], 1, false, false, false, false, .atOpen⟩,
  ⟨0x340007, .u16, .rw, 1, [(0, 65535)], 1, false, false, false, false, .atOpen⟩,
  ⟨0x340008, .u16, .wo, 0, [(0, 4095), (65535, 65535)], 1, false, false, false, false, .immediate⟩,
  ⟨0x340009, .bool, .wo, 0, [(0, 1)], 1, false, false, false, false, .immediate⟩,
  ⟨0x34000A, .u8, .const, 4, [(4, 4)], 1, false, false, false, false, .immediate⟩,
  ⟨0x340101, .u16, .ro, 0, [(0, 4096)], 1, false, false, false, false, .immediate⟩,
  ⟨0x340102, .u64, .ro, 0, [(0, 18446744073709551615)], 1, false, false, false, false, .immediate⟩,
  ⟨0x340103, .u32, .ro, 0, [(0, 0), (64, 1048576)], 1, false, false, false, false, .immediate⟩,
  ⟨0x340104, .u64, .ro, 0, [(0, 18446744073709551615)], 1, false, false, false, false, .immediate⟩,
  ⟨0x340105, .u64, .rw, 0, [(0, 18446744073709551615)], 1, false, false, false, false, .immediate⟩,
  ⟨0x340201, .u16, .rw, 0, [(0, 4095)], 1, false, true, false, false, .immediate⟩,
  ⟨0x340202, .u8, .ro, 0, [(0, 4)], 1, false, false, false, false, .immediate⟩,
  ⟨0x340203, .u32, .ro, 0, [(0, 33554431)], 1, false, false, false, false, .immediate⟩,
  ⟨0x340204, .u16, .ro, 0, [(0, 65535)], 1, false, false, false, false, .immediate⟩,
  ⟨0x340205, .u16, .ro, 0, [(0, 256)], 1, false, false, false, false, .immediate⟩,
  ⟨0x340206, .u8, .ro, 0, [(0, 250)], 1, false, false, false, false, .immediate⟩,
  ⟨0x340207, .f32, .ro, 0, [(0, 4294967295)], 1, false, false, false, false, .immediate⟩,
  ⟨0x340208, .u64, .ro, 0, [(0, 18446744073709551615)], 1, false, false, false, false, .immediate⟩,
  ⟨0x340301, .u32, .rw, 0, [(0, 0)], 1, true, false, false, false, .immediate⟩,
  ⟨0x340302, .u32, .rw, 0, [(0, 0)], 1, true, false, false, false, .immediate⟩,
  ⟨0x340303, .u32, .rw, 0, [(0, 0)], 1, true, false, false, false, .immediate⟩,
  ⟨0x340304, .u32, .rw, 0, [(0, 0)], 1, true, false, false, false, .immediate⟩,
  ⟨0x340305, .u32, .rw, 0, [(0, 0)], 1, true, false, false, false, .immediate⟩,
  ⟨0x340306, .u32, .rw, 0, [(0, 0)], 1, true, false, false, false, .immediate⟩,
  ⟨0x340307, .u32, .rw, 0, [(0, 0)], 1, true, false, false, false, .immediate⟩]
/-- Entries of the range 0x3400. -/
def entries34b : List Entry := [
  ⟨0x340308, .u32, .rw, 0, [(0, 0)], 1, true, false, false, false, .immediate⟩,
  ⟨0x340309, .u32, .rw, 0, [(0, 0)], 1, true, false, false, false, .immediate⟩,
  ⟨0x34030A, .u32, .rw, 0, [(0, 0)], 1, true, false, false, false, .immediate⟩,
  ⟨0x34030B, .u32, .rw, 0, [(0, 0)], 1, true, false, false, false, .immediate⟩,
  ⟨0x34030C, .u32, .rw, 0, [(0, 0)], 1, true, false, false, false, .immediate⟩,
  ⟨0x34030D, .u32, .rw, 0, [(0, 0)], 1, true, false, false, false, .immediate⟩,
  ⟨0x34030E, .u32, .rw, 0, [(0, 0)], 1, true, false, false, false, .immediate⟩,
  ⟨0x34030F, .u32, .rw, 0, [(0, 0)], 1, true, false, false, false, .immediate⟩,
  ⟨0x340310, .u32, .rw, 0, [(0, 0)], 1, true, false, false, false, .immediate⟩,
  ⟨0x340311, .u32, .rw, 0, [(0, 0)], 1, true, false, false, false, .immediate⟩,
  ⟨0x340312, .u32, .rw, 0, [(0, 0)], 1, true, false, false, false, .immediate⟩,
  ⟨0x340313, .u32, .rw, 0, [(0, 0)], 1, true, false, false, false, .immediate⟩,
  ⟨0x340314, .u32, .rw, 0, [(0, 0)], 1, true, false, false, false, .immediate⟩,
  ⟨0x340315, .u32, .rw, 0, [(0, 0)], 1, true, false, false, false, .immediate⟩,
  ⟨0x340316, .u32, .rw, 0, [(0, 0)], 1, true, false, false, false, .immediate⟩,
  ⟨0x340317, .u32, .rw, 0, [(0, 0)], 1, true, false, false, false, .immediate⟩,
  ⟨0x340318, .u32, .rw, 0, [(0, 0)], 1, true, false, false, false, .immediate⟩,
  ⟨0x340319, .u32, .rw, 0, [(0, 0)], 1, true, false, false, false, .immediate⟩,
  ⟨0x34031A, .u32, .rw, 0, [(0, 0)], 1, true, false, false, false, .immediate⟩,
  ⟨0x34031B, .u32, .rw, 0, [(0, 0)], 1, true, false, false, false, .immediate⟩,
  ⟨0x34031C, .u32, .rw, 0, [(0, 0)], 1, true, false, false, false, .immediate⟩,
  ⟨0x34031D, .u32, .rw, 0, [(0, 0)], 1, true, false, false, false, .immediate⟩,
  ⟨0x34031E, .u32, .rw, 0, [(0, 0)], 1, true, false, false, false, .immediate⟩,
  ⟨0x34031F, .u32, .rw, 0, [(0, 0)], 1, true, false, false, false, .immediate⟩,
  ⟨0x340320, .u32, .rw, 0, [(0, 0)], 1, true, false, false, false, .immediate⟩,
  ⟨0x340401, .u64, .rw, 0, [(0, 0)], 1, true, false, false, false, .immediate⟩,
  ⟨0x340402, .u32, .rw, 0, [(0, 0)], 1, true, false, false, false, .immediate⟩,
  ⟨0x340403, .u32, .rw, 0, [(0, 0)], 1, true, false, false, false, .immediate⟩,
  ⟨0x340404, .u32, .rw, 0, [(0, 0)], 1, true, false, false, false, .immediate⟩,
  ⟨0x340405, .u32, .rw, 0, [(0, 0)], 1, true, false, false, false, .immediate⟩]
/-- Entries of the range 0x3400. -/
def entries34c : List Entry := [
  ⟨0x340406, .u32, .rw, 0, [(0, 0)], 1, true, false, false, false, .immediate⟩,
  ⟨0x340407, .u64, .rw, 0, [(0, 0)], 1, true, false, false, false, .immediate⟩,
  ⟨0x340408, .u32, .rw, 0, [(0, 0)], 1, true, false, false, false, .immediate⟩]
/-- Entries of the range 0x4000. -/
def entries40a : List Entry := [
  ⟨0x400001, .u16, .const, 3472, [(3472, 3472)], 1, false, false, false, false, .immediate⟩,
  ⟨0x400002, .u8, .const, 56, [(56, 56)], 1, false, false, false, false, .immediate⟩,
  ⟨0x400003, .u16, .const, 320, [(320, 320)], 1, false, false, false, false, .immediate⟩,
  ⟨0x400004, .u16, .const, 256, [(256, 256)], 1, false, false, false, false, .immediate⟩,
  ⟨0x400005, .u16, .ro, 0, [(0, 2000)], 1, false, false, false, false, .immediate⟩,
  ⟨0x400101, .u16, .rw, 512, [(256, 2048)], 256, false, false, false, false, .atLoad⟩,
  ⟨0x400102, .u16, .rw, 100, [(10, 10000)], 1, false, false, false, false, .atOpen⟩,
  ⟨0x400103, .bool, .rw, 1, [(0, 1)], 1, false, false, false, false, .atOpen⟩,
  ⟨0x400104, .u16, .rw, 100, [(0, 500)], 1, false, false, false, false, .atOpen⟩,
  ⟨0x400105, .u32, .rw, 86400, [(0, 0), (3600, 2592000)], 1, false, false, false, false, .atOpen⟩,
  ⟨0x400106, .bool, .rw, 1, [(0, 1)], 1, false, false, false, false, .atOpen⟩,
  ⟨0x400201, .u8, .rw, 0, [(0, 15)], 1, false, true, false, false, .immediate⟩,
  ⟨0x400202, .u32, .ro, 0, [(0, 4294967295)], 1, false, false, false, false, .immediate⟩,
  ⟨0x400203, .u32, .ro, 0, [(0, 4294967295)], 1, false, false, false, false, .immediate⟩,
  ⟨0x400204, .u32, .ro, 0, [(0, 83886080)], 1, false, false, false, false, .immediate⟩,
  ⟨0x400205, .u32, .ro, 0, [(0, 4718592)], 1, false, false, false, false, .immediate⟩,
  ⟨0x400206, .u32, .ro, 0, [(0, 4294967295)], 1, false, false, false, false, .immediate⟩,
  ⟨0x400207, .u32, .ro, 0, [(0, 4294967295)], 1, false, false, false, false, .immediate⟩,
  ⟨0x400208, .bool, .ro, 0, [(0, 1)], 1, false, false, false, false, .immediate⟩,
  ⟨0x400301, .u16, .rw, 0, [(0, 575)], 1, false, true, false, false, .immediate⟩,
  ⟨0x400302, .u32, .ro, 0, [(0, 4294967295)], 1, false, false, false, false, .immediate⟩,
  ⟨0x400303, .u32, .ro, 0, [(0, 4294967295)], 1, false, false, false, false, .immediate⟩,
  ⟨0x400401, .u64, .rw, 0, [(0, 0)], 1, true, false, false, false, .immediate⟩,
  ⟨0x400402, .u32, .rw, 0, [(0, 0)], 1, true, false, false, false, .immediate⟩,
  ⟨0x400403, .u32, .rw, 0, [(0, 0)], 1, true, false, false, false, .immediate⟩,
  ⟨0x400404, .u64, .rw, 0, [(0, 0)], 1, true, false, false, false, .immediate⟩,
  ⟨0x400405, .u32, .rw, 0, [(0, 0)], 1, true, false, false, false, .immediate⟩,
  ⟨0x400406, .u32, .rw, 0, [(0, 0)], 1, true, false, false, false, .immediate⟩,
  ⟨0x400407, .u64, .rw, 0, [(0, 0)], 1, true, false, false, false, .immediate⟩,
  ⟨0x400408, .u32, .rw, 0, [(0, 0)], 1, true, false, false, false, .immediate⟩]
/-- Entries of the range 0x4000. -/
def entries40b : List Entry := [
  ⟨0x400409, .u32, .rw, 0, [(0, 0)], 1, true, false, false, false, .immediate⟩,
  ⟨0x40040A, .u32, .rw, 0, [(0, 0)], 1, true, false, false, false, .immediate⟩,
  ⟨0x40040B, .u64, .rw, 0, [(0, 0)], 1, true, false, false, false, .immediate⟩,
  ⟨0x40040C, .u32, .rw, 0, [(0, 0)], 1, true, false, false, false, .immediate⟩,
  ⟨0x40040D, .u32, .rw, 0, [(0, 0)], 1, true, false, false, false, .immediate⟩,
  ⟨0x400501, .u8, .const, 16, [(16, 16)], 1, false, false, false, false, .immediate⟩,
  ⟨0x400502, .u8, .rw, 0, [(0, 3)], 1, false, true, false, false, .immediate⟩,
  ⟨0x400503, .u8, .ro, 0, [(0, 17)], 1, false, false, false, false, .immediate⟩,
  ⟨0x400504, .u64, .ro, 0, [(0, 18446744073709551615)], 1, false, false, false, false, .immediate⟩,
  ⟨0x400505, .u16, .ro, 0, [(0, 65535)], 1, false, false, false, false, .immediate⟩,
  ⟨0x400506, .u64, .rw, 0, [(0, 0)], 1, true, false, false, false, .immediate⟩,
  ⟨0x400507, .u32, .rw, 0, [(0, 0)], 1, true, false, false, false, .immediate⟩]
/-- Entries of the range 0x5000. -/
def entries50a : List Entry := [
  ⟨0x500001, .u8, .const, 8, [(8, 8)], 1, false, false, false, false, .immediate⟩,
  ⟨0x500002, .u8, .const, 4, [(4, 4)], 1, false, false, false, false, .immediate⟩,
  ⟨0x500003, .u32, .const, 56000, [(56000, 56000)], 1, false, false, false, false, .immediate⟩,
  ⟨0x500004, .u8, .const, 3, [(3, 3)], 1, false, false, false, false, .immediate⟩,
  ⟨0x500005, .u16, .const, 512, [(512, 512)], 1, false, false, false, false, .immediate⟩,
  ⟨0x500006, .u8, .const, 8, [(8, 8)], 1, false, false, false, false, .immediate⟩,
  ⟨0x500007, .u8, .const, 32, [(32, 32)], 1, false, false, false, false, .immediate⟩,
  ⟨0x500101, .u8, .rws, 1, [(1, 32)], 1, false, false, false, false, .atTraining⟩,
  ⟨0x500102, .u8, .rws, 1, [(1, 16)], 1, false, false, false, false, .atTraining⟩,
  ⟨0x500103, .u8, .rws, 1, [(1, 16)], 1, false, false, false, false, .atTraining⟩,
  ⟨0x500104, .domain, .rws, 0, [], 1, false, false, false, false, .atTraining⟩,
  ⟨0x500105, .u32, .ro, 0, [(0, 4294967295)], 1, false, false, false, false, .immediate⟩,
  ⟨0x500106, .u16, .ro, 0, [(0, 65535)], 1, false, false, false, false, .immediate⟩,
  ⟨0x500107, .u8, .rws, 0, [(0, 2)], 1, false, false, false, false, .atTraining⟩,
  ⟨0x500108, .u8, .rws, 0, [(0, 2)], 1, false, false, false, false, .atTraining⟩,
  ⟨0x500109, .u16, .rws, 0, [(0, 8191)], 1, false, false, false, false, .atTraining⟩,
  ⟨0x50010A, .u16, .rws, 0, [(0, 8191)], 1, false, false, false, false, .atTraining⟩,
  ⟨0x50010B, .u8, .rws, 2, [(1, 2)], 1, false, false, false, false, .atTraining⟩,
  ⟨0x50010C, .u8, .rws, 255, [(0, 255)], 1, false, false, false, false, .immediate⟩,
  ⟨0x500201, .u8, .rw, 0, [(0, 1)], 1, false, false, false, false, .atCommit⟩,
  ⟨0x500202, .domain, .rw, 0, [], 1, false, false, false, false, .atCommit⟩,
  ⟨0x500203, .bool, .wo, 0, [(0, 1)], 1, false, false, false, false, .immediate⟩,
  ⟨0x500204, .u8, .rw, 100, [(8, 127)], 1, false, false, false, false, .atCommit⟩,
  ⟨0x500301, .u8, .rw, 0, [(0, 7)], 1, false, true, false, false, .immediate⟩,
  ⟨0x500302, .u8, .ro, 0, [(0, 4)], 1, false, false, false, false, .immediate⟩,
  ⟨0x500303, .u8, .ro, 0, [(0, 2)], 1, false, false, false, false, .immediate⟩,
  ⟨0x500304, .u16, .ro, 0, [(0, 8191)], 1, false, false, false, false, .immediate⟩,
  ⟨0x500305, .u8, .ro, 0, [(0, 7)], 1, false, false, false, false, .immediate⟩,
  ⟨0x500306, .u16, .ro, 0, [(0, 65535)], 1, false, false, false, false, .immediate⟩,
  ⟨0x500307, .u64, .ro, 0, [(0, 18446744073709551615)], 1, false, false, false, false, .immediate⟩]
/-- Entries of the range 0x5000. -/
def entries50b : List Entry := [
  ⟨0x500308, .u32, .ro, 0, [(0, 4294967295)], 1, false, false, false, false, .immediate⟩,
  ⟨0x500309, .u32, .ro, 0, [(0, 4294967295)], 1, false, false, false, false, .immediate⟩,
  ⟨0x50030A, .u32, .ro, 0, [(0, 4294967295)], 1, false, false, false, false, .immediate⟩,
  ⟨0x50030B, .u32, .ro, 0, [(0, 4294967295)], 1, false, false, false, false, .immediate⟩,
  ⟨0x500401, .u64, .rw, 0, [(0, 0)], 1, true, false, false, false, .immediate⟩,
  ⟨0x500402, .u64, .rw, 0, [(0, 0)], 1, true, false, false, false, .immediate⟩,
  ⟨0x500403, .u64, .rw, 0, [(0, 0)], 1, true, false, false, false, .immediate⟩,
  ⟨0x500404, .u32, .rw, 0, [(0, 0)], 1, true, false, false, false, .immediate⟩,
  ⟨0x500405, .u32, .rw, 0, [(0, 0)], 1, true, false, false, false, .immediate⟩,
  ⟨0x500406, .u32, .rw, 0, [(0, 0)], 1, true, false, false, false, .immediate⟩,
  ⟨0x500407, .u32, .rw, 0, [(0, 0)], 1, true, false, false, false, .immediate⟩,
  ⟨0x500408, .u32, .rw, 0, [(0, 0)], 1, true, false, false, false, .immediate⟩]
/-- Entries of the range 0x5100. -/
def entries51 : List Entry := [
  ⟨0x510001, .u8, .const, 5, [(5, 5)], 1, false, false, false, false, .immediate⟩,
  ⟨0x510002, .u16, .rw, 2048, [(512, 8192)], 512, false, false, false, false, .atLoad⟩,
  ⟨0x510003, .u16, .rw, 8192, [(256, 16384)], 1, false, false, false, false, .atLoad⟩,
  ⟨0x510004, .u8, .rw, 3, [(0, 15)], 1, false, false, false, false, .atOpen⟩,
  ⟨0x510005, .u16, .rw, 64, [(1, 1024)], 1, false, false, false, false, .atOpen⟩,
  ⟨0x510006, .u16, .const, 16384, [(16384, 16384)], 1, false, false, false, false, .immediate⟩,
  ⟨0x510007, .u8, .const, 8, [(8, 8)], 1, false, false, false, false, .immediate⟩,
  ⟨0x510008, .u32, .const, 1048640, [(1048640, 1048640)], 1, false, false, false, false, .immediate⟩,
  ⟨0x510009, .u8, .const, 64, [(64, 64)], 1, false, false, false, false, .immediate⟩,
  ⟨0x510101, .u8, .rw, 0, [(0, 4)], 1, false, true, false, false, .immediate⟩,
  ⟨0x510102, .u64, .ro, 0, [(0, 18446744073709551615)], 1, false, false, false, false, .immediate⟩,
  ⟨0x510103, .u64, .ro, 0, [(0, 18446744073709551615)], 1, false, false, false, false, .immediate⟩,
  ⟨0x510104, .u64, .ro, 0, [(0, 18446744073709551615)], 1, false, false, false, false, .immediate⟩,
  ⟨0x510105, .u32, .ro, 0, [(0, 4294967295)], 1, false, false, false, false, .immediate⟩,
  ⟨0x510106, .u32, .ro, 0, [(0, 4294967295)], 1, false, false, false, false, .immediate⟩,
  ⟨0x510201, .u32, .rw, 0, [(0, 0)], 1, true, false, false, false, .immediate⟩,
  ⟨0x510202, .u32, .rw, 0, [(0, 0)], 1, true, false, false, false, .immediate⟩,
  ⟨0x510203, .u32, .rw, 0, [(0, 0)], 1, true, false, false, false, .immediate⟩,
  ⟨0x510204, .u32, .rw, 0, [(0, 0)], 1, true, false, false, false, .immediate⟩,
  ⟨0x510205, .u32, .rw, 0, [(0, 0)], 1, true, false, false, false, .immediate⟩,
  ⟨0x510206, .u64, .rw, 0, [(0, 0)], 1, true, false, false, false, .immediate⟩,
  ⟨0x510207, .u32, .rw, 0, [(0, 0)], 1, true, false, false, false, .immediate⟩,
  ⟨0x510208, .u64, .rw, 0, [(0, 0)], 1, true, false, false, false, .immediate⟩,
  ⟨0x510209, .u32, .rw, 0, [(0, 0)], 1, true, false, false, false, .immediate⟩,
  ⟨0x51020A, .u64, .rw, 0, [(0, 0)], 1, true, false, false, false, .immediate⟩,
  ⟨0x51020B, .u32, .rw, 0, [(0, 0)], 1, true, false, false, false, .immediate⟩]
/-- Entries of the range 0x5800. -/
def entries58a : List Entry := [
  ⟨0x580001, .u16, .rws, 0, [(0, 8191)], 1, false, false, false, false, .immediate⟩,
  ⟨0x580002, .u16, .rws, 65535, [(0, 8191), (65535, 65535)], 1, false, false, false, false, .immediate⟩,
  ⟨0x580003, .u16, .ro, 65535, [(0, 8191), (65535, 65535)], 1, false, false, false, false, .immediate⟩,
  ⟨0x580004, .u8, .ro, 0, [(0, 6)], 1, false, false, false, false, .immediate⟩,
  ⟨0x580005, .steptime, .ro, 0, [(0, 340282366920938463463374607431768211455)], 1, false, false, false, false, .immediate⟩,
  ⟨0x580006, .u64, .ro, 0, [(0, 18446744073709551613)], 1, false, false, false, false, .immediate⟩,
  ⟨0x580101, .u16, .rw, 200, [(100, 10000)], 1, false, false, false, false, .atOpen⟩,
  ⟨0x580102, .u16, .rw, 50, [(5, 10000)], 1, false, false, false, false, .atOpen⟩,
  ⟨0x580103, .u16, .rws, 1000, [(100, 10000)], 1, false, false, false, false, .immediate⟩,
  ⟨0x580104, .u8, .rws, 5, [(2, 32)], 1, false, false, false, false, .immediate⟩,
  ⟨0x580105, .u32, .rw, 100, [(1, 4294967295)], 1, false, false, false, false, .atOpen⟩,
  ⟨0x580106, .u32, .rw, 10000, [(1, 4294967295)], 1, false, false, false, false, .atOpen⟩,
  ⟨0x580107, .u32, .rw, 30000000, [(1, 4294967295)], 1, false, false, false, false, .atOpen⟩,
  ⟨0x580108, .u32, .rws, 30, [(0, 86400)], 1, false, false, false, false, .immediate⟩,
  ⟨0x580201, .u16, .ro, 0, [(0, 8192)], 1, false, false, false, false, .immediate⟩,
  ⟨0x580202, .u16, .ro, 0, [(0, 8192)], 1, false, false, false, false, .immediate⟩,
  ⟨0x580203, .u16, .ro, 0, [(0, 8192)], 1, false, false, false, false, .immediate⟩,
  ⟨0x580204, .u16, .ro, 0, [(0, 8192)], 1, false, false, false, false, .immediate⟩,
  ⟨0x580205, .u16, .ro, 0, [(0, 8191), (65535, 65535)], 1, false, false, false, false, .immediate⟩,
  ⟨0x580206, .u16, .ro, 0, [(0, 8192)], 1, false, false, false, false, .immediate⟩,
  ⟨0x580207, .u32, .ro, 0, [(0, 4294967295)], 1, false, false, false, false, .immediate⟩,
  ⟨0x580301, .u8, .rws, 0, [(0, 127)], 1, false, false, false, false, .immediate⟩,
  ⟨0x580302, .bool, .ro, 0, [(0, 1)], 1, false, false, false, false, .immediate⟩,
  ⟨0x580303, .i64, .ro, 0, [(0, 18446744073709551615)], 1, false, false, false, false, .immediate⟩,
  ⟨0x580304, .u64, .ro, 0, [(0, 18446744073709551615)], 1, false, false, false, false, .immediate⟩,
  ⟨0x580401, .u64, .rw, 0, [(0, 0)], 1, true, false, false, false, .immediate⟩,
  ⟨0x580402, .u32, .rw, 0, [(0, 0)], 1, true, false, false, false, .immediate⟩,
  ⟨0x580403, .u32, .rw, 0, [(0, 0)], 1, true, false, false, false, .immediate⟩,
  ⟨0x580404, .u32, .rw, 0, [(0, 0)], 1, true, false, false, false, .immediate⟩,
  ⟨0x580405, .u32, .rw, 0, [(0, 0)], 1, true, false, false, false, .immediate⟩]
/-- Entries of the range 0x5800. -/
def entries58b : List Entry := [
  ⟨0x580406, .u32, .rw, 0, [(0, 0)], 1, true, false, false, false, .immediate⟩,
  ⟨0x580407, .u64, .rw, 0, [(0, 0)], 1, true, false, false, false, .immediate⟩,
  ⟨0x580408, .u64, .rw, 0, [(0, 0)], 1, true, false, false, false, .immediate⟩,
  ⟨0x580409, .u32, .rw, 0, [(0, 0)], 1, true, false, false, false, .immediate⟩,
  ⟨0x58040A, .u32, .rw, 0, [(0, 0)], 1, true, false, false, false, .immediate⟩,
  ⟨0x58040B, .u32, .rw, 0, [(0, 0)], 1, true, false, false, false, .immediate⟩,
  ⟨0x580501, .u16, .const, 256, [(256, 256)], 1, false, false, false, false, .immediate⟩,
  ⟨0x580502, .u16, .const, 4088, [(4088, 4088)], 1, false, false, false, false, .immediate⟩]
/-- Entries of the range 0x6100. -/
def entries61 : List Entry := [
  ⟨0x610001, .u8, .ro, 0, [(0, 3)], 1, false, false, false, false, .immediate⟩,
  ⟨0x610002, .u64, .ro, 0, [(0, 18446744073709551615)], 1, false, false, false, false, .immediate⟩,
  ⟨0x610003, .u32, .ro, 0, [(0, 4294967295)], 1, false, false, false, false, .immediate⟩,
  ⟨0x610004, .u64, .ro, 0, [(0, 18446744073709551615)], 1, false, false, false, false, .immediate⟩,
  ⟨0x610005, .bool, .ro, 0, [(0, 1)], 1, false, false, false, false, .immediate⟩,
  ⟨0x610006, .bool, .ro, 0, [(0, 1)], 1, false, false, false, false, .immediate⟩,
  ⟨0x610007, .u16, .ro, 0, [(0, 4088)], 1, false, false, false, false, .immediate⟩,
  ⟨0x610008, .u64, .ro, 0, [(0, 18446744073709551615)], 1, false, false, false, false, .immediate⟩,
  ⟨0x610009, .u16, .ro, 0, [(0, 65535)], 1, false, false, false, false, .immediate⟩,
  ⟨0x61000A, .u16, .ro, 0, [(0, 8191)], 1, false, false, false, false, .immediate⟩,
  ⟨0x61000B, .u64, .ro, 0, [(0, 18446744073709551615)], 1, false, false, false, false, .immediate⟩,
  ⟨0x61000C, .u32, .const, 67108864, [(67108864, 67108864)], 1, false, false, false, false, .immediate⟩,
  ⟨0x61000D, .u16, .ro, 0, [(0, 65535)], 1, false, false, false, false, .immediate⟩,
  ⟨0x610101, .u64, .rw, 0, [(0, 0)], 1, true, false, false, false, .immediate⟩,
  ⟨0x610102, .u32, .rw, 0, [(0, 0)], 1, true, false, false, false, .immediate⟩,
  ⟨0x610103, .u64, .rw, 0, [(0, 0)], 1, true, false, false, false, .immediate⟩,
  ⟨0x610104, .u32, .rw, 0, [(0, 0)], 1, true, false, false, false, .immediate⟩,
  ⟨0x610105, .u32, .rw, 0, [(0, 0)], 1, true, false, false, false, .immediate⟩,
  ⟨0x610106, .u32, .rw, 0, [(0, 0)], 1, true, false, false, false, .immediate⟩,
  ⟨0x610107, .u64, .rw, 0, [(0, 0)], 1, true, false, false, false, .immediate⟩,
  ⟨0x610108, .u32, .rw, 0, [(0, 0)], 1, true, false, false, false, .immediate⟩,
  ⟨0x610109, .u32, .rw, 0, [(0, 0)], 1, true, false, false, false, .immediate⟩,
  ⟨0x61010A, .u32, .rw, 0, [(0, 0)], 1, true, false, false, false, .immediate⟩]
/-- Entries of the range 0x6000. -/
def entries60 : List Entry := [
  ⟨0x600001, .u8, .ro, 0, [(0, 5)], 1, false, false, false, false, .immediate⟩,
  ⟨0x600002, .u8, .ro, 0, [(0, 0), (1, 1), (2, 2), (4, 4), (8, 8), (16, 16)], 1, false, false, false, false, .immediate⟩,
  ⟨0x600003, .u16, .ro, 1, [(1, 65535)], 1, false, false, false, false, .immediate⟩,
  ⟨0x600004, .u8, .const, 64, [(64, 64)], 1, false, false, false, false, .immediate⟩,
  ⟨0x600005, .u8, .const, 64, [(64, 64)], 1, false, false, false, false, .immediate⟩,
  ⟨0x600006, .u8, .const, 64, [(64, 64)], 1, false, false, false, false, .immediate⟩,
  ⟨0x600101, .u16, .rw, 1, [(1, 1000)], 1, false, false, false, false, .immediate⟩,
  ⟨0x600102, .u16, .rw, 4, [(1, 1000)], 1, false, false, false, false, .immediate⟩,
  ⟨0x600103, .u16, .rw, 16, [(1, 1000)], 1, false, false, false, false, .immediate⟩,
  ⟨0x600104, .u16, .rw, 64, [(1, 1000)], 1, false, false, false, false, .immediate⟩,
  ⟨0x600105, .u16, .rw, 50, [(10, 1000)], 1, false, false, false, false, .immediate⟩,
  ⟨0x600106, .u16, .rw, 0, [(0, 1000)], 1, false, false, false, false, .immediate⟩,
  ⟨0x600201, .u32, .rw, 0, [(0, 0)], 1, true, false, false, false, .immediate⟩,
  ⟨0x600202, .u32, .rw, 0, [(0, 0)], 1, true, false, false, false, .immediate⟩,
  ⟨0x600203, .u32, .rw, 0, [(0, 0)], 1, true, false, false, false, .immediate⟩,
  ⟨0x600204, .u32, .rw, 0, [(0, 0)], 1, true, false, false, false, .immediate⟩,
  ⟨0x600205, .u32, .rw, 0, [(0, 0)], 1, true, false, false, false, .immediate⟩,
  ⟨0x600206, .u32, .rw, 0, [(0, 0)], 1, true, false, false, false, .immediate⟩,
  ⟨0x600207, .u32, .rw, 0, [(0, 0)], 1, true, false, false, false, .immediate⟩,
  ⟨0x600208, .u32, .rw, 0, [(0, 0)], 1, true, false, false, false, .immediate⟩,
  ⟨0x600209, .u32, .rw, 0, [(0, 0)], 1, true, false, false, false, .immediate⟩,
  ⟨0x60020A, .u32, .rw, 0, [(0, 0)], 1, true, false, false, false, .immediate⟩,
  ⟨0x60020B, .u32, .rw, 0, [(0, 0)], 1, true, false, false, false, .immediate⟩,
  ⟨0x60020C, .u32, .rw, 0, [(0, 0)], 1, true, false, false, false, .immediate⟩]
/-- Entries of the range 0x7000. -/
def entries70 : List Entry := [
  ⟨0x700001, .bool, .rws, 0, [(0, 1)], 1, false, false, false, false, .atTraining⟩,
  ⟨0x700002, .u16, .rws, 0, [(0, 8191)], 1, false, false, false, false, .atTraining⟩,
  ⟨0x700003, .u8, .rws, 0, [(0, 1)], 1, false, false, false, false, .atTraining⟩,
  ⟨0x700004, .u8, .ro, 0, [(0, 6)], 1, false, false, false, false, .immediate⟩,
  ⟨0x700005, .u16, .rws, 1000, [(100, 10000)], 1, false, false, false, false, .immediate⟩,
  ⟨0x700006, .u8, .rws, 5, [(2, 32)], 1, false, false, false, false, .immediate⟩,
  ⟨0x700007, .u32, .rw, 2000, [(100, 1000000)], 1, false, false, false, false, .immediate⟩,
  ⟨0x700008, .bool, .wo, 0, [(0, 1)], 1, false, false, false, false, .immediate⟩,
  ⟨0x700009, .u32, .ro, 0, [(0, 4294967295)], 1, false, false, false, false, .immediate⟩,
  ⟨0x70000A, .u16, .ro, 0, [(0, 1000)], 1, false, false, false, false, .immediate⟩,
  ⟨0x700101, .u8, .rw, 0, [(0, 3)], 1, false, true, false, false, .immediate⟩,
  ⟨0x700102, .u8, .ro, 0, [(0, 4)], 1, false, false, false, false, .immediate⟩,
  ⟨0x700103, .u16, .ro, 0, [(0, 65535)], 1, false, false, false, false, .immediate⟩,
  ⟨0x700201, .u64, .rw, 0, [(0, 0)], 1, true, false, false, false, .immediate⟩,
  ⟨0x700202, .u64, .rw, 0, [(0, 0)], 1, true, false, false, false, .immediate⟩,
  ⟨0x700203, .u32, .rw, 0, [(0, 0)], 1, true, false, false, false, .immediate⟩,
  ⟨0x700204, .u32, .rw, 0, [(0, 0)], 1, true, false, false, false, .immediate⟩,
  ⟨0x700205, .u64, .rw, 0, [(0, 0)], 1, true, false, false, false, .immediate⟩,
  ⟨0x700206, .u32, .rw, 0, [(0, 0)], 1, true, false, false, false, .immediate⟩,
  ⟨0x700207, .u32, .rw, 0, [(0, 0)], 1, true, false, false, false, .immediate⟩,
  ⟨0x700208, .u32, .rw, 0, [(0, 0)], 1, true, false, false, false, .immediate⟩,
  ⟨0x700209, .u64, .rw, 0, [(0, 0)], 1, true, false, false, false, .immediate⟩,
  ⟨0x70020A, .u32, .rw, 0, [(0, 0)], 1, true, false, false, false, .immediate⟩,
  ⟨0x70020B, .u64, .rw, 0, [(0, 0)], 1, true, false, false, false, .immediate⟩,
  ⟨0x70020C, .u64, .rw, 0, [(0, 0)], 1, true, false, false, false, .immediate⟩,
  ⟨0x70020D, .u32, .rw, 0, [(0, 0)], 1, true, false, false, false, .immediate⟩,
  ⟨0x700301, .u32, .ro, 0, [(0, 4294967295)], 1, false, false, false, false, .immediate⟩,
  ⟨0x700302, .u64, .ro, 0, [(0, 18446744073709551615)], 1, false, false, false, false, .immediate⟩]
/-- Entries of the range 0x1000. -/
def entries10 : List Entry := [
  ⟨0x100001, .string, .const, 0, [], 1, false, false, false, false, .immediate⟩,
  ⟨0x100002, .string, .const, 0, [], 1, false, false, false, false, .immediate⟩,
  ⟨0x100003, .string, .const, 0, [], 1, false, false, false, false, .immediate⟩,
  ⟨0x100004, .string, .const, 0, [], 1, false, false, false, false, .immediate⟩,
  ⟨0x100005, .u16, .const, 7607, [(0, 65535)], 1, false, false, false, true, .immediate⟩,
  ⟨0x100006, .u16, .const, 53760, [(0, 65535)], 1, false, false, false, true, .immediate⟩,
  ⟨0x100007, .u8, .const, 1, [(0, 255)], 1, false, false, false, true, .immediate⟩,
  ⟨0x100008, .u8, .const, 2, [(2, 2)], 1, false, false, false, true, .immediate⟩,
  ⟨0x100009, .u8, .const, 3, [(3, 3)], 1, false, false, false, true, .immediate⟩,
  ⟨0x10000A, .u32, .const, 0, [(0, 4294967295)], 1, false, false, false, true, .immediate⟩,
  ⟨0x10000B, .u64, .const, 0, [(0, 281474976710655)], 1, false, false, false, true, .immediate⟩,
  ⟨0x100101, .u16, .rws, 0, [(0, 511)], 1, false, false, false, true, .atReset⟩,
  ⟨0x100801, .u8, .ro, 2, [(0, 0), (2, 10)], 1, false, false, false, true, .immediate⟩,
  ⟨0x100802, .u64, .ro, 196865, [(0, 18446744073709551615)], 1, false, false, false, true, .immediate⟩,
  ⟨0x100803, .u64, .ro, 262402, [(0, 18446744073709551615)], 1, false, false, false, true, .immediate⟩,
  ⟨0x100804, .u64, .ro, 214748692739, [(0, 18446744073709551615)], 1, false, false, false, true, .immediate⟩,
  ⟨0x100805, .u64, .ro, 206209155332, [(0, 18446744073709551615)], 1, false, false, false, true, .immediate⟩,
  ⟨0x100806, .u64, .ro, 412317319429, [(0, 18446744073709551615)], 1, false, false, false, true, .immediate⟩,
  ⟨0x100807, .u64, .ro, 219043856646, [(0, 18446744073709551615)], 1, false, false, false, true, .immediate⟩,
  ⟨0x100808, .u64, .ro, 223389221127, [(0, 18446744073709551615)], 1, false, false, false, true, .immediate⟩,
  ⟨0x100809, .u64, .ro, 150341288200, [(0, 18446744073709551615)], 1, false, false, false, true, .immediate⟩,
  ⟨0x10080A, .u64, .ro, 343614161161, [(0, 18446744073709551615)], 1, false, false, false, true, .immediate⟩]
/-- Entries of the range 0x1100. -/
def entries11 : List Entry := [
  ⟨0x110001, .u32, .rw, 0, [(0, 4294967295)], 1, false, false, false, false, .immediate⟩,
  ⟨0x110002, .u16, .ro, 0, [(0, 65535)], 1, false, false, false, false, .immediate⟩,
  ⟨0x110003, .domain, .ro, 0, [], 1, false, false, false, false, .immediate⟩,
  ⟨0x110004, .bool, .wo, 0, [(0, 1)], 1, false, false, false, false, .immediate⟩,
  ⟨0x110101, .u32, .ro, 0, [(0, 4294967295)], 1, false, false, false, false, .immediate⟩,
  ⟨0x110102, .u32, .ro, 0, [(0, 4294967295)], 1, false, false, false, false, .immediate⟩,
  ⟨0x110103, .domain, .ro, 0, [], 1, false, false, false, false, .immediate⟩,
  ⟨0x110104, .u32, .ro, 0, [(0, 4294967295)], 1, false, false, false, false, .immediate⟩,
  ⟨0x110105, .u32, .ro, 0, [(0, 4294967295)], 1, false, false, false, false, .immediate⟩,
  ⟨0x110106, .domain, .ro, 0, [], 1, false, false, false, false, .immediate⟩,
  ⟨0x110201, .u64, .wo, 0, [(0, 8589934591)], 1, false, false, false, false, .immediate⟩,
  ⟨0x110202, .u32, .wo, 0, [(0, 4294967295)], 1, false, false, false, false, .immediate⟩,
  ⟨0x110203, .u32, .wo, 0, [(0, 4294967295)], 1, false, false, false, false, .immediate⟩,
  ⟨0x110204, .u8, .ro, 0, [(0, 3)], 1, false, false, false, false, .immediate⟩,
  ⟨0x110205, .u16, .rws, 60, [(10, 3600)], 1, false, false, false, false, .immediate⟩,
  ⟨0x110206, .u16, .ro, 0, [(0, 65535)], 1, false, false, false, false, .immediate⟩,
  ⟨0x110207, .u32, .ro, 0, [(0, 4294967295)], 1, false, false, false, false, .immediate⟩,
  ⟨0x110208, .bool, .rws, 1, [(0, 1)], 1, false, false, false, false, .immediate⟩]
/-- Entries of the range 0x9000. -/
def entries90 : List Entry := [
  ⟨0x900001, .u64, .ro, 0, [(0, 18446744073709551615)], 1, false, false, false, false, .immediate⟩,
  ⟨0x900002, .u64, .ro, 0, [(0, 18446744073709551615)], 1, false, false, false, false, .immediate⟩,
  ⟨0x900003, .u64, .rw, 1, [(0, 18446744073709551615)], 1, false, true, false, false, .immediate⟩,
  ⟨0x900004, .domain, .ro, 0, [], 1, false, false, false, false, .immediate⟩,
  ⟨0x900005, .u32, .const, 262144, [(262144, 262144)], 1, false, false, false, false, .immediate⟩,
  ⟨0x900006, .u16, .rws, 1000, [(100, 10000)], 1, false, false, false, false, .immediate⟩,
  ⟨0x900007, .u32, .rw, 0, [(0, 0)], 1, true, false, false, false, .immediate⟩,
  ⟨0x900101, .bool, .wo, 0, [(0, 1)], 1, false, false, false, false, .immediate⟩,
  ⟨0x900102, .u32, .rw, 0, [(0, 0)], 1, true, false, false, false, .immediate⟩,
  ⟨0x900103, .u64, .rw, 0, [(0, 0)], 1, true, false, false, false, .immediate⟩,
  ⟨0x900104, .u32, .rw, 0, [(0, 0)], 1, true, false, false, false, .immediate⟩,
  ⟨0x900105, .u64, .rw, 0, [(0, 0)], 1, true, false, false, false, .immediate⟩,
  ⟨0x900106, .u64, .rw, 0, [(0, 0)], 1, true, false, false, false, .immediate⟩]
/-- Entries of the range 0xA000. -/
def entriesA0 : List Entry := [
  ⟨0xA00001, .u8, .ro, 0, [(0, 1)], 1, false, false, false, false, .immediate⟩,
  ⟨0xA00002, .u64, .ro, 0, [(0, 18446744073709551615)], 1, false, false, false, false, .immediate⟩,
  ⟨0xA00003, .u32, .ro, 0, [(0, 4294967295)], 1, false, false, false, false, .immediate⟩,
  ⟨0xA00004, .u64, .ro, 0, [(0, 18446744073709551615)], 1, false, false, false, false, .immediate⟩,
  ⟨0xA00005, .bool, .ro, 0, [(0, 1)], 1, false, false, false, false, .immediate⟩,
  ⟨0xA00006, .bool, .rws, 1, [(0, 1)], 1, false, false, false, false, .immediate⟩,
  ⟨0xA00007, .bool, .wo, 0, [(0, 1)], 1, false, false, true, false, .immediate⟩,
  ⟨0xA00101, .u8, .wo, 0, [(1, 4)], 1, false, false, true, false, .immediate⟩,
  ⟨0xA00102, .domain, .wo, 0, [], 1, false, false, true, false, .immediate⟩,
  ⟨0xA00103, .u8, .ro, 0, [(0, 3)], 1, false, false, false, false, .immediate⟩,
  ⟨0xA00104, .u16, .ro, 0, [(0, 65535)], 1, false, false, false, false, .immediate⟩,
  ⟨0xA00105, .u32, .ro, 0, [(0, 20971520)], 1, false, false, false, false, .immediate⟩,
  ⟨0xA00201, .bool, .const, 1, [(0, 1)], 1, false, false, false, false, .immediate⟩,
  ⟨0xA00202, .u32, .ro, 0, [(0, 4294967295)], 1, false, false, false, false, .immediate⟩,
  ⟨0xA00203, .u8, .ro, 0, [(0, 15)], 1, false, false, false, false, .immediate⟩,
  ⟨0xA00204, .u8, .rws, 1, [(0, 2)], 1, false, false, true, false, .immediate⟩,
  ⟨0xA00205, .domain, .wo, 0, [], 1, false, false, true, false, .immediate⟩,
  ⟨0xA00206, .bool, .ro, 0, [(0, 1)], 1, false, false, false, false, .immediate⟩,
  ⟨0xA00207, .u64, .ro, 0, [(0, 18446744073709551615)], 1, false, false, false, false, .immediate⟩,
  ⟨0xA00208, .domain, .ro, 0, [], 1, false, false, false, false, .immediate⟩]
/-- Entries of the range 0x8000. -/
def entries80a : List Entry := [
  ⟨0x800001, .u8, .ro, 0, [(0, 2)], 1, false, false, false, true, .immediate⟩,
  ⟨0x800002, .u8, .wo, 0, [(1, 5)], 1, false, false, false, false, .immediate⟩,
  ⟨0x800003, .u16, .rws, 1500, [(600, 1500)], 1, false, false, false, false, .immediate⟩,
  ⟨0x800004, .u8, .ro, 16, [(4, 16)], 1, false, false, false, true, .immediate⟩,
  ⟨0x800005, .u8, .ro, 0, [(0, 15)], 1, false, false, false, false, .immediate⟩,
  ⟨0x800006, .u8, .ro, 0, [(0, 15)], 1, false, false, false, true, .immediate⟩,
  ⟨0x800007, .u8, .ro, 0, [(0, 15)], 1, false, false, false, true, .immediate⟩,
  ⟨0x800008, .u8, .ro, 0, [(48, 63)], 1, false, false, false, false, .immediate⟩,
  ⟨0x800009, .bool, .rw, 0, [(0, 1)], 1, false, false, false, false, .immediate⟩,
  ⟨0x800101, .f32, .ro, 0, [(0, 4294967295)], 1, false, false, false, true, .immediate⟩,
  ⟨0x800102, .f32, .ro, 0, [(0, 4294967295)], 1, false, false, false, true, .immediate⟩,
  ⟨0x800103, .f32, .ro, 0, [(0, 4294967295)], 1, false, false, false, true, .immediate⟩,
  ⟨0x800104, .f32, .ro, 0, [(0, 4294967295)], 1, false, false, false, true, .immediate⟩,
  ⟨0x800105, .f32, .ro, 0, [(0, 4294967295)], 1, false, false, false, true, .immediate⟩,
  ⟨0x800106, .f32, .ro, 0, [(0, 4294967295)], 1, false, false, false, true, .immediate⟩,
  ⟨0x800107, .f32, .ro, 0, [(0, 4294967295)], 1, false, false, false, true, .immediate⟩,
  ⟨0x800201, .u8, .rw, 0, [(0, 63)], 1, false, true, false, false, .immediate⟩,
  ⟨0x800202, .f32, .ro, 0, [(0, 4294967295)], 1, false, false, false, false, .immediate⟩,
  ⟨0x800203, .f32, .ro, 0, [(0, 4294967295)], 1, false, false, false, false, .immediate⟩,
  ⟨0x800204, .f32, .ro, 0, [(0, 4294967295)], 1, false, false, false, false, .immediate⟩,
  ⟨0x800301, .u32, .rw, 0, [(0, 0)], 1, true, false, false, false, .immediate⟩,
  ⟨0x800302, .u32, .rw, 0, [(0, 0)], 1, true, false, false, false, .immediate⟩,
  ⟨0x800303, .u64, .rw, 0, [(0, 0)], 1, true, false, false, false, .immediate⟩,
  ⟨0x800304, .u32, .rw, 0, [(0, 0)], 1, true, false, false, false, .immediate⟩,
  ⟨0x800305, .u32, .rw, 0, [(0, 0)], 1, true, false, false, false, .immediate⟩,
  ⟨0x800306, .u32, .rw, 0, [(0, 0)], 1, true, false, false, false, .immediate⟩,
  ⟨0x800307, .u64, .rw, 0, [(0, 0)], 1, true, false, false, false, .immediate⟩,
  ⟨0x800401, .u8, .const, 100, [(100, 100)], 1, false, false, false, false, .immediate⟩,
  ⟨0x800402, .u8, .const, 105, [(105, 105)], 1, false, false, false, false, .immediate⟩,
  ⟨0x800403, .u8, .const, 90, [(90, 90)], 1, false, false, false, false, .immediate⟩]
/-- Entries of the range 0x8000. -/
def entries80b : List Entry := [
  ⟨0x800404, .u8, .const, 95, [(95, 95)], 1, false, false, false, false, .immediate⟩,
  ⟨0x800405, .u32, .const, 290000, [(290000, 290000)], 1, false, false, false, false, .immediate⟩,
  ⟨0x800406, .u8, .const, 10, [(10, 10)], 1, false, false, false, false, .immediate⟩]

/-- Every entry of the dictionary, in ascending key. -/
def entryTable : List Entry :=
  entries10 ++ entries11 ++ entries20 ++ entries21 ++ entries22 ++ entries23 ++ entries30 ++ entries31 ++ entries32a ++ entries32b ++ entries33a ++ entries33b ++ entries34a ++ entries34b ++ entries34c ++ entries40a ++ entries40b ++ entries50a ++ entries50b ++ entries51 ++ entries58a ++ entries58b ++ entries60 ++ entries61 ++ entries70 ++ entries80a ++ entries80b ++ entries90 ++ entriesA0

end Sys2Proof.Machine
end

