-- ==== Sys2Proof/Machine/Numbers.lean ====
section
/-!
DEFINITION. Exact numbers and rounding: the value of a code as sign, integer magnitude and binary exponent; the
rounding function of R62; the scalar floating formats of R47 to R50; arithmetic whose exact result is rounded once.
-/
namespace Sys2Proof.Machine

/-- The integers `0 … n - 1`, first to last. -/
def upto (n : Nat) : List Nat := List.range n

/-- The bits `lo + w - 1 … lo` of `x`. -/
def bits (x lo w : Nat) : Nat := (x >>> lo) % 2 ^ w

/-- Bit `i` of `x`. -/
def bitAt (x i : Nat) : Bool := Nat.testBit x i

/-- 1 for true, 0 for false. -/
def b2n (b : Bool) : Nat := if b then 1 else 0

/-- `⌈a / b⌉`. -/
def ceilDiv (a b : Nat) : Nat := (a + b - 1) / b

/-- The number of binary digits of `m`; 0 for 0. -/
def bitLen (m : Nat) : Nat := if m = 0 then 0 else Nat.log2 m + 1

/-- The rounding-mode codes of R45. -/
inductive Mode where
  | rne | rz | sr | srd
  deriving DecidableEq, Repr

/-- The mode a code names; none for a reserved code (R45). -/
def modeOfCode (c : Nat) : Option Mode :=
  match c with
  | 0 => some .rne
  | 1 => some .rz
  | 2 => some .sr
  | 3 => some .srd
  | _ => none

/-- R62: `mag` with its low `drop` bits rounded off; `g` is the 16-bit Grain draw, which RNE and RZ ignore. -/
def roundMag (mag drop : Nat) (mode : Mode) (g : Nat) : Nat :=
  if drop = 0 then mag
  else
    let kept := mag >>> drop
    let rest := mag % 2 ^ drop
    let r16 := if 16 ≤ drop then rest >>> (drop - 16) else rest <<< (16 - drop)
    let sticky := decide (16 < drop) && decide (rest % 2 ^ (drop - 16) ≠ 0)
    match mode with
    | .rz => kept
    | .rne =>
      if 0x8000 < r16 || (r16 = 0x8000 && sticky) then kept + 1
      else if r16 = 0x8000 then kept + kept % 2
      else kept
    | .sr => if g < r16 then kept + 1 else kept
    | .srd => if g < r16 then kept + 1 else kept

/-- An exact value: `fin neg mag exp` is `(−1)^neg × mag × 2^exp`; a zero keeps its sign. -/
inductive ExactNum where
  | nan
  | inf (neg : Bool)
  | fin (neg : Bool) (mag : Nat) (exp : Int)
  deriving DecidableEq, Repr

/-- Positive zero. -/
def num0 : ExactNum := .fin false 0 0

/-- One. -/
def num1 : ExactNum := .fin false 1 0

/-- The value of a natural number. -/
def numOfNat (n : Nat) : ExactNum := .fin false n 0

/-- The value of an integer. -/
def numOfInt (i : Int) : ExactNum := .fin (decide (i < 0)) i.natAbs 0

/-- Whether a value is a finite zero. -/
def numIsZero : ExactNum → Bool
  | .fin _ m _ => m == 0
  | _ => false

/-- Whether a value is NaN. -/
def numIsNan : ExactNum → Bool
  | .nan => true
  | _ => false

/-- Whether a value is an infinity or a NaN. -/
def numNonfinite : ExactNum → Bool
  | .fin _ _ _ => false
  | _ => true

/-- The value with its sign turned. -/
def numNeg : ExactNum → ExactNum
  | .nan => .nan
  | .inf s => .inf (!s)
  | .fin s m e => .fin (!s) m e

/-- The magnitude. -/
def numAbs : ExactNum → ExactNum
  | .nan => .nan
  | .inf _ => .inf false
  | .fin _ m e => .fin false m e

/-- `mag` of a magnitude at the smaller exponent `e' ≤ e`. -/
def magAt (mag : Nat) (e e' : Int) : Nat := mag <<< (e - e').toNat

/-- The signed integer of a finite value at exponent `e' ≤ e`. -/
def intAt (neg : Bool) (mag : Nat) (e e' : Int) : Int :=
  if neg then - (magAt mag e e' : Int) else (magAt mag e e' : Int)

/-- Compares two finite magnitudes: `a × 2^ea < b × 2^eb`. -/
def magLt (a : Nat) (ea : Int) (b : Nat) (eb : Int) : Bool :=
  let e := min ea eb
  decide (magAt a ea e < magAt b eb e)

/-- Exact sum.  A zero sum is +0 unless both terms are −0 (R62). -/
def numAdd : ExactNum → ExactNum → ExactNum
  | .nan, _ => .nan
  | _, .nan => .nan
  | .inf s, .inf t => if s = t then .inf s else .nan
  | .inf s, .fin _ _ _ => .inf s
  | .fin _ _ _, .inf t => .inf t
  | .fin s m e, .fin t n f =>
    let x := min e f
    let v := intAt s m e x + intAt t n f x
    if v = 0 then .fin (s && t && (m == 0) && (n == 0)) 0 0
    else .fin (decide (v < 0)) v.natAbs x

/-- Exact difference. -/
def numSub (a b : ExactNum) : ExactNum := numAdd a (numNeg b)

/-- Exact product; a zero product takes the product's sign (R62). -/
def numMul : ExactNum → ExactNum → ExactNum
  | .nan, _ => .nan
  | _, .nan => .nan
  | .inf s, .inf t => .inf (s != t)
  | .inf s, .fin t n _ => if n = 0 then .nan else .inf (s != t)
  | .fin s m _, .inf t => if m = 0 then .nan else .inf (s != t)
  | .fin s m e, .fin t n f => .fin (s != t) (m * n) (e + f)

/-- The quotient to at least 96 significant bits with a last bit that says whether anything was left over, so that
one rounding of it to any of the formats is the rounding of the exact quotient. -/
def numDiv : ExactNum → ExactNum → ExactNum
  | .nan, _ => .nan
  | _, .nan => .nan
  | .inf _, .inf _ => .nan
  | .inf s, .fin t _ _ => .inf (s != t)
  | .fin s _ _, .inf t => .fin (s != t) 0 0
  | .fin s m e, .fin t n f =>
    if n = 0 then (if m = 0 then .nan else .inf (s != t))
    else if m = 0 then .fin (s != t) 0 0
    else
      let k := 96 + bitLen n
      let q := (m <<< k) / n
      let r := (m <<< k) % n
      .fin (s != t) (2 * q + (if r = 0 then 0 else 1)) (e - f - k - 1)

/-- The integer square root, found bit by bit from bit `b − 1` downwards. -/
def isqrtBits (n : Nat) : Nat → Nat → Nat
  | 0, acc => acc
  | b + 1, acc =>
    let t := acc + 2 ^ b
    if t * t ≤ n then isqrtBits n b t else isqrtBits n b acc

/-- `⌊√n⌋`. -/
def isqrt (n : Nat) : Nat := isqrtBits n (bitLen n / 2 + 1) 0

/-- The square root to at least 96 significant bits, with a sticky last bit; −0 gives −0, a negative value NaN. -/
def numSqrt : ExactNum → ExactNum
  | .nan => .nan
  | .inf s => if s then .nan else .inf false
  | .fin s m e =>
    if m = 0 then .fin s 0 0
    else if s then .nan
    else
      let k : Nat := if e % 2 = 0 then 200 else 201
      let n := m <<< k
      let q := isqrt n
      .fin false (2 * q + (if q * q = n then 0 else 1)) ((e - k) / 2 - 1)

/-- `a < b` as IEEE 754 compares; false when either is NaN. -/
def numLt : ExactNum → ExactNum → Bool
  | .nan, _ => false
  | _, .nan => false
  | .inf s, .inf t => s && !t
  | .inf s, .fin _ _ _ => s
  | .fin _ _ _, .inf t => !t
  | .fin s m e, .fin t n f =>
    let x := min e f
    decide (intAt s m e x < intAt t n f x)

/-- `a ≤ b`; false when either is NaN. -/
def numLe (a b : ExactNum) : Bool := !(numIsNan a) && !(numIsNan b) && !(numLt b a)

/-- The larger of two magnitudes, ignoring NaN. -/
def amaxOf (a b : ExactNum) : ExactNum :=
  match b with
  | .nan => a
  | _ => if numLt a (numAbs b) then numAbs b else a

/-- A scalar code layout: fraction bits, the exponent of the last bit of a subnormal, the largest finite code, and
the width of the code without its sign. -/
structure Fmt where
  frac : Nat
  lsb : Int
  maxCode : Nat
  expMax : Nat
  deriving DecidableEq, Repr

/-- F32: IEEE 754 binary32. -/
def fmtF32 : Fmt := ⟨23, -149, 0x7F7FFFFF, 255⟩
/-- F16: IEEE 754 binary16. -/
def fmtF16 : Fmt := ⟨10, -24, 0x7BFF, 31⟩
/-- D16 (R47). -/
def fmtD16 : Fmt := ⟨7, -133, 0x7F7F, 255⟩
/-- D16E as its 24-bit code (R50). -/
def fmtD16E : Fmt := ⟨15, -141, 0x7F7FFF, 255⟩
/-- A K8 element's magnitude (R52): every exponent code is finite. -/
def fmtK8 : Fmt := ⟨4, -6, 0x7F, 8⟩
/-- An S8 element's magnitude (R58): every exponent code is finite. -/
def fmtS8 : Fmt := ⟨3, -17, 0xFF, 32⟩

/-- The value of a code without its sign. -/
def decodeMag (f : Fmt) (neg : Bool) (code : Nat) : ExactNum :=
  let e := code / 2 ^ f.frac
  let m := code % 2 ^ f.frac
  if e = f.expMax then (if m = 0 then .inf neg else .nan)
  else if e = 0 then .fin neg m f.lsb
  else .fin neg (2 ^ f.frac + m) (f.lsb + (e : Int) - 1)

/-- What one rounding gives: the unsigned code, not yet limited to the largest finite one. -/
def roundCode (f : Fmt) (mode : Mode) (g : Nat) (mag : Nat) (exp : Int) : Nat :=
  if mag = 0 then 0
  else
    let top : Int := exp + (bitLen mag : Int) - 1
    let e : Int := max f.lsb (top - (f.frac : Int))
    let kept := if exp ≤ e then roundMag mag (e - exp).toNat mode g else mag <<< (exp - e).toNat
    (e - f.lsb).toNat * 2 ^ f.frac + kept

/-- The value an F32 code stands for. -/
def f32val (c : W32) : ExactNum := decodeMag fmtF32 (c.getLsbD 31) (c.toNat % 2 ^ 31)

/-- The canonical F32 NaN (R48). -/
def f32nan : W32 := 0x7FC00000

/-- Assembles an F32 code. -/
def f32of (neg : Bool) (code : Nat) : W32 := BitVec.ofNat 32 (b2n neg * 2 ^ 31 + code)

/-- Rounds an exact value to F32.  A finite overflow saturates (R65); infinities stay. -/
def f32round (mode : Mode) (g : Nat) : ExactNum → W32
  | .nan => f32nan
  | .inf s => f32of s 0x7F800000
  | .fin s m e => f32of s (min (roundCode fmtF32 mode g m e) fmtF32.maxCode)

/-- Whether rounding a value to F32 saturates. -/
def f32saturates (mode : Mode) (g : Nat) : ExactNum → Bool
  | .fin _ m e => decide (fmtF32.maxCode < roundCode fmtF32 mode g m e)
  | _ => false

/-- Positive zero, one, and infinity codes. -/
def f32zero : W32 := 0
def f32one : W32 := 0x3F800000
def f32inf : W32 := 0x7F800000
def f32ninf : W32 := 0xFF800000

/-- F32 code predicates. -/
def f32isNan (c : W32) : Bool := numIsNan (f32val c)
def f32finite (c : W32) : Bool := !(numNonfinite (f32val c))
def f32isZero (c : W32) : Bool := numIsZero (f32val c)

/-- `2^e` as an exact value. -/
def pow2 (e : Int) : ExactNum := .fin false 1 e

/-- R68: the mixing function. -/
def grainMix (x : W64) : W64 :=
  let x := x ^^^ (x >>> 30)
  let x := x * 0xA3B195D46E27C0F5
  let x := x ^^^ (x >>> 27)
  let x := x * 0x8F5C3D71E0B94A27
  x ^^^ (x >>> 31)

/-- R68: a Grain draw from run seed, step, row and the two coordinate words. -/
def grain (seed step row c2 c3 : W64) : Nat :=
  let h := grainMix (seed ^^^ 0x6C3E8A1D52F7B493)
  let h := grainMix (h ^^^ c3)
  let h := grainMix (h ^^^ c2)
  let h := grainMix (h ^^^ row)
  let h := grainMix (h ^^^ step)
  h.toNat % 65536

/-- The Grain purposes of R69. -/
inductive Purpose where
  | weightStore | moment1Store | moment2Store | coalesceAdd | poolAdd | combineAdd | arrayAccum | actConvert
  | programRound | denseStore
  deriving DecidableEq, Repr

/-- The purpose codes of R69. -/
def purposeCode : Purpose → Nat
  | .weightStore => 1
  | .moment1Store => 2
  | .moment2Store => 3
  | .coalesceAdd => 4
  | .poolAdd => 5
  | .combineAdd => 6
  | .arrayAccum => 7
  | .actConvert => 8
  | .programRound => 9
  | .denseStore => 10

/-- The logical coordinates of a value being rounded (R69). -/
structure GrainAt where
  seed : W64
  step : Nat
  row : Nat
  column : Nat
  table : Nat
  variant : Nat
  tableSet : Nat
  deriving DecidableEq, Repr

/-- The packed coordinate word c2. -/
def grainC2 (p : Purpose) (a : GrainAt) : W64 :=
  BitVec.ofNat 64 (a.column % 65536 + (a.table % 65536) * 2 ^ 16 + (a.variant % 1024) * 2 ^ 32
    + (a.tableSet % 256) * 2 ^ 42 + purposeCode p * 2 ^ 56)

/-- The SRD draw of a purpose at logical coordinates and an ordinal (R69). -/
def srdDraw (p : Purpose) (a : GrainAt) (ordinal : Nat) : Nat :=
  grain a.seed (BitVec.ofNat 64 a.step) (BitVec.ofNat 64 a.row) (grainC2 p a) (BitVec.ofNat 64 (ordinal % 2 ^ 32))

/-- R70: the SR draw of a unit, from its packed coordinate and its draw counter. -/
def srDraw (seed : W64) (counter unit : Nat) : Nat :=
  grain seed (BitVec.ofNat 64 counter) (BitVec.ofNat 64 unit) 0 0

/-- F32 arithmetic under one mode and draw. -/
def f32add (mode : Mode) (g : Nat) (a b : W32) : W32 := f32round mode g (numAdd (f32val a) (f32val b))
def f32sub (mode : Mode) (g : Nat) (a b : W32) : W32 := f32round mode g (numSub (f32val a) (f32val b))
def f32mul (mode : Mode) (g : Nat) (a b : W32) : W32 := f32round mode g (numMul (f32val a) (f32val b))
def f32div (mode : Mode) (g : Nat) (a b : W32) : W32 := f32round mode g (numDiv (f32val a) (f32val b))
def f32sqrt (mode : Mode) (g : Nat) (a : W32) : W32 := f32round mode g (numSqrt (f32val a))

/-- The exact sum of a list, in order; sums of finite values do not depend on the order. -/
def numSum (l : List ExactNum) : ExactNum := l.foldl numAdd num0

/-- `e^x` for a finite `x`, as an exact dyadic whose relative error is below `2^(-200)`: the argument is reduced by
powers of two to below `2^(-20)`, the series summed in 320-bit fixed point, and the result squared back. -/
def expSeries (x : Int) (k : Nat) : Nat → Int → Int → Int
  | 0, _, acc => acc
  | n + 1, term, acc =>
    let t := term * x / (k * 2 ^ 320 : Int)
    expSeries x (k + 1) n t (acc + t)

def squareTimes : Nat → Int → Int
  | 0, v => v
  | n + 1, v => squareTimes n (v * v / (2 ^ 320 : Int))

/-- `e^x` of a value `x ≤ 0` or of small size; a soft maximum only takes such arguments (R228). -/
def numExp : ExactNum → ExactNum
  | .nan => .nan
  | .inf s => if s then .fin false 0 0 else .inf false
  | .fin s m e =>
    if m = 0 then num1 else
    let x : Int := if 0 ≤ e + 320 then (m : Int) * 2 ^ (e + 320).toNat else ((m >>> (-(e + 320)).toNat : Nat) : Int)
    let x := if s then -x else x
    -- beyond these the F32 result is zero or an infinity whatever the low bits are
    if x < -(160 * 2 ^ 320 : Int) then .fin false 1 (-2000)
    else if (160 * 2 ^ 320 : Int) < x then .fin false 1 2000
    else
      -- ln 2 reduction: x = n ln 2 + r with |r| below ln 2, in 320-bit fixed point
      let ln2 : Int := 1480553391661173448385607439722553250922680800745876974795605978609098082859138712941075737848984
      let n : Int := x / ln2
      let r := x - n * ln2
      let r' := r / (2 ^ 8 : Int)
      let p := expSeries r' 1 40 (2 ^ 320 : Int) (2 ^ 320 : Int)
      let v := squareTimes 8 p
      .fin false (2 * v.toNat + 1) (n - 321)

end Sys2Proof.Machine
end

