-- ==== Sys2Proof/Machine/Operands.lean ====
section
/-!
DEFINITION. How operands lie in bytes and words: little-endian fields (R8), the fields of a 64-byte command record,
the checks of R261, R297, R409 and R283, axis values (R342), global addresses (R286) and packed coordinates (R36).
-/
namespace Sys2Proof.Machine

/-! ## Bytes -/

/-- A byte string as a number, lowest byte least significant (R8). -/
def leNat : Bytes → Nat
  | [] => 0
  | b :: bs => b.toNat + 256 * leNat bs

/-- The low `n` bytes of a number, lowest first. -/
def natLe : Nat → Nat → Bytes
  | 0, _ => []
  | n + 1, v => BitVec.ofNat 8 (v % 256) :: natLe n (v / 256)

/-- `n` zero bytes. -/
def zeros (n : Nat) : Bytes := List.replicate n 0

/-- `n` bytes of a string from offset `k`, zero beyond its end. -/
def slice (b : Bytes) (k n : Nat) : Bytes :=
  let t := (b.drop k).take n
  t ++ zeros (n - t.length)

/-- The number in `n` bytes at offset `k`. -/
def field (b : Bytes) (k n : Nat) : Nat := leNat (slice b k n)

/-- The byte string with the bytes at offset `k` replaced. -/
def patch (b : Bytes) (k : Nat) (v : Bytes) : Bytes := b.take k ++ v ++ b.drop (k + v.length)

/-- A string cut into pieces of `n` bytes, at most `fuel` of them. -/
def piecesFuel (n : Nat) : Nat → Bytes → List Bytes
  | 0, _ => []
  | f + 1, b => if b.isEmpty then [] else b.take n :: piecesFuel n f (b.drop n)

def pieces (n : Nat) (b : Bytes) : List Bytes := piecesFuel n (b.length / n + 1) b

/-- F32 codes as bytes and back. -/
def codesLe (cs : List W32) : Bytes := cs.flatMap fun c => natLe 4 c.toNat
def codesOf (b : Bytes) : List W32 := (pieces 4 b).map fun p => BitVec.ofNat 32 (leNat p)

/-- Numbers of 64 bits at an index of a list of them, zero beyond its end. -/
def nthD {α : Type} (d : α) (l : List α) (i : Nat) : α := (l[i]?).getD d

/-! ## Command records (R371) -/

/-- The bits `hi … lo` of a command record. -/
def rf (r : Rec64) (hi lo : Nat) : Nat := bits r.toNat lo (hi - lo + 1)

/-- Bit `i` of a command record. -/
def rb (r : Rec64) (i : Nat) : Bool := r.getLsbD i

/-- A record as its 64 bytes and back. -/
def recBytes (r : Rec64) : Bytes := natLe 64 r.toNat
def recOf (b : Bytes) : Rec64 := BitVec.ofNat 512 (leNat b)

/-! ## Checks -/

/-- One bit of a reflected CRC. -/
def crcBit (poly c : Nat) : Nat := if c % 2 = 1 then (c / 2) ^^^ poly else c / 2

def crcBits (poly : Nat) : Nat → Nat → Nat
  | 0, c => c
  | n + 1, c => crcBits poly n (crcBit poly c)

/-- A reflected CRC over bytes from a register value. -/
def crcRefl (poly : Nat) (c : Nat) (b : Bytes) : Nat := b.foldl (fun c x => crcBits poly 8 (c ^^^ x.toNat)) c

/-- CRC-32C with the parameters of R261: reflected, initial value and final exclusive-or all ones. -/
def crc32c (b : Bytes) : Nat := crcRefl 0x82F63B78 0xFFFFFFFF b ^^^ 0xFFFFFFFF

/-- CRC-32 of R297's flits: reflected IEEE 802.3, initial value and final exclusive-or all ones. -/
def crc32 (b : Bytes) : Nat := crcRefl 0xEDB88320 0xFFFFFFFF b ^^^ 0xFFFFFFFF

/-- One bit of the CRC-8 of R409, most significant first. -/
def crc8Bits : Nat → Nat → Nat
  | 0, c => c
  | n + 1, c => crc8Bits n (if 128 ≤ c then ((c * 2) ^^^ 0x07) % 256 else (c * 2) % 256)

/-- R409: the CRC-8 over bytes, from 0xFF, without a final exclusive-or. -/
def crc8 (b : Bytes) : Nat := b.foldl (fun c x => crc8Bits 8 (c ^^^ x.toNat)) 0xFF

/-- R409: whether a fetched record of index `i` of queue `q` is good. -/
def descriptorGood (r : Rec64) (q i : Nat) : Bool :=
  let d := recBytes r
  let c := crc8 (natLe 1 q ++ natLe 2 i ++ d.take 4 ++ [0] ++ d.drop 5)
  decide (rf r 31 16 = i % 65536) && decide (c = rf r 39 32)

/-! ## Axis values (R342) -/

/-- Step and station of an axis value. -/
def axisStep (a : Nat) : Nat := a / 8
def axisStation (a : Nat) : Nat := a % 8

/-- The axis value of a point. -/
def axisOf (step station : Nat) : Nat := step * 8 + station

/-- R342: the next point. -/
def nextPoint (a : Nat) : Nat := if a % 8 = 5 then (a / 8 + 1) * 8 else a + 1

/-! ## Addresses and coordinates -/

/-- R36: a packed coordinate. -/
def coordOf (m d r c u : Nat) : Nat := u + c * 2 ^ 6 + r * 2 ^ 8 + d * 2 ^ 11 + m * 2 ^ 13

/-- A module payload address: the die in bits [42:41], the die-local offset below (R380, R405). -/
def modAddr (die off : Nat) : Nat := die * 2 ^ 41 + off
def addrDie (a : Nat) : Nat := a / 2 ^ 41 % 4
def addrOff (a : Nat) : Nat := a % 2 ^ 41

/-- The four dies, the four regions, and the sixteen (die, region) places in combine order (R37). -/
def four : List Nat := [0, 1, 2, 3]
def sixteen : List Nat := upto 16

end Sys2Proof.Machine
end

