-- ==== Sys2Proof/Machine/Sparse.lean ====
section
/-!
DEFINITION. Sparse maps over natural-number keys in one canonical form: keys strictly rising, and no entry equal to
the value that an unlisted key reads as.  Memory, sector marks and the dictionary's register file are such maps.
-/
namespace Sys2Proof.Machine

/-- A map from natural numbers, as a list of pairs in canonical form. -/
abbrev Sparse (α : Type) := List (Nat × α)

/-- What key `k` reads as; `d` is what an unlisted key reads as. -/
def sget {α : Type} (d : α) (m : Sparse α) (k : Nat) : α :=
  match m with
  | [] => d
  | (j, v) :: rest => if j = k then v else sget d rest k

/-- The entries whose key is not `k`. -/
def sdel {α : Type} (m : Sparse α) (k : Nat) : Sparse α :=
  m.filter fun e => e.1 != k

/-- Puts an entry at its place in the order; the key is not yet listed. -/
def sins {α : Type} (k : Nat) (v : α) : Sparse α → Sparse α
  | [] => [(k, v)]
  | (j, w) :: rest => if k < j then (k, v) :: (j, w) :: rest else (j, w) :: sins k v rest

/-- The map with `k` reading as `v`; storing the default removes the entry. -/
def sput {α : Type} [DecidableEq α] (d : α) (m : Sparse α) (k : Nat) (v : α) : Sparse α :=
  if v = d then sdel m k else sins k v (sdel m k)

/-- The entries with a key in `lo .. lo + n - 1` removed. -/
def sclear {α : Type} (m : Sparse α) (lo n : Nat) : Sparse α :=
  m.filter fun e => !(decide (lo ≤ e.1) && decide (e.1 < lo + n))

/-- Whether the keys rise strictly from above `b`. -/
def srising {α : Type} : Option Nat → Sparse α → Bool
  | _, [] => true
  | none, (k, _) :: rest => srising (some k) rest
  | some b, (k, _) :: rest => decide (b < k) && srising (some k) rest

/-- The canonical form: keys strictly rising, no entry equal to the default. -/
def swf {α : Type} [DecidableEq α] (d : α) (m : Sparse α) : Bool :=
  srising none m && m.all fun e => decide (e.2 ≠ d)

/-- Changes the value at `k` by `f`. -/
def supd {α : Type} [DecidableEq α] (d : α) (m : Sparse α) (k : Nat) (f : α → α) : Sparse α :=
  sput d m k (f (sget d m k))

/-- Stores the values of a list at `k`, `k + 1`, … -/
def sputs {α : Type} [DecidableEq α] (d : α) (m : Sparse α) (k : Nat) : List α → Sparse α
  | [] => m
  | v :: vs => sputs d (sput d m k v) (k + 1) vs

/-- The `n` values from key `k` on. -/
def sgets {α : Type} (d : α) (m : Sparse α) (k : Nat) : Nat → List α
  | 0 => []
  | n + 1 => sget d m k :: sgets d m (k + 1) n

end Sys2Proof.Machine
end

