-- ==== Sys2Proof/Machine/State.lean ====
section
/-!
DEFINITION. The state of the module as plain data: everything the manual gives it, grouped by the chapter that owns it;
the reasons a step can stop; and the state right after reset.
-/
namespace Sys2Proof.Machine

/-! ## The module, power and Lantern (chapters 01, 17, 18, 19) -/

/-- Module states, values 0 to 5 (R32). -/
inductive ModState where
  | init | ready | running | held | outOfService | retention
  deriving DecidableEq, Repr

/-- POWER_STATE, values 0 to 2 (R520). -/
inductive PowState where
  | standby | active | retention
  deriving DecidableEq, Repr

/-- The starts of R509. -/
inductive StartKind where
  | cold | moduleReset | retentionExit
  deriving DecidableEq, Repr

/-- One input feed (R515): connected; disconnected for overvoltage; an undervoltage episode is on. -/
structure Feed where
  connected : Bool := false
  overV : Bool := false
  under : Bool := false
  deriving DecidableEq, Repr

/-- The fault record of R30 and R44. -/
structure FaultRec where
  coord : Nat := 0
  code : Nat := 0
  step : Nat := 0
  station : Nat := 0
  deriving DecidableEq, Repr

/-- Life of the module: states, the start in progress, the fault record, pins.  `stage`: the stage of the start in progress,
0 without one; `retryWait`: one second passes before it goes on at stage 3 (R504); `startHalted`: it goes on when Lantern
serves again (R505); `awaitsFeed`: it begins anew with the next feed (R505); `conversion`, `standbyRail`: the main rails and
the standby rail are on; `faultUnits`: the units of this module that have failed since its start began (R306). -/
structure Life where
  modState : ModState := .init
  powState : PowState := .standby
  start : Option StartKind := none
  stage : Nat := 0
  overruns : Nat := 0
  retryWait : Bool := false
  recovery : Bool := false
  startHalted : Bool := false
  fault : FaultRec := {}
  conversion : Bool := false
  pwrgd : Bool := false
  pwrFailWarn : Bool := false
  awaitsFeed : Bool := false
  standbyRail : Bool := false
  bridgeErrors : Nat := 0
  faultUnits : List Nat := []
  deriving DecidableEq, Repr

/-- Power and thermal state (R515 to R526, R534).  `hotDies`, `hotStacks`: dies and HBM3 stacks that are a throttle cause;
`energyUj`: energy not yet in ENERGY_KJ, in microjoules. -/
structure Power where
  feedA : Feed := {}
  feedB : Feed := {}
  throttleN : Nat := 16
  hotDies : List Nat := []
  hotStacks : List Nat := []
  causePower : Bool := false
  causeFlow : Bool := false
  refreshDoubled : List Nat := []
  sense : Sparse W32 := []
  senseMax : Sparse W32 := []
  senseMin : Sparse W32 := []
  sampled : Bool := false
  energyUj : Nat := 0
  deriving DecidableEq, Repr

/-- An event record (R497), before its CHECK. -/
structure EventRec where
  seq : Nat := 0
  wallNs : Nat := 0
  step : Nat := 0
  station : Nat := 0
  code : Nat := 0
  flags : Nat := 0
  coord : Nat := 0
  detail : Nat := 0
  deriving DecidableEq, Repr

/-- The event log of R497 and the buffers of the dies while Lantern restarts (R468). -/
structure EventLog where
  records : List EventRec := []
  unflushed : Nat := 0
  lastSeq : Nat := 0
  inInterval : Nat := 0
  buffered : List (Nat × EventRec) := []
  once : List Nat := []
  onceRun : List Nat := []
  deriving DecidableEq, Repr

/-- A setting-set slot (R488): its number and entries in ascending key, and whether its stored CHECK is intact. -/
structure SetSlot where
  number : Nat := 0
  entries : List (Nat × Bytes) := []
  intact : Bool := true
  deriving DecidableEq, Repr

/-- SET_PENDING (R490 to R493). -/
inductive SetPending where
  | none | commit (confirm : Bool) | revert | awaiting
  deriving DecidableEq, Repr

/-- Setting sets (R488 to R494). -/
structure Sets where
  staged : SetSlot := {}
  active : SetSlot := {}
  previous : SetSlot := {}
  pending : SetPending := .none
  lastStatus : Nat := 0
  lastDetail : Nat := 0
  deriving DecidableEq, Repr

/-- FW_UPDATE_STATE (R473). -/
inductive FwState where
  | idle | receiving | verified | failed
  deriving DecidableEq, Repr

/-- Firmware slots, boot record, one-time store and update (R470 to R473).  `verifying`: VERIFY has been written and
has not ended.  `factoryA`: slot A still holds the image that the factory put there. -/
structure Firmware where
  factoryA : Bool := true
  slotA : Sparse Byte := []
  slotB : Sparse Byte := []
  activeB : Bool := false
  trialB : Option Bool := none
  trialBoots : Nat := 0
  runningB : Bool := false
  svnFloor : Nat := 0
  keyRevoked : Nat := 0
  update : FwState := .idle
  status : Nat := 0
  received : Nat := 0
  verifying : Bool := false
  deriving DecidableEq, Repr

/-- A kept ODP response (R482). -/
structure OdpKept where
  source : Nat
  reqId : Nat
  authSeq : Nat
  response : Bytes
  deriving DecidableEq, Repr

/-- Lantern: serving or restarting, the ODP key store, paths' selector copies, mailbox, I3C, PTP. -/
structure Lantern where
  serving : Bool := false
  events : EventLog := {}
  sets : Sets := {}
  fw : Firmware := {}
  odpKey : Option Bytes := none
  odpLastSeq : Nat := 0
  odpSources : List Nat := []
  odpKept : List OdpKept := []
  selectors : Sparse Nat := []
  mbxBusy : Bool := false
  mbxDone : Bool := false
  mbxStatus : Nat := 0
  mbxReqBytes : Nat := 0
  mbxReq : Sparse (Option Byte) := []
  mbxResp : Bytes := []
  i3cAddr : Option Nat := none
  i3cSelect : Option Nat := none
  i3cRefused : Bool := false
  i3cIbi : Bool := false
  ptpLocked : Bool := false
  ptpOffset : Int := 0
  wallNs : Nat := 0
  spdmLog : Bytes := []
  deriving DecidableEq, Repr

/-- The dictionary's values: the register file of numeric entries as last written (an unlisted entry holds its
default), the values in force of entries that take effect later, and the two DOMAIN tables software writes. -/
structure Dict where
  regs : Sparse Nat := []
  force : Sparse Nat := []
  coordTable : Sparse Nat := [(0, 0x8000)]
  routeTable : Sparse Nat := []
  deriving DecidableEq, Repr

/-! ## Memory (chapter 10) -/

/-- The Burnisher slice of a region and tier (R276 to R278). -/
structure Burn where
  page : Nat := 0
  laps : Nat := 0
  lapS : Nat := 0
  startNs : Option Nat := none
  alarmed : Bool := false
  deriving DecidableEq, Repr

/-- A check scan queued at a die's check-value unit (R280 to R284). -/
structure Scan where
  queue : Nat
  index : Nat
  start : Nat
  length : Nat
  algo : Nat
  fold : Nat
  compare : Bool
  seqBase : Nat
  expected : Nat
  resultAddr : Nat
  deriving DecidableEq, Repr

/-- A twin repair in progress (R279): the record's logical name and the failures so far.  Kind 0: a table record named
(set, table, row, variant, local slice); kind 1: a dense record named (tensor, row, group). -/
structure Repair where
  kind : Nat
  set : Nat
  table : Nat
  row : Nat
  variant : Nat
  slice : Nat
  failures : Nat
  deriving DecidableEq, Repr

/-- Memory.  `cells`: payload bytes keyed by module payload address (die × 2^41 + die-local offset); an unlisted byte
reads 0, the fill of R275.  `marks`: sector metadata (R82) and `damage`: upset bits, keyed by sector; `pend`: parity
cache entries and `stale`: what stored parity differs by beyond them, keyed by page, each a pair of P and Q bytes.
`sramPoison`: poisoned SRAM lines; `sramBad`: lines with upsets, two bits for each of their eight words; `fresh`: sectors poisoned and not yet considered for twin repair; `suspect`: tiers still to be walked (R269). -/
structure Mem where
  filled : Bool := false
  cells : List Host.Cell := []
  marks : Sparse Nat := []
  damage : Sparse Nat := []
  pend : Sparse (Option (Nat × Nat)) := []
  stale : Sparse (Nat × Nat) := []
  sramPoison : Sparse Bool := []
  sramBad : Sparse Nat := []
  suspect : Sparse Nat := []
  burn : Sparse Burn := []
  window : Bool := false
  fresh : List Nat := []
  chanCorrected : Sparse Nat := []
  chanPoisoned : Sparse Nat := []
  scans : List Scan := []
  lastResult : Sparse Nat := []
  lastStatus : Sparse Nat := []
  repairs : List Repair := []
  deriving DecidableEq, Repr

/-! ## Pegs and the Ridgeline (chapter 13) -/

/-- Who waits at a peg: a PEG_WAIT command or a header wait. -/
structure PegWaitRec where
  die : Nat
  peg : Nat
  target : W64
  cls : Nat
  queue : Nat
  index : Nat
  header : Bool
  deriving DecidableEq, Repr

/-- Pegs: values keyed by die × 4096 + peg, and the waiting waits (R363 to R367). -/
structure Pegs where
  values : Sparse W64 := []
  waits : List PegWaitRec := []
  deriving DecidableEq, Repr

/-- RIDGE_STATE, values 0 to 6 (R370). -/
inductive RidgeState where
  | waiting | following | standby | keeper | noKeeper | deposed | configInvalid
  deriving DecidableEq, Repr

/-- A run registered at the timekeeper and not yet complete (R352). -/
structure RunReg where
  runId : Nat
  s0 : Nat
  members : Nat
  joined : List Nat
  deriving DecidableEq, Repr

/-- A participant: its module, its run, and the first point it takes part in (R347, R352). -/
structure Participant where
  moduleNumber : Nat
  runId : Nat
  from_ : Nat
  deriving DecidableEq, Repr

/-- The state a timekeeper and its standby hold (R347 to R360).  `point`: the axis value last sent; `reports`: (module,
value) readiness reports; `early`: reports kept under R352; `admitted`: (module, run) joined to a running run. -/
structure Keeper where
  point : Nat := 0
  participants : List Participant := []
  reports : List (Nat × Nat) := []
  joinSteps : List (Nat × Nat) := []
  runs : List RunReg := []
  admitted : List (Nat × Nat) := []
  early : List (Nat × Nat) := []
  lateModule : Nat := 0
  lateCount : Nat := 0
  newStandby : Option Nat := none
  deriving DecidableEq, Repr

/-- The Ridgeline of this module.  `standby`: the standby in force; `bound`: axis values whose station events wait for a
delay (R361); `reported`: the point last reported; `switched`: the source was switched under R358. -/
structure Ridge where
  state : RidgeState := .waiting
  source : Nat := 0xFFFF
  standby : Option Nat := none
  bound : List Nat := []
  switched : Bool := false
  takeover : Bool := false
  reported : Option Nat := none
  keeper : Keeper := {}
  deriving DecidableEq, Repr

/-! ## Fabric and Guyline ports, requests and messages (chapters 11, 12) -/

/-- SEL_PORT_STATE (R320). -/
inductive PortState where
  | disabled | training | up | down | refused
  deriving DecidableEq, Repr

/-- One port: 0 to 7 are F0 to F7, 8 to 11 are G0 to G3.  Per-virtual-channel values are keyed by
PHASE × 10 + DATELINE × 5 + VC_CLASS.  `dims`, `coords`, `cap`: the dimensions, coordinate table and LEVEL_CAP that its last
training put in force (R290, R320); `held`: packets that wait for its first level (R303); `again`: it trains after having
been DOWN (R305). -/
structure Port where
  state : PortState := .disabled
  level : Nat := 0
  peerModule : Nat := 0
  peerPort : Nat := 0
  refuse : Nat := 0
  selected : Nat := 0
  dims : List Nat := [1, 1, 1]
  coords : Sparse Nat := [(0, 0x8000)]
  cap : Nat := 2
  retraining : Bool := false
  again : Bool := false
  resume : Bool := false
  held : List Packet := []
  nextSeq : Nat := 0
  retry : List Flit := []
  waiting : List Flit := []
  replays : Nat := 0
  expect : Nat := 0
  nakSent : Bool := false
  sent : Sparse Nat := []
  credit : Sparse Nat := []
  freed : Sparse Nat := []
  partials : Sparse (List Bytes) := []
  fecCorrected : Nat := 0
  fecUncorrectable : Nat := 0
  crcErrors : Nat := 0
  replayCount : Nat := 0
  retrains : Nat := 0
  deriving DecidableEq, Repr

/-- What a request this module issued is for. -/
inductive Origin where
  | command (queue index : Nat)
  | axis (dest : Nat)
  | ready
  | joinStep
  | join
  | leave
  | exclude
  | admitted
  | message (key : Nat)
  | liveness
  | probe (member : Nat)
  | orphan
  deriving DecidableEq, Repr

/-- An outstanding or waiting request (R334 to R339): its die and tag, the packet, and its resends so far. -/
structure Req where
  die : Nat
  tag : Nat
  packet : Packet
  origin : Origin
  resends : Nat
  later : Nat
  backoff : Bool
  deriving DecidableEq, Repr

/-- Who is told when a message has been delivered or refused; `cast`: a multicast that goes on fragment by fragment (R331):
the shard, its first group, and the child it goes to. -/
inductive MsgOwner where
  | nobody
  | command (queue index : Nat)
  | ring (ring position : Nat)
  | cast (shard first slot : Nat)
  deriving DecidableEq, Repr

/-- A message being sent (R323 to R325): `bytes` is its length, `body` what there is of it so far (R331), and `poison` are
the fragments that carry the POISON flag. -/
structure OutMsg where
  key : Nat
  die : Nat
  msgId : Nat
  op : Nat
  dest : Nat
  step : Nat
  bytes : Nat
  body : Bytes
  poison : List Nat
  owner : MsgOwner
  acked : Nat
  resends : Nat
  later : Nat
  backoff : Bool
  deriving DecidableEq, Repr

/-- A message being assembled from fragments (R324). -/
structure Assembly where
  src : Nat
  srcDie : Nat
  op : Nat
  msgId : Nat
  bytes : Nat
  stepLo : Nat
  region : Nat
  got : Bytes
  deriving DecidableEq, Repr

/-- An entry of a die's duplicate filter (R338). -/
structure DupEntry where
  die : Nat
  src : Nat
  srcDie : Nat
  tag : Nat
  response : Packet
  deriving DecidableEq, Repr

/-- Fabric state. -/
structure Fabric where
  ports : Sparse Port := []
  trainedDims : List Nat := [1, 1, 1]
  trainedCoords : Sparse Nat := [(0, 0x8000)]
  route : Sparse Nat := []
  routePending : Option (Sparse Nat) := none
  reqs : List Req := []
  queued : List Req := []
  nextTag : Sparse Nat := []
  dups : List DupEntry := []
  msgs : List OutMsg := []
  nextMsg : Sparse Nat := []
  nextKey : Nat := 0
  assembling : List Assembly := []
  delivered : List Msg := []
  arrivals : List (Nat × Packet) := []
  flitsSent : Sparse Nat := []
  flitsReceived : Sparse Nat := []
  creditStalls : Sparse Nat := []
  laterSent : Sparse Nat := []
  laterReceived : Sparse Nat := []
  lost : List Nat := []
  deriving DecidableEq, Repr

/-! ## Host interface and queues (chapters 14, 15) -/

/-- Queue states (R405). -/
inductive QState where
  | disabled | running | stoppedTorn | stoppedError | fenced
  deriving DecidableEq, Repr

/-- How far a fetched command has come.  `waiting`: its header wait waits; `ready`: that wait is satisfied; `running`:
started, its work not finished; `done`: it may complete, with its
status and summary flags; `recorded`: complete, its record waiting its turn. -/
inductive CmdPhase where
  | fetched
  | waiting
  | ready
  | running
  | done (status detail : Nat) (saturated poison : Bool)
  | recorded (summary : Nat)
  deriving DecidableEq, Repr

/-- A command of a queue: how many requests or messages it waits for, the first failure among them, its DETAIL, and
whether it has propagated poison. -/
structure Cmd where
  index : Nat
  record : Rec64
  phase : CmdPhase
  outstanding : Nat := 0
  fail : Nat := 0
  detail : Nat := 0
  poison : Bool := false
  deriving DecidableEq, Repr

/-- A queue pair: its registers (R405) and the commands it holds. -/
structure Queue where
  sqBase : Nat := 0
  cqBase : Nat := 0
  sqInDevice : Bool := false
  cqInDevice : Bool := false
  depthLog2 : Nat := 6
  vector : Nat := 0
  intEnable : Bool := false
  state : QState := .disabled
  stopStatus : Nat := 0
  sqProducer : Nat := 0
  sqFetched : Nat := 0
  cqProducer : Nat := 0
  cqHead : Nat := 0
  stopIndex : Nat := 0
  epochAtEnable : Nat := 1
  cmds : List Cmd := []
  recheck : Option (Nat × Nat) := none
  flushing : Bool := false
  disabling : Bool := false
  coalescing : Bool := false
  uncovered : Bool := false
  deriving DecidableEq, Repr

/-- Ring kinds and states (R420). -/
inductive RingKind where
  | off | batch | gradient | outlet
  deriving DecidableEq, Repr

inductive RingState where
  | off | active | stopped
  deriving DecidableEq, Repr

/-- A ring's registers (R420, R422) and how far the module has read it. -/
structure Ring where
  kind : RingKind := .off
  enable : Bool := false
  tableSet : Nat := 0
  reqFilter : Bool := false
  requester : Nat := 0
  apertureOffset : Nat := 0
  apertureBytes : Nat := 0
  backing : Nat := 0
  state : RingState := .off
  stopStatus : Nat := 0
  producer : Nat := 0
  consumer : Nat := 0
  readyStep : Nat := 0
  consumedStep : Nat := 0
  incomplete : Bool := false
  parsed : Nat := 0
  dropSeen : Bool := false
  inFlight : List (Nat × Nat × Nat) := []
  deriving DecidableEq, Repr

/-- What the module sends or shows outside itself, in the order it does so. -/
inductive Out where
  | packet (port : Nat) (p : Packet)
  | flit (port : Nat) (f : Flit)
  | control (port : Nat) (c : Control)
  | heartbeat (port : Nat) (moduleNumber modState twinState : Nat) (axis : W64) (runId : Nat)
  | guyline (port : Nat) (p : GPacket)
  | train (port : Nat) (r : TrainRec)
  | memWrite (address : Nat) (data : Bytes) (poison : Bool)
  | memRead (address length : Nat)
  | msix (vector : Nat)
  | readData (data : Bytes) (poison : Bool)
  | unsupportedRequest
  | dictAnswer (path : Path) (status : Nat) (data : Bytes)
  | odpResponse (source : Nat) (data : Bytes)
  | i3cData (data : Bytes)
  | ibi (code : Nat)
  | uart (data : Bytes)
  | spdm (data : Bytes)
  | ptpDelayRequest (domain : Nat)
  | pin (name : String) (level : Bool)
  deriving DecidableEq, Repr

/-- The PCIe endpoint (R395 to R417). -/
structure HostIf where
  linkL0 : Bool := false
  speed : Nat := 0
  width : Nat := 0
  perst : Bool := true
  d3hot : Bool := false
  bme : Bool := false
  funcMask : Bool := false
  msixEnable : Bool := false
  table : Sparse Nat := []
  unmasked : Sparse Bool := []
  pba : Sparse Bool := []
  epoch : Nat := 1
  causeError : Bool := false
  causeQueue : Bool := false
  causeLoss : Bool := false
  windowGib : Nat := 0
  windowDie : Nat := 0
  lost : Bool := false
  lossTimer : Bool := false
  heldOut : List Out := []
  queues : Sparse Queue := []
  rings : Sparse Ring := []
  deriving DecidableEq, Repr

/-! ## The loaded run (chapters 03, 04, 05, 06, 14) -/

/-- A table declaration (R77) with the granules LOAD gives it (R91). -/
structure TableDecl where
  table : Nat
  width : Nat
  idx64 : Bool
  pinned : Bool
  init : Nat
  program : Nat
  rows : Nat
  initBound : W32
  baseGranule : Nat
  granules : Nat
  pinnedBase : Nat
  deriving DecidableEq, Repr

/-- A parameter value scheduled for a step (R168). -/
structure SchedEntry where
  step : Nat
  param : Nat
  value : W32
  deriving DecidableEq, Repr

/-- A table set: its declaration (R77), step counter (R133), bank and derived operands (R167, R170). -/
structure TableSet where
  number : Nat
  mode : Nat
  variants : Nat
  tables : List TableDecl
  tStart : Nat
  t : Nat
  bank : List W32
  derived : List W32
  bankStep : Nat
  scheds : List SchedEntry
  nextBatch : Nat
  deriving DecidableEq, Repr

/-- A tensor declaration (R390). -/
structure Tensor where
  number : Nat
  format : Nat
  cls : Nat
  tableSet : Nat
  program : Nat
  rows : Nat
  cols : Nat
  addr : Nat
  zeroPoint : Nat
  scale : W32
  deriving DecidableEq, Repr

/-- A resident update program (R183): its slot, header fields, constants and instruction words. -/
structure Program where
  slot : Nat
  modes : Nat
  tag : Nat
  consts : List W32
  code : List Nat
  deriving DecidableEq, Repr

/-- A watch list entry (R234). -/
structure WatchTarget where
  isTable : Bool
  set : Nat
  target : Nat
  kind : Nat
  deriving DecidableEq, Repr

/-- The run plan as loaded (R391): header fields and members. -/
structure Plan where
  runId : Nat := 0
  planAddr : Nat := 0
  planCheck : Nat := 0
  planBytes : Nat := 0
  seed : W64 := 0
  s0 : Nat := 0
  p : Nat := 0
  n : Nat := 0
  paired : Bool := false
  feed : Bool := false
  members : List Nat := []
  fastFlat : Nat := 0
  fastPinned : Nat := 0
  fastDirectory : Nat := 0
  slowTable : Nat := 0
  slowOverlay : Nat := 0
  rucksack : Nat := 0
  stagingOff : Nat := 0
  stagingKib : Nat := 0
  spillOff : Nat := 0
  spillKib : Nat := 0
  shardGroups : Nat := 0
  denseAddr : Nat := 0
  denseBytes : Nat := 0
  ringAddr : Nat := 0
  ringRecords : Nat := 0
  pegsUsed : Nat := 0
  queueMask : Nat := 0
  order : Nat := 0
  deriving DecidableEq, Repr

/-- A bag of an accepted batch after the index checks (R105, R108): valid indices as (position, row, weight). -/
structure Bag where
  sample : Nat
  table : Nat
  variant : Nat
  indices : List (Nat × Nat × W32)
  deriving DecidableEq, Repr

/-- An accepted batch, kept until its step commits (R424).  `home`: this module is a home module of its set for its step
(R111), as far as the COMMIT point before the step has said. -/
structure Batch where
  ring : Nat
  position : Nat
  bytes : Nat
  step : Nat
  firstSample : Nat
  samples : Nat
  tableSet : Nat
  variants : List Nat
  segments : List Nat
  bags : List Bag
  home : Bool
  deriving DecidableEq, Repr

/-- A retained occurrence (R130).  `partner`: received from the twin for a row this module leads (R152). -/
structure Occ where
  step : Nat
  set : Nat
  table : Nat
  row : Nat
  variant : Nat
  bag : Nat
  position : Nat
  weight : W32
  home : Nat
  partner : Bool
  deriving DecidableEq, Repr

/-- One pitch's band partial of one bag at its home module (R120): the values of all its local slices; `region` is the
region whose staging area holds it (R329). -/
structure BandPart where
  step : Nat
  set : Nat
  table : Nat
  bag : Nat
  pitch : Nat
  position : Nat
  region : Nat
  values : List W32
  deriving DecidableEq, Repr

/-- A GATHER_POOL binding (R381). -/
structure PoolBinding where
  set : Nat
  fromStep : Nat
  format : Nat
  round : Option Nat
  slots : Nat
  outAddr : Nat
  slotBytes : Nat
  tableStride : Nat
  deriving DecidableEq, Repr

/-- A FEED_BIND binding (R426). -/
structure FeedBinding where
  set : Nat
  fromStep : Nat
  exportRing : Nat
  exportEn : Bool
  gradRing : Nat
  gradEn : Bool
  deriving DecidableEq, Repr

/-- A gradient message (R129): header fields and body as F32 codes. -/
structure GradMsg where
  step : Nat
  t : Nat
  firstSample : Nat
  table : Nat
  set : Nat
  variant : Nat
  source : Nat
  format : Nat
  samples : Nat
  slices : Nat
  firstSlice : Nat
  sender : Nat
  values : List W32
  deriving DecidableEq, Repr

/-- A gradient message at a region: in the early queue, staged, or consumed (R135, R142). -/
structure Staged where
  region : Nat
  msg : GradMsg
  deriving DecidableEq, Repr

/-- A contribution (R136).  `counted`: it has been added and counted. -/
structure Contribution where
  bag : Nat
  position : Nat
  weight : W32
  grads : List W32
  counted : Bool := false
  deriving DecidableEq, Repr

/-- A target slice's accumulator in a region (R136 to R145).  `expect`: the (bag, position) pairs still to be added,
in order; `held`: contributions that wait for an earlier one; `taken`: those already added, from which the sums are made
anew when an occurrence joins the target late (R152); `next`: the coalescing ordinal of the next addition. -/
structure Acc where
  region : Nat
  set : Nat
  table : Nat
  row : Nat
  variant : Nat
  slice : Nat
  slot : Bool
  hot : Bool
  count : Nat
  next : Nat
  expect : List (Nat × Nat)
  held : List Contribution
  taken : List Contribution
  sums : List W32
  ledgers : List Int
  nonfinite : List Bool
  complete : Bool
  values : List W32
  applied : Bool
  deriving DecidableEq, Repr

/-- An overlay created in the current step whose directory entry is not yet inserted (R100, R102); none where its
creation failed (R103). -/
structure NewOverlay where
  region : Nat
  set : Nat
  table : Nat
  row : Nat
  variant : Nat
  record : Option Nat
  deriving DecidableEq, Repr

/-- A directory entry (R99) at its slot of a region's directory. -/
structure DirEntry where
  row : Nat
  table : Nat
  set : Nat
  variant : Nat
  record : Nat
  next : Nat
  firstStep : Nat
  deriving DecidableEq, Repr

/-- A record held in a region's cache (R123 to R125): its home payload address, and the page and the record slot of the cache
portion that hold its copy, a Compat record or not. -/
structure Cached where
  region : Nat
  home : Nat
  set : Nat
  table : Nat
  row : Nat
  variant : Nat
  slice : Nat
  compat : Bool
  page : Nat
  slot : Nat
  dirty : Bool
  lastStep : Nat
  deriving DecidableEq, Repr

/-- One member's partial of a run of groups of a dense shard (R328). -/
structure ShardPart where
  region : Nat
  step : Nat
  shard : Nat
  order : Nat
  firstGroup : Nat
  values : List W32
  deriving DecidableEq, Repr

/-- A dense group whose reduced gradient is complete (R159). -/
structure DenseDone where
  shard : Nat
  group : Nat
  applied : Bool
  grads : List W32
  deriving DecidableEq, Repr

/-- A pending writing row operation (R387, R388): its command and the rows and slices still to write. -/
structure RowOp where
  queue : Nat
  index : Nat
  op : Nat
  set : Nat
  table : Nat
  variant : Nat
  frozen : Bool
  firstRow : Nat
  rows : Nat
  buf : Nat
  nextRecord : Nat
  awaiting : Nat
  status : Nat
  detail : Nat
  deriving DecidableEq, Repr

/-- What a step of the run holds, and what carries over between steps.  `runsFor`: index-run messages not yet delivered,
as (message key, step); `lateRuns`: runs that came too late to be
prefetched, as (step, set, sender) (R122); `written`: bags whose output is written, as (step, set, bag).  `norms`: global norm and clip factor
by step (R157); `clipMax`: CLIP_MAX_NORM by step.  `homeFor`: the step whose home sets `homeSets` are (R111); `opened`: the step whose
OPEN this module has reached.  `childLedgers`: (member order, members, sum); `waived`: children not waited
for any longer (R451).  `shardsIn`: (shard, first group, groups) written to the replica.  `drops`: target slices of the step counted under R144.  `preBase`: base records written in the step, as
they stood at its OPEN (R100). -/
structure StepData where
  batches : List Batch := []
  occs : List Occ := []
  runsFor : List (Nat × Nat) := []
  lateRuns : List (Nat × Nat × Nat) := []
  parts : List BandPart := []
  poolBindings : List PoolBinding := []
  feedBindings : List FeedBinding := []
  written : List (Nat × Nat × Nat) := []
  published : List (Nat × Nat × Bool) := []
  early : List Staged := []
  staged : List Staged := []
  coverage : List Staged := []
  accs : List Acc := []
  ahead : Nat := 0
  newOverlays : List NewOverlay := []
  ledger : Int := 0
  ledgersSent : List Nat := []
  childLedgers : List (Nat × Nat × Int) := []
  waived : List Nat := []
  clipMax : List (Nat × W32) := []
  norms : List (Nat × W32 × W32) := []
  drops : Nat := 0
  preBase : List (Nat × Bytes × List Nat) := []
  shardParts : List ShardPart := []
  dense : List DenseDone := []
  shardsIn : List (Nat × Nat × Nat) := []
  homeSets : List Nat := []
  homeFor : Option Nat := none
  opened : Option Nat := none
  deriving DecidableEq, Repr

/-- Step agreement and the causes that hold this module (R153, R154, R354). -/
structure Holds where
  reports : List (Nat × Nat × Nat × List (Nat × Nat)) := []
  disagreeing : Nat := 0
  verdictFor : Option Nat := none
  missingBatch : Bool := false
  disagree : Bool := false
  streak : Bool := false
  feedSlot : Bool := false
  salvaged : Bool := false
  deriving DecidableEq, Repr

/-- Overlay pools and caches of the sixteen regions (R97 to R103, R122 to R125), whose records, like the directories, lie in
memory; `stopped`: regions whose
prefetch has stopped for the step (R123); `holes`: returned runs of pool records below the pool's next free one (R103), as
(region × 2 + 1 for Compat records, first record number, records). -/
structure Placement where
  poolNext : Sparse Nat := []
  poolUsed : Nat := 0
  holes : List (Nat × Nat × Nat) := []
  cache : List Cached := []
  stopped : List Nat := []
  deriving DecidableEq, Repr

/-- LOAD_STATE (R394). -/
inductive LoadState where
  | idle | loading | loaded | unloading
  deriving DecidableEq, Repr

/-! ## Twins and generations (chapter 16) -/

/-- TWIN_STATE, values 0 to 6 (R431). -/
inductive TwinState where
  | unpaired | training | copySource | copyTarget | paired | failedOver | severed
  deriving DecidableEq, Repr

/-- The partner as its last heartbeat showed it (R436). -/
structure Beat where
  moduleNumber : Nat
  modState : Nat
  twinState : Nat
  axis : W64
  runId : Nat
  deriving DecidableEq, Repr

/-- What a Guyline request is for. -/
inductive GOrigin where
  | mirror | operands | mark (step : Nat) | copy (locator : Nat) | entries
  | rowChange (queue index : Nat)
  | repair
  deriving DecidableEq, Repr

/-- A Guyline request waiting for its response or for a tag (R435). -/
structure GReq where
  path : Nat
  tag : Nat
  packet : GPacket
  origin : GOrigin
  resends : Nat
  later : Nat
  backoff : Bool
  deriving DecidableEq, Repr

/-- A key of a mirrored target: table record (kind 0) or dense group (kind 1), with its slice or group. -/
structure TargetKey where
  kind : Nat
  set : Nat
  table : Nat
  row : Nat
  variant : Nat
  slice : Nat
  deriving DecidableEq, Repr

/-- The twin pair (R431 to R456).  `replacement`: this module joined the run in a lost twin's place.  `reading`: the liveness word is read again every heartbeat period.  `copyNext`: per die
the position after the last page sent; `copyGot`: per die the position after the last page the target has written;
`copyDone`: dies whose last page is acknowledged; `marks`: dies whose STEP_MARK of `markStep` is answered; `partnerMarks`: (die, step) marks
received. -/
structure Twin where
  state : TwinState := .unpaired
  beat : Option Beat := none
  replacement : Bool := false
  reading : Bool := false
  failStep : Option Nat := none
  copyNext : Sparse Nat := []
  copyGot : Sparse Nat := []
  copyDone : List Nat := []
  recopy : List Nat := []
  markStep : Option Nat := none
  marks : List Nat := []
  partnerMarks : List (Nat × Nat) := []
  opStep : Option Nat := none
  opNorm : W32 := 0
  opClip : W32 := 0x3F800000
  sentOps : Option Nat := none
  reqs : List GReq := []
  queued : List GReq := []
  dups : List (Nat × GPacket) := []
  arrivals : List GPacket := []
  replayed : List TargetKey := []
  deriving DecidableEq, Repr

/-- Generations (R461 to R465).  The planes of the change map are kept by record: keys are region × 2^32 plus the record
slot.  `cuts`: cuts waiting for
their step, as (step, number, FULL, queue, index); `exported`: shards of the open generation already written; `hold`: by slot of the hold area, the record slot and
its forward payload after a byte of marks (bit 0 torn, bit 1 poisoned). -/
structure Gen where
  setup : Bool := false
  mapOff : Nat := 0
  mapKib : Nat := 0
  holdOff : Nat := 0
  holdKib : Nat := 0
  current : List Nat := []
  frozen : List Nat := []
  cuts : List (Nat × Nat × Bool × Nat × Nat) := []
  isOpen : Bool := false
  number : Nat := 0
  step : Nat := 0
  full : Bool := false
  salvage : Bool := false
  exported : Nat := 0
  hold : List (Nat × Nat × Bytes) := []
  inexact : List Nat := []
  deriving DecidableEq, Repr

/-! ## Rucksack, row engines, arrays and the training watch (chapters 07 to 09) -/

/-- A Rucksack frame (R217 to R222), bottom first in its region's list. -/
structure Frame where
  region : Nat
  tag : Nat
  tensor : Nat
  step : Nat
  bytes : Nat
  firstPage : Nat
  pages : Nat
  deriving DecidableEq, Repr

/-- A tag word of a region's side memory (R226). -/
structure SideTag where
  tag : Nat
  step : Nat
  op : Nat
  valid : Bool
  deriving DecidableEq, Repr

/-- Row engines: side memories keyed region × 65,536 + entry, tag words keyed region × 64 + block. -/
structure RowEng where
  frames : List Frame := []
  highWater : Sparse Nat := []
  side : Sparse W64 := []
  tags : Sparse SideTag := []
  draws : Sparse Nat := []
  deriving DecidableEq, Repr

/-- What a watch slot counts in a step (R236 to R239, R248).  `amax` is an F32 code.  `nonzero`: an element that was not
zero (kind 2), or a gradient that was not zero (kind 4); `applied`: a target slice of the table was applied (R243). -/
structure WatchCount where
  elements : Nat := 0
  overflows : Nat := 0
  underflows : Nat := 0
  subnormals : Nat := 0
  nonfinite : Nat := 0
  amax : W32 := 0
  sqerr : Nat := 0
  replays : Nat := 0
  pinned : Nat := 0
  saturated : Bool := false
  jit : Bool := false
  nonzero : Bool := false
  applied : Bool := false
  proofTiles : Nat := 0
  proofOver : Nat := 0
  proofMax : Nat := 0
  deriving DecidableEq, Repr

/-- A watch slot (R233 to R245).  `window`: the history, newest first; `added`: entries since it began, saturating;
`scale`: the tile exponent of the step under R72, none in just-in-time scaling; `resetDue`: HISTORY_RESET is owed to the
slot's next record. -/
structure WatchSlot where
  target : WatchTarget
  window : List W32
  begun : Bool
  added : Nat
  scale : Option Nat
  streak : Nat
  alarmed : Bool
  resetAsked : Bool
  resetDue : Bool
  lastRecord : Nat
  count : WatchCount
  deriving DecidableEq, Repr

/-- A Proof tile waiting for recomputation (R246, R247): the region whose row engine does it, the watch slot of C, the
command, the step it started in, the tile, and the tile's final scale-down count. -/
structure ProofTile where
  region : Nat
  slot : Option Nat
  record : Rec64
  step : Nat
  tileI : Nat
  tileJ : Nat
  down : Nat
  deriving DecidableEq, Repr

/-- The training watch (chapter 09). -/
structure Watch where
  slots : List WatchSlot := []
  head : Nat := 0
  tail : Nat := 0
  lost : Bool := false
  proofs : List ProofTile := []
  deriving DecidableEq, Repr

/-! ## The whole module -/

/-- Reasons the module stops.  No meaning of this model raises one: the manual gives every row an effect, and every trap
and error of the manual is state (an event, a status, OUT_OF_SERVICE). -/
inductive Fault where
  /-- Raised by nothing. Safe: a stop in place of an effect could only hide behaviour. -/
  | stuck
  deriving DecidableEq, Repr

/-- Commands without a meaning. -/
inductive Refusal where
  /-- A row of the table that has no meaning yet.  Safe: nothing follows from it. -/
  | notModelled (mnemonic : String)
  deriving DecidableEq, Repr

/-- The state of the module. -/
structure State where
  dict : Dict := {}
  life : Life := {}
  power : Power := {}
  lantern : Lantern := {}
  mem : Mem := {}
  pegs : Pegs := {}
  ridge : Ridge := {}
  fabric : Fabric := {}
  host : HostIf := {}
  loadState : LoadState := .idle
  plan : Plan := {}
  sets : List TableSet := []
  tensors : List Tensor := []
  programs : List Program := []
  step : StepData := {}
  holds : Holds := {}
  place : Placement := {}
  rowOps : List RowOp := []
  twin : Twin := {}
  gen : Gen := {}
  rowEng : RowEng := {}
  watch : Watch := {}
  outbox : List Out := []
  free : Nat := 0
  pending : List Instr := []
  deriving DecidableEq, Repr

/-- The module before input power arrives: every field at the value the manual gives for reset or, where it gives
none, at the value the assumption log names. -/
def State.reset : State := {}

end Sys2Proof.Machine
end

