-- ==== Sys2Proof/Machine/Ops.lean ====
section
/-!
DEFINITION. The named operations over the module's registers: dictionary values as written and as in force (R477),
counters that saturate (R12), module state and point, and what leaves the module.
-/
namespace Sys2Proof.Machine

/-! ## Dictionary values -/

/-- The table row of an entry. -/
def entryOf (k : Nat) : Option Entry := entryTable.find? fun e => e.key == k

/-- An entry's default; 0 for a key that names none. -/
def dfltOf (k : Nat) : Nat :=
  match entryOf k with
  | some e => e.dflt
  | none => 0

/-- The value of an entry as last written. -/
def reg (s : State) (k : Nat) : Nat := sget (dfltOf k) s.dict.regs k

/-- Stores a value as last written. -/
def setReg (k v : Nat) (s : State) : State :=
  { s with dict := { s.dict with regs := sput (dfltOf k) s.dict.regs k v } }

/-- The captured value of an entry that takes effect at a station, a load, a training or a reset. -/
def forced (s : State) (k : Nat) : Nat := sget (dfltOf k) s.dict.force k

/-- R496: whether a capability is in the list. -/
def capOn (s : State) (id : Nat) : Bool := !(bitAt (forced s E.CAP_DISABLE_MASK) (id - 1))

/-- R39, R372: whether the module is a member of a run. -/
def isMember (s : State) : Bool := s.loadState == .loaded || s.loadState == .unloading

/-- When a written value of an entry takes effect. -/
def effectOf (k : Nat) : Effect :=
  match entryOf k with
  | some e => e.effect
  | none => .immediate

/-- R477: the value in force. -/
def setting (s : State) (k : Nat) : Nat :=
  match effectOf k with
  | .immediate => reg s k
  | .atOpen => if isMember s then forced s k else reg s k
  | .atLoad => if isMember s then forced s k else reg s k
  | .atCommit => if isMember s then forced s k else reg s k
  | .atTraining => forced s k
  | .atReset => forced s k

/-- A BOOL setting. -/
def flagOn (s : State) (k : Nat) : Bool := setting s k == 1

/-- Copies the written values of some entries into force. -/
def capture (p : Entry → Bool) (s : State) : State :=
  { s with dict := { s.dict with
      force := (entryTable.filter p).foldl (fun f e => sput e.dflt f e.key (sget e.dflt s.dict.regs e.key)) s.dict.force } }

/-- The bits of a numeric type. -/
def typeBits : EType → Nat
  | .u8 => 8
  | .u16 => 16
  | .u32 => 32
  | .u64 => 64
  | .i64 => 64
  | .f32 => 32
  | .bool => 1
  | .string => 512
  | .domain => 0
  | .steptime => 128

/-- The largest value of an entry's type. -/
def typeMax (k : Nat) : Nat :=
  match entryOf k with
  | some e => 2 ^ typeBits e.ty - 1
  | none => 0

/-- R12: adds to a counter, which saturates. -/
def countN (k n : Nat) (s : State) : State := setReg k (min (typeMax k) (reg s k + n)) s
def count (k : Nat) (s : State) : State := countN k 1 s

/-! ## Module state and point -/

/-- R32: MODULE_STATE. -/
def modStateCode : ModState → Nat
  | .init => 0
  | .ready => 1
  | .running => 2
  | .held => 3
  | .outOfService => 4
  | .retention => 5

/-- R520: POWER_STATE. -/
def powStateCode : PowState → Nat
  | .standby => 0
  | .active => 1
  | .retention => 2

/-- R431: TWIN_STATE. -/
def twinStateCode : TwinState → Nat
  | .unpaired => 0
  | .training => 1
  | .copySource => 2
  | .copyTarget => 3
  | .paired => 4
  | .failedOver => 5
  | .severed => 6

def setModState (m : ModState) (s : State) : State := { s with life := { s.life with modState := m } }
def isState (s : State) (m : ModState) : Bool := s.life.modState == m

/-- RUNNING or HELD. -/
def stepping (s : State) : Bool := isState s .running || isState s .held

/-- The module's number in force (R35). -/
def myNumber (s : State) : Nat := forced s E.MODULE_NUMBER

/-- The key of a peg. -/
def pegKey (die peg : Nat) : Nat := die * 4096 + peg
def axisKey : Nat := 4095

/-- R345: the value of the AXIS peg. -/
def axis (s : State) : Nat := (sget 0 s.pegs.values axisKey).toNat

/-- Step and station of the current point. -/
def curStep (s : State) : Nat := axisStep (axis s)
def curStation (s : State) : Nat := axisStation (axis s)

/-- R343: the current point as a STEPTIME number. -/
def pointNow (s : State) : Nat := curStep s % 2 ^ 64 + curStation s * 2 ^ 64

/-- R4: Paired exactly while TWIN_STATE is PAIRED. -/
def isPaired (s : State) : Bool := s.twin.state == .paired

/-! ## What leaves the module -/

/-- Sends something outside the PCIe link. -/
def emit (o : Out) (s : State) : State := { s with outbox := s.outbox ++ [o] }

/-- R415, R417: an outbound TLP is held while the link is out of L0, and is not issued after a host loss until the
link is in L0 with Bus Master Enable set. -/
def sendHost (o : Out) (s : State) : State :=
  if s.host.lost then s
  else if s.host.linkL0 then emit o s
  else { s with host := { s.host with heldOut := s.host.heldOut ++ [o] } }

/-- Applies a change to every element of a list, first to last. -/
def forEach {α : Type} (l : List α) (f : α → State → State) (s : State) : State := l.foldl (fun s a => f a s) s

/-- A change made only when a condition holds. -/
def whenS (c : Bool) (f : State → State) (s : State) : State := if c then f s else s

/-- A fresh free value's index: the step reads the counter and advances it. -/
def nextFree (s : State) : Nat × State := (s.free, { s with free := s.free + 1 })

/-- R10: what a reserved field of `w` bits at bit `lo` reads as, a free value: field `i` of the read that takes free value `n`. -/
def freeField (n i lo w : Nat) : Nat := leNat ((upto 4).map fun j => Config.freeByte n (4 * i + j)) % 2 ^ w * 2 ^ lo

/-- The first of a list of (condition, code) whose condition holds; 0 when none does. -/
def firstCode : List (Bool × Nat) → Nat
  | [] => 0
  | (c, k) :: rest => if c then k else firstCode rest

end Sys2Proof.Machine
end

