-- ==== Sys2Proof/Machine/Flags.lean ====
section
/-!
DEFINITION. What the module flags: MSI-X messages (R414), CAUSE bits of the status page (R400), error events and their
log (R468, R497), the fault record and leaving service (R29, R30).
-/
namespace Sys2Proof.Machine

/-- R414: sends an MSI-X vector, or holds it pending while it is masked or MSI-X is off. -/
def msix (v : Nat) (s : State) : State :=
  if s.host.msixEnable && !s.host.funcMask && s.host.bme && !s.host.lost && !s.host.d3hot && sget false s.host.unmasked v then sendHost (.msix v) s
  else { s with host := { s.host with pba := sput false s.host.pba v true } }

/-- Sets CAUSE_ERROR_EVENT; vector 64 goes when the bit was 0. -/
def causeErrorEvent (s : State) : State :=
  if s.host.causeError then s else msix 64 { s with host := { s.host with causeError := true } }

/-- Sets CAUSE_QUEUE_STOPPED. -/
def causeQueueStopped (s : State) : State :=
  if s.host.causeQueue then s else msix 64 { s with host := { s.host with causeQueue := true } }

/-- Sets CAUSE_HOST_LOSS. -/
def causeHostLoss (s : State) : State :=
  if s.host.causeLoss then s else msix 64 { s with host := { s.host with causeLoss := true } }

/-- An event record as the raising unit fills it; SEQ is given when Lantern takes it. -/
def eventNow (code coord detail : Nat) (s : State) : EventRec :=
  { seq := 0, wallNs := s.lantern.wallNs, step := curStep s, station := curStation s, code := code,
    flags := b2n (!s.lantern.ptpLocked), coord := coord, detail := detail }

def setEvents (e : EventLog) (s : State) : State := { s with lantern := { s.lantern with events := e } }

/-- R497: Lantern takes an event: it is logged with the next SEQ, or suppressed beyond EVENT_RATE_MAX. -/
def takeEvent (r : EventRec) (s : State) : State :=
  let log := s.lantern.events
  if setting s E.EVENT_RATE_MAX ≤ log.inInterval then count E.EVENTS_SUPPRESSED s
  else
    let n := log.lastSeq + 1
    let s := setEvents { log with
      records := log.records ++ [{ r with seq := n }]
      lastSeq := n, inInterval := log.inInterval + 1, unflushed := log.unflushed + 1 } s
    let s := causeErrorEvent s
    if s.lantern.i3cIbi then emit (.ibi r.code) s else s

/-- R468: a die buffers up to 256 events while Lantern restarts. -/
def bufferEvent (r : EventRec) (s : State) : State :=
  let log := s.lantern.events
  let die := bits r.coord 11 2
  if (log.buffered.filter fun e => e.1 == die).length < 256 then
    setEvents { log with buffered := log.buffered ++ [(die, { r with flags := r.flags ||| 2 })] } s
  else count E.EVENTS_SUPPRESSED s

/-- Raises an error event at a unit. -/
def raiseAt (code coord detail : Nat) (s : State) : State :=
  let r := eventNow code coord detail s
  if s.lantern.serving then takeEvent r s else bufferEvent r s

/-- Coordinates of the units that raise events (R16, R18), and of Lantern's events, which name the PCIe endpoint's
die-0 position because Lantern is no unit of a die. -/
def unitCoord (s : State) (d r c u : Nat) : Nat := coordOf (myNumber s) d r c u
def endpointCoord (s : State) : Nat := unitCoord s 0 4 2 3

/-- The packed coordinate of a unit of this module that a row names by its die, region, cluster and unit (R36). -/
def ownUnit (s : State) (unit : Nat) : Nat := unit % 2 ^ 13 + myNumber s * 2 ^ 13

/-- Raises an event of the module as a whole. -/
def raise (code detail : Nat) (s : State) : State := raiseAt code (endpointCoord s) detail s

/-- Raises an event of a unit the first time since module reset. -/
def raiseOnceAt (code coord detail : Nat) (s : State) : State :=
  if s.lantern.events.once.contains code then s
  else raiseAt code coord detail (setEvents { s.lantern.events with once := code :: s.lantern.events.once } s)

/-- Raises an event the first time since module reset. -/
def raiseOnce (code detail : Nat) (s : State) : State := raiseOnceAt code (endpointCoord s) detail s

/-- Raises an event the first time since LOAD. -/
def raiseOnceRun (code detail : Nat) (s : State) : State :=
  if s.lantern.events.onceRun.contains code then s
  else raise code detail (setEvents { s.lantern.events with onceRun := code :: s.lantern.events.onceRun } s)

/-- Raises an event of a unit the first time since LOAD. -/
def raiseOnceRunAt (code coord detail : Nat) (s : State) : State :=
  if s.lantern.events.onceRun.contains code then s
  else raiseAt code coord detail (setEvents { s.lantern.events with onceRun := code :: s.lantern.events.onceRun } s)

/-- Raises an event the first time a mark is set; marks are cleared by the operation that owns them. -/
def clearOnce (code : Nat) (s : State) : State :=
  setEvents { s.lantern.events with once := s.lantern.events.once.filter fun c => c != code } s

/-- R30, R44: records the first fault; a later one is only logged. -/
def recordFault (code coord : Nat) (s : State) : State :=
  if s.life.fault.code != 0 then s
  else { s with life := { s.life with fault := { coord := coord, code := code, step := curStep s, station := curStation s } } }

/-- R29, R30: the module leaves service. -/
def leaveService (code coord : Nat) (s : State) : State :=
  setModState .outOfService (recordFault code coord s)

/-- R30: the module leaves service for a fault that raises no error event of its own: a fault after the recorded one is
logged as an event. -/
def leaveServiceLogged (code coord : Nat) (s : State) : State :=
  leaveService code coord (whenS (s.life.fault.code != 0) (raiseAt code coord 0) s)

end Sys2Proof.Machine
end

