-- ==== Sys2Proof/Machine/Mem.lean ====
section
/-!
DEFINITION. Memory (chapter 10): where payload bytes live (R23, R89, R258), which accesses are refused (R92, R218, R260,
R287, R392), the light code and the page code (R261 to R265), sector writes and the parity cache (R266 to R268, R539),
poison (R270 to R272) and on-die SRAM (R274).
-/
namespace Sys2Proof.Machine

/-! ## The die-local map -/

/-- Share starts, share sizes and populated lengths (R23). -/
def slowBase : Nat := 0x01000000000
def slowShare : Nat := 0x5000000000
def slowPop : Nat := 0x43D0000000
def fastShare : Nat := 0x400000000
def fastPop : Nat := 0x3D0800000
def sramBase : Nat := 0x1F000000000
def sramShare : Nat := 0x1000000
def pegBase : Nat := 0x1F800000000
def controlBase : Nat := 0x1FC00000000
def controlSize : Nat := 0x10000000

/-- Payload bytes of a page, of a sector, of a granule. -/
def pageBytes : Nat := 3472
def sectorBytes : Nat := 56
def granuleBytes : Nat := 4096 * pageBytes

/-- The portions of the die-local map (R89, R24, R27, R28). -/
inductive Portion where
  | fastFlat | pinned | directory | cache | table | overlay | slowFlat | rucksack
  | sram | sramReserved | peg | control | hole
  deriving DecidableEq, Repr

/-- A place in the map: its region, the offset in the region's share and its portion. -/
structure Spot where
  region : Nat
  off : Nat
  portion : Portion
  deriving DecidableEq, Repr

/-- Whether the portions of a loaded run are laid out. -/
def laidOut (s : State) : Bool := isMember s

/-- R24: the reservations at the start of a region's workspace share, in bytes. -/
def workspaceReserved (s : State) : Nat :=
  let fixed := setting s E.PARITY_CACHE_KIB + setting s E.RESPONSE_POOL_KIB / 4 + 256
  let run := setting s E.GATHER_BUFFER_KIB + setting s E.COALESCE_WORKSPACE_KIB + setting s E.EARLY_QUEUE_KIB + 1024
  1024 * (fixed + (if laidOut s then run else 0))

/-- R89: the portion of a fast-tier share offset. -/
def fastPortion (s : State) (o : Nat) : Portion :=
  if !laidOut s then .fastFlat
  else
    let g := o / granuleBytes
    let p := s.plan
    if g < p.fastFlat then .fastFlat
    else if g < p.fastFlat + p.fastPinned then .pinned
    else if g < p.fastFlat + p.fastPinned + p.fastDirectory then .directory
    else .cache

/-- R89, R218: the portion of a slow-tier share offset. -/
def slowPortion (s : State) (o : Nat) : Portion :=
  if !laidOut s then .slowFlat
  else
    let g := o / granuleBytes
    let p := s.plan
    if g < p.slowTable then .table
    else if g < p.slowTable + p.slowOverlay then .overlay
    else if g < 20480 - p.rucksack then .slowFlat
    else .rucksack

/-- Where a die-local offset lies (R23, R24, R27, R28). -/
def spotOf (s : State) (o : Nat) : Spot :=
  if o < 4 * fastShare then
    let r := o / fastShare
    let x := o % fastShare
    ⟨r, x, if x < fastPop then fastPortion s x else .hole⟩
  else if o < slowBase then ⟨0, 0, .hole⟩
  else if o < slowBase + 4 * slowShare then
    let r := (o - slowBase) / slowShare
    let x := (o - slowBase) % slowShare
    ⟨r, x, if x < slowPop then slowPortion s x else .hole⟩
  else if o < sramBase then ⟨0, 0, .hole⟩
  else if o < sramBase + 4 * sramShare then
    let r := (o - sramBase) / sramShare
    let x := (o - sramBase) % sramShare
    ⟨r, x, if x < workspaceReserved s then .sramReserved else .sram⟩
  else if o < pegBase then ⟨0, 0, .hole⟩
  else if o < pegBase + 64 * 4096 then ⟨0, o - pegBase, .peg⟩
  else if o < controlBase then ⟨0, 0, .hole⟩
  else if o < controlBase + controlSize then ⟨0, o - controlBase, .control⟩
  else ⟨0, 0, .hole⟩

/-- Where a range lies, when it lies in one region's share and one portion (R317). -/
def rangeSpot (s : State) (o len : Nat) : Option Spot :=
  let a := spotOf s o
  let b := spotOf s (o + len - 1)
  if len = 0 then none
  else if a.region = b.region && a.portion = b.portion && b.off = a.off + (len - 1) then some a else none

/-- The first byte of a region's share of a window. -/
def fastAddr (region x : Nat) : Nat := region * fastShare + x
def slowAddr (region x : Nat) : Nat := slowBase + region * slowShare + x
def sramAddr (region x : Nat) : Nat := sramBase + region * sramShare + x

/-- Portions that software may reach (R260). -/
def addressable : Portion → Bool
  | .directory => false
  | .cache => false
  | .sramReserved => false
  | .hole => false
  | _ => true

/-- R538: a flat portion for placement. -/
def isFlat : Portion → Bool
  | .fastFlat => true
  | .slowFlat => true
  | _ => false

/-- Whether two byte ranges meet. -/
def meets (a n b m : Nat) : Bool := decide (a < b + m) && decide (b < a + n) && decide (0 < n) && decide (0 < m)

/-- R392: whether a write touches the loaded run plan image. -/
def touchesImage (s : State) (die o len : Nat) : Bool :=
  laidOut s && meets (modAddr die o) len s.plan.planAddr s.plan.planBytes

/-- The offsets at which a portion of the die-local map begins, or ends (R23, R24, R27, R28, R89). -/
def portionEdges (s : State) : List Nat :=
  let p := s.plan
  let fast := [0, p.fastFlat, p.fastFlat + p.fastPinned, p.fastFlat + p.fastPinned + p.fastDirectory]
  let slow := [0, p.slowTable, p.slowTable + p.slowOverlay, 20480 - p.rucksack]
  (upto 4).flatMap (fun r =>
      (fast.map fun g => fastAddr r (g * granuleBytes)) ++ (slow.map fun g => slowAddr r (g * granuleBytes))
        ++ [fastAddr r fastPop, slowAddr r slowPop, sramAddr r 0, sramAddr r (workspaceReserved s)])
    ++ [4 * fastShare, slowBase + 4 * slowShare, sramBase + 4 * sramShare, pegBase, pegBase + 64 * 4096, controlBase,
        controlBase + controlSize]

/-- The portions that a byte range meets. -/
def portionsOf (s : State) (o len : Nat) : List Portion :=
  if len = 0 then []
  else
    match rangeSpot s o len with
    | some sp => [sp.portion]
    | none =>
      let inner := (portionEdges s).filter fun e => decide (o < e) && decide (e < o + len)
      (o :: inner ++ [o + len - 1]).map fun x => (spotOf s x).portion

/-- Why a read of a byte range is refused; 0 when it is not.  R260, R218. -/
def readRefusal (s : State) (o len : Nat) : Nat :=
  let ps := portionsOf s o len
  if ps.any fun p => !(addressable p) then 0x0701
  else if ps.contains .rucksack then 0x0426
  else 0

/-- Why a write of a byte range is refused; 0 when it is not.  R92, R218, R260, R287, R392. -/
def writeRefusal (s : State) (die o len : Nat) : Nat :=
  let ps := portionsOf s o len
  if ps.any fun p => !(addressable p) then 0x0701
  else if ps.any fun p => p == .peg || p == .control then 0x080D
  else if ps.any fun p => p == .table || p == .overlay || p == .pinned then 0x050B
  else if ps.contains .rucksack then 0x0426
  else if touchesImage s die o len then 0x030D
  else 0

/-- Counts a refusal and raises its event where a rule says so: R92, R218, R260. -/
def countRefusal (code : Nat) (s : State) : State :=
  if code = 0x0701 then raiseOnce 0x0701 0 (count E.RESERVED_ACCESSES s)
  else if code = 0x050B then count E.PROTECTED_WRITES s
  else if code = 0x0426 then count E.RUCKSACK_REFUSED s
  else s

/-- R399: a BAR access that a register or a window refuses. -/
def refuseBar (s : State) : State := count E.BAR_ACCESS_REFUSED s

/-- R402: a BAR2 or BAR4 access to memory that is refused with a code. -/
def barRefused (code : Nat) (s : State) : State := raiseOnce code 0 (countRefusal code (refuseBar s))

/-! ## Sectors and pages -/

/-- Places 0 to 31: die × 8 + tier × 4 + region, tier 0 slow and 1 fast. -/
def placeOf (die tier region : Nat) : Nat := die * 8 + tier * 4 + region

/-- The key of a page, and of one of its 64 sectors (62 and 63 hold P and Q). -/
def pageKey (place page : Nat) : Nat := place * 2 ^ 36 + page
def secKey (pk sec : Nat) : Nat := pk * 64 + sec
def pageOfSec (sk : Nat) : Nat := sk / 64
def secIn (sk : Nat) : Nat := sk % 64
def placeOfPage (pk : Nat) : Nat := pk / 2 ^ 36
def pageNo (pk : Nat) : Nat := pk % 2 ^ 36

/-- The module payload address of the first payload byte of a page. -/
def pageAddr (pk : Nat) : Nat :=
  let pl := placeOfPage pk
  let x := pageNo pk * pageBytes
  modAddr (pl / 8) (if pl / 4 % 2 = 0 then slowAddr (pl % 4) x else fastAddr (pl % 4) x)

def secAddr (sk : Nat) : Nat := pageAddr (pageOfSec sk) + secIn sk * sectorBytes

/-- The sector key of a DRAM payload address (R258), and the byte's place in the sector. -/
def secOfAddr (a : Nat) : Nat :=
  let d := addrDie a
  let o := addrOff a
  let fast := decide (o < 4 * fastShare)
  let r := if fast then o / fastShare else (o - slowBase) / slowShare
  let x := if fast then o % fastShare else (o - slowBase) % slowShare
  secKey (pageKey (placeOf d (b2n fast) r) (x / pageBytes)) (x % pageBytes / sectorBytes)

/-- Whether a payload address lies in DRAM. -/
def inDram (a : Nat) : Bool := decide (addrOff a < slowBase + 4 * slowShare)

/-- R258, R259, R261: channel code and channel-local page of a page. -/
def channelsOf (pk : Nat) : Nat := if placeOfPage pk / 4 % 2 = 0 then 20 else 16
def channelCode (pk : Nat) : Nat :=
  let pl := placeOfPage pk
  let k := pageNo pk % channelsOf pk
  if pl / 4 % 2 = 0 then pl / 8 * 80 + pl % 4 * 20 + k else 320 + pl / 8 * 64 + pl % 4 * 16 + k

/-- R261: the sector locator. -/
def locator (sk : Nat) : Nat :=
  let pk := pageOfSec sk
  pageNo pk / channelsOf pk * 64 + secIn sk + channelCode pk * 2 ^ 40

/-- The packed coordinate of the controller that serves a page (R16). -/
def controllerCoord (s : State) (pk : Nat) : Nat :=
  let pl := placeOfPage pk
  let k := pageNo pk % channelsOf pk
  unitCoord s (pl / 8) (pl % 4) 3 (if pl / 4 % 2 = 0 then k else 20 + k)

/-- Metadata bits of a sector (R82): EXP_M, EXP_S, STAMP, POISON, TORN. -/
def markExpM (m : Nat) : Nat := bits m 0 8
def markExpS (m : Nat) : Nat := bits m 8 8
def markStamp (m : Nat) : Nat := bits m 16 4
def markPoison (m : Nat) : Bool := bitAt m 20
def markTorn (m : Nat) : Bool := bitAt m 21
def poisonBit : Nat := 2 ^ 20
def tornBit : Nat := 2 ^ 21
def makeMark (expM expS stamp : Nat) (poison torn : Bool) : Nat :=
  expM + expS * 2 ^ 8 + stamp * 2 ^ 16 + b2n poison * poisonBit + b2n torn * tornBit
def withPoison (m : Nat) (p : Bool) : Nat :=
  if p then m ||| poisonBit else if markPoison m then m - poisonBit else m

/-! ## GF(2⁸) with 0x11D, on 60 bytes at once (R263) -/

/-- Sixty bytes, each `v`. -/
def bytes60 (v : Nat) : Nat := v * ((2 ^ 480 - 1) / 255)

/-- Each byte times α. -/
def gfAlpha (x : Nat) : Nat :=
  let hi := (x >>> 7) &&& bytes60 1
  ((x &&& bytes60 0x7F) <<< 1) ^^^ (hi * 0x1D)

/-- Each byte times α^n. -/
def gfAlphaN : Nat → Nat → Nat
  | 0, x => x
  | n + 1, x => gfAlphaN n (gfAlpha x)

/-- Each byte times the field element `c`. -/
def gfMulFrom (c : Nat) : Nat → Nat → Nat
  | 0, _ => 0
  | n + 1, x => (if bitAt c (8 - (n + 1)) then x else 0) ^^^ gfMulFrom c n (gfAlpha x)

def gfMul (c x : Nat) : Nat := gfMulFrom c 8 x

/-- Square and multiply: `c` to the power 254, which is its inverse. -/
def gfPow (c : Nat) : Nat → Nat
  | 0 => 1
  | n + 1 => gfMul c (gfPow c n)
def gfInv (c : Nat) : Nat := gfPow c 254

/-! ## The content of sectors -/

/-- The 56 payload bytes of a sector as stored at its place. -/
def secBytes (s : State) (sk : Nat) : Bytes := sgets 0 s.mem.cells (secAddr sk) sectorBytes

/-- A sector's metadata as stored. -/
def secMark (s : State) (sk : Nat) : Nat := sget 0 s.mem.marks sk

/-- Bytes 0 to 59 of a sector as one number. -/
def secWord (s : State) (sk : Nat) : Nat := leNat (secBytes s sk) + secMark s sk * 2 ^ 448

def setMem (m : Mem) (s : State) : State := { s with mem := m }

/-- Stores bytes 0 to 59 of a sector; the light code follows from them. -/
def putWord (sk w : Nat) (s : State) : State :=
  setMem { s.mem with
    cells := sputs 0 s.mem.cells (secAddr sk) (natLe 56 w)
    marks := sput 0 s.mem.marks sk (w / 2 ^ 448 % 2 ^ 32) } s

/-- What a change of a payload sector's bytes 0 to 59 does to P and Q (R267). -/
def parityDelta (sec delta : Nat) : Nat × Nat := (delta, gfAlphaN sec delta)
def xor2 (a b : Nat × Nat) : Nat × Nat := (a.1 ^^^ b.1, a.2 ^^^ b.2)

def staleOf (s : State) (pk : Nat) : Nat × Nat := sget (0, 0) s.mem.stale pk
def setStale (pk : Nat) (v : Nat × Nat) (s : State) : State :=
  setMem { s.mem with stale := sput (0, 0) s.mem.stale pk v } s
def damageOf (s : State) (sk : Nat) : Nat := sget 0 s.mem.damage sk
def setDamage (sk v : Nat) (s : State) : State :=
  setMem { s.mem with damage := sput 0 s.mem.damage sk v } s

/-! ## The light code (R261, R262) -/

/-- The light code of bytes 0 to 59 at a place. -/
def lightCode (sk w : Nat) : Nat := crc32c (natLe 8 (locator sk) ++ natLe 60 w)

/-- The linear part of the light code. -/
def lightLinear (d : Nat) : Nat := crcRefl 0x82F63B78 0 (natLe 60 d)

/-- The syndrome that an upset mask of 64 bytes leaves. -/
def syndrome (mask : Nat) : Nat := lightLinear (mask % 2 ^ 480) ^^^ (mask / 2 ^ 480)

/-- The data bit, of the last `n`, whose single error has this syndrome; `c` is the syndrome of bit 479 + 1 − steps. -/
def findBit (synd : Nat) : Nat → Nat → Option Nat
  | 0, _ => none
  | n + 1, c => if c = synd then some (n % 480) else findBit synd n (crcBit 0x82F63B78 c)

/-- R262: the bit of a single-bit syndrome, as a mask of 64 bytes; none for an uncorrectable one. -/
def singleBit (synd : Nat) : Option Nat :=
  match (upto 32).find? fun k => 2 ^ k == synd with
  | some k => some (2 ^ (480 + k))
  | none =>
    match findBit synd 480 (crcBit 0x82F63B78 1) with
    | some k => some (2 ^ k)
    | none => none

/-! ## Reading a sector (R264, R265) -/

/-- Takes an error of bytes 0 to 59 that a read does not notice, or corrects wrongly, as what the sector now holds: a payload
sector's content changes, which leaves the page's parity stale; a parity sector's error is stale parity itself. -/
def settleBits (sk lo : Nat) (s : State) : State :=
  let pk := pageOfSec sk
  if secIn sk = 62 then setStale pk (xor2 (staleOf s pk) (lo, 0)) s
  else if secIn sk = 63 then setStale pk (xor2 (staleOf s pk) (0, lo)) s
  else setStale pk (xor2 (staleOf s pk) (parityDelta (secIn sk) lo)) (putWord sk (secWord s sk ^^^ lo) s)

/-- The same of an error of all 64 bytes. -/
def settle (sk err : Nat) (s : State) : State := settleBits sk (err % 2 ^ 480) s

/-- Counts on a page's channel. -/
def channelCount (m : Sparse Nat) (pk : Nat) : Sparse Nat := supd 0 m (channelCode pk) fun n => min (n + 1) (2 ^ 32 - 1)

/-- Orders 1 and 2 of R265 on one sector: whether it is still lost. -/
def checkSector (sk : Nat) (s : State) : Bool × State :=
  let mask := damageOf s sk
  if mask = 0 then (false, s)
  else
    let synd := syndrome mask
    if synd = 0 then (false, setDamage sk 0 (settle sk mask s))
    else
      match singleBit synd with
      | some bit =>
        let s := setDamage sk 0 (settle sk (mask ^^^ bit) s)
        let s := setMem { s.mem with chanCorrected := channelCount s.mem.chanCorrected (pageOfSec sk) } s
        (false, count E.CE_CORRECTED s)
      | none => (true, s)

/-- Checks the sectors of a page, first to last: which are lost. -/
def checkSectors (pk : Nat) : List Nat → State → List Nat × State
  | [], s => ([], s)
  | i :: rest, s =>
    let r := checkSector (secKey pk i) s
    let t := checkSectors pk rest r.2
    (if r.1 then i :: t.1 else t.1, t.2)

/-- R270: one sector made poisoned; the parity of its page is put right by `poisonLost`. -/
def poisonSector (sk : Nat) (s : State) : State :=
  let pk := pageOfSec sk
  let s := setDamage sk 0 (putWord sk (poisonBit * 2 ^ 448) s)
  let s := setMem { s.mem with
    chanPoisoned := channelCount s.mem.chanPoisoned pk
    fresh := s.mem.fresh ++ [sk] } s
  raiseAt 0x0702 (controllerCoord s pk) (locator sk) (count E.SECTORS_POISONED s)

/-- Drops a page's parity-cache entry and makes its stored parity that of its payload sectors. -/
def freshParity (pk : Nat) (s : State) : State :=
  let s := setMem { s.mem with pend := sput none s.mem.pend pk none } s
  setDamage (secKey pk 62) 0 (setDamage (secKey pk 63) 0 (setStale pk (0, 0) s))

/-- R264, R270: poisons every lost payload sector of a page and recomputes its parity. -/
def poisonLost (pk : Nat) (lost : List Nat) (s : State) : State :=
  freshParity pk (forEach (lost.filter fun i => decide (i < 62)) (fun i => poisonSector (secKey pk i)) s)

/-- What a rebuild of the lost sectors of a page differs by from their content: zero where the stored parity, with any
pending change applied (R268), is good. -/
def rebuildError (s : State) (pk : Nat) (lost : List Nat) : List (Nat × Nat) :=
  let st := staleOf s pk
  match lost with
  | [i] => if i < 62 then [(i, st.1)] else []
  | [i, j] =>
    if j < 62 then
      let c := (gfAlphaN i 1) ^^^ (gfAlphaN j 1)
      let dj := gfMul (gfInv c) (st.2 ^^^ gfAlphaN i st.1)
      [(i, st.1 ^^^ dj), (j, dj)]
    else if j = 62 ∧ i < 62 then [(i, gfAlphaN (255 - i) st.2)]
    else if i < 62 then [(i, st.1)]
    else []
  | _ => []

/-- R264: a rebuilt sector is accepted when its light code equals bytes 60 to 63 as read, or its bytes 0 to 59 equal
the bytes as read. -/
def acceptRebuilt (s : State) (pk : Nat) (d : Nat × Nat) : Bool :=
  let mask := damageOf s (secKey pk d.1)
  decide (lightLinear d.2 = mask / 2 ^ 480) || decide (d.2 = mask % 2 ^ 480)

/-- R264 on the lost sectors of a page. -/
def rebuild (pk : Nat) (lost : List Nat) (s : State) : State :=
  if lost.isEmpty then s
  else
    let ds := rebuildError s pk lost
    if 2 < lost.length || !(ds.all (acceptRebuilt s pk)) then poisonLost pk lost s
    else
      let s := forEach ds (fun d s => setDamage (secKey pk d.1) 0 (settle (secKey pk d.1) d.2 s)) s
      let s := countN E.SECTORS_RECONSTRUCTED lost.length s
      let st := staleOf s pk
      let s := whenS (lost.contains 62) (fun s => setDamage (secKey pk 62) 0 (setStale pk (0, st.2) s)) s
      let st := staleOf s pk
      whenS (lost.contains 63) (fun s => setDamage (secKey pk 63) 0 (setStale pk (st.1, 0) s)) s

/-- R265: a read of one sector leaves it good or poisoned. -/
def fixSector (sk : Nat) (s : State) : State :=
  if damageOf s sk = 0 then s
  else
    let r := checkSector sk s
    if r.1 then
      let t := checkSectors (pageOfSec sk) (upto 64) r.2
      rebuild (pageOfSec sk) t.1 t.2
    else r.2

/-- R277: reads every sector of a page under R265. -/
def fixPage (pk : Nat) (s : State) : State :=
  if (s.mem.damage.any fun e => pageOfSec e.1 == pk) then
    let t := checkSectors pk (upto 64) s
    rebuild pk t.1 t.2
  else s

/-! ## On-die SRAM (R274) -/

/-- SRAM lines of a die: region × 2^18 + line of its workspace; 2^20 + region × 8192 + line of its side memory. -/
def sramKey (die line : Nat) : Nat := die * 2 ^ 21 + line

/-- The state of the eight 64-bit words of a line, two bits each: 0 good, 1 a single-bit error, 2 uncorrectable. -/
def wordKind (v w : Nat) : Nat := v / 4 ^ w % 4
def badWords (v kind : Nat) : Nat := ((upto 8).filter fun w => wordKind v w == kind).length

/-- The words of `ws` made good. -/
def goodWords (v : Nat) (ws : List Nat) : Nat := ws.foldl (fun v w => v - wordKind v w * 4 ^ w) v

/-- The pages of a region (die × 4 + region) that have a parity-cache entry, in key order. -/
def pendOf (s : State) (place : Nat) : List Nat :=
  (s.mem.pend.filter fun e => placeOfPage e.1 / 8 * 4 + placeOfPage e.1 % 4 == place).map Prod.fst

/-- The entry of its region's parity cache that serves a page, and the two lines of that entry at the start of the region's
workspace (R24, R267). -/
def pendIndex (s : State) (pk : Nat) : Nat :=
  (pageNo pk * 2 + placeOfPage pk / 4 % 2) % (setting s E.PARITY_CACHE_KIB * 8)
def pendLines (s : State) (pk : Nat) : List Nat :=
  let l := placeOfPage pk % 4 * 2 ^ 18 + 2 * pendIndex s pk
  [sramKey (placeOfPage pk / 8) l, sramKey (placeOfPage pk / 8) (l + 1)]

/-- A read of a line: single-bit errors are corrected, an uncorrectable word poisons the line; a poisoned line of the parity
cache has the parity of its page recomputed. -/
def fixLine (lk : Nat) (s : State) : State :=
  let v := sget 0 s.mem.sramBad lk
  if v = 0 then s
  else
    let s := setMem { s.mem with sramBad := sput 0 s.mem.sramBad lk 0 } s
    let s := countN E.SRAM_CORRECTED (badWords v 1) s
    if badWords v 2 = 0 then s
    else
      let s := setMem { s.mem with sramPoison := sput false s.mem.sramPoison lk true } s
      let covered := (pendOf s (lk / 2 ^ 21 * 4 + lk % 2 ^ 21 / 2 ^ 18)).filter fun pk => (pendLines s pk).contains lk
      raiseOnce 0x0703 lk (count E.SRAM_POISONED (forEach covered freshParity s))

def linePoison (s : State) (lk : Nat) : Bool := sget false s.mem.sramPoison lk

/-- All 64 bytes of a line are written. -/
def freshLine (lk : Nat) (s : State) : State :=
  let s := whenS (linePoison s lk) (count E.POISON_CLEARED) s
  setMem { s.mem with sramBad := sput 0 s.mem.sramBad lk 0, sramPoison := sput false s.mem.sramPoison lk false } s

/-- The line of a workspace address. -/
def lineOfAddr (a : Nat) : Nat :=
  let o := addrOff a - sramBase
  sramKey (addrDie a) (o / sramShare * 2 ^ 18 + o % sramShare / 64)

/-! ## The parity cache (R266 to R268, R539) -/

/-- R539: the parity sectors of a page that has an entry are read, and the change applied to them or to what is left. -/
def applyDelta (pk : Nat) (s : State) : State :=
  let t := checkSectors pk [62, 63] s
  let done (s : State) : State := setMem { s.mem with pend := sput none s.mem.pend pk none } s
  if t.1.isEmpty then done t.2
  else
    let u := checkSectors pk (upto 62) t.2
    if u.1.isEmpty then freshParity pk u.2 else done (rebuild pk (u.1 ++ t.1) u.2)

/-- R267, R274: writes one entry back, once its two lines have been read. -/
def parityWriteback (pk : Nat) (s : State) : State :=
  if (sget none s.mem.pend pk).isNone then s
  else
    let s := forEach (pendLines s pk) fixLine s
    if (sget none s.mem.pend pk).isNone then s else count E.PARITY_WRITEBACKS (applyDelta pk s)

/-- Writes every entry back (R267). -/
def parityFlushAll (s : State) : State := forEach (s.mem.pend.map Prod.fst) parityWriteback s

/-- A page takes its entry of the parity cache, from which the change of another page is written back first. -/
def takeEntry (pk : Nat) (d : Nat × Nat) (s : State) : State :=
  let others := (pendOf s (placeOfPage pk / 8 * 4 + placeOfPage pk % 4)).filter fun x => pendIndex s x == pendIndex s pk
  let s := forEach (pendLines s pk) freshLine (forEach others parityWriteback s)
  setMem { s.mem with pend := sput none s.mem.pend pk (some d) } s

/-- Adds a change to a page's entry. -/
def parityAdd (pk : Nat) (d : Nat × Nat) (s : State) : State :=
  if (sget none s.mem.pend pk).isNone then takeEntry pk d s
  else
    let s := forEach (pendLines s pk) fixLine s
    match sget none s.mem.pend pk with
    | some v => setMem { s.mem with pend := sput none s.mem.pend pk (some (xor2 v d)) } s
    | none => s

/-- R266: replaces bytes 0 to 59 of a payload sector that has been read under R265, through the parity cache. -/
def putSector (sk w : Nat) (s : State) : State :=
  let d := secWord s sk ^^^ w
  parityAdd (pageOfSec sk) (parityDelta (secIn sk) d) (putWord sk w s)

/-- R269: the pending parity changes of a die's regions are lost, and each of them becomes suspect. -/
def loseParity (die : Nat) (s : State) : State :=
  let mine := s.mem.pend.filter fun e => placeOfPage e.1 / 8 == die
  let s := forEach mine (fun e s =>
    let s := setStale e.1 (xor2 (staleOf s e.1) (e.2.getD (0, 0))) s
    setMem { s.mem with pend := sput none s.mem.pend e.1 none } s) s
  forEach four (fun r s => setMem { s.mem with suspect := sput 0 s.mem.suspect (die * 4 + r) 3 } s) s

/-! ## Cached and pinned copies (R93, R94) -/

/-- The pinned portion's copy of a table-area address of a region, when the table is pinned. -/
def pinnedTwin (s : State) (a : Nat) : Nat :=
  let sp := spotOf s (addrOff a)
  if sp.portion = .table then
    let g := sp.off / granuleBytes
    match (s.sets.flatMap fun t => t.tables).find? fun d => d.pinned && decide (d.baseGranule ≤ g) && decide (g < d.baseGranule + d.granules) with
    | some d =>
      modAddr (addrDie a)
        (fastAddr sp.region ((s.plan.fastFlat + d.pinnedBase) * granuleBytes + (sp.off - d.baseGranule * granuleBytes)))
    | none => a
  else a

/-- Payload bytes of a cached record, and the address of its copy in the cache portion of its region (R89): record
`slot` of page `page` of that portion, packed as in R87. -/
def cachedLen (c : Cached) : Nat := if c.compat then 224 else 112
def cachedAddr (s : State) (c : Cached) : Nat :=
  modAddr (c.region / 4) (fastAddr (c.region % 4)
    ((s.plan.fastFlat + s.plan.fastPinned + s.plan.fastDirectory) * granuleBytes + c.page * pageBytes + c.slot * cachedLen c))

/-- The sector that holds the current copy of a sector: that of the cached copy which covers it, or itself (R93). -/
def copySec (s : State) (sk : Nat) : Nat :=
  match s.place.cache.find? fun c => meets c.home (cachedLen c) (secAddr sk) sectorBytes with
  | some c => secOfAddr (cachedAddr s c + (secAddr sk - c.home))
  | none => sk

/-- The current metadata of a sector. -/
def curMark (s : State) (sk : Nat) : Nat := secMark s (copySec s sk)

/-! ## Reading and writing byte ranges -/

/-- The unit keys (sector or line) a range touches, first to last. -/
def touched (a n : Nat) : List Nat :=
  if n = 0 then []
  else if inDram a then
    let k0 := secOfAddr a
    let k1 := secOfAddr (a + n - 1)
    -- sectors of a share are numbered 64 to a page, 62 of them payload
    let p0 := pageOfSec k0 * 62 + secIn k0
    let p1 := pageOfSec k1 * 62 + secIn k1
    (upto (p1 - p0 + 1)).map fun i => secKey ((p0 + i) / 62) ((p0 + i) % 62)
  else
    let l0 := lineOfAddr a
    (upto (lineOfAddr (a + n - 1) - l0 + 1)).map fun i => l0 + i

/-- The range of payload bytes of a touched unit. -/
def unitStart (a k : Nat) : Nat :=
  if inDram a then secAddr k
  else modAddr (k / 2 ^ 21) (sramAddr (k % 2 ^ 21 / 2 ^ 18) (k % 2 ^ 18 * 64))
def unitLen (a : Nat) : Nat := if inDram a then sectorBytes else 64

/-- Makes every unit of a range good or poisoned, as a read does. -/
def fixRange (a n : Nat) (s : State) : State :=
  if inDram a then
    (if s.mem.damage.isEmpty then s else forEach (touched a n) fixSector s)
  else
    (if s.mem.sramBad.isEmpty then s else forEach (touched a n) fixLine s)

/-- Whether a unit is poisoned. -/
def unitPoison (s : State) (a k : Nat) : Bool := if inDram a then markPoison (curMark s k) else linePoison s k

/-- Whether a cached copy covers bytes of a range. -/
def cachedIn (s : State) (a n : Nat) : Bool := s.place.cache.any fun c => meets c.home (cachedLen c) a n

/-- Reads a range that lies in one table's granules, or outside every table. -/
def readPiece (a n : Nat) (s : State) : (Bytes × Bool) × State :=
  let b := pinnedTwin s a
  if cachedIn s b n then
    let ks := touched b n
    let s := forEach ks (fun k s => fixSector (copySec s k) s) s
    let v := ks.flatMap fun k => secBytes s (copySec s k)
    ((slice v (b - unitStart b (ks.headD 0)) n, ks.any (unitPoison s b)), s)
  else
    let s := fixRange b n s
    ((sgets 0 s.mem.cells b n, (touched b n).any (unitPoison s b)), s)

/-- Whether an address lies in the table area, where a granule may be pinned. -/
def inTableArea (s : State) (a : Nat) : Bool := (spotOf s (addrOff a)).portion == .table

/-- A range cut at the granules of its tier: (address, bytes).  The first argument bounds the pieces. -/
def cutGranules (s : State) : Nat → Nat → Nat → List (Nat × Nat)
  | 0, _, _ => []
  | k + 1, a, n =>
    let room := granuleBytes - (spotOf s (addrOff a)).off % granuleBytes
    if n ≤ room then [(a, n)] else (a, room) :: cutGranules s k (a + room) (n - room)

/-- R93, R94, R265: reads a range of payload bytes within one share: the current bytes and whether any is poisoned. -/
def readRange (a n : Nat) (s : State) : (Bytes × Bool) × State :=
  if inTableArea s a then
    (cutGranules s (n / granuleBytes + 2) a n).foldl (fun p c =>
      let r := readPiece c.1 c.2 p.2
      ((p.1.1 ++ r.1.1, p.1.2 || r.1.2), r.2)) (([], false), s)
  else readPiece a n s

/-- Which bytes of a range lie in a poisoned unit, as the unit keys' flags for each byte. -/
def poisonMap (s : State) (a n : Nat) : List Bool :=
  let table := inTableArea s a
  (upto n).map fun i =>
    let b := if table then pinnedTwin s (a + i) else a + i
    unitPoison s b (if inDram b then secOfAddr b else lineOfAddr b)

/-- Stores bytes into one touched unit.  `poison`: the write marks the unit (R271); a write of all its bytes without
poison clears the mark (R272, R274). -/
def writeUnit (a k : Nat) (b : Bytes) (from_ : Nat) (poison : Bool) (s : State) : State :=
  let start := unitStart a k
  let len := unitLen a
  let lo := max from_ start
  let hi := min (from_ + b.length) (start + len)
  let piece := (b.drop (lo - from_)).take (hi - lo)
  let whole := decide (piece.length = len)
  if inDram a then
    let s := fixSector k s
    let was := markPoison (secMark s k)
    let s := whenS (was && whole && !poison) (count E.POISON_CLEARED) s
    let w := secWord s k
    let bytes := patch (natLe 56 w) (lo - start) piece
    let m := withPoison (w / 2 ^ 448) (poison || (was && !whole))
    putSector k (leNat bytes + m * 2 ^ 448) s
  else
    let full := (upto 8).filter fun w => decide (lo ≤ start + 8 * w) && decide (start + 8 * w + 8 ≤ lo + piece.length)
    let s := setMem { s.mem with sramBad := sput 0 s.mem.sramBad k (goodWords (sget 0 s.mem.sramBad k) full) } s
    let s := fixLine k s
    let was := linePoison s k
    let s := whenS (was && whole && !poison) (count E.POISON_CLEARED) s
    setMem { s.mem with
      cells := sputs 0 s.mem.cells lo piece
      sramPoison := sput false s.mem.sramPoison k (poison || (was && !whole)) } s

/-- Whether a write supplies all 62 payload sectors of a page. -/
def wholePage (pk from_ n : Nat) : Bool := decide (from_ ≤ pageAddr pk) && decide (pageAddr pk + pageBytes ≤ from_ + n)

/-- R266: stores all 62 payload sectors of a page at once, without a parity-cache entry; `poison` says which sectors the
write marks. -/
def writePage (pk : Nat) (b : Bytes) (from_ : Nat) (poison : Nat → Bool) (s : State) : State :=
  let s := forEach (upto 62) (fun i s =>
    let sk := secKey pk i
    let was := markPoison (secMark s sk)
    let s := whenS (was && !(poison i)) (count E.POISON_CLEARED) s
    let piece := (b.drop (secAddr sk - from_)).take sectorBytes
    setDamage sk 0 (putWord sk (leNat piece + b2n (poison i) * poisonBit * 2 ^ 448) s)) s
  freshParity pk s

/-- R454: a page's die and its place in that die's copy: ascending locator order. -/
def copyDie (pk : Nat) : Nat := placeOfPage pk / 8
def copyPos (pk : Nat) : Nat := pageNo pk * 8 + placeOfPage pk % 4 * 2 + placeOfPage pk / 4 % 2

/-- R455: a page written, otherwise than by a mirrored update, after it was copied is sent again. -/
def noteRecopy (pk : Nat) (s : State) : State :=
  if s.twin.state == .copySource && decide (copyPos pk < sget 0 s.twin.copyNext (copyDie pk)) && !(s.twin.recopy.contains pk) then
    { s with twin := { s.twin with recopy := s.twin.recopy ++ [pk] } }
  else s

/-- The pages of a record: where it lies, and its home where it lies in a pinned table's fast copy. -/
def noteRecord (home : Nat) (s : State) : State :=
  noteRecopy (pageOfSec (secOfAddr (pinnedTwin s home))) (noteRecopy (pageOfSec (secOfAddr home)) s)

/-- A write that meets the dense area. -/
def noteDense (pk : Nat) (s : State) : State :=
  if meets (pageAddr pk) pageBytes s.plan.denseAddr s.plan.denseBytes then noteRecopy pk s else s

/-- Writes a range of payload bytes within one share.  The caller has made the refusal checks. -/
def writeRange (a : Nat) (b : Bytes) (poison : Bool) (s : State) : State :=
  if b.isEmpty then s
  else
    let ks := touched a b.length
    if inDram a then
      let pages := (ks.map pageOfSec).eraseDups
      forEach pages (fun pk s =>
        let s := noteDense pk s
        if wholePage pk a b.length then writePage pk b a (fun _ => poison) s
        else forEach (ks.filter fun k => pageOfSec k == pk) (fun k => writeUnit a k b a poison) s) s
    else forEach ks (fun k => writeUnit a k b a poison) s

/-- Whether a byte of a unit that a write touches is flagged. -/
def unitFlag (a k n : Nat) (flags : List Bool) : Bool :=
  let lo := max a (unitStart a k)
  let hi := min (a + n) (unitStart a k + unitLen a)
  ((flags.drop (lo - a)).take (hi - lo)).any id

/-- Writes a range whose units are poisoned one by one (R271): a unit is marked when a byte of it is flagged. -/
def writeMarked (a : Nat) (b : Bytes) (flags : List Bool) (s : State) : State :=
  if !(flags.any id) then writeRange a b false s
  else
    let ks := touched a b.length
    let bad (k : Nat) : Bool := unitFlag a k b.length flags
    let s := countN E.POISON_PROPAGATED (ks.filter bad).length s
    let one (k : Nat) (s : State) : State := writeUnit a k b a (bad k) s
    if inDram a then
      forEach (ks.map pageOfSec).eraseDups (fun pk s =>
        let s := noteDense pk s
        if wholePage pk a b.length then writePage pk b a (fun i => bad (secKey pk i)) s
        else forEach (ks.filter fun k => pageOfSec k == pk) one s) s
    else forEach ks one s

/-- R270: a unit of memory holds an upset: marks it, for the next read to find. -/
def upsetAt (u : Upset) (s : State) : State :=
  match u with
  | .dram place tier page sec mask =>
    let sk := secKey (pageKey (placeOf (place / 4) tier (place % 4)) page) sec
    setDamage sk (damageOf s sk ^^^ mask) s
  | .sram die line word kind =>
    let k := sramKey die line
    let v := sget 0 s.mem.sramBad k
    let was := wordKind v word
    setMem { s.mem with sramBad := sput 0 s.mem.sramBad k (v + ((if was = 0 then kind else 2) - was) * 4 ^ word) } s
  | .bridge _ => { s with life := { s.life with bridgeErrors := min 0xFFFFFFFF (s.life.bridgeErrors + 1) } }

/-- R275: the fill: every sector and every SRAM holds zero with valid codes. -/
def fillMemory (s : State) : State :=
  setMem { s.mem with
    filled := true, cells := [], marks := [], damage := [], pend := [], stale := [], sramPoison := [], sramBad := [] } s

/-! ## The form of memory -/

/-- The canonical form of memory: in each of its maps the keys rise strictly, and no entry equals what an unlisted key
reads as.  Equal memories are then equal data. -/
def Memory.wf (m : Mem) : Bool :=
  swf 0 m.cells && swf 0 m.marks && swf 0 m.damage && swf none m.pend && swf (0, 0) m.stale && swf false m.sramPoison
    && swf 0 m.sramBad

end Sys2Proof.Machine
end

