-- ==== Sys2Proof/Machine/Fabric.lean ====
section
/-!
DEFINITION. The Skereth Fabric above the flit (chapter 11): global addresses, packet headers and END_CHECK, routing,
what a router does with a packet, flits waiting for a link and their credits (R286 to R291, R297, R299, R307 to R318).
-/
namespace Sys2Proof.Machine

/-! ## Addresses and coordinates -/

def gClass (a : Nat) : Nat := bits a 60 4
def gModule (a : Nat) : Nat := bits a 43 13
def gDie (a : Nat) : Nat := bits a 41 2
def gOff (a : Nat) : Nat := bits a 0 41

/-- A MEMORY-class address. -/
def memGlobal (m d o : Nat) : Nat := o + d * 2 ^ 41 + m * 2 ^ 43

/-- An ENDPOINT-class address: module-wide region g and fragment offset (R322). -/
def endpointGlobal (m g off : Nat) : Nat := off + g % 4 * 2 ^ 39 + g / 4 * 2 ^ 41 + m * 2 ^ 43 + 2 ^ 60

def port (s : State) (i : Nat) : Port := sget {} s.fabric.ports i
def setPort (i : Nat) (p : Port) (s : State) : State :=
  { s with fabric := { s.fabric with ports := sput {} s.fabric.ports i p } }
def updPort (i : Nat) (f : Port → Port) (s : State) : State := setPort i (f (port s i)) s

/-- R290: the dimensions and the table that a port trained with; for what this module issues itself, those of the fabric
port that trained last. -/
def viewDims (s : State) : Option Nat → List Nat
  | some i => (port s i).dims
  | none => s.fabric.trainedDims
def viewCoords (s : State) : Option Nat → Sparse Nat
  | some i => (port s i).coords
  | none => s.fabric.trainedCoords

/-- The coordinate entry in force of a module number (R289, R290). -/
def entryAt (s : State) (v : Option Nat) (m : Nat) : Nat := sget 0 (viewCoords s v) m
def coordEntry (s : State) (m : Nat) : Nat := entryAt s none m
def coordValid (s : State) (m : Nat) : Bool := bitAt (coordEntry s m) 15

/-- The coordinate of an entry in dimension 0, 1 or 2. -/
def coordIn (e dim : Nat) : Nat := if dim = 0 then bits e 0 5 else if dim = 1 then bits e 5 4 else bits e 9 4
def dimSize (s : State) (v : Option Nat) (dim : Nat) : Nat := nthD 1 (viewDims s v) dim

/-- R286, R291, R316, R321: why an operation is refused at the issuer; 0 when it is not. -/
def issueRefusal (s : State) (a op : Nat) : Nat :=
  firstCode [
    (decide (2 < gClass a) || bits a 56 4 != 0, 0x0801),
    (gClass a == 2 && gDie a != 3, 0x0801),
    (!(decide (1 ≤ op ∧ op ≤ 4) || decide (0x10 ≤ op ∧ op ≤ 0x19)), 0x080D),
    (!(coordValid s (gModule a)), 0x080C)]

/-! ## Packets -/

def isRequest (p : Packet) : Bool := decide (p.op < 128)

/-- The header as a 256-bit number. -/
def headerNat (p : Packet) : Nat :=
  p.address + p.srcModule * 2 ^ 64 + p.srcDie * 2 ^ 77 + b2n p.poison * 2 ^ 79 + p.op * 2 ^ 80 + p.cls * 2 ^ 88
    + b2n p.phase * 2 ^ 91 + b2n p.via * 2 ^ 92 + p.long * 2 ^ 93 + p.viaModule * 2 ^ 96 + p.data.length * 2 ^ 112
    + p.tag * 2 ^ 128 + p.status * 2 ^ 144 + p.hops * 2 ^ 160 + p.endCheck * 2 ^ 192 + p.rsv

/-- END_CHECK of a packet (R314). -/
def endCheckOf (p : Packet) : Nat :=
  crc32c (natLe 32 (headerNat { p with hops := 0, phase := false, endCheck := 0 }) ++ p.data)

def sealPacket (p : Packet) : Packet := { p with endCheck := endCheckOf p }
def endCheckGood (p : Packet) : Bool := p.endCheck == endCheckOf p

/-- The packet's bytes, and a packet from them. -/
def packetBytes (p : Packet) : Bytes := natLe 32 (headerNat p) ++ p.data
def packetOf (b : Bytes) (dateline : Bool) : Packet :=
  let h := leNat (b.take 32)
  { address := bits h 0 64, srcModule := bits h 64 13, srcDie := bits h 77 2, poison := bitAt h 79, op := bits h 80 8,
    cls := bits h 88 3, phase := bitAt h 91, via := bitAt h 92, long := bits h 93 3, viaModule := bits h 96 13,
    tag := bits h 128 16, status := bits h 144 16, hops := bits h 160 7, endCheck := bits h 192 32,
    rsv := h &&& reservedBits, dateline := dateline, data := (b.drop 32).take (bits h 112 13) }

/-- R288, R309: the route-table entry that applies to a packet this module issues: none to its own number. -/
def routeEntry (s : State) (p : Packet) : Option Nat :=
  let m := gModule p.address
  let e := sget 0 s.fabric.route m
  if setting s E.ROUTE_MODE = 1 && bitAt e 0 && m != myNumber s then some e else none

/-- R309: the route-table choices of the issuing module for a destination. -/
def withRoute (s : State) (p : Packet) : Packet :=
  match routeEntry s p with
  | some e => { p with via := bitAt e 1, viaModule := if bitAt e 1 then bits e 16 13 else 0, long := bits e 4 3 }
  | none => p

/-- R310: the express port of a first hop. -/
def firstExpress (s : State) (p : Packet) : Option Nat :=
  match routeEntry s p with
  | some e => if bitAt e 2 then some (6 + b2n (bitAt e 3)) else none
  | none => none

/-! ## Routing (R307 to R310) -/

/-- Where a packet goes next: it has arrived, or leaves by a port on a dateline. -/
inductive Hop where
  | here
  | port (p : Nat) (dateline : Bool)
  deriving DecidableEq, Repr

/-- The direction of the shorter way round; a tie goes +; LONG reverses it. -/
def dimPlus (size me dest : Nat) (long : Bool) : Bool :=
  let d := (dest + size - me) % size
  let plus := decide (d ≤ size - d)
  if long then !plus else plus

/-- The next hop, by what is in force for `came`, the port the packet came in by.  A packet that already travels in the
dimension keeps its direction (log entry 11). -/
def nextHop (s : State) (p : Packet) (came : Option Nat) : Hop :=
  let dest := if p.via && !p.phase then p.viaModule else gModule p.address
  let me := entryAt s came (myNumber s)
  let there := entryAt s came dest
  match [0, 1, 2].find? fun k => coordIn me k != coordIn there k with
  | none => if gClass p.address = 2 then .port (6 + b2n (bitAt p.address 40)) false else .here
  | some k =>
    let size := dimSize s came k
    let inDim : Option Bool := match came with
      | some c => if c < 6 && c / 2 == k then some (c % 2 == 1) else none
      | none => none
    let long := bitAt p.long k && !(p.via && !p.phase)
    let plus := match inDim with
      | some d => d
      | none => dimPlus size (coordIn me k) (coordIn there k) long
    let wraps := if plus then decide (coordIn me k + 1 = size) else coordIn me k == 0
    .port (2 * k + b2n (!plus)) ((inDim.isSome && p.dateline) || wraps)

/-- The first hop of a packet that this module issues. -/
def firstHop (s : State) (p : Packet) : Hop :=
  match firstExpress s p with
  | some i => .port i false
  | none => nextHop s p none

/-! ## Ports -/

/-- The key of a virtual channel (R297). -/
def vcKey (phase dateline : Bool) (cls : Nat) : Nat := b2n phase * 10 + b2n dateline * 5 + cls
def flitVc (f : Flit) : Nat := vcKey f.phase f.dateline f.vcClass

/-- The flits of a packet (R297): 120 bytes of it in each body, the last filled with zeros. -/
def flitsOf (p : Packet) : List Flit :=
  let ps := pieces 120 (packetBytes p)
  let n := ps.length
  (ps.zip (upto n)).map fun x =>
    { vcClass := p.cls, dateline := p.dateline, phase := p.phase, first := x.2 == 0, last := x.2 + 1 == n,
      body := slice x.1 0 120 }

/-- The link header of a flit, and its CRC (R297). -/
def flitHeader (f : Flit) : Nat :=
  f.seq + f.ack * 2 ^ 12 + f.vcClass * 2 ^ 24 + b2n f.dateline * 2 ^ 27 + b2n f.phase * 2 ^ 28 + b2n f.first * 2 ^ 29
    + b2n f.last * 2 ^ 30 + b2n f.rsv * 2 ^ 31
def flitCrc (f : Flit) : Nat := crc32 (natLe 4 (flitHeader f) ++ f.body)

/-- Credits left for a virtual channel: 32 buffers, less what was sent and not yet freed (R332). -/
def creditLeft (p : Port) (v : Nat) : Nat := 32 - (sget 0 p.sent v + 65536 - sget 0 p.credit v) % 65536

/-- Sends what can be sent of the waiting flits, oldest first on each virtual channel; `blocked` are the channels that
have run out of credits.  A flit takes its SEQ and a place in the retry buffer of 512 (R300). -/
def pumpFlits (i : Nat) : List Flit → List Nat → State → List Flit × State
  | [], _, s => ([], s)
  | f :: rest, blocked, s =>
    let p := port s i
    let v := flitVc f
    if blocked.contains v || creditLeft p v = 0 || 512 ≤ p.retry.length then
      let r := pumpFlits i rest (v :: blocked) s
      (f :: r.1, r.2)
    else
      let f := { f with seq := p.nextSeq, ack := (p.expect + 4095) % 4096 }
      let f := { f with crc := flitCrc f }
      let s := setPort i { p with
        nextSeq := (p.nextSeq + 1) % 4096
        retry := p.retry ++ [f]
        sent := sput 0 p.sent v ((sget 0 p.sent v + 1) % 65536) } s
      let s := { s with fabric := { s.fabric with
        flitsSent := supd 0 s.fabric.flitsSent f.vcClass fun n => min (n + 1) (2 ^ 64 - 1) } }
      pumpFlits i rest blocked (emit (.flit i f) s)

/-- Lets a port that is UP send. -/
def pumpPort (i : Nat) (s : State) : State :=
  if (port s i).state == .up then
    let r := pumpFlits i (port s i).waiting [] s
    updPort i (fun p => { p with waiting := r.1 }) r.2
  else s

/-- Puts a packet's flits on a port. -/
def putOnPort (i : Nat) (p : Packet) (s : State) : State :=
  pumpPort i (updPort i (fun q => { q with waiting := q.waiting ++ flitsOf p }) (emit (.packet i p) s))

/-- R303: whether a link's level keeps a packet off it. -/
def levelRefuses (q : Port) (p : Packet) : Bool := q.level == 1 && !(decide (1 ≤ p.op % 128 ∧ p.op % 128 ≤ 4))

/-- R303, R312: why a packet may not take a port; 0 when it may.  A port that trains after having been DOWN is DOWN to it. -/
def hopRefusal (s : State) (i : Nat) (p : Packet) : Nat :=
  let q := port s i
  firstCode [
    (!(q.state == .up || (q.state == .training && !q.again)), 0x0808),
    (decide (setting s E.HOP_LIMIT < p.hops + 1), 0x080A),
    (levelRefuses q p, 0x080D)]

/-- R306: whether a fault lies in a bridge end between two dies; the ends of a die are in ascending order of the peer. -/
def bridgeFaulty (s : State) (a b : Nat) : Bool :=
  let bridgeEnd (x y : Nat) : Nat := coordOf 0 x 4 2 (4 + (if y < x then y else y - 1))
  a != b && (s.life.faultUnits.contains (bridgeEnd a b) || s.life.faultUnits.contains (bridgeEnd b a))

/-- Why a packet at a die may not take a hop; 0 when it may. -/
def hopCode (s : State) (die : Nat) (h : Hop) (p : Packet) : Nat :=
  match h with
  | .here => if bridgeFaulty s die (gDie p.address) then 0x0808 else 0
  | .port i _ => if bridgeFaulty s die (i / 2) then 0x0808 else hopRefusal s i p

/-- The number that names the die bridges, among the ports of `Out.packet`: a packet for this module itself (R288). -/
def insidePort : Nat := 12

/-- A packet takes a hop: to this module itself, or onto a port; where the port's level is not yet known it is held. -/
def takeHop (h : Hop) (p : Packet) (s : State) : State :=
  match h with
  | .here => emit (.packet insidePort p) s
  | .port i d =>
    let p := { p with hops := p.hops + 1, dateline := d }
    if (port s i).state == .training && !(port s i).retraining then updPort i (fun q => { q with held := q.held ++ [p] }) s
    else putOnPort i p s

/-- Issues a response at a die; one that cannot go is discarded. -/
def sendResponse (die : Nat) (p : Packet) (s : State) : State :=
  let h := firstHop s p
  if hopCode s die h p = 0 then takeHop h p s else count E.TRANSIT_DISCARDS s

/-- The response to a request (R316): it returns to the requester's module and die in class C0, from this module. -/
def responseTo (s : State) (p : Packet) (die status : Nat) (data : Bytes) (poison : Bool) : Packet :=
  sealPacket (withRoute s
    { address := memGlobal p.srcModule p.srcDie 0, srcModule := myNumber s, srcDie := die, poison := poison,
      op := p.op + 128, cls := 0, tag := p.tag, status := status, data := data })

/-- Issues the response to a request from the die it names. -/
def respond (p : Packet) (status : Nat) (data : Bytes) (poison : Bool) (s : State) : State :=
  let die := gDie p.address
  sendResponse die (responseTo s p die status data poison) (count E.PACKETS_ISSUED s)

/-- R312: the router of a die returns a request with a status, or discards a response. -/
def returnPacket (die : Nat) (p : Packet) (code : Nat) (s : State) : State :=
  if isRequest p then
    let s := if code = 0x080D then s else raiseOnce code (gModule p.address) (count E.TRANSIT_RETURNS s)
    sendResponse die (responseTo s p (gDie p.address) code [] false) s
  else count E.TRANSIT_DISCARDS s

/-- The router of a die forwards a packet by a hop. -/
def forwardHop (die : Nat) (h : Hop) (p : Packet) (s : State) : State :=
  let code := hopCode s die h p
  if code = 0 then takeHop h p s else returnPacket die p code s

/-- Sends a request packet this module issues. -/
def sendRequest (p : Packet) (s : State) : State := forwardHop p.srcDie (firstHop s p) p (count E.PACKETS_ISSUED s)

/-! ## Requests this module issues (R334, R336) -/

def setFabric (f : Fabric) (s : State) : State := { s with fabric := f }

/-- R311: a staged route table comes into force. -/
def takeRoutes (s : State) : State :=
  match s.fabric.routePending with
  | some t => setFabric { s.fabric with route := t, routePending := none } s
  | none => s

/-- Response space a request reserves: 32 bytes, plus the bytes of a READ or 8 of an ATOMIC_ADD. -/
def respSpace (p : Packet) : Nat :=
  32 + (if p.op = 1 then leNat p.data else if p.op = 3 then 8 else 0)

/-- The tags that a die's requests hold, over the fabric and over the Guyline, and the response space they reserve. -/
def heldTags (s : State) (die : Nat) : List Nat :=
  ((s.fabric.reqs.filter fun r => r.die == die).map fun r => r.tag) ++ ((s.twin.reqs.filter fun r => r.path == die).map fun r => r.tag)
def heldSpace (s : State) (die : Nat) : Nat :=
  ((s.fabric.reqs.filter fun r => r.die == die).map fun r => respSpace r.packet).sum
    + 32 * (s.twin.reqs.filter fun r => r.path == die).length

/-- Whether a die has a tag and `space` bytes of response space for one more request. -/
def canIssue (s : State) (die space : Nat) : Bool :=
  decide ((heldTags s die).length < setting s E.OUTSTANDING_MAX)
    && decide (heldSpace s die + space ≤ setting s E.RESPONSE_POOL_KIB * 1024)

/-- The die's next tag that no request holds. -/
def freeTag (s : State) (die : Nat) : Nat :=
  let held := heldTags s die
  let next := sget 0 s.fabric.nextTag die
  (((upto (held.length + 1)).map fun i => (next + i) % 65536).find? fun t => !(held.contains t)).getD next

/-- Takes a tag of a die. -/
def takeTag (die tag : Nat) (s : State) : State :=
  setFabric { s.fabric with nextTag := sput 0 s.fabric.nextTag die ((tag + 1) % 65536) } s

/-- Issues a request with a tag of its die, or lets it wait at its issuer behind those that wait there.  One that the issuer
refuses is never sent (R286, R291). -/
def issue (die addr op cls : Nat) (data : Bytes) (poison : Bool) (origin : Origin) (s : State) : State :=
  if issueRefusal s addr op != 0 then count E.REQUESTS_REFUSED s else
  let p : Packet := { address := addr, srcModule := myNumber s, srcDie := die, op := op, cls := cls, poison := poison, data := data }
  let r : Req := { die := die, tag := 0, packet := p, origin := origin, resends := 0, later := 0, backoff := false }
  if canIssue s die (respSpace p) && !(s.fabric.queued.any fun x => x.die == die) then
    let tag := freeTag s die
    let p := sealPacket { withRoute s p with tag := tag }
    let s := takeTag die tag s
    sendRequest p (setFabric { s.fabric with reqs := s.fabric.reqs ++ [{ r with tag := tag, packet := p }] } s)
  else setFabric { s.fabric with queued := s.fabric.queued ++ [r] } s

/-- Lets the requests that wait for a tag or space go: those of each die in order, while it has room. -/
def issueQueued (s : State) : State :=
  forEach s.fabric.queued (fun r => issue r.die r.packet.address r.packet.op r.packet.cls r.packet.data r.packet.poison r.origin)
    (setFabric { s.fabric with queued := [] } s)

/-- The outstanding request of a die and tag. -/
def findReq (s : State) (die tag : Nat) : Option Req := s.fabric.reqs.find? fun r => r.die == die && r.tag == tag

def dropReq (die tag : Nat) (s : State) : State :=
  setFabric { s.fabric with reqs := s.fabric.reqs.filter fun r => !(r.die == die && r.tag == tag) } s

def updReq (die tag : Nat) (f : Req → Req) (s : State) : State :=
  setFabric { s.fabric with reqs := s.fabric.reqs.map fun r => if r.die == die && r.tag == tag then f r else r } s

/-- Whether the fabric serves requests addressed to this module, and whether it only turns them away (R306). -/
def serves (s : State) : Bool := isState s .ready || stepping s
def outOfService (s : State) : Bool := isState s .outOfService

/-! ## Being the target (R314, R338) -/

/-- The entries of a die's duplicate filter, over the fabric and over the Guyline. -/
def dupEntries (s : State) (die : Nat) : Nat :=
  (s.fabric.dups.filter fun e => e.die == die).length + (s.twin.dups.filter fun e => e.1 == die).length

def findDup (s : State) (p : Packet) (die : Nat) : Option DupEntry :=
  s.fabric.dups.find? fun e => e.die == die && e.src == p.srcModule && e.srcDie == p.srcDie && e.tag == p.tag

/-- A RETRY_LATER answer given in a class, and one received. -/
def countLaterSent (cls : Nat) (s : State) : State :=
  setFabric { s.fabric with laterSent := supd 0 s.fabric.laterSent cls fun n => min (n + 1) (2 ^ 32 - 1) } s
def countLaterReceived (cls : Nat) (s : State) : State :=
  setFabric { s.fabric with laterReceived := supd 0 s.fabric.laterReceived cls fun n => min (n + 1) (2 ^ 32 - 1) } s

/-- A RETRY_LATER answer (R324, R338). -/
def retryLater (p : Packet) (s : State) : State := respond p 0x0811 [] false (countLaterSent p.cls s)

/-- Answers a performed request, and keeps the answer in the duplicate filter when `filter` holds. -/
def answerReq (filter : Bool) (p : Packet) (status : Nat) (data : Bytes) (poison : Bool) (s : State) : State :=
  let die := gDie p.address
  let r := responseTo s p die status data poison
  let s := if filter && status != 0x0811 then setFabric { s.fabric with
      dups := s.fabric.dups ++ [{ die := die, src := p.srcModule, srcDie := p.srcDie, tag := p.tag, response := r }] } s
    else s
  if status = 0x0811 then retryLater p s else respond p status data poison s

/-- R306, R314, R338: what the target does before it performs a request; `perform` answers status, data and poison. -/
def serveReq (filter : Bool) (p : Packet) (perform : State → (Nat × Bytes × Bool) × State) (s : State) : State :=
  if outOfService s then respond p 0x0C21 [] false s
  else if !(serves s) || gModule p.address != myNumber s then s
  else
    let s := count E.PACKETS_DELIVERED s
    if !(endCheckGood p) then respond p 0x080B [] false (count E.END_CHECK_ERRORS s)
    else
      let die := gDie p.address
      match (if filter then findDup s p die else none) with
      | some e => sendResponse die e.response (count E.DUPLICATES_FILTERED (count E.PACKETS_ISSUED s))
      | none =>
        if filter && decide (16384 ≤ dupEntries s die) then retryLater p s
        else
          let r := perform s
          answerReq filter p r.1.1 r.1.2.1 r.1.2.2 r.2

end Sys2Proof.Machine
end

