-- ==== Sys2Proof/Machine/Link.lean ====
section
/-!
DEFINITION. The link layer of fabric and Guyline ports (R292 to R305, R434): training and its checks, flits and their
retry, retrain and loss.
-/
namespace Sys2Proof.Machine

/-! ## Which ports train -/

/-- Ports 0 to 7 are F0 to F7, 8 to 11 are G0 to G3. -/
def isGuyline (i : Nat) : Bool := decide (8 ≤ i)

/-- The role of F6 or F7 that a value of its setting gives (R294, R496). -/
def roleFrom (s : State) (r : Nat) : Nat := if r = 1 && !(capOn s 9) then 0 else r
def roleEntry (i : Nat) : Nat := if i = 6 then E.PORT6_ROLE else E.PORT7_ROLE
def peerEntry (i : Nat) : Nat := if i = 6 then E.EXPRESS_PEER6 else E.EXPRESS_PEER7

/-- The role in force of F6 or F7. -/
def roleOf (s : State) (i : Nat) : Nat := roleFrom s (forced s (roleEntry i))

/-- A port's unit below the module number (R18, R36), and its coordinate. -/
def portUnit (i : Nat) : Nat := if isGuyline i then coordOf 0 (i - 8) 4 2 2 else coordOf 0 (i / 2) 4 2 (i % 2)
def portCoord (s : State) (i : Nat) : Nat := ownUnit s (portUnit i)

/-- R306: whether a port itself has failed. -/
def portFaulty (s : State) (i : Nat) : Bool := s.life.faultUnits.contains (portUnit i)

/-- Whether a port is to train now: it works, it is enabled, and the role that the settings give it requires training
(R293, R294, R431). -/
def trains (s : State) (i : Nat) : Bool :=
  !(portFaulty s i) &&
  if isGuyline i then reg s E.TWIN_ENABLE == 1
  else bitAt (reg s E.PORT_ENABLE_MASK) i &&
    if i < 6 then decide (1 < reg s (nthD E.TORUS_DIM_X [E.TORUS_DIM_X, E.TORUS_DIM_Y, E.TORUS_DIM_Z] (i / 2)))
    else roleFrom s (reg s (roleEntry i)) != 0

/-- R301: COORD_TABLE_CHECK of dimensions and a table. -/
def coordCheckOf (dims : List Nat) (t : Sparse Nat) : Nat :=
  crc32c (dims.flatMap (natLe 1) ++ (upto 8192).flatMap fun n => natLe 2 (sget 0 t n))

/-- The settings that only a training of the Guyline ports puts in force (R431). -/
def twinEntry (k : Nat) : Bool := k == E.TWIN_ENABLE || k == E.TWIN_PEER || k == E.TWIN_SIDE

/-- R431: TWIN_STATE follows TWIN_ENABLE in force. -/
def settleTwin (s : State) : State :=
  let on := forced s E.TWIN_ENABLE == 1
  if on && s.twin.state == .unpaired then { s with twin := { s.twin with state := .training } }
  else if !on && s.twin.state != .unpaired then { s with twin := { s.twin with state := .unpaired } }
  else s

/-- The settings that a training of a port puts in force (R35, R290, R294, R320, R431): those of the twin at a Guyline port
only, the module's identity at a fabric port, and a role and an express peer at its own port. -/
def takenAt (i k : Nat) : Bool :=
  if isGuyline i then twinEntry k
  else !(twinEntry k) && ([6, 7].all fun j => i == j || (k != roleEntry j && k != peerEntry j))

/-- R289: the dimensions as written. -/
def writtenDims (s : State) : List Nat := [reg s E.TORUS_DIM_X, reg s E.TORUS_DIM_Y, reg s E.TORUS_DIM_Z]

/-- Takes the settings that a training of a port puts in force. -/
def captureTraining (i : Nat) (s : State) : State :=
  let s := capture (fun e => e.effect == .atTraining && takenAt i e.key) s
  let s := updPort i (fun p => { p with dims := writtenDims s, coords := s.dict.coordTable, cap := reg s E.LEVEL_CAP }) s
  if isGuyline i then settleTwin s
  else setFabric { s.fabric with trainedDims := writtenDims s, trainedCoords := s.dict.coordTable } s

/-- The levels a port offers: bit 0 DA1, bit 1 DA2, none above LEVEL_CAP (R303). -/
def levelsOffered (p : Port) : Nat := 2 ^ p.cap - 1

/-- The TRAIN record this module sends on a port (R302, R434). -/
def trainRecord (s : State) (i selected : Nat) : TrainRec :=
  { moduleNumber := myNumber s
    numberValid := forced s E.MODULE_NUMBER_VALID == 1
    port := if isGuyline i then i - 8 else i
    levels := if isGuyline i then 2 else levelsOffered (port s i)
    role := if isGuyline i then 3 else if i < 6 then 0 else roleOf s i
    systemId := forced s E.SYSTEM_ID
    coordCheck := coordCheckOf (port s i).dims (port s i).coords
    dimX := dimSize s (some i) 0, dimY := dimSize s (some i) 1, dimZ := dimSize s (some i) 2
    selected := selected
    twinPeer := if isGuyline i then forced s E.TWIN_PEER else 0
    twinSide := if isGuyline i then forced s E.TWIN_SIDE else 0
    twinEnable := isGuyline i }

/-- A port as training finds it: nothing sent, nothing buffered (R305). -/
def cleared (p : Port) : Port :=
  { p with
    nextSeq := 0, retry := [], replays := 0, expect := 0, nakSent := false, sent := [],
    credit := [], freed := [], partials := [], level := 0, selected := 0 }

/-- A port's input buffers are discarded. -/
def dropArrivals (i : Nat) (s : State) : State :=
  if isGuyline i then { s with twin := { s.twin with arrivals := s.twin.arrivals.filter fun p => p.path != i - 8 } }
  else setFabric { s.fabric with arrivals := s.fabric.arrivals.filter fun e => e.1 != i } s

/-- What a port that goes DOWN or is disabled discards: what it holds for the link, and its input buffers (R305, R320). -/
def dropPort (i : Nat) (s : State) : State :=
  dropArrivals i
    (updPort i (fun p => { cleared p with waiting := [], held := [], retraining := false, again := false, resume := false }) s)

/-- Disables a port at once (R320). -/
def disablePort (i : Nat) (s : State) : State := updPort i (fun p => { p with state := .disabled }) (dropPort i s)

/-- Starts training a port from SEQ 0 and full credits; a port that does not train is disabled, and loses the twin's
settings with it (R431). -/
def startTraining (i : Nat) (s : State) : State :=
  if trains s i then
    let s := updPort i (fun p => { cleared p with state := .training, retraining := false, again := false, resume := false })
      (captureTraining i s)
    emit (.train i (trainRecord s i 0)) s
  else disablePort i (whenS (isGuyline i && !(portFaulty s i)) (captureTraining i) s)

/-- Starts training every port that is not UP (R320, R508). -/
def trainPorts (s : State) : State :=
  forEach (upto 12) (fun i s => if (port s i).state == .up then s else startTraining i s) s

/-- A REFUSED port may train again after a write that R302 names. -/
def retryRefused (s : State) : State :=
  forEach (upto 12) (fun i s => if (port s i).state == .refused then startTraining i s else s) s

/-! ## Training checks (R302, R434) -/

/-- The neighbour coordinate of R292, as an entry without VALID. -/
def neighbourOf (s : State) (i : Nat) : Nat :=
  let e := entryAt s (some i) (myNumber s)
  let c (k : Nat) : Nat :=
    let n := dimSize s (some i) k
    if k = i / 2 then (if i % 2 = 0 then (coordIn e k + 1) % n else (coordIn e k + n - 1) % n) else coordIn e k
  c 0 + c 1 * 2 ^ 5 + c 2 * 2 ^ 9

/-- The level agreed with a peer, 0 for none (R303). -/
def commonLevel (mine peer : Nat) : Nat :=
  if bitAt mine 1 && bitAt peer 1 then 2 else if bitAt mine 0 && bitAt peer 0 then 1 else 0

/-- Check 6 of R302. -/
def cablingGood (s : State) (i : Nat) (r : TrainRec) : Bool :=
  if i < 6 then entryAt s (some i) r.moduleNumber % 2 ^ 13 == neighbourOf s i && r.port == i ^^^ 1 && r.role == 0
  else
    if roleOf s i = 1 then
      r.moduleNumber == forced s (peerEntry i) && r.role == 1
    else r.role == 2

/-- The first failed training check; 0 when all pass. -/
def trainRefusal (s : State) (i : Nat) (r : TrainRec) : Nat :=
  let mine := trainRecord s i 0
  firstCode ([
    (!(mine.numberValid && r.numberValid), 0x0C20),
    (r.systemId != mine.systemId, 0x0802),
    (r.moduleNumber == mine.moduleNumber, 0x0803),
    (commonLevel mine.levels r.levels == 0, 0x0804),
    (r.dimX != mine.dimX || r.dimY != mine.dimY || r.dimZ != mine.dimZ || r.coordCheck != mine.coordCheck
      || !(bitAt (entryAt s (some i) mine.moduleNumber) 15) || !(bitAt (entryAt s (some i) r.moduleNumber) 15), 0x0805)] ++
    (if isGuyline i then [
      (r.moduleNumber != mine.twinPeer || r.twinPeer != mine.moduleNumber || r.port != mine.port || r.role != 3, 0x0901),
      (r.twinSide == mine.twinSide, 0x0902)]
    else [(!(cablingGood s i r), 0x0806)]))

/-! ## Sending control flits, replay -/

/-- The cumulative credits and ACK that every control flit carries (R298). -/
def controlOf (s : State) (i code : Nat) : Control :=
  let p := port s i
  { code := code, ack := (p.expect + 4095) % 4096, nakSeq := if code = 2 then p.expect else 0, credits := p.freed }

def sendControl (i code : Nat) (s : State) : State := emit (.control i (controlOf s i code)) s

/-- Resends the flits of the retry buffer from a SEQ on, in order (R300). -/
def replayFrom (i q : Nat) (s : State) : State :=
  let p := port s i
  forEach (p.retry.dropWhile fun f => f.seq != q) (fun f => emit (.flit i f)) s

/-- A retrain holds the retry buffer and the sequence state (R304). -/
def retrain (i : Nat) (s : State) : State :=
  if (port s i).state != .up then s
  else if !(trains s i) then startTraining i s
  else
    let s := updPort i (fun p => { p with
      state := .training, retraining := true, resume := true, replays := 0, selected := 0
      retrains := min (p.retrains + 1) (2 ^ 32 - 1) }) (captureTraining i s)
    emit (.train i (trainRecord s i 0)) s

/-- R296: a codeword is counted once: the symbols corrected, up to 15, or one codeword discarded. -/
def countFec (i : Nat) (c : Codeword) (s : State) : State :=
  updPort i (fun p =>
    if c.counted then p
    else if c.errors ≤ 15 then { p with fecCorrected := min (p.fecCorrected + c.errors) (2 ^ 64 - 1) }
    else { p with fecUncorrectable := min (p.fecUncorrectable + 1) (2 ^ 32 - 1) }) s

/-- R296: what a flit does once its codeword has been counted: nothing where that could not be corrected. -/
def decoded (i : Nat) (c : Codeword) (f : State → State) (s : State) : State :=
  let s := countFec i c s
  if 15 < c.errors then s else f s

/-- Packets that waited for a port come back, the port being REFUSED. -/
def returnHeld (i : Nat) (s : State) : State :=
  let ps := (port s i).held
  forEach ps (fun p s => returnPacket (i / 2) p 0x0808 s) (updPort i (fun q => { q with held := [] }) s)

/-- A TRAIN record from the peer of a training port: checked, and the level agreed, or the port REFUSED.  A retrain resumes
only where every record names the peer of before (R304). -/
def recordReceive (i : Nat) (r : TrainRec) (s : State) : State :=
  let p := port s i
  if p.state != .training then s
  else
    let code := trainRefusal s i r
    if code != 0 then
      let s := dropPort i (returnHeld i s)
      raiseAt code (portCoord s i) r.moduleNumber (updPort i (fun p => { p with state := .refused, refuse := code }) s)
    else
      let level := commonLevel (trainRecord s i 0).levels r.levels
      let same := p.peerModule == r.moduleNumber && p.peerPort == r.port
      let s := updPort i (fun p => { p with
        peerModule := r.moduleNumber, peerPort := r.port, selected := level, resume := p.resume && same }) s
      if r.selected = 0 then emit (.train i (trainRecord s i level)) s else s

/-- TRAIN_FLIT_RECEIVE: a first record at a port that is UP is the peer's request to retrain (R304). -/
def trainReceive (i : Nat) (r : TrainRec) (s : State) : State :=
  decoded i r.word (fun s => recordReceive i r (whenS (r.selected == 0) (retrain i) s)) s

/-- One replay: after 8 without ACK progress the port retrains (R300). -/
def replay (i q : Nat) (s : State) : State :=
  let s := updPort i (fun p => { p with
    replays := p.replays + 1, replayCount := min (p.replayCount + 1) (2 ^ 32 - 1) }) s
  let s := replayFrom i q s
  if 8 ≤ (port s i).replays then retrain i s else s

/-- Drops the flits an ACK covers; progress clears the replay count. -/
def takeAck (i a : Nat) (s : State) : State :=
  let p := port s i
  let left := p.retry.filter fun f => decide ((f.seq + 4096 - a - 1) % 4096 < 2048)
  if left.length < p.retry.length then setPort i { p with retry := left, replays := 0 } s else s

/-- Takes the cumulative credits of a control flit. -/
def takeCredits (i : Nat) (cs : List (Nat × Nat)) (s : State) : State :=
  updPort i (fun p => { p with credit := cs.foldl (fun m c => sput 0 m c.1 (c.2 % 65536)) p.credit }) s

/-- R298: an IDLE or CREDIT control flit. -/
def controlReceive (i : Nat) (c : Control) (s : State) : State :=
  if (port s i).state != .up then s
  else decoded i c.word (whenS c.crcGood fun s => pumpPort i (takeCredits i c.credits (takeAck i c.ack s))) s

/-- R300: a NAK. -/
def nakReceive (i : Nat) (c : Control) (s : State) : State :=
  if (port s i).state != .up then s
  else decoded i c.word (whenS c.crcGood fun s => pumpPort i (replay i c.nakSeq (takeCredits i c.credits (takeAck i c.ack s)))) s

/-- R300: the link retry timer. -/
def retryExpiry (i : Nat) (s : State) : State :=
  let p := port s i
  match p.retry with
  | [] => s
  | f :: _ => if p.state == .up then replay i f.seq s else s

/-! ## Receiving data flits (R299) -/

/-- A Guyline packet from its bytes (R434). -/
def gpacketOf (path : Nat) (b : Bytes) : GPacket :=
  let h := leNat (b.take 16)
  { path := path, gop := bits h 0 8, cls := bits h 8 3, poison := bitAt h 11, die := bits h 12 2, region := bits h 14 2,
    tag := bits h 16 16, status := bits h 32 16, rsv := bits h 61 3, stepLo := bits h 64 32, endCheck := bits h 96 32,
    data := (b.drop 16).take (bits h 48 13) }

/-- Delivers the packet whose last flit has come to the router or to the Guyline unit. -/
def deliverFlits (i vc : Nat) (bodies : List Bytes) (s : State) : State :=
  let b := bodies.flatMap id
  if isGuyline i then { s with twin := { s.twin with arrivals := s.twin.arrivals ++ [gpacketOf (i - 8) b] } }
  else setFabric { s.fabric with arrivals := s.fabric.arrivals ++ [(i, packetOf b (vc / 5 % 2 == 1))] } s

/-- Flit buffers of a virtual channel of an input port (R297). -/
def vcBuffers : Nat := 32

/-- Flit buffers of a virtual channel are freed (R332). -/
def freeFlits (i vc n : Nat) (s : State) : State :=
  updPort i (fun p => { p with freed := sput 0 p.freed vc ((sget 0 p.freed vc + n) % 65536) }) s

/-- Accepts a flit in order.  The router passes the first flit of a packet on where its channel's buffers are full and the
packet has more to come. -/
def acceptFlit (i : Nat) (f : Flit) (s : State) : State :=
  let vc := flitVc f
  let p := port s i
  let got := if f.first then [f.body] else sget [] p.partials vc ++ [f.body]
  let s := setPort i { p with
    expect := (p.expect + 1) % 4096, nakSent := false, partials := sput [] p.partials vc (if f.last then [] else got) } s
  let s := setFabric { s.fabric with
    flitsReceived := supd 0 s.fabric.flitsReceived f.vcClass fun n => min (n + 1) (2 ^ 64 - 1) } s
  if f.last then deliverFlits i vc got s else whenS (decide (vcBuffers ≤ got.length)) (freeFlits i vc 1) s

/-- R299: a data flit. -/
def flitReceive (i : Nat) (f : Flit) (c : Codeword) (s : State) : State :=
  if (port s i).state != .up then s
  else decoded i c (fun s =>
    let p := port s i
    let good := f.crc == flitCrc f
    let s := if good then s else setPort i { p with crcErrors := min (p.crcErrors + 1) (2 ^ 32 - 1) } s
    if good && f.seq == p.expect then pumpPort i (acceptFlit i f (takeAck i f.ack s))
    else if p.nakSent then s
    else sendControl i 2 (updPort i (fun p => { p with nakSent := true }) s)) s

/-- The flit buffers that a packet of `n` header and data bytes still holds when its last flit has come. -/
def heldFlits (n : Nat) : Nat := min vcBuffers (ceilDiv n 120)

/-- The router or a unit takes a packet out of the input buffers: its flit buffers are freed (R332). -/
def takeArrival (q : Packet) (s : State) : State :=
  match s.fabric.arrivals.find? fun e => e.2 == q with
  | none => s
  | some e =>
    freeFlits e.1 (vcKey q.phase q.dateline q.cls) (heldFlits (32 + q.data.length))
      (setFabric { s.fabric with arrivals := s.fabric.arrivals.erase e } s)

def takeGArrival (q : GPacket) (s : State) : State :=
  if s.twin.arrivals.contains q then
    freeFlits (8 + q.path) q.cls (heldFlits (16 + q.data.length))
      { s with twin := { s.twin with arrivals := s.twin.arrivals.erase q } }
  else s

/-! ## Up and down -/

/-- R303: the packets that were held for a level take the port, or come back where the level keeps them off it. -/
def releaseHeld (i : Nat) (s : State) : State :=
  let q := port s i
  forEach q.held (fun p s => if levelRefuses q p then returnPacket (i / 2) p 0x080D s else putOnPort i p s)
    (updPort i (fun q => { q with held := [] }) s)

/-- R304, R305: training has completed: the port resumes, or starts from SEQ 0 with full credits. -/
def trainingDone (i : Nat) (s : State) : State :=
  let p := port s i
  if p.state == .training && p.selected != 0 then
    let up := { p with state := .up, level := p.selected, retraining := false, again := false, resume := false }
    if p.resume then
      let s := setPort i up s
      let s := match p.retry with
        | [] => s
        | f :: _ => replayFrom i f.seq s
      pumpPort i s
    else
      releaseHeld i (pumpPort i (setPort i { cleared up with level := p.selected, selected := p.selected } (dropArrivals i s)))
  else s

/-- R305: a retrain that has not completed in 100 ms leaves the port DOWN. -/
def portDown (i : Nat) (s : State) : State :=
  raiseAt 0x0807 (portCoord s i) i (count E.LINK_DOWN_EVENTS (updPort i (fun p => { p with state := .down }) (dropPort i s)))

/-- R305: a port that is DOWN tries to train again; until it has trained it is DOWN to packets. -/
def tryAgain (i : Nat) (s : State) : State :=
  let p := port s i
  if (p.state == .down || (p.state == .training && p.again)) && !(portFaulty s i) then
    let s := startTraining i s
    if (port s i).state == .training then updPort i (fun p => { p with again := true }) s else s
  else s

end Sys2Proof.Machine
end

