-- ==== Sys2Proof/Machine/Traffic.lean ====
section
/-!
DEFINITION. Messages (chapter 12): sending and resending them, accepting their fragments, and how responses and timers
end requests and messages (R321 to R325, R327, R334 to R340, R536).
-/
namespace Sys2Proof.Machine

/-! ## Members and trees (R327, R330, R331, R451) -/

/-- Members per pitch position: two in a Paired run. -/
def perPosition (s : State) : Nat := if s.plan.paired then 2 else 1
def memberCount (s : State) : Nat := s.plan.members.length
def memberModule (s : State) (k : Nat) : Nat := nthD 0xFFFF s.plan.members k
def orderOf (s : State) (m : Nat) : Option Nat := s.plan.members.findIdx? fun x => x == m
def pitchOfMember (s : State) (k : Nat) : Nat := k / perPosition s / s.plan.p
def positionOfMember (s : State) (k : Nat) : Nat := k / perPosition s % s.plan.p
def myOrder (s : State) : Nat := s.plan.order
def myPitch (s : State) : Nat := pitchOfMember s (myOrder s)
def myPosition (s : State) : Nat := positionOfMember s (myOrder s)

/-- R450: a member is marked lost by its order. -/
def isLost (s : State) (k : Nat) : Bool := s.fabric.lost.contains k

/-- R451: the member that takes a message for member `k`. -/
def actingFor (s : State) (k : Nat) : Nat := if s.plan.paired && isLost s k then k ^^^ 1 else k

/-- R451: whether this module holds the roles of member `k`. -/
def actsAs (s : State) (k : Nat) : Bool := k == myOrder s || (actingFor s k == myOrder s && isLost s k)

/-- The orders whose roles this module holds. -/
def myOrders (s : State) : List Nat :=
  if s.plan.paired && isLost s (myOrder s ^^^ 1) then [myOrder s, myOrder s ^^^ 1] else [myOrder s]

/-- The Ledger tree (R330). -/
def ledgerParent (k : Nat) : Nat := (k - 1) / 8
def ledgerChildren (s : State) (k : Nat) : List Nat := (upto 8).filterMap fun i =>
  if 8 * k + 1 + i < memberCount s then some (8 * k + 1 + i) else none

/-- The multicast tree of a shard (R331), as member orders. -/
def castChildren (s : State) (root k : Nat) : List Nat :=
  let m := memberCount s
  (ledgerChildren s ((k + m - root) % m)).map fun r => (r + root) % m

/-! ## Sending (R321 to R323) -/

/-- The class of a message operation (R321). -/
def msgClass (op : Nat) : Nat := if op = 0x10 || op = 0x16 then 4 else 2

/-- The largest message of an operation (R321). -/
def msgLimit (op : Nat) : Nat :=
  if op = 0x12 then 1048640
  else if op = 0x14 || op = 0x15 then 64
  else if op = 0x17 then 4128
  else if op = 0x18 then 32
  else 1048608

/-- Operations that go to region 0 of die 0 (R322). -/
def toRegionZero (op : Nat) : Bool := op == 0x14 || op == 0x15 || op == 0x17 || op == 0x18

/-- The receiving region of a message (R322). -/
def msgRegion (src op msgId : Nat) : Nat := if toRegionZero op then 0 else (src + msgId) % 16

/-- The prefix of a fragment (R323). -/
def msgPrefix (m : OutMsg) (off n : Nat) : Bytes :=
  natLe 4 m.msgId ++ natLe 4 m.bytes
    ++ natLe 1 (b2n (decide (off + n = m.bytes)) + 2 * b2n (m.poison.contains (off / 4080))) ++ zeros 3 ++ natLe 4 (m.step % 2 ^ 32)

/-- The fragments of so many bytes. -/
def fragmentCount (bytes : Nat) : Nat := ceilDiv bytes 4080

/-- Issues the fragments of a message that there are, from the `k`-th on. -/
def sendFragments (k : Nat) (m : OutMsg) (s : State) : State :=
  let fs := pieces 4080 m.body
  forEach ((fs.zip (upto fs.length)).drop k) (fun x s =>
    issue m.die (endpointGlobal m.dest (msgRegion (myNumber s) m.op m.msgId) (x.2 * 4080)) m.op (msgClass m.op)
      (msgPrefix m (x.2 * 4080) x.1.length ++ x.1) false (.message m.key) s) s

/-- Starts a message of `bytes` bytes from a die to a module, and sends what there is of it (R321).  One that the issuer
refuses (R286, R291) ends at once. -/
def startMsg (die op dest step bytes : Nat) (body : Bytes) (poison : List Nat) (owner : MsgOwner) (s : State) : State :=
  if issueRefusal s (endpointGlobal dest 0 0) op != 0 then count E.MESSAGES_REFUSED (count E.REQUESTS_REFUSED s)
  else
    let id := sget 0 s.fabric.nextMsg die
    let m : OutMsg := {
      key := s.fabric.nextKey, die := die, msgId := id, op := op, dest := dest, step := step, bytes := bytes,
      body := body, poison := poison, owner := owner, acked := 0, resends := 0, later := 0, backoff := false }
    let s := setFabric { s.fabric with
      nextMsg := sput 0 s.fabric.nextMsg die ((id + 1) % 2 ^ 32)
      nextKey := s.fabric.nextKey + 1
      msgs := s.fabric.msgs ++ [m] } s
    sendFragments 0 m s

/-- Sends a whole message. -/
def sendMsg (die op dest step : Nat) (body : Bytes) (poison : List Nat) (owner : MsgOwner) (s : State) : State :=
  startMsg die op dest step body.length body poison owner s

/-- Sends a message to a member, or to the member that acts for it (R451). -/
def sendToMember (die op k step : Nat) (body : Bytes) (poison : List Nat) (owner : MsgOwner) (s : State) : State :=
  sendMsg die op (memberModule s (actingFor s k)) step body poison owner s

/-- The member order of this module's twin, where it has been paired with a replacement: every other member keeps the
lost twin marked, and sends to this module what the replacement is owed. -/
def pairedAnew (s : State) : Option Nat :=
  let k := myOrder s ^^^ 1
  if s.plan.paired && isPaired s && isLost s k then some k else none

/-- Passes to the replacement what reaches its order's stand-in. -/
def toReplacement (op step : Nat) (body : Bytes) (poison : List Nat) (s : State) : State :=
  match pairedAnew s with
  | some k => sendMsg 0 op (memberModule s k) step body poison .nobody s
  | none => s

/-- Why a message to a member is refused at its issuer; 0 when it is not. -/
def msgRefusal (s : State) (op k : Nat) : Nat := issueRefusal s (endpointGlobal (memberModule s (actingFor s k)) 0 0) op

def findMsg (s : State) (key : Nat) : Option OutMsg := s.fabric.msgs.find? fun m => m.key == key
def updMsg (key : Nat) (f : OutMsg → OutMsg) (s : State) : State :=
  setFabric { s.fabric with msgs := s.fabric.msgs.map fun m => if m.key == key then f m else m } s

/-- Drops a message's waiting fragments; those that are out keep their tags and space until they end (R334). -/
def dropFragments (key : Nat) (s : State) : State :=
  setFabric { s.fabric with
    reqs := s.fabric.reqs.map fun r => if r.origin == .message key then { r with origin := .orphan } else r
    queued := s.fabric.queued.filter fun r => r.origin != .message key } s

def dropMsg (key : Nat) (s : State) : State :=
  let s := dropFragments key s
  setFabric { s.fabric with msgs := s.fabric.msgs.filter fun m => m.key != key } s

/-- Resends a message from offset 0 with the same MSG_ID (R325, R336). -/
def resendMsg (key : Nat) (s : State) : State :=
  match findMsg s key with
  | some m => sendFragments 0 m (updMsg key (fun m => { m with acked := 0, backoff := false }) (dropFragments key s))
  | none => s

/-! ## Ends of requests and messages (R325, R336, R337, R339) -/

/-- How a response, or a timer, ends a request or a message. -/
inductive Ended where
  | nothing
  | request (r : Req) (status : Nat) (data : Bytes) (poison : Bool)
  | delivered (m : OutMsg)
  | refused (m : OutMsg) (status : Nat)
  | failed (m : OutMsg) (status : Nat)
  deriving DecidableEq, Repr

/-- Statuses that fail a request (R339). -/
def failingStatus (c : Nat) : Bool := c == 0x0808 || c == 0x080A || c == 0x0C21

/-- A message has failed: event 0x0810, one REQUESTS_FAILED. -/
def failMsg (m : OutMsg) (status : Nat) (s : State) : Ended × State :=
  (.failed m status, raise 0x0810 m.dest (count E.REQUESTS_FAILED (dropMsg m.key s)))

/-- The first response to a message's fragment (R325, R339, R340). -/
def fragmentAnswered (r : Req) (key status : Nat) (s : State) : Ended × State :=
  let s := dropReq r.die r.tag s
  match findMsg s key with
  | none => (.nothing, s)
  | some m =>
    if status = 0 then
      let s := updMsg key (fun m => { m with acked := m.acked + 1 }) s
      if m.acked + 1 = fragmentCount m.bytes then (.delivered m, count E.MESSAGES_SENT (dropMsg key s)) else (.nothing, s)
    else if status = 0x0811 then
      (.nothing, updMsg key (fun m => { m with later := m.later + 1, backoff := true }) (dropFragments key s))
    else if failingStatus status || status = 0x0813 then failMsg m status s
    else (.refused m status, count E.MESSAGES_REFUSED (dropMsg key s))

/-- R314, R339: a response reaches the issuing die. -/
def responseArrives (die : Nat) (p : Packet) (s : State) : Ended × State :=
  if isRequest p then (.nothing, s)
  else if !(endCheckGood p) then (.nothing, count E.END_CHECK_ERRORS s)
  else
    let s := count E.PACKETS_DELIVERED s
    match findReq s die p.tag with
    | none => (.nothing, count E.LATE_RESPONSES s)
    | some r =>
      if p.op != r.packet.op + 128 then (.nothing, count E.LATE_RESPONSES s)
      else
        let s := whenS p.poison (count E.POISONED_RESPONSES) s
        let s := whenS (p.status == 0x0811) (countLaterReceived r.packet.cls) s
        match r.origin with
        | .orphan => (.nothing, issueQueued (dropReq die p.tag s))
        | .message key =>
          let e := fragmentAnswered r key p.status s
          (e.1, issueQueued e.2)
        | _ =>
          if p.status = 0x0811 then
            (.nothing, updReq die p.tag (fun r => { r with later := r.later + 1, backoff := true }) s)
          else
            let s := whenS (failingStatus p.status) (count E.REQUESTS_FAILED) (dropReq die p.tag s)
            (.request r p.status p.data p.poison, issueQueued s)

/-- R336: the request timer of a die's tag. -/
def requestTimeout (die tag : Nat) (s : State) : Ended × State :=
  match findReq s die tag with
  | none => (.nothing, s)
  | some r =>
    if r.backoff then (.nothing, s)
    else
      let s := count E.REQUEST_TIMEOUTS s
      let limit := setting s E.FABRIC_RETRY_LIMIT
      match r.origin with
      | .orphan => (.nothing, issueQueued (dropReq die tag s))
      | .message key =>
        match findMsg s key with
        | none => (.nothing, dropReq die tag s)
        | some m =>
          if m.resends < limit then
            (.nothing, resendMsg key (updMsg key (fun m => { m with resends := m.resends + 1 }) (count E.REQUESTS_RESENT s)))
          else failMsg m 0x0810 s
      | _ =>
        if r.resends < limit then
          (.nothing, sendRequest r.packet (updReq die tag (fun r => { r with resends := r.resends + 1 }) (count E.REQUESTS_RESENT s)))
        else (.request r 0x0810 [] false, issueQueued (count E.REQUESTS_FAILED (dropReq die tag s)))

/-- R337: a RETRY_LATER delay ends. -/
def backoffExpiry (t : Retry) (s : State) : State :=
  match t with
  | .request die tag =>
    match findReq s die tag with
    | some r => if r.backoff then sendRequest r.packet (updReq die tag (fun r => { r with backoff := false }) s) else s
    | none => s
  | .message key =>
    match findMsg s key with
    | some m => if m.backoff then resendMsg key s else s
    | none => s
  | .guyline _ _ => s

/-! ## Receiving fragments (R322 to R325, R340, R536) -/

def fragOffset (p : Packet) : Nat := bits p.address 0 32
def fragRegion (p : Packet) : Nat := bits p.address 39 4 % 4 + bits p.address 41 2 * 4
def preId (p : Packet) : Nat := field p.data 0 4
def preBytes (p : Packet) : Nat := field p.data 4 4
def preFlags (p : Packet) : Nat := field p.data 8 1
def preStep (p : Packet) : Nat := field p.data 12 4
def fragBody (p : Packet) : Bytes := p.data.drop 16

def isAssembly (p : Packet) (a : Assembly) : Bool :=
  a.src == p.srcModule && a.srcDie == p.srcDie && a.op == p.op && a.msgId == preId p

def findAssembly (s : State) (p : Packet) : Option Assembly := s.fabric.assembling.find? (isAssembly p)
def dropAssembly (p : Packet) (s : State) : State :=
  setFabric { s.fabric with assembling := s.fabric.assembling.filter fun a => !(isAssembly p a) } s

/-- R324: whether the length, MSG_BYTES and LAST of a fragment agree. -/
def fragmentShape (p : Packet) : Bool :=
  let n := (fragBody p).length
  let off := fragOffset p
  let total := preBytes p
  decide (16 < p.data.length) && decide (total ≤ msgLimit p.op) && decide (off + n ≤ total)
    && (if off + n = total then bitAt (preFlags p) 0 else n == 4080 && !(bitAt (preFlags p) 0))

/-- R536: whether the receiver lacks the role a message names. -/
def misdirected (s : State) (p : Packet) : Bool :=
  if s.loadState != .loaded && s.loadState != .unloading then true
  else
    let k := field (fragBody p) 8 2
    if p.op = 0x14 then k == 0 || !(actsAs s (ledgerParent k))
    else if p.op = 0x17 then
      !(actsAs s (pitchOfMember s k * s.plan.p * perPosition s))
    else false

/-- What becomes of a fragment: a status to answer at once, a message that is now whole, or a multicast fragment that is
to be written before it is answered. -/
inductive Taken where
  | answer (status : Nat)
  | whole (m : Msg)

/-- The message that a last fragment completes, or the fragment of a multicast. -/
def msgFrom (p : Packet) (got : Bytes) : Msg :=
  let cast := p.op == 0x16
  { src := p.srcModule, srcDie := p.srcDie, tag := p.tag, op := p.op, msgId := preId p, stepLo := preStep p,
    region := fragRegion p, body := if cast then fragBody p else got, off := if cast then fragOffset p else 0,
    last := bitAt (preFlags p) 0, poison := bitAt (preFlags p) 1, head := got.take 32 }

/-- R324, R340, R453, R536: a fragment of a message operation; `room` says whether storage for the message is owned. -/
def takeFragment (room : Bool) (p : Packet) (s : State) : Taken × State :=
  let refuse (c : Nat) (s : State) : Taken × State := (.answer c, count E.MESSAGES_REFUSED s)
  let off := fragOffset p
  if s.twin.state == .copyTarget then (.answer 0x0905, s)
  else if bitAt (preFlags p) 1 && p.op != 0x16 then (.answer 0x0813, count E.POISONED_RESPONSES s)
  else
    let s := whenS (bitAt (preFlags p) 1) (count E.POISONED_RESPONSES) s
    if off = 0 && misdirected s p then refuse 0x0814 s
    else if off = 0 && !(fragmentShape p) then refuse 0x0812 s
    else if off = 0 && !room then (.answer 0x0811, dropAssembly p s)
    else
      let old := findAssembly s p
      let got : Option Bytes := if off = 0 then some [] else old.map fun a => a.got
      match got with
      | none => (.answer 0x0811, s)
      | some g =>
        let sameTotal := match old with
          | some a => off == 0 || a.bytes == preBytes p
          | none => true
        if off != 0 && (off != g.length || !sameTotal || !(fragmentShape p)) then refuse 0x0812 (dropAssembly p s)
        else
          let all := g ++ fragBody p
          let s := dropAssembly p s
          let last := bitAt (preFlags p) 0
          let s := if last then s else setFabric { s.fabric with
            assembling := s.fabric.assembling ++ [{
              src := p.srcModule, srcDie := p.srcDie, op := p.op, msgId := preId p,
              bytes := preBytes p, stepLo := preStep p, region := fragRegion p, got := all }] } s
          if last || p.op == 0x16 then (.whole (msgFrom p all), s) else (.answer 0, s)

/-- MESSAGE_FRAGMENT_RECEIVE: a fragment is answered, or its message waits among the delivered ones for the row that
performs it, which answers the fragment's request. -/
def fragmentReceive (room : State → Packet → Bool) (p : Packet) (s : State) : State :=
  if outOfService s then respond p 0x0C21 [] false s
  else if !(serves s) || gModule p.address != myNumber s then s
  else
    let s := count E.PACKETS_DELIVERED s
    if !(endCheckGood p) then respond p 0x080B [] false (count E.END_CHECK_ERRORS s)
    else
      let die := gDie p.address
      match findDup s p die with
      | some e => sendResponse die e.response (count E.DUPLICATES_FILTERED (count E.PACKETS_ISSUED s))
      | none =>
        if 16384 ≤ dupEntries s die then retryLater p s
        else
          let r := takeFragment (room s p) p s
          match r.1 with
          | .answer c => answerReq true p c [] false r.2
          | .whole m => setFabric { r.2.fabric with delivered := r.2.fabric.delivered ++ [m] } r.2

/-- The request packet that a message's last fragment, or a multicast fragment, came in: what its answer goes to. -/
def requestOf (s : State) (m : Msg) : Packet :=
  { address := endpointGlobal (myNumber s) m.region m.off, srcModule := m.src, srcDie := m.srcDie, op := m.op, tag := m.tag }

/-- Takes a delivered message off the list; none when it is not there. -/
def takeMsg (op : Nat) (m : Msg) (s : State) : Option State :=
  if m.op == op && s.fabric.delivered.contains m then
    some (setFabric { s.fabric with delivered := s.fabric.delivered.erase m } s)
  else none

/-- Answers a message: with STATUS 0, with RETRY_LATER, or refused (R325). -/
def answerMsg (m : Msg) (status : Nat) (s : State) : State :=
  let s := whenS (status != 0 && status != 0x0811) (count E.MESSAGES_REFUSED) s
  answerReq true (requestOf s m) status [] false s

end Sys2Proof.Machine
end

