-- ==== Sys2Proof/Machine/Queue.lean ====
section
/-!
DEFINITION. Queues and pegs: the commands a queue holds (R375, R376, R405), what a command's end is, and the peg banks
with their waits (R346, R363 to R367).
-/
namespace Sys2Proof.Machine

/-! ## Queues and their commands -/

def queue (s : State) (q : Nat) : Queue := sget {} s.host.queues q
def setQueue (q : Nat) (v : Queue) (s : State) : State :=
  { s with host := { s.host with queues := sput {} s.host.queues q v } }
def updQueue (q : Nat) (f : Queue → Queue) (s : State) : State := setQueue q (f (queue s q)) s

def findCmd (s : State) (q i : Nat) : Option Cmd := (queue s q).cmds.find? fun c => c.index == i

/-- Changes one command of a queue. -/
def updCmd (q i : Nat) (f : Cmd → Cmd) (s : State) : State :=
  updQueue q (fun v => { v with cmds := v.cmds.map fun c => if c.index == i then f c else c }) s

def setPhase (q i : Nat) (p : CmdPhase) (s : State) : State := updCmd q i (fun c => { c with phase := p }) s

/-- Whether a command has started. -/
def hasStarted (c : Cmd) : Bool :=
  match c.phase with
  | .fetched => false
  | .waiting => false
  | .ready => false
  | _ => true

/-- Whether a command is running: started and not complete. -/
def isRunning (c : Cmd) : Bool :=
  match c.phase with
  | .running => true
  | .done _ _ _ _ => true
  | _ => false

def isComplete (c : Cmd) : Bool :=
  match c.phase with
  | .recorded _ => true
  | _ => false

/-- The work of a command has ended, with its status, DETAIL and summary flags; COMMAND_COMPLETE follows. -/
def endCmd (q i status detail : Nat) (saturated poison : Bool) (s : State) : State :=
  let s := whenS (status == 0x0204) (count E.COMMANDS_LATE) s
  setPhase q i (.done status (min detail (2 ^ 24 - 1)) saturated poison) s

/-- A command refused, or complete without more to say. -/
def endPlain (q i status : Nat) (s : State) : State := endCmd q i status 0 false false s

/-- One of the requests or messages a command waits for has ended; `status` other than 0 becomes the command's status
when it is the first. -/
def cmdProgress (q i status : Nat) (s : State) : State :=
  match findCmd s q i with
  | none => s
  | some c =>
    match c.phase with
    | .running =>
      let n := c.outstanding - 1
      let failed := if c.fail = 0 then status else c.fail
      let s := updCmd q i (fun c => { c with outstanding := n, fail := failed }) s
      if n = 0 then endCmd q i failed c.detail false c.poison s else s
    | _ => s

/-! ## Pegs -/

/-- R345: a Ridgeline peg. -/
def isRidgePeg (die peg : Nat) : Bool := die == 0 && decide (4088 ≤ peg)

/-- R345: what the Ridgeline pegs read. -/
def ridgeRead (s : State) (peg : Nat) : W64 :=
  let k := s.ridge.keeper
  if peg = 4095 then sget 0 s.pegs.values axisKey
  else if peg = 4094 then
    BitVec.ofNat 64 (k.participants.filter fun p => k.reports.contains (p.moduleNumber, nextPoint k.point)).length
  else if peg = 4092 then BitVec.ofNat 64 k.runs.length
  else 0

def pegValue (s : State) (die peg : Nat) : W64 :=
  if isRidgePeg die peg then ridgeRead s peg else sget 0 s.pegs.values (pegKey die peg)
def setPegValue (die peg : Nat) (v : W64) (s : State) : State :=
  { s with pegs := { s.pegs with values := sput 0 s.pegs.values (pegKey die peg) v } }

/-- R365: whether a wait's condition holds. -/
def waitHolds (s : State) (w : PegWaitRec) : Bool := decide (w.target.toNat ≤ (pegValue s w.die w.peg).toNat)

/-- Lets the command of a satisfied wait go on. -/
def releaseWait (w : PegWaitRec) (s : State) : State :=
  if w.header then setPhase w.queue w.index .ready s else endPlain w.queue w.index 0 s

/-- R367: at the end of a clock every waiting wait whose condition holds is released together. -/
def releaseWaits (s : State) : State :=
  let go := s.pegs.waits.filter (waitHolds s)
  let stay := s.pegs.waits.filter fun w => !(waitHolds s w)
  forEach go releaseWait { s with pegs := { s.pegs with waits := stay } }

/-- R363: a signal of an ordinary peg; the waits are released afterwards. -/
def addToPeg (die peg : Nat) (inc : W64) (s : State) : State :=
  let old := pegValue s die peg
  let s := count E.PEG_SIGNALS (setPegValue die peg (old + inc) s)
  if 2 ^ 64 ≤ old.toNat + inc.toNat then raiseOnce 0x0A14 (pegKey die peg) (count E.PEG_WRAPS s) else s

def signalPeg (die peg : Nat) (inc : W64) (s : State) : State := releaseWaits (addToPeg die peg inc s)

/-- R365: a wait: released at once, refused with 0x0A13 when the die holds 256, or waiting.  The answer is the refusal
code; 1 says that it waits, 0 that it is satisfied. -/
def peghold (w : PegWaitRec) (s : State) : Nat × State :=
  if waitHolds s w then (0, count E.PEG_WAITS s)
  else if 256 ≤ (s.pegs.waits.filter fun x => x.die == w.die).length then (0x0A13, s)
  else (1, count E.PEG_WAITS { s with pegs := { s.pegs with waits := s.pegs.waits ++ [w] } })

/-- R366: a set; refused with 0x0A11 while the peg has a waiting wait. -/
def setPeg (die peg : Nat) (v : W64) (s : State) : Nat × State :=
  if s.pegs.waits.any fun w => w.die == die && w.peg == peg then (0x0A11, count E.PEG_SET_REFUSED s)
  else (0, releaseWaits (setPegValue die peg v s))

/-- R365: a wait's class timeout.  A wait whose condition holds is released instead. -/
def waitTimeout (q i : Nat) (s : State) : State :=
  match s.pegs.waits.find? fun w => w.queue == q && w.index == i && w.cls != 0 with
  | none => s
  | some w =>
    let s := { s with pegs := { s.pegs with waits := s.pegs.waits.erase w } }
    if waitHolds s w then releaseWait w s
    else endPlain q i 0x0A10 (count E.PEG_WAIT_TIMEOUTS s)

/-- The peg of a WAIT_PEG layout field: die and peg (R371). -/
def pegDie (f : Nat) : Nat := bits f 12 2
def pegNum (f : Nat) : Nat := bits f 0 12

end Sys2Proof.Machine
end

