-- ==== Sys2Proof/Machine/Access.lean ====
section
/-!
DEFINITION. Accesses by die-local address to every kind of place: memory, pegs (R27, R345), die control space (R28); the
one-sided operations of the fabric (R287, R316 to R318, R321, R363).
-/
namespace Sys2Proof.Machine

/-- RUN_ID of the loaded run; 0 while there is none. -/
def runId (s : State) : Nat := s.plan.runId

/-- R28: the liveness word. -/
def livenessWord (s : State) : Nat :=
  modStateCode s.life.modState + twinStateCode s.twin.state * 2 ^ 8 + (if isMember s then runId s else 0) * 2 ^ 32

/-- R28: the first 32 bytes of a die's control space; every other offset of it reads zero. -/
def controlWords (s : State) (die : Nat) : Bytes :=
  natLe 8 (livenessWord s) ++ natLe 8 (axis s) ++ natLe 4 (myNumber s % 2 ^ 13 + die * 2 ^ 13)
    ++ natLe 4 (forced s E.SYSTEM_ID) ++ natLe 2 (if die = 0 then s.host.epoch else 0) ++ zeros 6

/-- A byte of the peg window: peg p's value lies at 64p, low byte first; the manual says nothing of the other 56 bytes of a
peg's place, so they are free. -/
def pegByte (s : State) (die o : Nat) : Byte :=
  if o % 64 < 8 then BitVec.ofNat 8 ((pegValue s die (o / 64)).toNat >>> (8 * (o % 64)))
  else Config.freeByte s.free o

/-- R94: reads a range that lies in one portion: its bytes as they are now, and whether any is poisoned. -/
def accessRead (a n : Nat) (s : State) : (Bytes × Bool) × State :=
  let sp := spotOf s (addrOff a)
  match sp.portion with
  | .peg =>
    let b := (upto n).map fun i => pegByte s (addrDie a) (sp.off + i)
    ((b, false), if (upto n).all fun i => (sp.off + i) % 64 < 8 then s else (nextFree s).2)
  | .control => ((slice (controlWords s (addrDie a)) sp.off n, false), s)
  | _ => readRange a n s

/-- Which bytes of a range are poisoned. -/
def accessPoison (s : State) (a n : Nat) : List Bool :=
  match (spotOf s (addrOff a)).portion with
  | .peg => List.replicate n false
  | .control => List.replicate n false
  | _ => poisonMap s a n

/-- Why a byte range is no single place (R260, R317): 0x0701 where an end of it is in no addressable place, `other` where it
crosses a share or a portion; 0 when it is one. -/
def rangeRefusal (s : State) (o n other : Nat) : Nat :=
  if !(addressable (spotOf s o).portion) || !(addressable (spotOf s (o + n - 1)).portion) then 0x0701
  else if rangeSpot s o n = none then other
  else 0

/-! ## The one-sided operations at their target -/

/-- R287, R317, R320: an operation refused at its target. -/
def refusedAtTarget (code : Nat) (s : State) : State := countRefusal code (count E.REQUESTS_REFUSED s)

/-- READ. -/
def opRead (p : Packet) (s : State) : (Nat × Bytes × Bool) × State :=
  let o := gOff p.address
  let n := leNat p.data
  let code := firstCode [(decide (n = 0) || decide (4096 < n) || p.data.length != 8, 0x080E), (true, rangeRefusal s o n 0x080E)]
  let code := if code = 0 then readRefusal s o n else code
  if code != 0 then ((code, [], false), refusedAtTarget code s)
  else
    let r := accessRead (modAddr (gDie p.address) o) n s
    ((0, r.1.1, r.1.2), r.2)

/-- WRITE and POISONED_WRITE. -/
def opWrite (poison : Bool) (p : Packet) (s : State) : (Nat × Bytes × Bool) × State :=
  let o := gOff p.address
  let n := p.data.length
  let die := gDie p.address
  let code := firstCode [(decide (n = 0) || decide (4096 < n), 0x080E), (true, rangeRefusal s o n 0x080E)]
  let code := if code = 0 then writeRefusal s die o n else code
  if code != 0 then ((code, [], false), refusedAtTarget code s)
  else
    let a := modAddr die o
    let s := whenS poison (countN E.POISON_PROPAGATED (touched a n).length) s
    ((0, [], false), writeRange a p.data poison s)

/-- ATOMIC_ADD. -/
def opAtomicAdd (p : Packet) (s : State) : (Nat × Bytes × Bool) × State :=
  let o := gOff p.address
  let die := gDie p.address
  let code := firstCode [(o % 8 != 0 || p.data.length != 8, 0x080E), (true, rangeRefusal s o 8 0x080E)]
  let code := if code = 0 then writeRefusal s die o 8 else code
  if code != 0 then ((code, [], false), refusedAtTarget code s)
  else
    let a := modAddr die o
    let r := readRange a 8 s
    ((0, r.1.1, r.1.2), writeRange a (natLe 8 ((leNat r.1.1 + leNat p.data) % 2 ^ 64)) false r.2)

/-- Why a PEG_SIGNAL is refused; 0 when it is not. -/
def pegOpRefusal (s : State) (p : Packet) : Nat :=
  let o := gOff p.address
  firstCode [
    (o % 8 != 0 || p.data.length != 8, 0x080E),
    (!(addressable (spotOf s o).portion), 0x0701),
    ((spotOf s o).portion != .peg, 0x080D),
    (o % 64 != 0, 0x080E)]

/-- PEG_SIGNAL at an ordinary peg.  A signal of a Ridgeline peg has the effect of R345 instead and comes in a row of its own. -/
def opPegSignal (p : Packet) (s : State) : (Nat × Bytes × Bool) × State :=
  let code := pegOpRefusal s p
  if code != 0 then ((code, [], false), refusedAtTarget code s)
  else
    let die := gDie p.address
    let peg := (spotOf s (gOff p.address)).off / 64
    if isRidgePeg die peg then ((0, [], false), s)
    else ((0, [], false), signalPeg die peg (BitVec.ofNat 64 (leNat p.data)) s)

end Sys2Proof.Machine
end

