-- ==== Sys2Proof/Machine/Formats.lean ====
section
/-!
DEFINITION. The eight formats of R45 in use: scalar codes, K8 blocks and tiles, M16 and S8 state blocks, U8Z, and the
counts every conversion makes (R48 to R75).
-/
namespace Sys2Proof.Machine

/-- The format codes of R45. -/
inductive NFormat where
  | f32 | f16 | d16 | d16e | k8 | u8z | m16 | s8
  deriving DecidableEq, Repr

/-- The format a code names; none for a reserved code (R45). -/
def formatOfCode (c : Nat) : Option NFormat :=
  match c with
  | 0 => some .f32
  | 1 => some .f16
  | 2 => some .d16
  | 3 => some .d16e
  | 4 => some .k8
  | 5 => some .u8z
  | 6 => some .m16
  | 7 => some .s8
  | _ => none

/-- What conversions count (R76), and what the training watch counts beside (R237). -/
structure Tally where
  sat : Nat := 0
  inf : Nat := 0
  nan : Nat := 0
  under : Nat := 0
  bump : Nat := 0
  jit : Nat := 0
  clamp : Nat := 0
  s8neg : Nat := 0
  nonfinite : Nat := 0
  pinned : Nat := 0
  elements : Nat := 0
  deriving DecidableEq, Repr

/-- Counts added. -/
def tallyAdd (a b : Tally) : Tally :=
  { sat := a.sat + b.sat, inf := a.inf + b.inf, nan := a.nan + b.nan, under := a.under + b.under,
    bump := a.bump + b.bump, jit := a.jit + b.jit, clamp := a.clamp + b.clamp, s8neg := a.s8neg + b.s8neg,
    nonfinite := a.nonfinite + b.nonfinite, pinned := a.pinned + b.pinned, elements := a.elements + b.elements }

/-- The counts of a list of results, and the results. -/
def tallyAll {α : Type} (l : List (α × Tally)) : List α × Tally :=
  (l.map Prod.fst, l.foldl (fun t r => tallyAdd t r.2) {})

/-- The canonical NaN codes (R48). -/
def nanCode (f : Fmt) : Nat := f.expMax * 2 ^ f.frac + 2 ^ (f.frac - 1)

/-- Converts an exact value to a signed scalar code of `width` bits.  `toInf`: OVERFLOW_MODE is 1 and the result is a
D16 or F16 value written to flat space (R65, R66).  RZ never overflows to infinity. -/
def scalarEncode (f : Fmt) (width : Nat) (mode : Mode) (g : Nat) (toInf : Bool) (v : ExactNum) : Nat × Tally :=
  let sign (s : Bool) := b2n s * 2 ^ (width - 1)
  match v with
  | .nan => (nanCode f, { nonfinite := 1 })
  | .inf s => (sign s + f.expMax * 2 ^ f.frac, { nonfinite := 1 })
  | .fin s m e =>
    let c := roundCode f mode g m e
    if f.maxCode < c then
      if toInf && decide (mode ≠ .rz) then (sign s + f.expMax * 2 ^ f.frac, { inf := 1, nonfinite := 1 })
      else (sign s + f.maxCode, { sat := 1 })
    else (sign s + c, { under := b2n (decide (c = 0 ∧ m ≠ 0)) })

/-- The value of a signed scalar code. -/
def scalarDecode (f : Fmt) (width : Nat) (c : Nat) : ExactNum :=
  decodeMag f (bitAt c (width - 1)) (c % 2 ^ (width - 1))

/-- D16, F16 and D16E codes. -/
def d16val (c : Nat) : ExactNum := scalarDecode fmtD16 16 c
def f16val (c : Nat) : ExactNum := scalarDecode fmtF16 16 c

/-- R50: a D16E value from its D16 code and extension byte; with EXP 255 the extension is ignored. -/
def d16eVal (c ext : Nat) : ExactNum :=
  if bits c 7 8 = 255 then d16val c else scalarDecode fmtD16E 24 (c * 256 + ext)

/-- The F32 code of a D16 code (R47), NaN made canonical. -/
def d16toF32 (c : Nat) : W32 := f32round .rz 0 (d16val c)

/-! ## K8 (R52 to R55) -/

/-- The magnitude of a K8 element as an exact value with its sign; 0x80 reads as zero. -/
def k8elem (c : Nat) : ExactNum :=
  if c % 128 = 0 then num0 else decodeMag fmtK8 (bitAt c 7) (c % 128)

/-- R53: the value of a K8 element under block offset `o` and tile exponent `t`; codes 251 to 255 read as 250. -/
def k8val (c o t : Nat) : ExactNum := numMul (k8elem c) (pow2 ((min t 250 : Nat) - 127 - (o : Int)))

/-- R55: the block offset: the largest `o` in 0 to 15 with `bmax × 2^(127 + o − T) ≤ 31`; 0 when none, 15 for an
all-zero block. -/
def k8offset (bmax : ExactNum) (t : Nat) : Nat :=
  match (upto 16).reverse.find? fun (o : Nat) => numLe (numMul bmax (pow2 (127 + (o : Int) - (t : Int)))) (numOfNat 31) with
  | some o => o
  | none => 0

/-- One K8 element code; a NaN encodes as zero, an infinity saturates (R65, R67). -/
def k8encode (mode : Mode) (g o t : Nat) (v : ExactNum) : Nat × Tally :=
  match v with
  | .nan => (0, { nan := 1 })
  | .inf s => (b2n s * 128 + 0x7F, { sat := 1 })
  | .fin s m e =>
    let c := roundCode fmtK8 mode g m (e + 127 + (o : Int) - (t : Int))
    if 0x7F < c then (b2n s * 128 + 0x7F, { sat := 1 })
    else if c = 0 then (0, { under := b2n (decide (m ≠ 0)) })
    else (b2n s * 128 + c, {})

/-- The largest magnitude of a list, NaN ignored; an infinity counts as one. -/
def amaxList (l : List ExactNum) : ExactNum := l.foldl amaxOf num0

/-- R72: the tile exponent of a largest magnitude and a margin, by the recursion of its pseudocode. -/
def tileExpFrom (amax : ExactNum) : Nat → Nat → Nat
  | 0, t => t
  | n + 1, t => if numLt (numMul (numOfNat 31) (pow2 ((t : Int) - 127))) amax then tileExpFrom amax n (t + 1) else t

def tileExponent (amax : ExactNum) (margin : Nat) : Nat := min 250 (tileExpFrom amax 250 0 + margin)

/-! ## M16 and S8 (R56 to R59) -/

/-- R56: the value of an M16 code, and whether reading it counts one saturation. -/
def m16val (c e : Nat) : ExactNum × Nat :=
  let neg := decide (32768 ≤ c)
  let mag := if neg then 65536 - c else c
  if c = 0x8000 ∧ e = 255 then (.fin true 32767 (e - 142), 1)
  else (.fin (neg && mag != 0) mag ((e : Int) - 142), 0)

/-- The largest finite F32 of a sign, which an infinity enters a state block as (R57). -/
def finiteOf : ExactNum → ExactNum
  | .inf s => .fin s (2 ^ 24 - 1) 104
  | v => v

/-- The smallest `E` in `0 … n` from `k` on with `v < 2^(E - bias)`; `n` when none. -/
def firstExp (v : ExactNum) (bias : Int) (n : Nat) : Nat :=
  ((upto n).find? fun (e : Nat) => numLt v (pow2 ((e : Int) - bias))).getD n

/-- The integer magnitude of one M16 element under `E`, before the bump check. -/
def m16mag (mode : Mode) (g e : Nat) (v : ExactNum) : Nat :=
  match v with
  | .fin _ m x =>
    let y := x + 142 - (e : Int)
    if 0 ≤ y then m <<< y.toNat else roundMag m (-y).toNat mode g
  | _ => 0

/-- R57: a block of 16 first-moment values and their draws as codes and block exponent. -/
def m16encode (mode : Mode) (vs : List ExactNum) (gs : List Nat) : (List Nat × Nat) × Tally :=
  let ws := vs.map finiteOf
  let e0 := firstExp (amaxList ws) 127 255
  let mags (e : Nat) := (ws.zip gs).map fun p => m16mag mode p.2 e p.1
  let bump := decide (e0 < 255) && (mags e0).any fun m => decide (32768 ≤ m)
  let e := if bump then e0 + 1 else e0
  let code (v : ExactNum) (m : Nat) : Nat :=
    let k := min m 32767
    match v with
    | .fin true _ _ => if k = 0 then 0 else 65536 - k
    | _ => k
  let ms := mags e
  let cs := (ws.zip ms).map fun p => code p.1 p.2
  let under := ((ws.zip cs).filter fun p => p.2 == 0 && !(numIsZero p.1)).length
  let sat := ((vs.zip ms).filter fun p => p.1 == .inf true || p.1 == .inf false || decide (32767 < p.2)).length
  ((cs, e), { sat := sat, under := under, bump := b2n bump })

/-- R58: the value of an S8 code under block exponent `b`; codes 239 to 255 read as 238. -/
def s8val (c b : Nat) : ExactNum := numMul (decodeMag fmtS8 false c) (pow2 ((min b 238 : Nat) - 127))

/-- R59: a block of 16 values as S8 codes and block exponent.  The block holds no NaN (R67, R179). -/
def s8encode (mode : Mode) (vs : List ExactNum) (gs : List Nat) : (List Nat × Nat) × Tally :=
  let isNeg (v : ExactNum) : Bool := match v with
    | .fin s m _ => s && m != 0
    | .inf s => s
    | .nan => false
  let ws := vs.map fun v => if isNeg v then num0 else numAbs (finiteOf v)
  let b0 := firstExp (amaxList ws) 110 238
  let codes (b : Nat) := (ws.zip gs).map fun p =>
    match p.1 with
    | .fin _ m x => roundCode fmtS8 mode p.2 m (x + 127 - (b : Int))
    | _ => 0
  let bump := decide (b0 < 238) && (codes b0).any fun c => decide (0xFF < c)
  let b := if bump then b0 + 1 else b0
  let cs := codes b
  let sat := ((vs.zip cs).filter fun p => p.1 == .inf false || decide (0xFF < p.2)).length
  let under := ((ws.zip cs).filter fun p => p.2 == 0 && !(numIsZero p.1)).length
  ((cs.map fun c => min c 0xFF, b),
    { sat := sat, under := under, bump := b2n bump, s8neg := (vs.filter isNeg).length })

/-! ## U8Z (R60, R61) -/

/-- The exact value of a U8Z code. -/
def u8zVal (q z : Nat) (scale : W32) : ExactNum := numMul (numOfInt ((q : Int) - (z : Int))) (f32val scale)

/-- R61: a scale that a U8Z tensor may have. -/
def u8zScaleOk (c : W32) : Bool :=
  !(c.getLsbD 31) && decide (0x00800000 ≤ c.toNat) && decide (c.toNat < 0x7F800000)

/-- The rounded integer of a finite value. -/
def roundInt (mode : Mode) (g : Nat) : ExactNum → Int
  | .fin s m e =>
    let k := if 0 ≤ e then m <<< e.toNat else roundMag m (-e).toNat mode g
    if s then - (k : Int) else k
  | _ => 0

/-- R60: a value as U8Z. -/
def u8zEncode (mode : Mode) (g z : Nat) (scale : W32) (v : ExactNum) : Nat × Tally :=
  match v with
  | .nan => (z, { nan := 1 })
  | .inf s =>
    let q := if s then 0 else 255
    (q, { clamp := 1, under := b2n (q == z) })
  | .fin s m e =>
    let i := roundInt mode g (numDiv (.fin s m e) (f32val scale)) + (z : Int)
    let q := if i < 0 then 0 else if 255 < i then 255 else i.toNat
    (q, { clamp := b2n (decide (i < 0) || decide (255 < i)),
          under := b2n (decide (m ≠ 0) && q == z) })

end Sys2Proof.Machine
end

