-- ==== Sys2Proof/Machine/Ridge.lean ====
section
/-!
DEFINITION. The Ridgeline (R344 to R360): the timekeeper and its standby, rounds of AXIS signals, joining and leaving,
exclusion, loss and takeover.
-/
namespace Sys2Proof.Machine

def setRidge (r : Ridge) (s : State) : State := { s with ridge := r }
def updKeeper (f : Keeper → Keeper) (s : State) : State := setRidge { s.ridge with keeper := f s.ridge.keeper } s

def isKeeper (s : State) : Bool := s.ridge.state == .keeper
def keepsState (s : State) : Bool := s.ridge.state == .keeper || s.ridge.state == .standby

/-- The global address of a peg of die 0 of a module. -/
def ridgePegAddr (m peg : Nat) : Nat := memGlobal m 0 (pegBase + 64 * peg)

/-- A Ridgeline signal (R345): a PEG_SIGNAL in class C3. -/
def ridgeSend (dest peg value : Nat) (origin : Origin) (s : State) : State :=
  issue 0 (ridgePegAddr dest peg) 4 3 (natLe 8 value) false origin s

/-- R347: where a member sends its signals: the timekeeper, then the standby. -/
def ridgeTargets (s : State) : List Nat :=
  if s.ridge.source = 0xFFFF then []
  else match s.ridge.standby with
    | some b => if b = s.ridge.source then [b] else [s.ridge.source, b]
    | none => [s.ridge.source]

/-- Signals one peg of the timekeeper and then of the standby; `origin` marks the timekeeper's. -/
def ridgeSendBoth (peg value : Nat) (origin : Origin) (s : State) : State :=
  forEach (ridgeTargets s) (fun m => ridgeSend m peg value (if m = s.ridge.source then origin else .ready)) s

/-- The module numbers whose coordinate entry is valid, ascending. -/
def validModules (s : State) : List Nat := (s.fabric.trainedCoords.filter fun e => bitAt e.2 15).map Prod.fst

/-- The standby that a timekeeper signals first: not itself. -/
def roundStandby (s : State) : Option Nat :=
  match s.ridge.standby with
  | some b => if b = myNumber s then none else some b
  | none => none

/-- R347: an AXIS round with a value. -/
def axisRound (v : Nat) (s : State) : State :=
  let first := (roundStandby s).toList
  let rest := (validModules s).filter fun m => !(first.contains m)
  forEach (first ++ rest) (fun m => ridgeSend m 4095 v (.axis m)) s

/-! ## Advancing (R348, R352) -/

/-- Case 4 of R352: a registered run that lacks members holds the axis at (S0 − 1, COMMIT). -/
def runBlocks (k : Keeper) (v : Nat) : Bool :=
  k.runs.any fun r => decide (r.joined.length < r.members) && decide (axisOf r.s0 0 ≤ v)

/-- The participants that the pending point waits for. -/
def awaited (k : Keeper) (v : Nat) : List Participant := k.participants.filter fun p => decide (p.from_ ≤ v)

/-- What follows when the timekeeper's point becomes `v`: reports for it are spent; members admitted to a running run
become participants when the next OPEN becomes pending, and their kept reports count (R352). -/
def pointReached (v : Nat) (k : Keeper) : Keeper :=
  let pend := nextPoint v
  let k := { k with point := v, reports := k.reports.filter fun r => decide (v < r.2) }
  if pend % 8 = 0 then
    let kept := k.early.filter fun e => e.2 == pend && k.admitted.any fun a => a.1 == e.1
    { k with
      participants := k.participants ++ k.admitted.map fun a => ⟨a.1, a.2, pend⟩
      reports := k.reports ++ kept
      early := k.early.filter fun e => !(kept.contains e)
      admitted := [] }
  else k

/-- Whether every awaited participant has reported the pending point. -/
def allReported (k : Keeper) : Bool :=
  let v := nextPoint k.point
  !(k.participants.isEmpty) && (awaited k v).all fun p => k.reports.contains (p.moduleNumber, v)

/-- R348: the timekeeper advances to the pending point when every participant has reported it. -/
def tryAdvance (s : State) : State :=
  let k := s.ridge.keeper
  let v := nextPoint k.point
  if isKeeper s && allReported k && !(runBlocks k v) then axisRound v (updKeeper (pointReached v) s) else s

/-- R348, R352, R355: a readiness report from a module. -/
def takeReady (m v : Nat) (s : State) : State :=
  let k := s.ridge.keeper
  let pend := nextPoint k.point
  if !(keepsState s) then count E.RIDGE_STRAY_REPORTS s
  else if (k.participants.any fun p => p.moduleNumber == m) then
    if v = pend || (v % 8 = 7 && v / 8 = k.point / 8 && k.point % 8 = 5) then
      let rest := k.reports.filter fun r => r.1 != m
      releaseWaits (tryAdvance (updKeeper (fun k => { k with reports := rest ++ [(m, v)] }) s))
    else count E.RIDGE_STRAY_REPORTS s
  else if (k.runs.any fun r => r.joined.contains m && v == axisOf r.s0 0) || (k.admitted.any fun a => a.1 == m) && v % 8 == 0 then
    updKeeper (fun k => { k with early := (k.early.filter fun e => e.1 != m) ++ [(m, v)] }) s
  else count E.RIDGE_STRAY_REPORTS s

/-! ## Joining and leaving (R351 to R353) -/

/-- Case 5 of R352: a registered run with all its members makes them participants. -/
def completeRun (r : RunReg) (s : State) : State :=
  if r.joined.length < r.members then s
  else
    let v := axisOf r.s0 0
    tryAdvance (updKeeper (fun k => { k with
      runs := k.runs.filter fun x => x.runId != r.runId
      participants := k.participants ++ r.joined.map fun m => ⟨m, r.runId, v⟩
      reports := k.reports ++ k.early.filter fun e => r.joined.contains e.1 && e.2 == v
      early := k.early.filter fun e => !(r.joined.contains e.1) }) s)

/-- R352: what a JOIN of a run from a module changes: the answer's status. -/
def recordJoin (m runId members : Nat) (s : State) : Nat × State :=
  let k := s.ridge.keeper
  if !(keepsState s) then (0, count E.RIDGE_STRAY_REPORTS s)
  else if (k.participants.any fun p => p.runId == runId) then
    (0, updKeeper (fun k => { k with admitted := (k.admitted.filter fun a => a.1 != m) ++ [(m, runId)] }) s)
  else
    match k.joinSteps.find? fun j => j.1 == m with
    | none => (0x0A08, s)
    | some j =>
      match k.runs.find? fun r => r.runId == runId with
      | none =>
        let v := axisOf (j.2 - 1) 5
        if v ≤ k.point then (0x0A03, s)
        else
          let r : RunReg := ⟨runId, j.2, members, [m]⟩
          let raises := k.participants.isEmpty
          let s := updKeeper (fun k => { k with runs := k.runs ++ [r] }) s
          let s := if raises then
              let s := updKeeper (pointReached v) s
              if isKeeper s then axisRound v s else s
            else s
          (0, completeRun r s)
      | some r =>
        if r.s0 != j.2 || r.members != members then (0x0A08, s)
        else
          let r := { r with joined := if r.joined.contains m then r.joined else r.joined ++ [m] }
          (0, completeRun r (updKeeper (fun k => { k with runs := k.runs.map fun x => if x.runId == runId then r else x }) s))

/-- R352, R367: a JOIN; the waits on the runs that are registered and incomplete are looked at. -/
def takeJoin (m runId members : Nat) (s : State) : Nat × State :=
  let r := recordJoin m runId members s
  (r.1, releaseWaits r.2)

/-- R351: S0 recorded for a module. -/
def takeJoinStep (m s0 : Nat) (s : State) : State :=
  if keepsState s then updKeeper (fun k => { k with joinSteps := (k.joinSteps.filter fun j => j.1 != m) ++ [(m, s0)] }) s
  else count E.RIDGE_STRAY_REPORTS s

/-- Takes a module out of the participants. -/
def removeParticipant (m : Nat) (k : Keeper) : Keeper :=
  { k with
    participants := k.participants.filter fun p => p.moduleNumber != m
    reports := k.reports.filter fun r => r.1 != m
    admitted := k.admitted.filter fun a => a.1 != m
    early := k.early.filter fun e => e.1 != m }

/-- R353: a LEAVE. -/
def takeLeave (m : Nat) (s : State) : State :=
  if keepsState s then
    releaseWaits (tryAdvance (updKeeper (fun k =>
      let k := removeParticipant m k
      { k with runs := (k.runs.map fun r => { r with joined := r.joined.filter fun x => x != m }).filter fun r => !(r.joined.isEmpty) }) s))
  else count E.RIDGE_STRAY_REPORTS s

/-- R357: the timekeeper excludes a participant. -/
def exclude (m : Nat) (s : State) : State :=
  if (s.ridge.keeper.participants.any fun p => p.moduleNumber == m) then
    let s := updKeeper (removeParticipant m) s
    let s := forEach (roundStandby s).toList (fun b => ridgeSend b 4090 m .exclude) s
    releaseWaits (tryAdvance (raise 0x0A05 m (count E.RIDGE_EXCLUSIONS s)))
  else s

/-! ## Following (R344, R345, R358 to R360) -/

/-- Whether a module may be named by RIDGE_KEEPER and RIDGE_STANDBY (R344). -/
def ridgeConfigValid (s : State) : Bool :=
  let k := reg s E.RIDGE_KEEPER
  let b := reg s E.RIDGE_STANDBY
  coordValid s k && (b == 0xFFFF || (b != k && coordValid s b))

/-- R344, R349: the module takes its place on the Ridgeline, as it becomes READY or RIDGE_KEEPER is written. -/
def startRidge (s : State) : State :=
  let k := reg s E.RIDGE_KEEPER
  let b := reg s E.RIDGE_STANDBY
  if ridgeConfigValid s then
    setRidge { s.ridge with
      state := if k = myNumber s then .keeper else if b = myNumber s then .standby else .waiting
      source := k, standby := if b = 0xFFFF then none else some b, switched := false, takeover := false
      keeper := { s.ridge.keeper with point := axis s } } s
  else raise 0x0A06 k (setRidge { s.ridge with state := .configInvalid, source := 0xFFFF } s)

/-- R360: an OPEN at a module that has been told of a new standby: the new standby itself takes its role once it has been
told of the participants, the timekeeper tells it when it may, and every other member turns to it. -/
def openStandby (v : Nat) (s : State) : State :=
  match s.ridge.keeper.newStandby with
  | some b =>
    if isKeeper s then s
    else if b = myNumber s then
      if s.ridge.keeper.participants.isEmpty || s.ridge.state != .following then s
      else setRidge { s.ridge with
        standby := some b, state := .standby, keeper := { s.ridge.keeper with point := v, newStandby := none } } s
    else setRidge { s.ridge with standby := some b, keeper := { s.ridge.keeper with newStandby := none } } s
  | none => s

/-- R345: the AXIS peg takes a value; the answer is whether it rose. -/
def axisTake (v : Nat) (s : State) : Bool × State :=
  let rises := decide (axis s < v)
  let s := if rises then count E.RIDGE_POINTS_SEEN (setPegValue 0 4095 (BitVec.ofNat 64 v) s) else s
  let s := if s.ridge.state == .waiting then setRidge { s.ridge with state := .following } s else s
  let s := if s.ridge.state == .standby && rises then updKeeper (pointReached v) s else s
  let s := whenS (v % 8 == 0 && rises) (openStandby v) s
  (rises, releaseWaits s)

/-- R358: no AXIS signal for the loss time. -/
def sourceLoss (s : State) : State :=
  let follows := s.ridge.state == .waiting || s.ridge.state == .following || s.ridge.state == .standby || s.ridge.state == .deposed
  if !follows || s.ridge.source = 0xFFFF then s
  else
    match (if s.ridge.switched then none else s.ridge.standby) with
    | some b =>
      if s.ridge.source = reg s E.RIDGE_KEEPER then
        raise 0x0A01 s.ridge.source (setRidge { s.ridge with source := b, switched := true } s)
      else raise 0x0A02 s.ridge.source (setRidge { s.ridge with state := .noKeeper } s)
    | none => raise 0x0A02 s.ridge.source (setRidge { s.ridge with state := .noKeeper } s)

/-- R359: the standby takes over: its round, and the advance that the state it holds calls for. -/
def takeover (s : State) : State :=
  if s.ridge.state == .standby && s.ridge.switched && s.ridge.source == myNumber s then
    let s := setRidge { s.ridge with state := .keeper, takeover := true } s
    releaseWaits (tryAdvance (axisRound s.ridge.keeper.point (count E.RIDGE_TAKEOVERS s)))
  else s

/-- R357, R359: how an AXIS signal ended at a module. -/
def axisAnswered (m status : Nat) (s : State) : State :=
  if !(isKeeper s) || status = 0 then s
  else if status = 0x0A07 && s.ridge.takeover then
    raise 0x0A09 m (setRidge { s.ridge with state := .standby, takeover := false } s)
  else if status = 0x0A07 && roundStandby s == some m then setRidge { s.ridge with state := .deposed } s
  else if status = 0x0A07 || status = 0x0810 || failingStatus status then exclude m s
  else s

/-- R349: a beat. -/
def beat (s : State) : State :=
  if isKeeper s then axisRound s.ridge.keeper.point (setRidge { s.ridge with takeover := false } s) else s

/-- R360: the timekeeper tells a new standby of each participant, once there is one and no run is incomplete. -/
def admitStandby (s : State) : State :=
  match s.ridge.keeper.newStandby with
  | some b =>
    if isKeeper s && s.ridge.keeper.runs.isEmpty && !(s.ridge.keeper.participants.isEmpty) && b != myNumber s then
      let s := forEach s.ridge.keeper.participants (fun p => ridgeSend b 4089 (p.moduleNumber + p.runId * 2 ^ 32) .admitted) s
      updKeeper (fun k => { k with newStandby := none }) (setRidge { s.ridge with standby := some b } s)
    else s
  | none => s

/-- R356: the step watchdog. -/
def watchdog (s : State) : State :=
  let k := s.ridge.keeper
  let v := nextPoint k.point
  let held := k.reports.any fun r => r.2 % 8 == 7
  if !(isKeeper s) || setting s E.STEP_WATCHDOG_S = 0 || held || (k.participants.isEmpty && k.runs.isEmpty) then s
  else
    let late := (awaited k v).filter fun p => !(k.reports.contains (p.moduleNumber, v))
    let missing := (k.runs.map fun r => r.members - r.joined.length).sum
    let low := late.foldl (fun n p => min n p.moduleNumber) 0xFFFF
    let s := updKeeper (fun k => { k with lateModule := low, lateCount := late.length + missing }) s
    raise 0x0A04 low (count E.STEP_WATCHDOG_EVENTS s)

end Sys2Proof.Machine
end

