-- ==== Sys2Proof/Machine/Tables.lean ====
section
/-!
DEFINITION. Tables and placement (chapter 03): slices, bands and homes (R78 to R81), records and their packing (R85 to
R91), current copies (R93, R94), initial contents (R95, R96), the overlay directory and pool (R97 to R103), and the
cache of homed records (R123 to R125).
-/
namespace Sys2Proof.Machine

/-! ## Declarations -/

def tableSet (s : State) (n : Nat) : Option TableSet := s.sets.find? fun t => t.number == n
def tableOf (ts : TableSet) (t : Nat) : Option TableDecl := ts.tables.find? fun d => d.table == t
def updSet (n : Nat) (f : TableSet → TableSet) (s : State) : State :=
  { s with sets := s.sets.map fun t => if t.number == n then f t else t }

/-- Whether the run declares a table of a set. -/
def declared (s : State) (set table : Nat) : Bool :=
  match tableSet s set with
  | some ts => (tableOf ts table).isSome
  | none => false

/-- Compat (NUMERIC_MODE 2) records have four sectors, the others two (R85, R86). -/
def isCompat (mode : Nat) : Bool := mode == 2
def recSectors (mode : Nat) : Nat := if isCompat mode then 4 else 2
def recLen (mode : Nat) : Nat := if isCompat mode then 224 else 112
def recsPerPage (mode : Nat) : Nat := if isCompat mode then 15 else 31

/-! ## Geometry (R78 to R81, R88) -/

def sliceCount (d : TableDecl) : Nat := d.width / 16
def localSlices (s : State) (d : TableDecl) : Nat := sliceCount d / s.plan.p
def firstSliceAt (s : State) (d : TableDecl) (position : Nat) : Nat := position * localSlices s d

/-- R79: the band size, and the first row and row count of a pitch's band. -/
def bandSize (s : State) (d : TableDecl) : Nat := ceilDiv d.rows s.plan.n
def bandStart (s : State) (d : TableDecl) (pitch : Nat) : Nat := pitch * bandSize s d
def bandRows (s : State) (d : TableDecl) (pitch : Nat) : Nat := min (bandSize s d) (d.rows - bandStart s d pitch)
def pitchOfRow (s : State) (d : TableDecl) (row : Nat) : Nat := row / bandSize s d

/-- Whether a row lies in this module's band. -/
def inMyBand (s : State) (d : TableDecl) (row : Nat) : Bool :=
  decide (row < d.rows) && pitchOfRow s d row == myPitch s

/-- R80: the home group of a row, and its region row index. -/
def homeGroup (s : State) (d : TableDecl) (row : Nat) : Nat := (row - bandStart s d (pitchOfRow s d row) + d.table) % 16
def regionRow (s : State) (d : TableDecl) (row : Nat) : Nat := (row - bandStart s d (pitchOfRow s d row)) / 16

/-- R81: rows of a table homed in region g of a pitch's module. -/
def homedRows (s : State) (d : TableDecl) (pitch g : Nat) : Nat :=
  let m := (g + 16 * 65536 - d.table) % 16
  ceilDiv (bandRows s d pitch - m) 16

/-- Record number n of an area of the given first granule, in region g's slow tier (R87, R88). -/
def recordAt (g baseGranule mode n : Nat) : Nat :=
  modAddr (g / 4) (slowAddr (g % 4)
    (baseGranule * granuleBytes + n / recsPerPage mode * pageBytes + n % recsPerPage mode * recLen mode))

/-- The number of the record that holds a byte of an area (R87, R88). -/
def recordIndex (mode off : Nat) : Nat := off / pageBytes * recsPerPage mode + off % pageBytes / recLen mode

/-- The home address of a base record (R88). -/
def baseRecord (s : State) (ts : TableSet) (d : TableDecl) (row slice : Nat) : Nat :=
  recordAt (homeGroup s d row) d.baseGranule ts.mode (regionRow s d row * localSlices s d + slice)

/-- The logical column of element 0 of a local slice at this position (R78). -/
def sliceColumn (s : State) (d : TableDecl) (slice : Nat) : Nat := (firstSliceAt s d (myPosition s) + slice) * 16

/-! ## The overlay directory (R97 to R99) -/

/-- Entries of a region's directory, and the address of one: two to a sector (R98). -/
def dirCapacity (s : State) : Nat := 507904 * s.plan.fastDirectory
def dirAddr (s : State) (g slot : Nat) : Nat :=
  modAddr (g / 4) (fastAddr (g % 4)
    ((s.plan.fastFlat + s.plan.fastPinned) * granuleBytes + slot / 2 * sectorBytes + slot % 2 * 28))

/-- A directory entry's 28 bytes (R98). -/
def dirBytes (e : DirEntry) : Bytes :=
  natLe 28 (e.row + e.table * 2 ^ 40 + e.set * 2 ^ 56 + e.variant * 2 ^ 64 + 2 ^ 74 + e.record * 2 ^ 96
    + e.next * 2 ^ 160 + e.firstStep * 2 ^ 192)

/-- What a search finds in a directory slot: nothing, an entry, or a poisoned sector or a reserved STATE, which is neither. -/
inductive Entered where
  | empty
  | valid (e : DirEntry)
  | unusable
  deriving DecidableEq, Repr

def enteredOf (b : Bytes) : Entered :=
  let n := leNat b
  match bits n 74 2 with
  | 0 => .empty
  | 1 => .valid { row := bits n 0 40, table := bits n 40 16, set := bits n 56 8, variant := bits n 64 10, record := bits n 96 64
                  next := bits n 160 32, firstStep := bits n 192 32 }
  | _ => .unusable

def dirAt (s : State) (g slot : Nat) : Entered :=
  let a := dirAddr s g slot
  if markPoison (secMark s (secOfAddr a)) then .unusable else enteredOf (sgets 0 s.mem.cells a 28)

/-- R99: the probe sequence. -/
def probeHash (row variant set table : Nat) : Nat :=
  let key : W64 := BitVec.ofNat 64 (row + variant * 2 ^ 40 + set * 2 ^ 50)
  (grainMix (grainMix key ^^^ BitVec.ofNat 64 table)).toNat

def probe (h cap i : Nat) : Nat := if cap = 0 then 0 else (h + i) % 2 ^ 64 % cap

/-- What a search ends with. -/
inductive Found where
  | hit (slot : Nat) (e : DirEntry)
  | empty (slot : Nat)
  | full
  deriving DecidableEq, Repr

/-- Whether an entry has a key. -/
def dirKeyed (e : DirEntry) (set table row variant : Nat) : Bool :=
  e.row == row && e.table == table && e.set == set && e.variant == variant

def dirSearch (s : State) (g set table row variant h : Nat) : Nat → Found
  | 0 => .full
  | n + 1 =>
    let cap := dirCapacity s
    let slot := probe h cap (64 - (n + 1))
    if cap = 0 then .full
    else
      match dirAt s g slot with
      | .empty => .empty slot
      | .valid e => if dirKeyed e set table row variant then .hit slot e else dirSearch s g set table row variant h n
      | .unusable => dirSearch s g set table row variant h n

def dirFind (s : State) (g set table row variant : Nat) : Found :=
  dirSearch s g set table row variant (probeHash row variant set table) 64

/-- The sectors that a search reads, each under R265, up to the one with which it ends. -/
def dirReads (g set table row variant h : Nat) : Nat → State → State
  | 0, s => s
  | n + 1, s =>
    let slot := probe h (dirCapacity s) (64 - (n + 1))
    let s := fixSector (secOfAddr (dirAddr s g slot)) s
    match dirAt s g slot with
    | .empty => s
    | .valid e => if dirKeyed e set table row variant then s else dirReads g set table row variant h n s
    | .unusable => dirReads g set table row variant h n s

/-- A search reads the directory: its sectors are left good or poisoned. -/
def dirRead (g set table row variant : Nat) (s : State) : State :=
  if s.mem.damage.isEmpty || dirCapacity s = 0 then s
  else dirReads g set table row variant (probeHash row variant set table) 64 s

/-- A pass over a region's directory reads its sectors (R265). -/
def directoryRead (g : Nat) (s : State) : State :=
  let lo := secKey (pageKey (placeOf (g / 4) 1 (g % 4)) ((s.plan.fastFlat + s.plan.fastPinned) * 4096)) 0
  let n := s.plan.fastDirectory * 4096 * 64
  forEach ((s.mem.damage.map Prod.fst).filter fun k => decide (lo ≤ k) && decide (k < lo + n)) fixSector s

/-- Puts an entry into a directory slot. -/
def putDir (g slot : Nat) (e : DirEntry) (s : State) : State := writeRange (dirAddr s g slot) (dirBytes e) false s

/-- The valid entries of a region's directory with their slots, in entry order. -/
def dirEntries (s : State) (g : Nat) : List (Nat × DirEntry) :=
  let a := dirAddr s g 0
  s.mem.cells.filterMap fun c =>
    let o := c.1 - a
    let slot := o / sectorBytes * 2 + o % sectorBytes / 28
    if a ≤ c.1 && slot < dirCapacity s && o % sectorBytes % 28 == 9 then
      match dirAt s g slot with
      | .valid e => some (slot, e)
      | _ => none
    else none

/-- Valid entries of a region's directory. -/
def dirUsed (s : State) (g : Nat) : Nat := (dirEntries s g).length

/-- R99, R266: every page of the directories is written as zero. -/
def clearDirectories (s : State) : State :=
  let lo := (s.plan.fastFlat + s.plan.fastPinned) * 4096
  let n := s.plan.fastDirectory * 4096
  forEach sixteen (fun g s =>
    let p := pageKey (placeOf (g / 4) 1 (g % 4)) lo
    setMem { s.mem with
      cells := sclear s.mem.cells (pageAddr p) (n * pageBytes), marks := sclear s.mem.marks (secKey p 0) (n * 64)
      damage := sclear s.mem.damage (secKey p 0) (n * 64), pend := sclear s.mem.pend p n, stale := sclear s.mem.stale p n } s) s

/-- The j-th of the consecutive overlay records whose first lies at a die-local offset (R87, R88). -/
def overlayRecord (s : State) (g mode first j : Nat) : Nat :=
  let poolOff := s.plan.slowTable * granuleBytes
  let x := first - slowAddr (g % 4) 0 - poolOff
  recordAt g s.plan.slowTable mode (recordIndex mode x + j)

/-- R97: the record a key resolves to for a local slice, and whether it is an overlay. -/
def resolve (s : State) (ts : TableSet) (d : TableDecl) (row variant slice : Nat) : Nat × Bool :=
  let base := baseRecord s ts d row slice
  if variant = 0 || ts.variants ≤ variant then (base, false)
  else
    match dirFind s (homeGroup s d row) ts.number d.table row variant with
    | .hit _ e => (overlayRecord s (homeGroup s d row) ts.mode e.record slice, true)
    | _ => (base, false)

/-- The directory reads of a lookup (R97). -/
def resolveReads (ts : TableSet) (d : TableDecl) (row variant : Nat) (s : State) : State :=
  if variant = 0 || ts.variants ≤ variant then s else dirRead (homeGroup s d row) ts.number d.table row variant s

/-! ## Records and their copies (R93, R94) -/

def cachedAt (s : State) (home : Nat) : Option Cached := s.place.cache.find? fun c => c.home == home

/-- Where a record's current copy lies (R93). -/
def recordSpot (s : State) (home : Nat) : Nat :=
  match cachedAt s home with
  | some c => cachedAddr s c
  | none => pinnedTwin s home

/-- Reads a record's forward or other sectors `lo … lo + n - 1`: their bytes and marks in its current copy. -/
def readRecord (home lo n : Nat) (s : State) : (Bytes × List Nat) × State :=
  let a := recordSpot s home + lo * sectorBytes
  let s := fixRange a (n * sectorBytes) s
  ((sgets 0 s.mem.cells a (n * sectorBytes), (touched a (n * sectorBytes)).map (secMark s)), s)

/-- Stores one sector of a record in memory. -/
def storeSector (a : Nat) (b : Bytes) (mark : Nat) (s : State) : State :=
  let k := secOfAddr a
  let s := fixSector k s
  let s := whenS (markPoison (secMark s k) && !(markPoison mark)) (count E.POISON_CLEARED) s
  putSector k (leNat b + mark * 2 ^ 448) s

/-- Stores a record's sectors at a place, the last sector first (R86, R147). -/
def storeSectors (a : Nat) (b : Bytes) (marks : List Nat) (s : State) : State :=
  forEach (((pieces sectorBytes b).zip (marks.zip (upto marks.length))).reverse) (fun p =>
    storeSector (a + p.2.2 * sectorBytes) p.1 p.2.1) s

/-- Stores a whole record: in its cached copy, which is then dirty, or in place. -/
def storeRecord (home : Nat) (b : Bytes) (marks : List Nat) (s : State) : State :=
  let s := storeSectors (recordSpot s home) b marks s
  { s with place := { s.place with cache := s.place.cache.map fun c => if c.home == home then { c with dirty := true } else c } }

/-- Copies the sectors of a record from one place to another, with their metadata; POISON is kept, and counted (R271). -/
def copyRecord (src dst len : Nat) (s : State) : State :=
  let s := fixRange src len s
  let marks := (touched src len).map (secMark s)
  countN E.POISON_PROPAGATED (marks.filter markPoison).length (storeSectors dst (sgets 0 s.mem.cells src len) marks s)

/-- A record's fields (R85, R86). -/
def rowMetaOf (mode : Nat) (b : Bytes) : Nat := field b (if isCompat mode then 64 else 48) 8
def updateMetaOf (mode : Nat) (b : Bytes) : Nat := field b (if isCompat mode then 200 else 104) 8
def putRowMeta (mode v : Nat) (b : Bytes) : Bytes := patch b (if isCompat mode then 64 else 48) (natLe 8 v)
def putUpdateMeta (mode v : Nat) (b : Bytes) : Bytes := patch b (if isCompat mode then 200 else 104) (natLe 8 v)
def isFrozen (mode : Nat) (b : Bytes) : Bool := bitAt (rowMetaOf mode b) 1
def lastT (mode : Nat) (b : Bytes) : Nat := updateMetaOf mode b % 2 ^ 32
def overlayHead (mode : Nat) (b : Bytes) : Nat := updateMetaOf mode b / 2 ^ 32

/-- The weights of a record's forward bytes as exact values (R117). -/
def weightsOf (mode : Nat) (b : Bytes) : List ExactNum :=
  (upto 16).map fun e =>
    if mode = 0 then d16val (field b (2 * e) 2)
    else if mode = 1 then d16eVal (field b (2 * e) 2) (field b (32 + e) 1)
    else f32val (BitVec.ofNat 32 (field b (4 * e) 4))

/-- Adds the counts of conversions to the module totals (R76). -/
def countTally (t : Tally) (s : State) : State :=
  let s := countN E.SAT_EVENTS t.sat s
  let s := countN E.INF_EVENTS t.inf s
  let s := countN E.NAN_EVENTS t.nan s
  let s := countN E.UNDERFLOW_EVENTS t.under s
  let s := countN E.BLOCK_BUMP_EVENTS t.bump s
  let s := countN E.JIT_TILES t.jit s
  let s := countN E.U8Z_CLAMP_EVENTS t.clamp s
  countN E.S8_NEGATIVE_EVENTS t.s8neg s

/-! ## Initial contents (R95, R96) -/

/-- The exact initial weight of INIT 1: bound × (u − 32,768) × 2^(−15). -/
def initValue (bound : W32) (u : Nat) : ExactNum := numMul (f32val bound) (numMul (numOfInt ((u : Int) - 32768)) (pow2 (-15)))

/-- The weight bytes of an initial record, at a row and first column, with their counts (R65, R67). -/
def initWeights (s : State) (ts : TableSet) (d : TableDecl) (row column : Nat) : Bytes × Tally :=
  let at_ (e : Nat) : GrainAt := ⟨s.plan.seed, 0, row, column + e, d.table, 0, ts.number⟩
  let v (e : Nat) : ExactNum := if d.init = 1 then initValue d.initBound (srdDraw .weightStore (at_ e) 2) else num0
  let g (e : Nat) : Nat := srdDraw .weightStore (at_ e) 3
  if isCompat ts.mode then
    let c := tallyAll ((upto 16).map fun e => scalarEncode fmtF32 32 .rne 0 false (v e))
    (c.1.flatMap (natLe 4), c.2)
  else if ts.mode = 1 then
    let c := tallyAll ((upto 16).map fun e => scalarEncode fmtD16E 24 .srd (g e) false (v e))
    ((c.1.flatMap fun x => natLe 2 (x / 256)) ++ c.1.flatMap fun x => natLe 1 (x % 256), c.2)
  else
    let c := tallyAll ((upto 16).map fun e => scalarEncode fmtD16 16 .srd (g e) false (v e))
    (c.1.flatMap (natLe 2) ++ zeros 16, c.2)

/-- R95: an initial record of given weights: zeros follow them, and it has no overlay. -/
def initRecord (mode : Nat) (w : Bytes) : Bytes :=
  putUpdateMeta mode (0xFFFFFFFF * 2 ^ 32) (w ++ zeros (recLen mode - w.length))

/-- Writes one initial record into its home. -/
def writeInit (ts : TableSet) (d : TableDecl) (row slice : Nat) (s : State) : State :=
  let w := initWeights s ts d row (sliceColumn s d slice)
  let b := initRecord ts.mode w.1
  let a := baseRecord s ts d row slice
  forEach ((pieces sectorBytes b).zip (upto (recSectors ts.mode))) (fun p => storeSector (a + p.2 * sectorBytes) p.1 0)
    (countTally w.2 s)

/-- R92 check 4 of R392: writes every record of a table's band. -/
def initTable (ts : TableSet) (d : TableDecl) (s : State) : State :=
  let start := bandStart s d (myPitch s)
  let k := localSlices s d
  forEach (upto (bandRows s d (myPitch s) * k)) (fun i => writeInit ts d (start + i / k) (i % k)) s

/-- The byte ranges (share offset, length) of a pinned table in each region, table area and pinned portion (R91). -/
def pinnedSpan (s : State) (d : TableDecl) : Nat × Nat × Nat :=
  (d.baseGranule * granuleBytes, (s.plan.fastFlat + d.pinnedBase) * granuleBytes, d.granules * granuleBytes)

/-- Copies the sectors of a table's records between the table area and the pinned portion (R93): `toFast` at LOAD. -/
def copyPinned (ts : TableSet) (d : TableDecl) (toFast : Bool) (s : State) : State :=
  let start := bandStart s d (myPitch s)
  let k := localSlices s d
  forEach (upto (bandRows s d (myPitch s) * k)) (fun i s =>
    let home := baseRecord s ts d (start + i / k) (i % k)
    let fast := pinnedTwin s home
    copyRecord (if toFast then home else fast) (if toFast then fast else home) (recLen ts.mode) s) s

/-! ## The overlay pool (R100, R103) -/

/-- The next free record number of a region's pool for a record size; the pool keeps one number and the size it counts
in, and a change of size moves to the next page. -/
def poolNextFor (s : State) (g mode : Nat) : Nat :=
  let v := sget 0 s.place.poolNext g
  let n := v / 2
  let compat := v % 2 == 1
  if compat == isCompat mode then n
  else ceilDiv n (if compat then 15 else 31) * recsPerPage mode

/-- Takes k consecutive records, a returned run before new ones; none when fewer are free. -/
def takePool (g mode k : Nat) (s : State) : Option Nat × State :=
  let key := g * 2 + b2n (isCompat mode)
  match s.place.holes.find? fun h => h.1 == key && decide (k ≤ h.2.2) with
  | some h =>
    let rest := if h.2.2 = k then [] else [(key, h.2.1 + k, h.2.2 - k)]
    (some (addrOff (recordAt g s.plan.slowTable mode h.2.1)),
      { s with place := { s.place with holes := rest ++ s.place.holes.erase h, poolUsed := s.place.poolUsed + k } })
  | none =>
    let n := poolNextFor s g mode
    if s.plan.slowOverlay * 4096 * recsPerPage mode < n + k then (none, s)
    else
      (some (addrOff (recordAt g s.plan.slowTable mode n)),
        { s with place := { s.place with
            poolNext := sput 0 s.place.poolNext g ((n + k) * 2 + b2n (isCompat mode)), poolUsed := s.place.poolUsed + k } })

/-- R103: returns the k records whose first lies at a die-local offset. -/
def returnPool (g mode k first : Nat) (s : State) : State :=
  let x := first - slowAddr (g % 4) 0 - s.plan.slowTable * granuleBytes
  let n := recordIndex mode x
  { s with place := { s.place with
      holes := (g * 2 + b2n (isCompat mode), n, k) :: s.place.holes, poolUsed := s.place.poolUsed - k } }

/-- The page that holds an entry of a region's directory: 124 entries to a page (R98). -/
def dirPage (s : State) (g slot : Nat) : Nat :=
  pageKey (placeOf (g / 4) 1 (g % 4)) ((s.plan.fastFlat + s.plan.fastPinned) * 4096 + slot / 124)

/-! ## The cache (R123 to R125) -/

/-- Records a cache of a region holds at most. -/
def cacheGranules (s : State) : Nat := 1152 - s.plan.fastFlat - s.plan.fastPinned - s.plan.fastDirectory
def cacheHolds (s : State) (g : Nat) : Nat := (s.place.cache.filter fun c => c.region == g).length

/-- The lowest record slot of a region's cache portion that is free for a record of a numeric mode, as (page, slot): one in a
page that holds records of its size, or one in a page that holds none. -/
def cacheSlot (s : State) (g mode : Nat) : Option (Nat × Nat) :=
  let mine := s.place.cache.filter fun c => c.region == g
  let used (p : Nat) : List Cached := mine.filter fun c => c.page == p
  let free (p : Nat) : Option Nat :=
    if (used p).all fun c => c.compat == isCompat mode then
      (upto (recsPerPage mode)).find? fun k => !((used p).any fun c => c.slot == k)
    else none
  (upto (min (cacheGranules s * 4096) (mine.length + 1))).findSome? fun p => (free p).map fun k => (p, k)

/-- R124: a fill: the record's sectors are read from its home into a free slot of the cache. -/
def fillCache (g home set table row variant sl mode step : Nat) (at_ : Nat × Nat) (s : State) : State :=
  let c : Cached := ⟨g, home, set, table, row, variant, sl, isCompat mode, at_.1, at_.2, false, step⟩
  let s := copyRecord home (cachedAddr s c) (recLen mode) s
  { s with place := { s.place with cache := s.place.cache ++ [c] } }

/-- R125: writes a dirty record back and drops the copy. -/
def dropCached (c : Cached) (s : State) : State :=
  let s := if c.dirty then copyRecord (cachedAddr s c) c.home (cachedLen c) s else s
  { s with place := { s.place with cache := s.place.cache.filter fun x => x.home != c.home } }

def countWriteback (c : Cached) (s : State) : State := whenS c.dirty (count E.LA_DIRTY_WRITEBACKS) s

/-- Writes every dirty cached record back (R125, R393, R459). -/
def dropAllCached (s : State) : State := forEach s.place.cache (fun c s => dropCached c (countWriteback c s)) s

end Sys2Proof.Machine
end

