-- ==== Sys2Proof/Machine/Intake.lean ====
section
/-!
DEFINITION. Intake rings (R420 to R425), index batches and their checks (R105 to R110), the index runs a home module
sends, and the gradient entries of a Feed (R429).
-/
namespace Sys2Proof.Machine

/-! ## Rings -/

def ring (s : State) (r : Nat) : Ring := sget {} s.host.rings r
def setRing (r : Nat) (g : Ring) (s : State) : State := { s with host := { s.host with rings := sput {} s.host.rings r g } }
def updRing (r : Nat) (f : Ring → Ring) (s : State) : State := setRing r (f (ring s r)) s

/-- The rings' numbers. -/
def allRings : List Nat := upto 64

/-- R406: whether a range lies wholly in one area that a device-resident ring may use. -/
def ringAreaOk (s : State) (a len : Nat) : Bool :=
  decide (a < 2 ^ 43) &&
  match rangeSpot s (addrOff a) len with
  | some sp => isFlat sp.portion
  | none => false

/-- R421: whether the fields of a ring let it be enabled. -/
def ringConfigOk (s : State) (r : Nat) : Bool :=
  let g := ring s r
  let mib := 2 ^ 20
  let others := allRings.filter fun x => x != r && (ring s x).enable
  let size := match g.kind with
    | .outlet => decide (0 < g.apertureBytes) && g.apertureBytes % mib == 0
    | _ => (upto 9).any fun i => g.apertureBytes == mib * 2 ^ i
  g.kind != .off && g.apertureOffset % mib == 0 && decide (mib ≤ g.apertureOffset)
    && decide (g.apertureOffset + g.apertureBytes ≤ 2 ^ 32) && size
    && !(others.any fun x => meets g.apertureOffset g.apertureBytes (ring s x).apertureOffset (ring s x).apertureBytes)
    && !(others.any fun x => (ring s x).kind == g.kind && (ring s x).tableSet == g.tableSet)
    && g.backing % 64 == 0 && ringAreaOk s g.backing g.apertureBytes

/-- R421: a ring that cannot be enabled, or that LOAD disables. -/
def ringInvalid (r : Nat) (s : State) : State :=
  raise 0x0108 r (updRing r (fun g => { g with enable := false, state := .off, stopStatus := 0x0108 }) s)

/-- R421: ENABLE set. -/
def ringEnable (r : Nat) (s : State) : State :=
  if (ring s r).enable then s
  else if ringConfigOk s r then
    updRing r (fun g => { g with
      enable := true, state := .active, producer := 0, consumer := 0, readyStep := 0, consumedStep := 0
      incomplete := false, parsed := 0, dropSeen := false, inFlight := [] }) s
  else ringInvalid r s

/-- R421: ENABLE cleared. -/
def ringDisable (r : Nat) (s : State) : State :=
  updRing r (fun g => { g with enable := false, state := .off, inFlight := [] }) s

/-- A ring stops (R423 to R425). -/
def ringStop (r code : Nat) (s : State) : State :=
  causeQueueStopped (raise code r (updRing r (fun g => { g with state := .stopped, stopStatus := code }) s))

/-- R423: `n` bytes from ring position `x`, across the wrap; whether any was poisoned. -/
def ringRead (r x n : Nat) (s : State) : (Bytes × Bool) × State :=
  let g := ring s r
  let o := x % g.apertureBytes
  let n1 := min n (g.apertureBytes - o)
  let a := readRange (g.backing + o) n1 s
  let b := readRange g.backing (n - n1) a.2
  ((a.1.1 ++ b.1.1, a.1.2 || b.1.2), b.2)

/-- CONSUMER passes the leading entries that nothing holds any more. -/
def passConsumed (c : Nat) : List (Nat × Nat × Nat) → Nat × List (Nat × Nat × Nat)
  | [] => (c, [])
  | e :: rest => if e.2.2 = 0 then passConsumed (e.1 + e.2.1) rest else (c, e :: rest)

def advanceConsumer (r : Nat) (s : State) : State :=
  updRing r (fun g =>
    let p := passConsumed g.consumer g.inFlight
    { g with consumer := p.1, inFlight := p.2 }) s

/-- One message forwarded from the entry at a position has ended (R425). -/
def ringEntryDone (r x : Nat) (s : State) : State :=
  advanceConsumer r (updRing r (fun g => { g with
    inFlight := g.inFlight.map fun e => if e.1 = x then (e.1, e.2.1, e.2.2 - 1) else e }) s)

/-! ## Index batches (R105 to R107, R424) -/

/-- A segment descriptor. -/
structure Segment where
  table : Nat
  count : Nat
  offsetsOff : Nat
  indicesOff : Nat
  weightsOff : Nat
  deriving DecidableEq, Repr

def batchStep (b : Bytes) : Nat := field b 0 8
def batchFirst (b : Bytes) : Nat := field b 8 8
def batchSamples (b : Bytes) : Nat := field b 16 4
def batchSegments (b : Bytes) : Nat := field b 20 2
def batchSet (b : Bytes) : Nat := field b 22 1
def batchWeighted (b : Bytes) : Bool := bitAt (field b 23 1) 0
def batchBytes (b : Bytes) : Nat := field b 24 4
def batchCheck (b : Bytes) : Nat := field b 28 4

/-- The bytes of the variant array, padded. -/
def variantBytes (n : Nat) : Nat := ceilDiv (2 * n) 64 * 64

def segmentAt (b : Bytes) (i : Nat) : Segment :=
  let d := slice b (64 + variantBytes (batchSamples b) + 32 * i) 32
  ⟨field d 0 2, field d 4 4, field d 8 4, field d 12 4, field d 16 4⟩

def segmentsOf (b : Bytes) : List Segment := (upto (batchSegments b)).map (segmentAt b)

/-- The bag offsets of a segment. -/
def offsetsOf (b : Bytes) (g : Segment) : List Nat :=
  (upto (batchSamples b + 1)).map fun i => field b (g.offsetsOff + 4 * i) 4

/-- Whether numbers never fall. -/
def ascending : List Nat → Bool
  | [] => true
  | x :: rest => (match rest with
    | [] => true
    | y :: _ => decide (x ≤ y)) && ascending rest

def indexBytes (d : TableDecl) : Nat := if d.idx64 then 8 else 4

/-- The conditions of R106 on one segment. -/
def segmentOk (ts : TableSet) (b : Bytes) (g : Segment) : Bool :=
  match tableOf ts g.table with
  | none => false
  | some d =>
    let within (o n : Nat) : Bool := o % 64 == 0 && decide (o + n ≤ batchBytes b)
    let os := offsetsOf b g
    within g.offsetsOff (4 * (batchSamples b + 1)) && within g.indicesOff (indexBytes d * g.count)
      && (!(batchWeighted b) || within g.weightsOff (4 * g.count))
      && nthD 1 os 0 == 0 && ascending os && nthD 0 os (batchSamples b) == g.count

/-- R106, R107, R424: why a present batch is refused; 0 when it is accepted. -/
def batchRefusal (s : State) (ringSet : Nat) (b : Bytes) : Nat :=
  if flagOn s E.BATCH_CHECK_ENABLE && crc32c (patch b 28 (zeros 4)) != batchCheck b then 0x0511
  else
    match if isMember s then tableSet s (batchSet b) else none with
    | none => 0x0510
    | some ts =>
      let n := batchSamples b
      let gs := segmentsOf b
      if batchBytes b % 64 != 0 || decide (batchBytes b < 64 + variantBytes n + 32 * batchSegments b)
          || batchSet b != ringSet || (n == 0) != (batchSegments b == 0) || decide (1048576 < n)
          || !(gs.all (segmentOk ts b)) || (gs.map fun g => g.table).eraseDups.length != gs.length then 0x0510
      else if batchStep b != ts.nextBatch then 0x0512
      else 0

/-! ## Index validity (R108) -/

/-- The counter that an index is dropped in; none when it is valid. -/
def indexDrop (ts : TableSet) (d : TableDecl) (row variant : Nat) (weighted : Bool) (w : W32) : Option Nat :=
  if row = 2 ^ (8 * indexBytes d) - 1 then some E.INVALID_SENTINEL
  else if d.rows ≤ row then some E.INVALID_RANGE
  else if ts.variants ≤ variant then some E.INVALID_VARIANT
  else if weighted && !(f32finite w) then some E.INVALID_WEIGHT
  else none

/-- The indices of one bag, with what each is dropped for. -/
def bagIndices (ts : TableSet) (d : TableDecl) (b : Bytes) (g : Segment) (lo hi variant : Nat) :
    List (Option Nat × (Nat × Nat × W32)) :=
  (upto (hi - lo)).map fun i =>
    let row := field b (g.indicesOff + indexBytes d * (lo + i)) (indexBytes d)
    let w : W32 := if batchWeighted b then BitVec.ofNat 32 (field b (g.weightsOff + 4 * (lo + i)) 4) else f32one
    (indexDrop ts d row variant (batchWeighted b) w, (i, row, w))

def variantAt (b : Bytes) (i : Nat) : Nat := field b (64 + 2 * i) 2 % 1024

/-- The bags of a segment, before dropped indices leave them. -/
def segmentBags (ts : TableSet) (b : Bytes) (g : Segment) : List (Bag × List Nat) :=
  match tableOf ts g.table with
  | none => []
  | some d =>
    let os := offsetsOf b g
    (upto (batchSamples b)).map fun i =>
      let all := bagIndices ts d b g (nthD 0 os i) (nthD 0 os (i + 1)) (variantAt b i)
      (⟨i, g.table, variantAt b i, (all.filter fun x => x.1 == none).map Prod.snd⟩, all.filterMap Prod.fst)

/-- R105: the bag number. -/
def bagNumber (first sample table : Nat) : Nat := (first + sample) % 2 ^ 48 * 65536 + table
def bagTable (bag : Nat) : Nat := bag % 65536
def bagSample (bag : Nat) : Nat := bag / 65536

/-! ## Index runs (R110, R326, R438) -/

/-- The member order that takes a sample's bags at a pitch and position. -/
def orderFor (s : State) (pitch position sample : Nat) : Nat :=
  (pitch * s.plan.p + position) * perPosition s + (if s.plan.paired then sample % 2 else 0)

/-- One index of a run. -/
structure RunItem where
  bag : Nat
  variant : Nat
  position : Nat
  row : Nat
  weight : W32
  deriving DecidableEq, Repr

/-- The items of a batch that go to the members of some orders, in ascending bag number and then bag position. -/
def runItems (s : State) (b : Batch) (orders : List Nat) : List RunItem :=
  let items := b.bags.flatMap fun g =>
    match (tableSet s b.tableSet).bind fun ts => tableOf ts g.table with
    | none => []
    | some d =>
      let bag := bagNumber b.firstSample g.sample g.table
      (g.indices.filter fun i =>
        (upto s.plan.p).any fun p => orders.contains (orderFor s (pitchOfRow s d i.2.1) p (bagSample bag))).map
        fun i => (⟨bag, g.variant, i.1, i.2.1, i.2.2⟩ : RunItem)
  items.mergeSort fun x y => decide (x.bag < y.bag) || (x.bag == y.bag && decide (x.position ≤ y.position))

/-- Items cut into messages of one table each: an item costs one entry, and one more when its message has no entry of its
bag yet. -/
def cutRun (limit : Nat) : List RunItem → List RunItem → Nat → List (List RunItem)
  | [], cur, _ => if cur.isEmpty then [] else [cur.reverse]
  | x :: rest, cur, cost =>
    let c := match cur with
      | [] => 2
      | y :: _ => if y.bag = x.bag then 1 else 2
    if limit < cost + c || (cur.head?.any fun y => bagTable y.bag != bagTable x.bag) then cur.reverse :: cutRun limit rest [x] 2
    else cutRun limit rest (x :: cur) (cost + c)

/-- The entries of one message: a bag entry before the first index of each bag. -/
def runEntries : List RunItem → Option Nat → List RunItem → Bytes
  | [], _, _ => []
  | x :: rest, last, all =>
    let head := if last = some x.bag then []
      else natLe 8 x.bag ++ natLe 4 (all.filter fun y => y.bag == x.bag).length ++ natLe 2 x.variant ++ zeros 2
    head ++ natLe 5 x.row ++ zeros 3 ++ natLe 4 x.position ++ natLe 4 x.weight.toNat ++ runEntries rest (some x.bag) all

def runBody (s : State) (b : Batch) (table : Nat) (items : List RunItem) : Bytes :=
  natLe 8 b.step ++ natLe 1 b.tableSet ++ zeros 1 ++ natLe 2 table
    ++ natLe 4 (items.map fun x => x.bag).eraseDups.length ++ natLe 4 items.length ++ natLe 2 (myNumber s) ++ zeros 10
    ++ runEntries items none items

/-- Sends a message of the run of a batch, and notes that it is to be delivered before (STEP, OPEN) (R111). -/
def sendRunMsg (step k : Nat) (body : Bytes) (s : State) : State :=
  let key := s.fabric.nextKey
  let s := { s with step := { s.step with runsFor := s.step.runsFor ++ [(key, step)] } }
  sendToMember 0 0x10 k step body [] .nobody s

/-- R110, R451: the index run of a batch for the members of some orders, sent to one that takes it. -/
def sendRun (b : Batch) (orders : List Nat) (k : Nat) (s : State) : State :=
  forEach (cutRun 65536 (runItems s b orders) [] 0) (fun m s =>
    let table := match m with
      | [] => 0
      | x :: _ => bagTable x.bag
    sendRunMsg b.step k (runBody s b table m) s) s

/-- Every member that takes messages gets the run of its own order and of the order it stands in for. -/
def sendRuns (b : Batch) (s : State) : State :=
  let all := upto (memberCount s)
  forEach (all.filter fun k => actingFor s k == k) (fun k => sendRun b (all.filter fun o => actingFor s o == k) k) s

/-! ## Accepting and refusing (R106, R107, R424) -/

/-- BATCHES_LATE: a batch of step N + 1 accepted after (N, OPEN). -/
def isLateBatch (s : State) (step : Nat) : Bool := decide (s.plan.s0 < step) && decide (axisOf (step - 1) 0 < axis s)

/-- R111: whether this module is a home module of a set for a step, as far as its COMMIT point has said. -/
def isHome (s : State) (set step : Nat) : Bool :=
  match s.step.homeFor with
  | some n => decide (n < step) || (n == step && s.step.homeSets.contains set)
  | none => true

def acceptBatch (r x : Nat) (b : Bytes) (ts : TableSet) (s : State) : State :=
  let gs := (segmentsOf b).flatMap (segmentBags ts b)
  let drops := gs.flatMap Prod.snd
  let s := forEach drops count s
  let s := whenS (!(drops.isEmpty)) (raiseOnceRun 0x0514 (batchStep b)) s
  let s := countN E.EMPTY_BAGS (gs.filter fun g => g.1.indices.isEmpty).length s
  let bt : Batch := {
    ring := r, position := x, bytes := batchBytes b, step := batchStep b, firstSample := batchFirst b
    samples := batchSamples b, tableSet := batchSet b, variants := (upto (batchSamples b)).map (variantAt b)
    segments := ((segmentsOf b).map fun g => g.table).mergeSort (fun a b => decide (a ≤ b)), bags := gs.map Prod.fst
    home := isHome s (batchSet b) (batchStep b) }
  let s := updSet ts.number (fun t => { t with nextBatch := batchStep b + 1 }) s
  let s := { s with step := { s.step with batches := s.step.batches ++ [bt] } }
  let s := whenS (isLateBatch s bt.step) (count E.BATCHES_LATE) (count E.BATCHES_ACCEPTED s)
  whenS bt.home (sendRuns bt) s

/-- One batch of a ring: not there yet, a framing stop, or accepted or refused. -/
def stepBatch (r : Nat) (s : State) : Option State :=
  let g := ring s r
  if g.state != .active || decide (g.producer < g.parsed + 64) then none
  else
    let h := ringRead r g.parsed 64 s
    let n := batchBytes h.1.1
    if n < 64 || n % 64 != 0 || decide (g.apertureBytes < n) then some (ringStop r 0x0109 h.2)
    else if g.producer < g.parsed + n then none
    else
      let d := ringRead r g.parsed n h.2
      let s := d.2
      let b := d.1.1
      let code := batchRefusal s g.tableSet b
      let put (held : Nat) (f : Ring → Ring) (s : State) : State := advanceConsumer r (updRing r (fun g =>
        f { g with parsed := g.parsed + n, inFlight := g.inFlight ++ [(g.parsed, n, held)] }) s)
      match (if code = 0 then tableSet s (batchSet b) else none) with
      | some ts => some (acceptBatch r g.parsed b ts (put 1 id s))
      | none =>
        some (raise code (batchStep b % 2 ^ 64) (count E.BATCHES_REFUSED
          (put 0 (fun g => { g with stopStatus := code }) s)))

/-! ## Gradient messages as bytes (R129) -/

/-- The header and body of a gradient message. -/
def gradStep (b : Bytes) : Nat := field b 0 8
def gradT (b : Bytes) : Nat := field b 8 8
def gradFirst (b : Bytes) : Nat := field b 16 8
def gradTable (b : Bytes) : Nat := field b 24 2
def gradSet (b : Bytes) : Nat := field b 26 1
def gradVariant (b : Bytes) : Nat := bits (field b 27 2) 0 10
def gradSource (b : Bytes) : Nat := b2n (bitAt (field b 28 1) 2)
def gradFormat (b : Bytes) : Nat := b2n (bitAt (field b 28 1) 3)
def gradSamples (b : Bytes) : Nat := field b 29 2
def gradSlices (b : Bytes) : Nat := field b 31 1
def gradFirstSlice (b : Bytes) : Nat := field b 32 2
def gradSender (b : Bytes) : Nat := bits (field b 34 2) 0 13

/-- Bytes of one slice of 16 elements in a body format. -/
def gradSliceBytes (format : Nat) : Nat := if format = 1 then 32 else 64
def gradBodyBytes (b : Bytes) : Nat := gradSamples b * gradSlices b * gradSliceBytes (gradFormat b)

/-- A gradient header. -/
def gradHeader (step t first table set variant source format samples slices firstSlice sender : Nat) : Bytes :=
  natLe 8 step ++ natLe 8 t ++ natLe 8 first ++ natLe 2 table ++ natLe 1 set
    ++ natLe 2 (variant + source * 2 ^ 10 + format * 2 ^ 11) ++ natLe 2 samples ++ natLe 1 slices ++ natLe 2 firstSlice
    ++ natLe 2 sender ++ zeros 28

/-- A message with the slices `lo … lo + n - 1` of its body only, every other header field unchanged. -/
def gradCut (b : Bytes) (lo n : Nat) : Bytes :=
  let u := gradSliceBytes (gradFormat b)
  let head := patch (patch (b.take 64) 31 (natLe 1 n)) 32 (natLe 2 lo)
  head ++ (upto (gradSamples b)).flatMap fun i =>
    slice b (64 + (i * gradSlices b + (lo - gradFirstSlice b)) * u) (n * u)

/-! ## Feed gradients (R425, R429) -/

/-- The FEED_BIND binding of a set in force for a step. -/
def feedBinding (s : State) (set step : Nat) : Option FeedBinding :=
  (s.step.feedBindings.filter fun b => b.set == set && decide (b.fromStep ≤ step)).getLast?

/-- The kept accepted batch of a set and step (R424). -/
def batchOf (s : State) (set step : Nat) : Option Batch :=
  s.step.batches.find? fun b => b.tableSet == set && b.step == step

/-- R429: whether an entry is refused. -/
def gradEntryRefused (s : State) (r : Nat) (b : Bytes) : Bool :=
  let g := ring s r
  let set := gradSet b
  if gradSource b != 1 || gradSender b != myNumber s || set != g.tableSet then true
  else if !(match feedBinding s set (gradStep b) with
    | some f => f.gradEn && f.gradRing == r
    | none => false) then true
  else
    match batchOf s set (gradStep b), tableSet s set with
    | some bt, some ts =>
      match tableOf ts (gradTable b) with
      | none => true
      | some d =>
        !(bt.segments.contains (gradTable b)) || decide (gradFirst b < bt.firstSample)
          || decide (bt.firstSample + bt.samples < gradFirst b + gradSamples b)
          || decide (sliceCount d < gradFirstSlice b + gradSlices b)
          || (upto (gradSamples b)).any fun i => nthD 1024 bt.variants (gradFirst b - bt.firstSample + i) != gradVariant b
    | _, _ => true

/-- The member orders that sent a band partial for a sample of a range, of one table of a batch (R120, R438). -/
def pooledBy (s : State) (bt : Batch) (d : TableDecl) (first n : Nat) : List Nat :=
  let bags := bt.bags.filter fun g => g.table == d.table && decide (first ≤ bt.firstSample + g.sample)
    && decide (bt.firstSample + g.sample < first + n)
  let orders := bags.flatMap fun g => g.indices.flatMap fun i =>
    (upto s.plan.p).map fun p => actingFor s (orderFor s (pitchOfRow s d i.2.1) p (bt.firstSample + g.sample))
  (upto (memberCount s)).filter fun k => bt.home && orders.contains k

/-- The gradient messages that an entry, or a run of samples, is sent as: a member order and the message bytes. -/
def gradSends (s : State) (bt : Batch) (d : TableDecl) (b : Bytes) : List (Nat × Bytes) :=
  let n := localSlices s d
  let lo := gradFirstSlice b
  let hi := lo + gradSlices b
  (pooledBy s bt d (gradFirst b) (gradSamples b)).filterMap fun k =>
    let p := positionOfMember s k * n
    let a := max lo p
    let z := min hi (p + n)
    if a < z then some (k, gradCut b a (z - a)) else none

/-- One entry of a GRADIENT ring. -/
def stepGradEntry (r : Nat) (s : State) : Option State :=
  let g := ring s r
  if g.state != .active || decide (g.producer < g.parsed + 64) then none
  else
    let h := ringRead r g.parsed 64 s
    let hb := h.1.1
    if gradSamples hb = 0 || decide (1024 < gradSamples hb) || gradSlices hb = 0 || decide (16 < gradSlices hb) then
      some (ringStop r 0x0109 h.2)
    else
      let len := ceilDiv (64 + gradBodyBytes hb) 64 * 64
      if g.producer < g.parsed + len then none
      else
        let d := ringRead r g.parsed (64 + gradBodyBytes hb) h.2
        let s := d.2
        let b := d.1.1
        let pos := g.parsed
        let put (held : Nat) (s : State) : State := updRing r (fun g => { g with
          parsed := g.parsed + len, inFlight := g.inFlight ++ [(pos, len, held)] }) s
        let refuse : State := advanceConsumer r (count E.FEED_GRAD_REFUSED
          (updRing r (fun g => { g with stopStatus := 0x0112 }) (put 0 s)))
        if gradEntryRefused s r b then some refuse
        else
          match batchOf s (gradSet b) (gradStep b), (tableSet s (gradSet b)).bind fun ts => tableOf ts (gradTable b) with
          | some bt, some t =>
            let ms := gradSends s bt t b
            let s := put ms.length s
            some (advanceConsumer r (forEach ms (fun m s =>
              let gone := msgRefusal s 0x12 m.1 != 0
              whenS gone (ringEntryDone r pos) <| sendToMember 0 0x12 m.1 (gradStep b) m.2 (if d.1.2 then upto (ceilDiv m.2.length 4080) else []) (.ring r pos) s) s))
          | _, _ => some refuse

/-- A ring's module handles what its PRODUCER covers, in ring order. -/
def ringProgressFrom (r : Nat) : Nat → State → State
  | 0, s => s
  | n + 1, s =>
    match (if (ring s r).kind == .batch then stepBatch r s else if (ring s r).kind == .gradient then stepGradEntry r s else none) with
    | some t => ringProgressFrom r n t
    | none => s

def ringProgress (r : Nat) (s : State) : State := ringProgressFrom r (((ring s r).producer - (ring s r).parsed) / 64 + 1) s

/-- R423: a PRODUCER write; a module that does not serve drops it (R29, R506). -/
def producerWrite (r size v : Nat) (s : State) : State :=
  let g := ring s r
  if !(serves s) || g.state != .active || !(g.kind == .batch || g.kind == .gradient) then s
  else if size != 8 || v % 64 != 0 || decide (v < g.producer) || decide (g.consumer + g.apertureBytes < v) then
    ringStop r 0x0106 s
  else ringProgress r (updRing r (fun g => { g with producer := v }) s)

/-- R428: a CONSUMED_STEP write; a module that does not serve drops it. -/
def consumedStepWrite (r v : Nat) (s : State) : State :=
  let g := ring s r
  if serves s && g.state == .active && g.kind == .outlet && decide (g.consumedStep < v) then
    updRing r (fun g => { g with consumedStep := v }) s
  else s

/-- R424: CONSUMER passes the batches of a step at its COMMIT, and they are no longer kept. -/
def releaseBatches (step : Nat) (s : State) : State :=
  let done := s.step.batches.filter fun b => decide (b.step ≤ step)
  let s := forEach done (fun b s => advanceConsumer b.ring (updRing b.ring (fun g => { g with
    inFlight := g.inFlight.map fun e => if e.1 = b.position then (e.1, e.2.1, 0) else e }) s)) s
  { s with step := { s.step with batches := s.step.batches.filter fun b => decide (step < b.step) } }

/-- R423: a window byte range `o … o + n - 1` of an enabled ring, as the ring and the offset in its window. -/
def windowRing (s : State) (o n : Nat) : Option (Nat × Nat) :=
  (allRings.find? fun r =>
    (ring s r).enable && decide ((ring s r).apertureOffset ≤ o)
      && decide (o + n ≤ (ring s r).apertureOffset + (ring s r).apertureBytes)).map
    fun r => (r, o - (ring s r).apertureOffset)

/-- R423: a dropped window write. -/
def windowDrop (r : Nat) (s : State) : State :=
  let s := count E.INTAKE_WRITES_REFUSED s
  if (ring s r).dropSeen then s else raise 0x0107 r (updRing r (fun g => { g with dropSeen := true }) s)

/-- R423, R402: a write to a ring window. -/
def windowWrite (requester offset : Nat) (b : Bytes) (poison : Bool) (s : State) : State :=
  match windowRing s offset b.length with
  | none => refuseBar s
  | some (r, o) =>
    let g := ring s r
    let a := g.backing + o
    let code := writeRefusal s (addrDie a) (addrOff a) b.length
    if g.kind == .outlet || (g.reqFilter && requester != g.requester) then windowDrop r s
    else if code != 0 then barRefused code s
    else writeRange a b poison (whenS poison (count E.HOST_POISON_WRITES) s)

/-- R423, R402: a read of a ring window. -/
def windowRead (offset n : Nat) (s : State) : State :=
  match windowRing s offset n with
  | none => emit (.readData (zeros n) false) (refuseBar s)
  | some (r, o) =>
    let g := ring s r
    let a := g.backing + o
    let code := readRefusal s (addrOff a) n
    if g.kind != .outlet then emit (.readData (zeros n) false) s
    else if code != 0 then emit .unsupportedRequest (barRefused code s)
    else
      let v := readRange a n s
      emit (.readData v.1.1 v.1.2) (whenS v.1.2 (count E.HOST_POISON_READS) v.2)

end Sys2Proof.Machine
end

