-- ==== Sys2Proof/Machine/Watch.lean ====
section
/-!
DEFINITION. The training watch (chapter 09): what a conversion contributes (R236 to R239), scale histories (R240 to
R242), zero streaks (R243 to R245), watch records and their ring (R251 to R254).
-/
namespace Sys2Proof.Machine

/-! ## What one conversion contributes (R237 to R239) -/

/-- R238: `d` of one rounding of a magnitude. -/
def dropError (mag drop : Nat) (mode : Mode) (g : Nat) : Nat :=
  if drop = 0 then 0
  else
    let rest := mag % 2 ^ drop
    let r16 := if 16 ≤ drop then rest >>> (drop - 16) else rest <<< (16 - drop)
    if roundMag mag drop mode g = mag >>> drop then r16 else 65536 - r16

/-- `d` of a conversion to a scalar layout. -/
def roundError (f : Fmt) (mode : Mode) (g : Nat) (mag : Nat) (exp : Int) : Nat :=
  if mag = 0 then 0
  else
    let top : Int := exp + (bitLen mag : Int) - 1
    let e : Int := max f.lsb (top - (f.frac : Int))
    if exp ≤ e then dropError mag (e - exp).toNat mode g else 0

/-- One counted element: its class of R237 (0 none, else 1 to 4), `d`, its finite magnitude before conversion, and whether
it is zero after conversion. -/
structure WatchElem where
  cls : Nat
  d : Nat
  mag : ExactNum
  isZero : Bool
  deriving DecidableEq, Repr

def watchElem (v : ExactNum) (t : Tally) (d : Nat) (subnormal isZero : Bool) : WatchElem :=
  { cls := if numNonfinite v then 1 else if 0 < t.sat + t.inf + t.clamp then 2 else if 0 < t.under then 3 else if subnormal then 4 else 0
    d := d, mag := if numNonfinite v then num0 else numAbs v, isZero := isZero }

/-- An element converted to a scalar format of `width` bits. -/
def watchScalar (f : Fmt) (width : Nat) (mode : Mode) (g : Nat) (v : ExactNum) (r : Nat × Tally) : WatchElem :=
  let c := r.1 % 2 ^ (width - 1)
  let d := match v with
    | .fin _ m e => roundError f mode g m e
    | _ => 0
  watchElem v r.2 d (c != 0 && decide (c < 2 ^ f.frac)) (c == 0)

/-- An element converted to K8 under an offset and a tile exponent. -/
def watchK8 (mode : Mode) (g o t : Nat) (v : ExactNum) (r : Nat × Tally) : WatchElem :=
  let d := match v with
    | .fin _ m e => roundError fmtK8 mode g m (e + 127 + (o : Int) - (t : Int))
    | _ => 0
  watchElem v r.2 d (r.1 % 128 != 0 && decide (r.1 % 128 < 16)) (r.1 % 128 == 0)

/-- An element converted to U8Z. -/
def watchU8Z (mode : Mode) (g z : Nat) (scale : W32) (v : ExactNum) (r : Nat × Tally) : WatchElem :=
  let d := match numDiv v (f32val scale) with
    | .fin _ m e => if 0 ≤ e then 0 else dropError m (-e).toNat mode g
    | _ => 0
  watchElem v r.2 d false (r.1 == z)

/-! ## Counting in a slot (R236, R239) -/

def sat32 (n : Nat) : Nat := min n (2 ^ 32 - 1)

/-- R251: ELEMENTS is a field of 40 bits. -/
def sat40 (n : Nat) : Nat := min n (2 ^ 40 - 1)

/-- R239: the smallest F32 not below a magnitude: infinity beyond the largest finite one. -/
def f32above (v : ExactNum) : W32 :=
  match v with
  | .fin _ m e =>
    let c := min (roundCode fmtF32 .rz 0 m e) fmtF32.maxCode
    BitVec.ofNat 32 (if numLt (decodeMag fmtF32 false c) v then c + 1 else c)
  | _ => 0

def countElem (c : WatchCount) (x : WatchElem) : WatchCount :=
  let c := { c with
    elements := sat40 (c.elements + 1)
    nonfinite := sat32 (c.nonfinite + b2n (x.cls == 1))
    overflows := sat32 (c.overflows + b2n (x.cls == 2))
    underflows := sat32 (c.underflows + b2n (x.cls == 3))
    subnormals := sat32 (c.subnormals + b2n (x.cls == 4))
    nonzero := c.nonzero || !x.isZero || x.cls == 1
    sqerr := if x.cls = 1 || x.cls = 2 then c.sqerr else min (c.sqerr + x.d * x.d) (2 ^ 64 - 1) }
  if x.cls = 1 then c
  else
    let a := f32above x.mag
    if c.amax.toNat < a.toNat then { c with amax := a } else c

def setWatch (w : Watch) (s : State) : State := { s with watch := w }

/-- The slot of a tensor or of a table. -/
def watchSlotOf (s : State) (isTable : Bool) (set target : Nat) : Option Nat :=
  s.watch.slots.findIdx? fun x => x.target.isTable == isTable && x.target.target == target && (!isTable || x.target.set == set)

def updSlot (i : Nat) (f : WatchSlot → WatchSlot) (s : State) : State :=
  setWatch { s.watch with slots := s.watch.slots.modify i f } s

def updSlotCount (i : Option Nat) (f : WatchCount → WatchCount) (s : State) : State :=
  match i with
  | some i => updSlot i (fun x => { x with count := f x.count }) s
  | none => s

/-- Counts some converted elements in a slot. -/
def watchElems (i : Option Nat) (xs : List WatchElem) (s : State) : State :=
  updSlotCount i (fun c => xs.foldl countElem c) s

/-- Counts the W elements that an update stores in a slot of kind 4 (R236); whether a coalesced element was not zero, and
that a slice was applied, are what its zero streak asks (R243). -/
def watchStores (i : Option Nat) (xs : List WatchElem) (gradNonzero : Bool) (s : State) : State :=
  updSlotCount i (fun c => { xs.foldl countElem c with applied := true, nonzero := c.nonzero || gradNonzero }) s

/-- Bytes of a stored tensor (R47, R50, R54, R60, R390). -/
def storedBytes (format rows cols : Nat) : Nat :=
  if format = 0 then 4 * rows * cols
  else if format = 1 || format = 2 then 2 * rows * cols
  else if format = 3 then 3 * rows * cols
  else if format = 4 then ceilDiv rows 64 * ceilDiv cols 64 * 4288
  else rows * cols

/-- The slot of the declared tensor whose bytes hold an address: the tensor that a pooled output is written into. -/
def watchSlotAt (s : State) (a : Nat) : Option Nat :=
  match s.tensors.find? fun t => decide (t.addr ≤ a) && decide (a < t.addr + storedBytes t.format t.rows t.cols) with
  | some t => watchSlotOf s false 0 t.number
  | none => none

/-! ## Scale history (R240 to R242) -/

/-- Whether a slot has a scale history: a K8 tensor of kind 1 or 2. -/
def hasHistory (s : State) (x : WatchSlot) : Bool :=
  !x.target.isTable && (x.target.kind == 1 || x.target.kind == 2) &&
    (s.tensors.any fun t => t.number == x.target.target && t.format == 4)

def scaleWindow (s : State) : Nat := setting s E.SCALE_WINDOW

def windowMax (x : WatchSlot) : W32 := x.window.foldl (fun m a => if m.toNat < a.toNat then a else m) 0

/-- R72, R73: the tile exponent that a slot's history gives; none while it has no history of W steps. -/
def delayedExp (s : State) (x : WatchSlot) : Option Nat :=
  if hasHistory s x && x.begun && decide (scaleWindow s ≤ x.added) then
    some (tileExponent (f32val (windowMax x)) (setting s E.SCALE_MARGIN))
  else none

/-- R241: empties a slot's history. -/
def emptyHistory (x : WatchSlot) : WatchSlot :=
  { x with window := [], begun := false, added := 0, scale := none, resetAsked := false, resetDue := true }

/-- (N, OPEN): requested resets take effect, and T of each delayed slot is fixed. -/
def watchOpen (s : State) : State :=
  let n := (s.watch.slots.filter fun x => x.resetAsked && hasHistory s x).length
  let s := countN E.HISTORY_RESETS n s
  let slots := s.watch.slots.map fun x =>
    let x := if x.resetAsked then (if hasHistory s x then emptyHistory x else { x with resetAsked := false }) else x
    { x with scale := delayedExp s x }
  setWatch { s.watch with slots := slots } s

/-- R241: a write of WATCH_HISTORY_RESET. -/
def askHistoryReset (id : Nat) (s : State) : State :=
  setWatch { s.watch with slots := (s.watch.slots.zip (upto s.watch.slots.length)).map fun p =>
    if id = 0xFFFF || p.2 = id then { p.1 with resetAsked := true } else p.1 } s

/-- R240: the entry of step N, for a history that has begun. -/
def addEntry (s : State) (x : WatchSlot) : WatchSlot :=
  if hasHistory s x && (x.begun || decide (0 < x.count.elements)) then
    { x with begun := true, window := (x.count.amax :: x.window).take (scaleWindow s), added := min (x.added + 1) (scaleWindow s) }
  else x

/-- R242: whether a slot is trimmed. -/
def trimDue (s : State) (x : WatchSlot) : Bool :=
  let share := setting s E.UNDERFLOW_TRIM_SHARE
  hasHistory s x && !x.resetAsked && decide (0 < x.count.pinned) && share != 0 &&
    decide (share * x.count.elements ≤ x.count.underflows * 65536)

/-! ## Zero streaks (R243 to R245) -/

/-- R243: whether a step is a non-zero step of a slot. -/
def nonzeroStep (x : WatchSlot) : Bool :=
  x.count.nonzero && (x.target.kind == 2 || (x.target.kind == 4 && x.count.applied))

/-- The streak after a step. -/
def streakAfter (x : WatchSlot) : Nat :=
  let up := min (x.streak + 1) 65535
  if x.target.kind = 2 then (if x.count.nonzero then 0 else up)
  else if x.target.kind = 4 then
    (if !x.count.applied then x.streak else if x.count.nonzero then 0 else up)
  else 0

/-! ## Records (R251 to R254) -/

/-- The flags of a record. -/
def recordFlags (x : WatchSlot) (z : Nat) (trimmed lost : Bool) : Nat :=
  b2n (z != 0 && decide (z ≤ x.streak)) + 2 * b2n (decide (0 < x.count.proofOver)) + 4 * b2n x.count.saturated
    + 8 * b2n x.count.jit + 16 * b2n lost + 32 * b2n x.resetDue + 64 * b2n trimmed + 128 * b2n (x.count.elements == 0)

/-- A watch record. -/
def watchRecord (step id flags tileExp nextExp seq : Nat) (x : WatchSlot) : Bytes :=
  let c := x.count
  natLe 64 (step % 2 ^ 64 + id * 2 ^ 64 + x.target.kind * 2 ^ 76 + flags * 2 ^ 80 + tileExp * 2 ^ 88 + c.elements * 2 ^ 96
    + min c.replays 255 * 2 ^ 136 + c.overflows * 2 ^ 144 + c.underflows * 2 ^ 176 + c.subnormals * 2 ^ 208
    + c.nonfinite * 2 ^ 240 + c.amax.toNat * 2 ^ 272 + c.sqerr * 2 ^ 304 + x.streak * 2 ^ 368 + nextExp * 2 ^ 384
    + c.proofMax * 2 ^ 392 + min c.proofTiles 65535 * 2 ^ 400 + min c.proofOver 65535 * 2 ^ 416
    + min c.pinned 65535 * 2 ^ 432 + seq % 2 ^ 32 * 2 ^ 448)

/-- R254: the next record of a step goes into the ring, or it and the later ones are dropped. -/
def putRecord (r : Nat → Bool → Bytes) (dropping : Bool) (s : State) : Bool × State :=
  if dropping || decide (s.plan.ringRecords ≤ s.watch.head - s.watch.tail) then
    (true, raiseOnceRun 0x0433 s.watch.head (count E.WATCH_RECORDS_LOST (setWatch { s.watch with lost := true } s)))
  else
    let h := s.watch.head
    let b := r h s.watch.lost
    let s := setWatch { s.watch with head := h + 1, lost := false } s
    (false, count E.WATCH_RECORDS_WRITTEN (writeRange (s.plan.ringAddr + h % s.plan.ringRecords * 64) b false s))

/-- (N, COMMIT) of one slot: history, trim, streak, alarm, record.  The Bool says that records of the step are dropped. -/
def commitSlot (step id : Nat) (x : WatchSlot) (dropping : Bool) (s : State) : Bool × State :=
  let y := addEntry s x
  let trim := trimDue s y
  let y := if trim then { y with window := y.window.map fun _ => x.count.amax } else y
  let s := whenS trim (count E.SCALE_TRIMS) s
  let z := setting s E.ZERO_STREAK_LIMIT
  let k := streakAfter y
  let equal := z != 0 && k == z && x.streak != z
  let alarm := equal && !x.alarmed
  let y := { y with streak := k, alarmed := (x.alarmed && !(nonzeroStep x)) || alarm }
  let s := whenS alarm (fun s =>
    let s := raise 0x0431 id (count E.ZERO_STREAK_ALARMS s)
    if setting s E.ZERO_STREAK_ACTION = 1 then { s with holds := { s.holds with streak := true } } else s) s
  let p := setting s E.WATCH_RECORD_PERIOD
  let flags0 := recordFlags y z trim false
  let make := (p != 0 && step % p == 0) || bits flags0 0 3 != 0 || bits flags0 5 2 != 0 || equal
  let next := if y.resetAsked then 0 else (delayedExp s y).getD 0
  let d := if make then
      putRecord (fun h lost => watchRecord step id (recordFlags y z trim lost) (x.scale.getD 0) next h y) dropping s
    else (dropping, s)
  let y := { y with count := {}, resetDue := y.resetDue && !make, lastRecord := if make then step else y.lastRecord }
  (d.1, updSlot id (fun _ => y) d.2)

/-- (N, COMMIT) of every slot, in ascending WATCH_ID. -/
def watchCommit (step : Nat) (s : State) : State :=
  ((s.watch.slots.zip (upto s.watch.slots.length)).foldl (fun (p : Bool × State) x => commitSlot step x.2 x.1 p.1 p.2) (false, s)).2

/-- R254: a write of WATCH_RING_TAIL; false when it is refused. -/
def writeTail (v : Nat) (s : State) : Bool × State :=
  if decide (s.watch.head < v) || decide (v < s.watch.tail) then (false, s)
  else (true, setWatch { s.watch with tail := v } s)

/-- R245: WATCH_RESUME. -/
def resumeStreaks (s : State) : State :=
  let z := setting s E.ZERO_STREAK_LIMIT
  let s := setWatch { s.watch with slots := s.watch.slots.map fun x =>
    if z ≤ x.streak then { x with streak := 0 } else x } s
  { s with holds := { s.holds with streak := false } }

/-! ## At LOAD (R233, R241, R250) -/

/-- A slot as LOAD makes it. -/
def newSlot (t : WatchTarget) : WatchSlot :=
  { target := t, window := [], begun := false, added := 0, scale := none, streak := 0, alarmed := false, resetAsked := false
    resetDue := false, lastRecord := 0, count := {} }

/-- The counters that LOAD empties (R250). -/
def proofCounters : List Nat :=
  (upto 32).map (fun i => E.PROOF_BIN + i) ++
    [E.PROOF_TILES_CHECKED, E.PROOF_TILES_SKIPPED, E.PROOF_EXCEEDED, E.ZERO_STREAK_ALARMS, E.SCALE_TRIMS, E.HISTORY_RESETS,
     E.WATCH_RECORDS_WRITTEN, E.WATCH_RECORDS_LOST]

def watchLoad (ts : List WatchTarget) (s : State) : State :=
  let s := forEach proofCounters (fun k => setReg k 0) s
  let slots := ts.map fun t =>
    let x := newSlot t
    if hasHistory s x then emptyHistory x else x
  countN E.HISTORY_RESETS (slots.filter fun x => x.resetDue).length (setWatch { slots := slots } s)

end Sys2Proof.Machine
end

