-- ==== Sys2Proof/Machine/Gather.lean ====
section
/-!
DEFINITION. Gather and pooling (R111 to R121, R382, R427) and the Lookahead (R122 to R125): index runs at a gathering
module, region partials, band partials, outputs at the home module.
-/
namespace Sys2Proof.Machine

/-! ## Rounding -/

/-- An F32 result of an exact value, with its counts. -/
def f32enc (mode : Mode) (g : Nat) (v : ExactNum) : W32 × Tally :=
  let c := scalarEncode fmtF32 32 mode g false v
  (BitVec.ofNat 32 c.1, c.2)

/-- One addition of R117, R119, R120, R138, R328: the exact sum rounded once with SRD; an exact zero sum is +0. -/
def srdAdd (g : Nat) (acc : W32) (x : ExactNum) : W32 × Tally :=
  let v := numAdd (f32val acc) x
  if numIsZero v then (f32zero, {}) else f32enc .srd g v

/-- Sixteen additions, element by element; `g e` is the draw of element e. -/
def srdAdd16 (g : Nat → Nat) (acc : List W32) (x : List ExactNum) : List W32 × Tally :=
  tallyAll (((acc.zip x).zip (upto 16)).map fun p => srdAdd (g p.2) p.1.1 p.1.2)

def zeros16 : List W32 := List.replicate 16 f32zero

/-- The coordinates of element e of a local slice, with a row input. -/
def elemAt (s : State) (ts : TableSet) (d : TableDecl) (step row variant slice e : Nat) : GrainAt :=
  ⟨s.plan.seed, step, row, sliceColumn s d slice + e, d.table, variant, ts.number⟩

/-- R70: the next SR draw of a unit. -/
def srNext (coord : Nat) (s : State) : Nat × State :=
  let n := sget 0 s.rowEng.draws coord
  (srDraw s.plan.seed n coord, { s with rowEng := { s.rowEng with draws := sput 0 s.rowEng.draws coord (n + 1) } })

/-! ## Index runs at a gathering module (R110, R130, R326) -/

/-- The occurrences of the entries of an INDEX_RUN body; rows outside this module's band are left out. -/
def runOccs (s : State) (step set table sender : Nat) (d : TableDecl) :
    Nat → Bytes → Nat → Nat → Nat → List Occ
  | 0, _, _, _, _ => []
  | n + 1, b, bag, variant, left =>
    let e := b.take 16
    if e.length < 16 then []
    else if left = 0 then runOccs s step set table sender d n (b.drop 16) (field e 0 8) (field e 12 2 % 1024) (field e 8 4)
    else
      let row := field e 0 5
      let rest := runOccs s step set table sender d n (b.drop 16) bag variant (left - 1)
      if inMyBand s d row then
        { step := step, set := set, table := table, row := row, variant := variant, bag := bag, position := field e 8 4
          weight := BitVec.ofNat 32 (field e 12 4), home := sender, partner := false } :: rest
      else rest

def msgOccs (s : State) (b : Bytes) : List Occ :=
  let set := field b 8 1
  let table := field b 10 2
  match (tableSet s set).bind fun ts => tableOf ts table with
  | some d => runOccs s (field b 0 8) set table (field b 20 2 % 8192) d (b.length / 16) (b.drop 32) 0 0 0
  | none => []

/-- Order of occurrences: bag number, then the set of a bag, then bag position (R115). -/
def occLe (a b : Occ) : Bool :=
  decide (a.bag < b.bag) || (a.bag == b.bag && (decide (a.set < b.set) || (a.set == b.set && decide (a.position ≤ b.position))))

def sortOccs (l : List Occ) : List Occ := l.mergeSort occLe

/-- Keys (set, table, row, variant) in ascending order. -/
def keyLe (a b : Nat × Nat × Nat × Nat) : Bool :=
  decide (a.1 < b.1) || (a.1 == b.1 && (decide (a.2.1 < b.2.1) || (a.2.1 == b.2.1 &&
    (decide (a.2.2.1 < b.2.2.1) || (a.2.2.1 == b.2.2.1 && decide (a.2.2.2 ≤ b.2.2.2))))))

def occKey (o : Occ) : Nat × Nat × Nat × Nat := (o.set, o.table, o.row, o.variant)

/-- The home group of an occurrence. -/
def occRegion (s : State) (o : Occ) : Nat :=
  match (tableSet s o.set).bind fun ts => tableOf ts o.table with
  | some d => homeGroup s d o.row
  | none => 0

/-- The occurrences of a step that this module's own index runs brought. -/
def ownOccs (s : State) (step : Nat) : List Occ := s.step.occs.filter fun o => o.step == step && !o.partner

/-- R113: the gather plan of a region: distinct keys in ascending order. -/
def gatherPlan (s : State) (g step : Nat) : List (Nat × Nat × Nat × Nat) :=
  (((ownOccs s step).filter fun o => occRegion s o == g).map occKey).eraseDups.mergeSort keyLe

/-! ## Region partials (R114 to R118) -/

/-- A region's gather buffer while it pools: the records in it, its bytes, every record fetched so far. -/
structure Buf where
  cur : List Nat := []
  used : Nat := 0
  ever : List Nat := []
  deriving DecidableEq, Repr

def bufEntry (mode : Nat) : Nat := if isCompat mode then 128 else 64
def fwdSectors (mode : Nat) : Nat := if isCompat mode then 2 else 1
def bufCap (s : State) : Nat := setting s E.GATHER_BUFFER_KIB * 1024

/-- Whether a record lies in a pinned table's fast copy. -/
def isPinnedCopy (s : State) (home : Nat) : Bool := pinnedTwin s home != home

/-- R114, R115: a record comes to the buffer; the answer says whether it was there. -/
def bufFetch (home mode : Nat) (b : Buf) (s : State) : (Bool × Buf) × State :=
  if b.cur.contains home then ((true, b), s)
  else
    let size := bufEntry mode
    let n := fwdSectors mode
    let s := if (cachedAt s home).isSome then countN E.SECTOR_READS_CACHED n s
      else if isPinnedCopy s home then s else countN E.SECTOR_READS_COLD n s
    let s := whenS (b.ever.contains home) (count E.BUFFER_REFETCHES) s
    let b : Buf := { cur := home :: b.cur, used := b.used + size, ever := if b.ever.contains home then b.ever else home :: b.ever }
    ((false, b), s)

/-- One occurrence and local slice (R116, R117). -/
def poolSlice (g : Nat) (ts : TableSet) (d : TableDecl) (o : Occ) (j : Nat) (acc : List W32) (b : Buf) (s : State) :
    (List W32 × Buf) × State :=
  let home := (resolve s ts d o.row o.variant j).1
  let f := bufFetch home ts.mode b s
  let r := readRecord home 0 (fwdSectors ts.mode) f.2
  let s := r.2
  if r.1.2.any markPoison then
    ((acc, f.1.2), raiseOnceRun 0x0515 (unitCoord s (g / 4) (g % 4) 1 0) (count E.POISON_DROPS s))
  else
    let w := f32val o.weight
    let xs := (weightsOf ts.mode r.1.1).map (numMul w)
    let a := srdAdd16 (fun e => srdDraw .poolAdd (elemAt s ts d o.step o.bag o.variant j e) o.position) acc xs
    ((a.1, f.1.2), whenS f.1.1 (count E.MULTICAST_ADDS) (count E.INDICES_POOLED (countTally a.2 s)))

/-- Every local slice of one occurrence. -/
def poolOcc (g : Nat) (ts : TableSet) (d : TableDecl) (o : Occ) :
    Nat → List (List W32) → Buf → State → (List (List W32) × Buf) × State
  | _, [], b, s => (([], b), s)
  | j, acc :: rest, b, s =>
    let r := poolSlice g ts d o j acc b s
    let q := poolOcc g ts d o (j + 1) rest r.1.2 r.2
    ((r.1.1 :: q.1.1, q.1.2), q.2)

/-- The records of some occurrences in a region. -/
def bagRecords (s : State) (ts : TableSet) (d : TableDecl) (os : List Occ) : List Nat :=
  (os.flatMap fun o => (upto (localSlices s d)).map fun j => (resolve s ts d o.row o.variant j).1).eraseDups

/-- R115: room for the records of what is pooled next: the buffer is emptied when they do not fit beside what it holds. -/
def makeRoom (mode : Nat) (records : List Nat) (b : Buf) (s : State) : Buf :=
  let fresh := records.filter fun a => !(b.cur.contains a)
  if !(b.cur.isEmpty) && decide (bufCap s < b.used + bufEntry mode * fresh.length) then { b with cur := [], used := 0 } else b

/-- The occurrences of a bag in ascending position; one whose records do not fit begins a further part (R115). -/
def poolOccs (g : Nat) (ts : TableSet) (d : TableDecl) :
    List Occ → List (List W32) → Buf → State → (List (List W32) × Buf) × State
  | [], accs, b, s => ((accs, b), s)
  | o :: rest, accs, b, s =>
    let r := poolOcc g ts d o 0 accs (makeRoom ts.mode (bagRecords s ts d [o]) b s) s
    poolOccs g ts d rest r.1.1 r.1.2 r.2

/-- The region partials of one bag: R115's chunk boundary, then its occurrences in ascending bag position. -/
def poolBag (g : Nat) (ts : TableSet) (d : TableDecl) (os : List Occ) (b : Buf) (s : State) :
    (List (List W32) × Buf) × State :=
  let s := forEach os (fun o s => resolveReads ts d o.row o.variant s) s
  poolOccs g ts d os (List.replicate (localSlices s d) zeros16) (makeRoom ts.mode (bagRecords s ts d os) b s) s

/-- A bag that a module pools: its set, number, table, variant and home module. -/
structure PoolKey where
  set : Nat
  bag : Nat
  table : Nat
  variant : Nat
  home : Nat
  deriving DecidableEq, Repr

def poolKey (o : Occ) : PoolKey := ⟨o.set, o.bag, o.table, o.variant, o.home⟩

/-- The region partials of every bag of a list of keys: (key, partials). -/
def regionPool (g : Nat) (os : List Occ) : List PoolKey → Buf → State → (List (PoolKey × List (List W32)) × Buf) × State
  | [], b, s => (([], b), s)
  | k :: rest, b, s =>
    let mine := os.filter fun o => poolKey o == k
    match (tableSet s k.set).bind fun ts => (tableOf ts k.table).map fun d => (ts, d) with
    | some td =>
      if mine.isEmpty then regionPool g os rest b s
      else
        let r := poolBag g td.1 td.2 mine b s
        let q := regionPool g os rest r.1.2 r.2
        (((k, r.1.1) :: q.1.1, q.1.2), q.2)
    | none => regionPool g os rest b s

/-! ## Band partials (R119, R120) -/

/-- R119: the sums of one slice's region partials, then of its die sums, in their fixed order. -/
def combineList (g : Nat → Nat → Nat) : List (List W32 × Nat) → List W32 → List W32 × Tally
  | [], acc => (acc, {})
  | (x, ord) :: rest, acc =>
    let a := srdAdd16 (fun e => g e ord) acc (x.map f32val)
    let r := combineList g rest a.1
    (r.1, tallyAdd a.2 r.2)

/-- The band partial of one local slice from the partials of the sixteen regions. -/
def bandSlice (s : State) (ts : TableSet) (d : TableDecl) (step bag variant j : Nat) (part : Nat → List W32) : List W32 × Tally :=
  let g (e ord : Nat) : Nat := srdDraw .combineAdd (elemAt s ts d step bag variant j e) ord
  let dies := four.map fun die => combineList g (four.map fun r => (part (4 * die + r), 4 * die + r)) zeros16
  let b := combineList g ((dies.zip four).map fun p => (p.1.1, 16 + p.2)) zeros16
  (b.1, dies.foldl (fun t x => tallyAdd t x.2) b.2)

/-- A bag's band partial: every local slice. -/
def bandOf (s : State) (step : Nat) (k : PoolKey) (parts : List (Nat × List (List W32))) : List W32 × Tally :=
  match (tableSet s k.set).bind fun ts => (tableOf ts k.table).map fun d => (ts, d) with
  | some td =>
    let r := (upto (localSlices s td.2)).map fun j => bandSlice s td.1 td.2 step k.bag k.variant j fun g =>
      match parts.find? fun p => p.1 == g with
      | some p => nthD zeros16 p.2 j
      | none => zeros16
    ((r.map Prod.fst).flatten, r.foldl (fun t x => tallyAdd t x.2) {})
  | none => ([], {})

/-- The BAND_PARTIAL body of some bags of one table. -/
def bandBody (s : State) (step set table slices : Nat) (es : List (Nat × List W32)) : Bytes :=
  natLe 8 step ++ natLe 1 set ++ natLe 1 (slices % 256) ++ natLe 2 table ++ natLe 2 (myPitch s) ++ natLe 1 (myPosition s) ++ zeros 1
    ++ natLe 4 es.length ++ zeros 12 ++ es.flatMap fun e => natLe 8 e.1 ++ zeros 8 ++ codesLe e.2

/-- Lists of at most `n` elements. -/
def chunksOf {α : Type} (n : Nat) : Nat → List α → List (List α)
  | 0, _ => []
  | f + 1, l => if l.isEmpty then [] else l.take n :: chunksOf n f (l.drop n)

/-- Sends a message to a module number, or to the member that acts for it. -/
def sendToModule (die op m step : Nat) (body : Bytes) (s : State) : State :=
  match orderOf s m with
  | some k => sendToMember die op k step body [] .nobody s
  | none => sendMsg die op m step body [] .nobody s

/-- R120: the band partials of some bags go to their home modules, one message for each home and table. -/
def sendBands (step : Nat) (bands : List (PoolKey × List W32)) (s : State) : State :=
  let heads := (bands.map fun b => (b.1.home, b.1.set, b.1.table)).eraseDups
  forEach heads (fun h s =>
    let mine := bands.filter fun b => (b.1.home, b.1.set, b.1.table) == h
    let k := (nthD [] (mine.map Prod.snd) 0).length / 16
    let n := (1048608 - 32) / (16 + 64 * k)
    forEach (chunksOf n mine.length (mine.map fun b => (b.1.bag, b.2))) (fun es s =>
      sendToModule 0 0x11 h.1 step (bandBody s step h.2.1 h.2.2 k es) s) s) s

/-- R112 to R120: pools the bags of some occurrences and sends their band partials.  The answer is the number of
distinct records read. -/
def gatherOccs (step : Nat) (all : List Occ) (s : State) : Nat × State :=
  let os := sortOccs all
  let keys := (os.map poolKey).eraseDups
  let go := sixteen.foldl (fun (p : (List (Nat × PoolKey × List (List W32)) × Nat) × State) g =>
    let mine := os.filter fun o => occRegion p.2 o == g
    let ks := keys.filter fun k => mine.any fun o => poolKey o == k
    let r := regionPool g mine ks {} p.2
    ((p.1.1 ++ r.1.1.map fun x => (g, x.1, x.2), p.1.2 + r.1.2.ever.length), r.2)) (([], 0), s)
  let s := go.2
  let bands := keys.map fun k => (k, bandOf s step k ((go.1.1.filter fun x => x.2.1 == k).map fun x => (x.1, x.2.2)))
  let s := countTally (bands.foldl (fun t b => tallyAdd t b.2.2) {}) s
  (go.1.2, sendBands step (bands.map fun b => (b.1, b.2.1)) s)

/-! ## Outputs at the home module (R109, R120, R121, R381, R382) -/

/-- The GATHER_POOL binding of a set in force for a step. -/
def poolBinding (s : State) (set step : Nat) : Option PoolBinding :=
  (s.step.poolBindings.filter fun b => b.set == set && decide (b.fromStep ≤ step)).getLast?

/-- Bytes of an output element. -/
def outBytes (format : Nat) : Nat := if format = 0 then 4 else 2

/-- R382: whether a segment's output is left unwritten. -/
def outputOverflows (bt : Batch) (b : PoolBinding) (d : TableDecl) : Bool :=
  decide (b.tableStride < bt.samples * d.width * outBytes b.format)

/-- The pitches that send a band partial of a bag. -/
def bagPitches (s : State) (d : TableDecl) (g : Bag) : List Nat :=
  (upto s.plan.n).filter fun p => g.indices.any fun i => pitchOfRow s d i.2.1 == p

/-- R121: one element converted to the output format. -/
def outElement (b : PoolBinding) (g : Nat) (slot : Option Nat) (at_ : GrainAt) (v : W32) (s : State) : Bytes × State :=
  if b.format = 0 then (natLe 4 v.toNat, watchElems slot [watchScalar fmtF32 32 .rz 0 (f32val v) (v.toNat, {})] s)
  else
    let code := match b.round with
      | some m => m
      | none => setting s E.ACT_ROUND
    let mode := (modeOfCode code).getD .rne
    let d : Nat × State := match mode with
      | .sr => srNext (unitCoord s (g / 4) (g % 4) 2 8) s
      | .srd => (srdDraw .actConvert at_ 0, s)
      | _ => (0, s)
    let f := if b.format = 1 then fmtF16 else fmtD16
    let c := scalarEncode f 16 mode d.1 (setting d.2 E.OVERFLOW_MODE == 1) (f32val v)
    (natLe 2 c.1, watchElems slot [watchScalar f 16 mode d.1 (f32val v) c] (countTally c.2 d.2))

def outElements (b : PoolBinding) (g : Nat) (slot : Option Nat) : List (GrainAt × W32) → State → Bytes × State
  | [], s => ([], s)
  | x :: rest, s =>
    let e := outElement b g slot x.1 x.2 s
    let r := outElements b g slot rest e.2
    (e.1 ++ r.1, r.2)

/-- The combined slices of a bag at one pitch position, in ascending pitch (R120). -/
def combineBag (s : State) (ts : TableSet) (d : TableDecl) (step bag variant position : Nat) (parts : List BandPart) :
    List (GrainAt × W32) × Tally :=
  let ps := (parts.filter fun p => p.position == position).mergeSort fun a b => decide (a.pitch ≤ b.pitch)
  let r := (upto (localSlices s d)).map fun j =>
    let col := (position * localSlices s d + j) * 16
    let at_ (e : Nat) : GrainAt := ⟨s.plan.seed, step, bag, col + e, d.table, variant, ts.number⟩
    let c := combineList (fun e ord => srdDraw .combineAdd (at_ e) ord)
      (ps.map fun p => (((p.values.drop (16 * j)).take 16), 20 + p.pitch)) zeros16
    ((c.1.zip (upto 16)).map fun x => (at_ x.2, x.1), c.2)
  ((r.map Prod.fst).flatten, r.foldl (fun t x => tallyAdd t x.2) {})

/-- Whether the point of a step has reached its GATHER. -/
def pastGather (s : State) (step : Nat) : Bool := decide (axisOf step 1 ≤ axis s)

/-- Writes one bag's output when every band partial of it has arrived, and frees them. -/
def tryBag (bt : Batch) (g : Bag) (s : State) : State :=
  let bag := bagNumber bt.firstSample g.sample g.table
  match poolBinding s bt.tableSet bt.step, (tableSet s bt.tableSet).bind fun ts => (tableOf ts g.table).map fun d => (ts, d) with
  | some b, some td =>
    let d := td.2
    let parts := s.step.parts.filter fun p => p.step == bt.step && p.set == bt.tableSet && p.bag == bag
    let have_ (pitch pos : Nat) : Bool := parts.any fun p => p.pitch == pitch && p.position == pos
    let complete := (bagPitches s d g).all fun i => (upto s.plan.p).all fun p => have_ i p
    if !bt.home || !(pastGather s bt.step) || outputOverflows bt b d || s.step.written.contains (bt.step, bt.tableSet, bag) || !complete then s
    else
      let cs := (upto s.plan.p).map fun p => combineBag s td.1 d bt.step bag g.variant p parts
      let s := countTally (cs.foldl (fun t c => tallyAdd t c.2) {}) s
      let a := b.outAddr + bt.step % b.slots * b.slotBytes + g.table * b.tableStride + g.sample * d.width * outBytes b.format
      let o := outElements b (bag % 16) (watchSlotAt s a) (cs.map Prod.fst).flatten s
      -- R392: the loaded run plan image is not written
      let s := if touchesImage o.2 (addrDie a) (addrOff a) o.1.length then o.2 else writeRange a o.1 false o.2
      { s with step := { s.step with
          parts := s.step.parts.filter fun p => !(p.step == bt.step && p.set == bt.tableSet && p.bag == bag)
          written := (bt.step, bt.tableSet, bag) :: s.step.written } }
  | _, _ => s

/-- The accepted batches of a step that this module is a home module for (R111). -/
def stepBatches (s : State) (step : Nat) : List Batch := s.step.batches.filter fun b => b.step == step && b.home

/-- R382 at (N, GATHER), and the outputs that can already be written. -/
def homeGather (step : Nat) (s : State) : State :=
  forEach (stepBatches s step) (fun bt s =>
    match poolBinding s bt.tableSet step with
    | none =>
      let s := raiseOnceRun 0x0205 bt.tableSet (count E.POOL_UNBOUND_BATCHES s)
      { s with step := { s.step with parts := s.step.parts.filter fun p => !(p.step == step && p.set == bt.tableSet) } }
    | some b =>
      let overV := bt.segments.filter fun t => match (tableSet s bt.tableSet).bind fun ts => tableOf ts t with
        | some d => outputOverflows bt b d
        | none => false
      let s := forEach overV (fun t s => raiseOnceRun 0x0207 t (count E.POOL_OUTPUT_OVERFLOWS s)) s
      forEach bt.bags (tryBag bt) s) s

/-- Whether every output of a batch is written, or counts as written (R361, R382). -/
def outputsDone (s : State) (bt : Batch) : Bool :=
  match poolBinding s bt.tableSet bt.step with
  | none => pastGather s bt.step
  | some b => pastGather s bt.step && bt.bags.all fun g =>
    s.step.written.contains (bt.step, bt.tableSet, bagNumber bt.firstSample g.sample g.table)
      || match (tableSet s bt.tableSet).bind fun ts => tableOf ts g.table with
        | some d => outputOverflows bt b d
        | none => true

/-- Whether R382 left an output of a batch unwritten. -/
def outputsMissing (s : State) (bt : Batch) : Bool :=
  match poolBinding s bt.tableSet bt.step with
  | none => true
  | some b => bt.segments.any fun t => match (tableSet s bt.tableSet).bind fun ts => tableOf ts t with
    | some d => outputOverflows bt b d
    | none => true

/-- R427: publishes the outputs of the current step of a table set. -/
def feedPublish (set : Nat) (s : State) : State :=
  let n := curStep s
  match batchOf s set n, feedBinding s set n with
  | some bt, some f =>
    if !(serves s) || !bt.home || !f.exportEn || !(outputsDone s bt) || s.step.published.any fun p => p.1 == set && p.2.1 == n then s
    else
      let r := f.exportRing
      let g := ring s r
      let fits := match poolBinding s set n with
        | some b =>
          let a := b.outAddr + n % b.slots * b.slotBytes
          decide (g.backing ≤ a) && decide (a + b.slotBytes ≤ g.backing + g.apertureBytes)
        | none => true
      let s := { s with step := { s.step with published := (set, n, fits) :: s.step.published } }
      if fits && g.state == .active then
        updRing r (fun g => { g with readyStep := n, incomplete := outputsMissing s bt }) s
      else raiseOnceRun 0x0113 set (count E.FEED_EXPORT_UNMAPPED s)
  | _, _ => s

/-- Whether every set of the step that publishes has done so. -/
def allPublished (s : State) (step : Nat) : Bool :=
  (stepBatches s step).all fun bt =>
    match feedBinding s bt.tableSet step with
    | some f => !f.exportEn || s.step.published.any fun p => p.1 == bt.tableSet && p.2.1 == step
    | none => true

/-! ## Staging of band partials (R329) -/

/-- Bytes of the staging area of a region. -/
def stagingBytes (s : State) : Nat := s.plan.stagingKib * 1024

def gradMsgBytes (m : GradMsg) : Nat := 64 + m.samples * m.slices * gradSliceBytes m.format

/-- R324: the staging that the messages being assembled at a region, and those not yet looked at, will take. -/
def stagingPromised (s : State) (region : Nat) : Nat :=
  let staged (op : Nat) : Bool := decide (0x11 ≤ op) && decide (op ≤ 0x13)
  ((s.fabric.assembling.filter fun a => a.region == region && staged a.op).map fun a => a.bytes).sum
    + ((s.fabric.delivered.filter fun m => m.region == region && staged m.op).map fun m => m.body.length).sum

/-- What a region's staging area holds: gradient messages, band partials and shard partials. -/
def stagingUsed (s : State) (region : Nat) : Nat :=
  stagingPromised s region + ((s.step.staged.filter fun x => x.region == region).map fun x => gradMsgBytes x.msg).sum
    + ((s.step.parts.filter fun p => p.region == region).map fun p => 16 + 4 * p.values.length).sum
    + ((s.step.shardParts.filter fun p => p.region == region).map fun p => 32 + 4 * p.values.length).sum

/-- R142, R329: whether a message of `n` bytes is admitted; the next in order always is. -/
def admits (s : State) (region n : Nat) (isNext : Bool) : Bool :=
  isNext || decide (stagingUsed s region + n ≤ stagingBytes s)

/-- The entries of a BAND_PARTIAL body; SLICES 0 stands for 256 slices, which its eight bits cannot say otherwise. -/
def bandEntries (b : Bytes) : List (Nat × List W32) :=
  let k := if field b 9 1 = 0 then 256 else field b 9 1
  (upto (field b 16 4)).map fun i =>
    let e := slice b (32 + i * (16 + 64 * k)) (16 + 64 * k)
    (field e 0 8, codesOf (e.drop 16))

/-- Whether a band partial of a bag from a pitch and position has been taken. -/
def hasPart (s : State) (step set bag pitch position : Nat) : Bool :=
  s.step.written.contains (step, set, bag) || s.step.parts.any fun p =>
    p.step == step && p.set == set && p.bag == bag && p.pitch == pitch && p.position == position

/-- Whether no band partial that a set's batch still waits for precedes (bag, pitch). -/
def nextPart (s : State) (bt : Batch) (bag pitch position : Nat) : Bool :=
  bt.bags.all fun g =>
    let n := bagNumber bt.firstSample g.sample g.table
    if bag < n then true
    else match (tableSet s bt.tableSet).bind fun ts => tableOf ts g.table with
      | some d => (bagPitches s d g).all fun i =>
          if n = bag && pitch ≤ i then true
          else (upto s.plan.p).all fun p => hasPart s bt.step bt.tableSet n i p || (n == bag && i == pitch && p == position)
      | none => true

/-- BAND_PARTIAL: the entries of a message go to the combining regions; the first of each (bag, pitch, position) counts
(R451).  The answer is a status. -/
def takeBands (m : Msg) (s : State) : Nat × State :=
  let b := m.body
  let step := field b 0 8
  let set := field b 8 1
  let pitch := field b 12 2
  let position := field b 14 1
  let es := bandEntries b
  let bt := batchOf s set step
  let isNext := match bt, es with
    | some t, e :: _ => nextPart s t e.1 pitch position
    | _, _ => false
  match bt with
  | none => (0, s)
  | some t =>
    if pastGather s step && (poolBinding s set step).isNone then (0, s)
    else if !(admits s m.region b.length isNext) then (0x0811, count E.STAGING_RETRIES s)
    else
      let fresh := es.filter fun e => !(hasPart s step set e.1 pitch position)
      let s := { s with step := { s.step with parts := s.step.parts ++ fresh.map fun e =>
        { step := step, set := set, table := bagTable e.1, bag := e.1, pitch := pitch, position := position
          region := m.region, values := e.2 } } }
      (0, forEach (t.bags.filter fun g => fresh.any fun e => e.1 == bagNumber t.firstSample g.sample g.table) (tryBag t) s)

/-! ## Lookahead (R122 to R125) -/

/-- The records of a plan in plan order: home address, key, local slice and numeric mode.  Records of pinned tables are
in the fast tier already (R93). -/
def planRecords (s : State) (plan : List (Nat × Nat × Nat × Nat)) : List (Nat × (Nat × Nat × Nat × Nat) × Nat × Nat) :=
  plan.flatMap fun k =>
    match (tableSet s k.1).bind fun ts => (tableOf ts k.2.1).map fun d => (ts, d) with
    | some td => (upto (localSlices s td.2)).map fun j => ((resolve s td.1 td.2 k.2.2.1 k.2.2.2 j).1, k, j, td.1.mode)
    | none => []

/-- Whether a region's cache has room for one more record. -/
def cacheRoom (s : State) (g mode : Nat) : Bool := (cacheSlot s g mode).isSome

/-- The order of eviction: last needed in the earliest step, then ascending key. -/
def evictLe (a b : Cached) : Bool :=
  decide (a.lastStep < b.lastStep) || (a.lastStep == b.lastStep &&
    (keyLe (a.set, a.table, a.row, a.variant) (b.set, b.table, b.row, b.variant)
      && (!((a.set, a.table, a.row, a.variant) == (b.set, b.table, b.row, b.variant)) || decide (a.slice ≤ b.slice))))

/-- Evicts evictable records, in order, until there is room for one record. -/
def evictFor (g mode : Nat) : List Cached → State → List Cached × State
  | [], s => ([], s)
  | c :: rest, s =>
    if cacheRoom s g mode then (c :: rest, s)
    else evictFor g mode rest (count E.LA_RECORDS_EVICTED (dropCached c (countWriteback c s)))

/-- Stage 3 and 4 of R122: fetches missing records, evicting as space is needed; stops when nothing more can be evicted. -/
def prefetch (g step : Nat) : List (Nat × (Nat × Nat × Nat × Nat) × Nat × Nat) → List Cached → State → State
  | [], _, s => s
  | x :: rest, ev, s =>
    if (cachedAt s x.1).isSome || isPinnedCopy s x.1 then prefetch g step rest ev s
    else
      let r := evictFor g x.2.2.2 ev s
      let s := r.2
      match cacheSlot s g x.2.2.2 with
      | some p =>
        let k := x.2.1
        prefetch g step rest r.1
          (count E.LA_RECORDS_FETCHED (fillCache g x.1 k.1 k.2.1 k.2.2.1 k.2.2.2 x.2.2.1 x.2.2.2 step p s))
      | none => count E.LA_CACHE_FULL_STEPS { s with place := { s.place with stopped := g :: s.place.stopped } }

/-- The directory reads of a gather plan. -/
def planReads (plan : List (Nat × Nat × Nat × Nat)) (s : State) : State :=
  forEach plan (fun k s =>
    match (tableSet s k.1).bind fun ts => (tableOf ts k.2.1).map fun d => (ts, d) with
    | some td => resolveReads td.1 td.2 k.2.2.1 k.2.2.2 s
    | none => s) s

/-- R122: the Lookahead of a region prepares step `step` while step `step − 1` runs.  A region that has stopped fetching
(R123) still takes note of the records that the two plans need. -/
def lookaheadRegion (step g : Nat) (s : State) : State :=
  let nextPlan := gatherPlan s g step
  let nowPlan := gatherPlan s g (step - 1)
  let s := planReads nowPlan (planReads nextPlan s)
  let next := planRecords s nextPlan
  let now := planRecords s nowPlan
  let inNext (a : Nat) : Bool := next.any fun x => x.1 == a
  let inNow (a : Nat) : Bool := now.any fun x => x.1 == a
  let needed (c : Cached) : Nat := if inNext c.home then step else if inNow c.home then max c.lastStep (step - 1) else c.lastStep
  let s := { s with place := { s.place with cache := s.place.cache.map fun (c : Cached) => { c with lastStep := needed c } } }
  if s.place.stopped.contains g then s
  else
    let ev := (s.place.cache.filter fun c => c.region == g && !(inNext c.home) && !(inNow c.home)).mergeSort evictLe
    prefetch g step next ev s

def lookahead (step : Nat) (s : State) : State :=
  if flagOn s E.LOOKAHEAD_ENABLE then forEach sixteen (lookaheadRegion step) s else s

/-- LA_LATE_RUNS: a run of the next step that is not prefetched counts once, however many messages bring it. -/
def noteLateRun (step set sender : Nat) (s : State) : State :=
  if s.step.lateRuns.contains (step, set, sender) then s
  else count E.LA_LATE_RUNS { s with step := { s.step with lateRuns := s.step.lateRuns ++ [(step, set, sender)] } }

/-- INDEX_RUN: the entries are retained; a run of the next step is prefetched, or too late for that; a run of the step
whose gather has been made is pooled at once (R451). -/
def takeRun (m : Msg) (s : State) : State :=
  let step := field m.body 0 8
  let known := s.step.occs
  let fresh := (msgOccs s m.body).filter fun o => !(known.any fun x =>
    !x.partner && x.step == o.step && x.set == o.set && x.bag == o.bag && x.position == o.position)
  let s := { s with step := { s.step with occs := s.step.occs ++ fresh } }
  let n := curStep s
  let st := curStation s
  if step = n && 1 ≤ st then (gatherOccs step fresh s).2
  else if step = n + 1 then
    (if st = 4 || st = 5 then noteLateRun step (field m.body 8 1) (field m.body 20 2 % 8192) s
     else if 1 ≤ st then lookahead step s else s)
  else s

/-- The Lookahead and the gather at (N, GATHER). -/
def gatherStep (step : Nat) (s : State) : State :=
  let r := gatherOccs step (ownOccs s step) s
  setReg E.LAST_PLAN_RECORDS r.1 r.2

def startLookahead (step : Nat) (s : State) : State :=
  lookahead (step + 1) { s with place := { s.place with stopped := [] } }

end Sys2Proof.Machine
end

