-- ==== Sys2Proof/Machine/Dense.lean ====
section
/-!
DEFINITION. Who leads what (R151, R158), dense shards and groups and where their records lie (R158, R159, R390), the
change map and hold area of generations (R461 to R463), and the shards of a generation (R464).
-/
namespace Sys2Proof.Machine

/-! ## Leading (R151, R158, R448, R453) -/

/-- TWIN_SIDE in force. -/
def mySide (s : State) : Nat := forced s E.TWIN_SIDE

/-- Whether this module leads what has a parity. -/
def leadsParity (s : State) (x : Nat) : Bool :=
  if isPaired s then x % 2 == mySide s else s.twin.state != .copyTarget
def leadsRow (s : State) (row : Nat) : Bool := leadsParity s row

/-! ## Dense tensors (R158) -/

def tensorOf (s : State) (n : Nat) : Option Tensor := s.tensors.find? fun t => t.number == n
def denseTensors (s : State) : List Tensor := s.tensors.filter fun t => t.cls == 4
def tensorMode (s : State) (t : Tensor) : Nat :=
  match tableSet s t.tableSet with
  | some ts => ts.mode
  | none => 0
def tensorGroups (t : Tensor) : Nat := t.rows * (t.cols / 16)

/-- One shard of the run: its number, its tensor, its first group within the tensor and its groups. -/
structure ShardRef where
  shard : Nat
  tensor : Tensor
  first : Nat
  count : Nat
  deriving DecidableEq, Repr

def shardsFrom (per : Nat) : List Tensor → Nat → List ShardRef
  | [], _ => []
  | t :: rest, n =>
    let k := ceilDiv (tensorGroups t) per
    ((upto k).map fun i => ⟨n + i, t, i * per, min per (tensorGroups t - i * per)⟩) ++ shardsFrom per rest (n + k)

def allShards (s : State) : List ShardRef := shardsFrom s.plan.shardGroups (denseTensors s) 0
def shardRef (s : State) (n : Nat) : Option ShardRef := (allShards s).find? fun x => x.shard == n

/-- R158: the position that owns a shard, whether it is this one, and the member order of its lead. -/
def shardOwner (s : State) (shard : Nat) : Nat := shard % (s.plan.n * s.plan.p)
def myPlace (s : State) : Nat := myPitch s * s.plan.p + myPosition s
def ownsShard (s : State) (shard : Nat) : Bool := shardOwner s shard == myPlace s
def shardLead (s : State) (shard : Nat) : Nat := shardOwner s shard * perPosition s + (if s.plan.paired then shard % 2 else 0)
def leadsShard (s : State) (shard : Nat) : Bool := ownsShard s shard && leadsParity s shard

/-- Row and column group of group `i` of a tensor. -/
def groupRow (t : Tensor) (i : Nat) : Nat := i / (t.cols / 16)
def groupCol (t : Tensor) (i : Nat) : Nat := i % (t.cols / 16)

/-- The owned groups in ascending (shard, group), as (shard, group of the shard). -/
def ownedGroups (s : State) (compat : Bool) : List (Nat × Nat) :=
  ((allShards s).filter fun x => ownsShard s x.shard && isCompat (tensorMode s x.tensor) == compat).flatMap fun x =>
    (upto x.count).map fun i => (x.shard, i)

/-- All owned groups in ascending (shard, group): the index that a DENSE mirror entry names. -/
def ownedAll (s : State) : List (Nat × Nat) :=
  ((allShards s).filter fun x => ownsShard s x.shard).flatMap fun x => (upto x.count).map fun i => (x.shard, i)

/-- R390: where the record of a group of an owned shard lies. -/
def denseRecord (s : State) (x : ShardRef) (i : Nat) : Nat :=
  let compat := isCompat (tensorMode s x.tensor)
  let n := ((ownedGroups s compat).findIdx? fun e => e == (x.shard, i)).getD 0
  let base := if compat then ceilDiv (ownedGroups s false).length 31 else 0
  let per := if compat then 15 else 31
  let len := if compat then 224 else 112
  s.plan.denseAddr + (base + n / per) * pageBytes + n % per * len

/-- The pages that the owned dense records take. -/
def densePages (s : State) : Nat := ceilDiv (ownedGroups s false).length 31 + ceilDiv (ownedGroups s true).length 15

/-- Bytes from the start of the dense area to the end of the last owned record (R390). -/
def denseExtent (s : State) : Nat :=
  let upTo (n per len : Nat) : Nat := (n - 1) / per * pageBytes + ((n - 1) % per + 1) * len
  let a := (ownedGroups s false).length
  let b := (ownedGroups s true).length
  if 0 < b then ceilDiv a 31 * pageBytes + upTo b 15 224 else if 0 < a then upTo a 31 112 else 0

/-- The region (die × 4 + region) of a DRAM payload address. -/
def regionOfAddr (s : State) (a : Nat) : Nat := addrDie a * 4 + (spotOf s (addrOff a)).region

/-! ## Shards of a generation (R464) -/

/-- One shard of a generation: its kind and place, its rows (or groups) with the address of their first record, and for
a table shard whether each row is present. -/
structure GenShard where
  kind : Nat
  region : Nat
  set : Nat
  table : Nat
  variant : Nat
  first : Nat
  rows : List (Nat × Nat)
  cols : Nat
  mode : Nat
  deriving DecidableEq, Repr

/-- The record slot of a table-area or overlay-pool record in its region (R461). -/
def slotOfHome (s : State) (home : Nat) : Nat :=
  let o := (spotOf s (addrOff home)).off
  let mode2 := (s.sets.filter fun t => isCompat t.mode).any fun t =>
    t.tables.any fun d => decide (d.baseGranule * granuleBytes ≤ o) && decide (o < (d.baseGranule + d.granules) * granuleBytes)
  o / pageBytes * 32 + o % pageBytes / (if mode2 then 224 else 112)

/-- The key of a record in the planes of the change map. -/
def mapKey (s : State) (home : Nat) : Nat := regionOfAddr s home * 2 ^ 32 + slotOfHome s home

/-- Bytes of one exported weight. -/
def exportBytes (mode : Nat) : Nat := if mode = 0 then 2 else 4

/-- Rows that a shard of some columns holds at most. -/
def shardRows (cols mode : Nat) : Nat := max 1 (min 4096 ((2 ^ 20 - 96) / (cols * exportBytes mode + 9)))

/-- Lists of rows cut for shards. -/
def cutRows (n : Nat) (l : List (Nat × Nat)) : List (List (Nat × Nat)) := chunksOf n (l.length + 1) l

/-- The rows of a table homed in a region, with their first record. -/
def homedList (s : State) (ts : TableSet) (d : TableDecl) (g : Nat) : List (Nat × Nat) :=
  let start := bandStart s d (myPitch s) + (g + 16 * 65536 - d.table) % 16
  (upto (homedRows s d (myPitch s) g)).map fun q => (start + 16 * q, baseRecord s ts d (start + 16 * q) 0)

/-- KIND 0 shards of a region. -/
def tableShards (s : State) (g : Nat) : List GenShard :=
  s.sets.flatMap fun ts => ts.tables.flatMap fun d =>
    let rows := homedList s ts d g
    let cols := 16 * localSlices s d
    if (rows.any fun r => leadsRow s r.1) then
      (cutRows (shardRows cols ts.mode) rows).map fun rs =>
        { kind := 0, region := g, set := ts.number, table := d.table, variant := 0, first := (nthD (0, 0) rs 0).1
          rows := rs, cols := cols, mode := ts.mode }
    else []

/-- The records of a row, given its first: local slices follow one another. -/
def rowHomesOf (s : State) (kind cols mode home : Nat) : List Nat :=
  let len := recLen mode
  let per := recsPerPage mode
  if kind = 2 then [home]
  else
    let a := addrDie home
    let o := addrOff home
    let sp := spotOf s o
    let n := recordIndex mode sp.off
    (upto (cols / 16)).map fun j =>
      modAddr a (o - sp.off + ((n + j) / per * pageBytes + (n + j) % per * len))

def rowHomes (s : State) (sh : GenShard) (home : Nat) : List Nat := rowHomesOf s sh.kind sh.cols sh.mode home

/-- KIND 1 shards of a region: the overlays that stood at the cut, of rows this module leads, in directory entry order. -/
def overlayShards (s : State) (g : Nat) (wanted : Nat → Bool) : List GenShard :=
  let es := (dirEntries s g).map Prod.snd
  s.sets.flatMap fun ts => ts.tables.flatMap fun d => (upto ts.variants).flatMap fun v =>
    let cols := 16 * localSlices s d
    let rows := (es.filter fun e => e.set == ts.number && e.table == d.table && e.variant == v && leadsRow s e.row
      && decide (e.firstStep ≤ s.gen.step)).map fun e => (e.row, overlayRecord s g ts.mode e.record 0)
    let rows := rows.filter fun r => (rowHomesOf s 1 cols ts.mode r.2).any wanted
    (cutRows (shardRows (cols + 2) ts.mode) rows).map fun rs =>
      { kind := 1, region := g, set := ts.number, table := d.table, variant := v, first := 0, rows := rs, cols := cols, mode := ts.mode }

/-- KIND 2 shards: the groups of the dense shards this module leads. -/
def denseShards (s : State) : List GenShard :=
  ((allShards s).filter fun x => leadsShard s x.shard).flatMap fun x =>
    let m := tensorMode s x.tensor
    let gs := (upto x.count).map fun i => (x.first + i, denseRecord s x i)
    (cutRows (shardRows 16 m) gs).map fun rs =>
      { kind := 2, region := regionOfAddr s s.plan.denseAddr, set := 0, table := x.tensor.number, variant := 0
        first := (nthD (0, 0) rs 0).1, rows := rs, cols := 16, mode := m }

/-- R462: whether a record's frozen bit is set, or every record is in the generation. -/
def inGeneration (s : State) (home : Nat) : Bool := s.gen.full || s.gen.frozen.contains (mapKey s home)

/-- The shards of the open generation in the order of R465. -/
def genShards (s : State) : List GenShard :=
  sixteen.flatMap (tableShards s) ++ (sixteen.flatMap fun g => overlayShards s g (inGeneration s)) ++ denseShards s

/-! ## The change map and the hold area (R462, R463) -/

/-- The index of the shard that covers a record. -/
def shardOfRecord (s : State) (home : Nat) : Option Nat :=
  (genShards s).findIdx? fun sh => sh.rows.any fun r => (rowHomes s sh r.2).contains home

/-- R462: whether a record is pending in the open generation. -/
def isPending (s : State) (home : Nat) (dense : Bool) : Bool :=
  s.gen.isOpen && (dense || inGeneration s home) &&
  match shardOfRecord s home with
  | some i => decide (s.gen.exported ≤ i)
  | none => false

/-- The hold slot of a record: its own, or the first free one of 64 probes (R463). -/
def holdSearch (s : State) (g rec cap h : Nat) : Nat → Option (Nat × Bool)
  | 0 => none
  | n + 1 =>
    if cap = 0 then none
    else
      let k := g * 2 ^ 32 + probe h cap (64 - (n + 1))
      match s.gen.hold.find? fun e => e.1 == k with
      | none => some (k, false)
      | some e => if e.2.1 = rec then some (k, true) else holdSearch s g rec cap h n

def holdFind (s : State) (g rec : Nat) : Option (Nat × Bool) :=
  holdSearch s g rec (s.gen.holdKib * 1024 / 128) (probeHash rec 0 0 0) 64

/-- The slot number that a dense record has in the hold area: above those of the table area and the overlay pool. -/
def denseSlot (s : State) (home : Nat) : Nat := 2 ^ 31 + (home - s.plan.denseAddr) / 112

/-- R463: before a record's first write after a cut its forward payload goes to the hold area. -/
def holdCopy (home mode : Nat) (dense : Bool) (s : State) : State :=
  if !(isPending s home dense) then s
  else
    let g := regionOfAddr s home
    let rec_ := if dense then denseSlot s home else slotOfHome s home
    match holdFind s g rec_ with
    | some (_, true) => s
    | some (k, false) =>
      let r := readRecord home 0 (fwdSectors mode) s
      let flags := b2n (r.1.2.any markTorn) + 2 * b2n (r.1.2.any markPoison)
      { r.2 with gen := { r.2.gen with hold := r.2.gen.hold ++ [(k, rec_, BitVec.ofNat 8 flags :: r.1.1)] } }
    | none =>
      let s := raiseOnceRun 0x0914 home (count E.GEN_HOLD_OVERFLOWS s)
      match shardOfRecord s home with
      | some i => { s with gen := { s.gen with inexact := if s.gen.inexact.contains i then s.gen.inexact else i :: s.gen.inexact } }
      | none => s

/-- What every record write does first: the hold copy, and the record's bit of the current plane (R462). -/
def beforeRecordWrite (home mode : Nat) (dense : Bool) (s : State) : State :=
  let s := holdCopy home mode dense s
  if s.gen.setup && !dense then
    let k := mapKey s home
    { s with gen := { s.gen with current := if s.gen.current.contains k then s.gen.current else k :: s.gen.current } }
  else s

end Sys2Proof.Machine
end

