-- ==== Sys2Proof/Machine/Guyline.lean ====
section
/-!
DEFINITION. The Guyline (R433 to R435, R440, R444): packets and requests between twins, the duplicate filter, and the
entries that a lead mirrors.
-/
namespace Sys2Proof.Machine

def setTwin (t : Twin) (s : State) : State := { s with twin := t }

/-! ## Packets -/

def gHeader (p : GPacket) : Nat :=
  p.gop + p.cls * 2 ^ 8 + b2n p.poison * 2 ^ 11 + p.die * 2 ^ 12 + p.region * 2 ^ 14 + p.tag * 2 ^ 16 + p.status * 2 ^ 32
    + p.data.length * 2 ^ 48 + p.rsv * 2 ^ 61 + p.stepLo * 2 ^ 64 + p.endCheck * 2 ^ 96
def gBytes (p : GPacket) : Bytes := natLe 16 (gHeader p) ++ p.data
def gEndCheck (p : GPacket) : Nat := crc32c (gBytes { p with endCheck := 0 })
def gSeal (p : GPacket) : GPacket := { p with endCheck := gEndCheck p }
def gGood (p : GPacket) : Bool := p.endCheck == gEndCheck p
def gIsRequest (p : GPacket) : Bool := decide (p.gop < 128)

/-- R444: the path that traffic of a die uses: its own port, or that of the lowest-numbered other die that is UP. -/
def gPath (s : State) (die : Nat) : Option Nat :=
  if (port s (8 + die)).state == .up then some die
  else four.find? fun d => d != die && (port s (8 + d)).state == .up

/-- The flits of a Guyline packet: VC_CLASS alone names the channel (R433). -/
def gFlits (p : GPacket) : List Flit :=
  let ps := pieces 120 (gBytes p)
  let n := ps.length
  (ps.zip (upto n)).map fun x => { vcClass := p.cls, first := x.2 == 0, last := x.2 + 1 == n, body := slice x.1 0 120 }

/-- Puts a packet on a path's port. -/
def gPut (path : Nat) (p : GPacket) (s : State) : State :=
  let p := { p with path := path }
  pumpPort (8 + path) (updPort (8 + path) (fun q => { q with waiting := q.waiting ++ gFlits p }) (emit (.guyline (8 + path) p) s))

/-! ## Requests (R435) -/

/-- Sends or resends a request on the path of its die; it waits while no port is UP. -/
def gSend (r : GReq) (s : State) : State :=
  match gPath s r.path with
  | some d =>
    let s := setTwin { s.twin with reqs := s.twin.reqs.map fun x =>
      if x.path == r.path && x.tag == r.tag then { x with packet := { x.packet with path := d } } else x } s
    gPut d r.packet s
  | none => s

/-- Issues a request with a tag of its die, or lets it wait behind those that wait there (R334). -/
def gIssue (die region gop cls step : Nat) (data : Bytes) (poison : Bool) (origin : GOrigin) (s : State) : State :=
  let p : GPacket := { path := die, gop := gop, cls := cls, poison := poison, die := die, region := region, stepLo := step % 2 ^ 32, data := data }
  let r : GReq := { path := die, tag := 0, packet := p, origin := origin, resends := 0, later := 0, backoff := false }
  if canIssue s die 32 && !(s.twin.queued.any fun x => x.path == die) then
    let tag := freeTag s die
    let r := { r with tag := tag, packet := gSeal { p with tag := tag } }
    let s := takeTag die tag s
    gSend r (setTwin { s.twin with reqs := s.twin.reqs ++ [r] } s)
  else setTwin { s.twin with queued := s.twin.queued ++ [r] } s

/-- Lets requests that wait for a tag or space go: those of each die in order, while it has room. -/
def gIssueQueued (s : State) : State :=
  forEach s.twin.queued (fun r => gIssue r.path r.packet.region r.packet.gop r.packet.cls r.packet.stepLo r.packet.data
    r.packet.poison r.origin) (setTwin { s.twin with queued := [] } s)

/-- A request has ended: what waits at its die, for the fabric or for the Guyline, may go. -/
def issueWaiting (s : State) : State := gIssueQueued (issueQueued s)

def findGReq (s : State) (die tag : Nat) : Option GReq := s.twin.reqs.find? fun r => r.path == die && r.tag == tag
def dropGReq (die tag : Nat) (s : State) : State :=
  setTwin { s.twin with reqs := s.twin.reqs.filter fun r => !(r.path == die && r.tag == tag) } s
def updGReq (die tag : Nat) (f : GReq → GReq) (s : State) : State :=
  setTwin { s.twin with reqs := s.twin.reqs.map fun r => if r.path == die && r.tag == tag then f r else r } s

/-- Whether requests with some origin are outstanding or waiting. -/
def gBusy (s : State) (f : GOrigin → Bool) : Bool := (s.twin.reqs ++ s.twin.queued).any fun r => f r.origin

/-- R444: requests whose port went DOWN are resent on the new path. -/
def gResend (s : State) : State :=
  let stale := s.twin.reqs.filter fun r => (port s (8 + r.packet.path)).state != .up && !r.backoff
  forEach stale (fun r s => whenS (gPath s r.path).isSome (fun s => gSend r (count E.REQUESTS_RESENT s)) s) s

/-! ## Being the target -/

/-- The response to a request, on the port it came by. -/
def gRespond (p : GPacket) (status : Nat) (data : Bytes) (poison : Bool) (s : State) : State :=
  let q := gSeal { path := p.path, gop := p.gop + 128, cls := 0, poison := poison, die := p.die, region := p.region
                   tag := p.tag, status := status, stepLo := p.stepLo, data := data }
  match (if (port s (8 + p.path)).state == .up then some p.path else gPath s p.die) with
  | some d => gPut d q s
  | none => s

/-- R338 over the Guyline: the answer kept for a request. -/
def findGDup (s : State) (p : GPacket) : Option GPacket :=
  (s.twin.dups.find? fun e => e.1 == p.die && e.2.tag == p.tag).map Prod.snd

def gAnswer (p : GPacket) (status : Nat) (data : Bytes) (poison : Bool) (s : State) : State :=
  let q := gSeal { path := p.path, gop := p.gop + 128, cls := 0, poison := poison, die := p.die, region := p.region
                   tag := p.tag, status := status, stepLo := p.stepLo, data := data }
  let s := if status = 0x0811 then countLaterSent p.cls s else setTwin { s.twin with dups := s.twin.dups ++ [(p.die, q)] } s
  gRespond p status data poison s

/-- R433: whether a packet of the same class that came before this one on its port has not been taken yet. -/
def precededBy (s : State) (p : GPacket) : Bool :=
  (s.twin.arrivals.takeWhile fun q => q != p).any fun q => q.path == p.path && q.cls == p.cls

/-- R29, R306, R314, R338 for a Guyline request that has come by a port: one to a module that is out of service, a bad
END_CHECK, a duplicate, and one for which the filter has no entry are answered at once; a packet waits for those of its
class before it. -/
def gServe (p : GPacket) (perform : State → State) (s : State) : State :=
  if precededBy s p then s
  else
  let s := takeGArrival p s
  if !(gIsRequest p) then s
  else if outOfService s then gRespond p 0x0C21 [] false s
  else if !(serves s) then s
  else if !(gGood p) then gRespond p 0x080B [] false (count E.END_CHECK_ERRORS s)
  else
    match findGDup s p with
    | some e => gRespond p e.status e.data e.poison (count E.DUPLICATES_FILTERED s)
    | none => if 16384 ≤ dupEntries s p.die then gAnswer p 0x0811 [] false s else perform s

/-- The partner's requests are taken only from a configured Guyline. -/
def gOpen (s : State) : Bool := forced s E.TWIN_ENABLE == 1

/-- How a response or a timer ends a Guyline request. -/
inductive GEnded where
  | nothing
  | request (r : GReq) (status : Nat) (data : Bytes) (poison : Bool)
  deriving DecidableEq, Repr

/-- R339: a Guyline request has failed: event 0x0810, one REQUESTS_FAILED. -/
def gFailed (s : State) : State := raise 0x0810 (forced s E.TWIN_PEER) (count E.REQUESTS_FAILED s)

/-- R339: a response over the Guyline. -/
def gResponse (p : GPacket) (s : State) : GEnded × State :=
  if precededBy s p then (.nothing, s)
  else
  let s := takeGArrival p s
  if gIsRequest p then (.nothing, s)
  else if !(gGood p) then (.nothing, count E.END_CHECK_ERRORS s)
  else
    match findGReq s p.die p.tag with
    | none => (.nothing, count E.LATE_RESPONSES s)
    | some r =>
      if p.gop != r.packet.gop + 128 then (.nothing, count E.LATE_RESPONSES s)
      else if p.status = 0x0811 then
        (.nothing, updGReq p.die p.tag (fun r => { r with later := r.later + 1, backoff := true }) (countLaterReceived r.packet.cls s))
      else (.request r p.status p.data p.poison, issueWaiting (whenS (failingStatus p.status) gFailed (dropGReq p.die p.tag s)))

/-- R336: the request timer of a Guyline request. -/
def gTimeout (die tag : Nat) (s : State) : GEnded × State :=
  match findGReq s die tag with
  | none => (.nothing, s)
  | some r =>
    if r.backoff then (.nothing, s)
    else
      let s := count E.REQUEST_TIMEOUTS s
      if r.resends < setting s E.FABRIC_RETRY_LIMIT then
        (.nothing, gSend r (updGReq die tag (fun r => { r with resends := r.resends + 1 }) (count E.REQUESTS_RESENT s)))
      else (.request r 0x0810 [] false, issueWaiting (gFailed (dropGReq die tag s)))

/-- R337: a back-off ends. -/
def gBackoff (die tag : Nat) (s : State) : State :=
  match findGReq s die tag with
  | some r => if r.backoff then gSend r (updGReq die tag (fun r => { r with backoff := false }) s) else s
  | none => s

/-! ## Keys and mirror entries (R440, R441) -/

/-- A key of R435: a table record, or a dense group followed by its column group. -/
def keyBytes (k : TargetKey) : Bytes :=
  natLe 5 k.row ++ natLe 2 k.variant ++ natLe 1 k.set ++ natLe 2 k.table ++ natLe 1 (if k.kind = 0 then k.slice else 0) ++ natLe 1 k.kind
    ++ (if k.kind = 1 then natLe 4 k.slice else [])
def keyLen (kind : Nat) : Nat := if kind = 1 then 16 else 12
def keyOf (b : Bytes) : TargetKey :=
  let kind := field b 11 1
  { kind := kind, set := field b 7 1, table := field b 8 2, row := field b 0 5, variant := field b 5 2 % 1024
    slice := if kind = 1 then field b 12 4 else field b 10 1 }

/-- Whether this module sends what it applies to a partner. -/
def mirrors (s : State) : Bool := isPaired s || s.twin.state == .copySource

/-- R441: the step's operands go before the first entry of the step. -/
def sendOperands (step : Nat) (norm clip : W32) (s : State) : State :=
  if s.twin.sentOps = some step then s
  else
    let data := natLe 8 step ++ natLe 4 norm.toNat ++ natLe 4 clip.toNat
    forEach four (fun d s => gIssue d 0 2 1 step data false .operands s) (setTwin { s.twin with sentOps := some step } s)

/-- An entry: 32 bytes and the word. -/
def mirrorEntry (body : Bytes) (kind region record occ : Nat) : Bytes :=
  slice body 0 32 ++ natLe 8 (kind + region * 2 ^ 3 + record * 2 ^ 5 + occ * 2 ^ 37)

/-- The mirror gradient of an entry as D16 codes (R439). -/
def gradD16 (g : List W32) : Bytes := g.flatMap fun c => natLe 2 (c.toNat / 65536)

/-- R440: mirrors one applied table target: its record's home, key, overlay and creation, count and gradient. -/
def mirrorTable (step home : Nat) (k : TargetKey) (overlay create : Bool) (occ : Nat) (g : List W32) (s : State) : State :=
  if !(mirrors s) then s
  else
    let die := addrDie home
    let region := regionOfAddr s home % 4
    let es := if overlay || 0x7FFFFFF ≤ occ then
        mirrorEntry (keyBytes k ++ natLe 1 (b2n create) ++ zeros 3 ++ natLe 4 occ) 3 region 0 0 ++ mirrorEntry (gradD16 g) 2 region 0 0
      else mirrorEntry (gradD16 g) 1 region (slotOfHome s home) occ
    countN E.MIRROR_ENTRIES_SENT (es.length / 40) (gIssue die region 1 1 step es false .mirror s)

/-- R440: mirrors one applied dense group. -/
def mirrorDense (step home index : Nat) (g : List W32) (s : State) : State :=
  if !(mirrors s) then s
  else
    let die := addrDie home
    let region := regionOfAddr s home % 4
    count E.MIRROR_ENTRIES_SENT (gIssue die region 1 1 step (mirrorEntry (gradD16 g) 4 region index 1) false .mirror s)

end Sys2Proof.Machine
end

