-- ==== Sys2Proof/Machine/Programs.lean ====
section
/-!
DEFINITION. Update programs (chapter 06): operands, instructions, INVR, the derived operands of R170, and the checks of
R185 on a program image.
-/
namespace Sys2Proof.Machine

/-! ## Values -/

/-- `1 / √x` to many bits, with a last bit that says whether anything was left over. -/
def numRsqrt : ExactNum → ExactNum
  | .nan => .nan
  | .inf s => if s then .nan else .fin false 0 0
  | .fin s m e =>
    if m = 0 then .inf s
    else if s then .nan
    else
      let n : Nat := if e % 2 = 0 then 512 else 513
      let q := isqrt (2 ^ n / m)
      .fin false (2 * q + (if q * q * m = 2 ^ n then 0 else 1)) ((-e - n) / 2 - 1)

/-- R175: any NaN becomes the canonical NaN. -/
def canon (c : W32) : W32 := if f32isNan c then f32nan else c

/-- Order of MAX and MIN: −0 below +0; neither is NaN. -/
def f32less (a b : W32) : Bool :=
  numLt (f32val a) (f32val b) || (f32isZero a && f32isZero b && a.getLsbD 31 && !(b.getLsbD 31))

def f32abs (a : W32) : W32 := a &&& 0x7FFFFFFF
def f32neg (a : W32) : W32 := a ^^^ 0x80000000
def f32pos (a : W32) : Bool := numLt num0 (f32val a)

/-- A rounding of R174 with draw `g`. -/
def rnd (g : Nat) (v : ExactNum) : W32 × Tally := f32enc .srd g v

def rmul (g : Nat) (a b : W32) : W32 × Tally := rnd g (numMul (f32val a) (f32val b))
def rsub (g : Nat) (a b : W32) : W32 × Tally := rnd g (numSub (f32val a) (f32val b))
def rdiv (g : Nat) (a b : W32) : W32 × Tally := rnd g (numDiv (f32val a) (f32val b))
def rsqroot (g : Nat) (a : W32) : W32 × Tally := rnd g (numSqrt (f32val a))
def rfma (g : Nat) (a b c : W32) : W32 × Tally := rnd g (numAdd (numMul (f32val a) (f32val b)) (f32val c))
def rfnma (g : Nat) (a b c : W32) : W32 × Tally := rnd g (numAdd (f32val c) (numNeg (numMul (f32val a) (f32val b))))

/-- R177: `pown`, with the draws of its sub-indices; `n` bounds the bits of the exponent still to come. -/
def pownFrom (g : Nat → Nat) : Nat → W32 → W32 → Nat → Nat → Tally → (W32 × Tally) × Nat
  | 0, r, _, _, s, t => ((r, t), s)
  | n + 1, r, b, k, s, t =>
    if k = 0 then ((r, t), s)
    else
      let m := if k % 2 = 1 then rmul (g s) r b else (r, {})
      let s := if k % 2 = 1 then s + 1 else s
      let k := k / 2
      let q := if k = 0 then (b, ({} : Tally)) else rmul (g s) b b
      let s := if k = 0 then s else s + 1
      pownFrom g n m.1 q.1 k s (tallyAdd t (tallyAdd m.2 q.2))

def pown (g : Nat → Nat) (s : Nat) (x : W32) (k : Nat) : W32 × Tally := (pownFrom g 64 f32one x k s {}).1

/-- The exponent of POWN: toward zero, clamped, NaN as 0 (R177). -/
def pownExp (b : W32) : Nat :=
  match f32val b with
  | .nan => 0
  | .inf s => if s then 0 else 2 ^ 32 - 1
  | .fin s m e =>
    let k := if 0 ≤ e then m <<< e.toNat else m >>> (-e).toNat
    if s then 0 else min k (2 ^ 32 - 1)

/-! ## Inputs of one run (R164 to R166) -/

/-- What a program reads beside its registers. -/
structure ProgIn where
  w : List W32
  m1 : List W32
  m2 : List W32
  g : List W32
  occ : W32
  t : W32
  skip : W32
  norm : W32
  clip : W32
  bank : List W32
  derived : List W32
  consts : List W32
  origin : GrainAt
  deriving DecidableEq, Repr

/-- Sixteen copies of a scalar. -/
def spread (c : W32) : List W32 := List.replicate 16 c

/-- The registers of a run, and what STORE has taken. -/
structure Regs where
  e : List (List W32) := List.replicate 16 (List.replicate 16 0)
  b : List W32 := List.replicate 8 0
  sw : Option (List W32) := none
  sm1 : Option (List W32) := none
  sm2 : Option (List W32) := none
  tally : Tally := {}
  calls : Nat := 0
  damped : Nat := 0
  fallbacks : Nat := 0
  deriving DecidableEq, Repr

/-- The sixteen values of an operand code. -/
def operand (x : ProgIn) (r : Regs) (c : Nat) : List W32 :=
  if c < 0x10 then nthD zeros16 r.e c
  else if c < 0x18 then spread (nthD 0 r.b (c - 0x10))
  else if c = 0x18 then x.w
  else if c = 0x19 then x.m1
  else if c = 0x1A then x.m2
  else if c = 0x1B then x.g
  else if c = 0x1C then spread x.occ
  else if c = 0x1D then spread x.t
  else if c = 0x1E then spread x.skip
  else if c = 0x1F then spread x.norm
  else if c = 0x20 then spread x.clip
  else if c < 0x31 then spread (nthD 0 x.bank (c - 0x21))
  else if c < 0x3A then spread (nthD 0 x.derived (c - 0x31))
  else if c = 0x3A then spread f32zero
  else if c = 0x3B then spread f32one
  else spread (nthD 0 x.consts (c - 0x3C))

/-- The draw of a rounding (R174): column offset, instruction index, sub-index. -/
def progDraw (x : ProgIn) (col i sub : Nat) : Nat :=
  srdDraw .programRound { x.origin with column := x.origin.column + col } (i + 64 * sub)

/-! ## Instruction fields (R172, R173) -/

def insOp (w : Nat) : Nat := bits w 26 6
def insD (w : Nat) : Nat := bits w 20 6
def insA (w : Nat) : Nat := bits w 14 6
def insB (w : Nat) : Nat := bits w 8 6
def insC (w : Nat) : Nat := bits w 2 6

/-- Operations on one element: the result of A, B, C with the draws of its sub-indices. -/
def element (op : Nat) (g : Nat → Nat) (a b c : W32) : W32 × Tally :=
  let nan2 := f32isNan a || f32isNan b
  if op = 0x01 then rnd (g 0) (numAdd (f32val a) (f32val b))
  else if op = 0x02 then rsub (g 0) a b
  else if op = 0x03 then rmul (g 0) a b
  else if op = 0x04 then rfma (g 0) a b c
  else if op = 0x05 then rfnma (g 0) a b c
  else if op = 0x06 then rdiv (g 0) a b
  else if op = 0x07 then rsqroot (g 0) a
  else if op = 0x08 then rnd (g 0) (numRsqrt (f32val a))
  else if op = 0x09 then (if nan2 then f32nan else if f32less a b then b else a, {})
  else if op = 0x0A then (if nan2 then f32nan else if f32less b a then b else a, {})
  else if op = 0x0B then (canon (if f32pos c then a else b), {})
  else if op = 0x0C then
    (if nan2 then f32nan
     else if numLt (f32val (f32abs b)) (f32val (f32abs a)) then (f32abs b ||| (a &&& 0x80000000))
     else a, {})
  else if op = 0x0D then (canon a, {})
  else pown g 0 a (pownExp b)

/-- BMAX, BSUM and BEXT (R173 to R175). -/
def blockMax (l : List W32) : W32 :=
  if l.any f32isNan then f32nan else l.foldl (fun m x => if f32less m (f32abs x) then f32abs x else m) f32zero

def blockSum (g : Nat → Nat) (l : List W32) : W32 × Tally :=
  ((l.zip (upto 16)).foldl (fun (r : W32 × Tally) p =>
    let v := numAdd (f32val r.1) (f32val p.1)
    let q := rnd (g p.2) v
    (q.1, tallyAdd r.2 q.2)) (f32zero, {}))

/-! ## INVR (R180 to R182) -/

/-- Matrices by rows; what a matrix computation carries: the next sub-index and the counts. -/
abbrev Mat := List (List W32)
def mget (m : Mat) (i j : Nat) : W32 := nthD 0 (nthD [] m i) j
def mset (m : Mat) (i j : Nat) (v : W32) : Mat := m.modify i fun r => r.set j v
def mzero : Mat := List.replicate 16 (List.replicate 16 0)

structure Cnt where
  sub : Nat := 0
  tally : Tally := {}
  deriving DecidableEq, Repr

/-- Makes one rounding and goes to the next sub-index. -/
def step1 (g : Nat → Nat) (f : Nat → W32 × Tally) (c : Cnt) : W32 × Cnt :=
  let r := f (g c.sub)
  (r.1, { sub := c.sub + 1, tally := tallyAdd c.tally r.2 })

/-- x minus the products l[i][k] × l[j][k] for k below j. -/
def cholDot (g : Nat → Nat) (l : Mat) (i j : Nat) (x : W32) (c : Cnt) : W32 × Cnt :=
  (upto j).foldl (fun p k => step1 g (fun d => rfnma d (mget l i k) (mget l j k) p.1) p.2) (x, c)

/-- One column of the factorisation; none when its pivot fails. -/
def cholCol (g : Nat → Nat) (a : Mat) (n : Nat) (s : W32) (j : Nat) (l : Mat) (c : Cnt) : Option Mat × Cnt :=
  let d0 := step1 g (fun d => rnd d (numAdd (f32val (mget a j j)) (f32val s))) c
  let d := cholDot g l j j d0.1 d0.2
  if !(f32pos d.1) || !(f32finite d.1) then (none, d.2)
  else
    let p := step1 g (fun x => rsqroot x d.1) d.2
    let l := mset l j j p.1
    let r := ((upto n).filter fun i => decide (j < i)).foldl (fun (q : Mat × Cnt) i =>
      let x := cholDot g q.1 i j (mget a i j) q.2
      let y := step1 g (fun d => rdiv d x.1 (mget q.1 j j)) x.2
      (mset q.1 i j y.1, y.2)) (l, p.2)
    (some r.1, r.2)

def chol (g : Nat → Nat) (a : Mat) (n : Nat) (s : W32) (c : Cnt) : Option Mat × Cnt :=
  (upto n).foldl (fun p j => match p.1 with
    | some l => cholCol g a n s j l p.2
    | none => (none, p.2)) (some mzero, c)

/-- The inverse of a lower factor. -/
def invLower (g : Nat → Nat) (l : Mat) (n : Nat) (c : Cnt) : Mat × Cnt :=
  (upto n).foldl (fun (p : Mat × Cnt) j =>
    let d := step1 g (fun x => rdiv x f32one (mget l j j)) p.2
    ((upto n).filter fun i => decide (j < i)).foldl (fun (q : Mat × Cnt) i =>
      let x := ((upto i).filter fun k => decide (j ≤ k)).foldl (fun (y : W32 × Cnt) k =>
        step1 g (fun d => rfma d (mget l i k) (mget q.1 k j) y.1) y.2) (f32zero, q.2)
      let v := step1 g (fun d => rdiv d (f32neg x.1) (mget l i i)) x.2
      (mset q.1 i j v.1, v.2)) (mset p.1 j j d.1, d.2)) (mzero, c)

/-- The output of a factor: its inverse factor, or the inverse (R180). -/
def formOutput (g : Nat → Nat) (l : Mat) (n mode : Nat) (c : Cnt) : Mat × Cnt :=
  let m := invLower g l n c
  if mode = 1 then m
  else
    (upto n).foldl (fun (p : Mat × Cnt) i => (upto (i + 1)).foldl (fun (q : Mat × Cnt) j =>
      let x := ((upto n).filter fun k => decide (i ≤ k)).foldl (fun (y : W32 × Cnt) k =>
        step1 g (fun d => rfma d (mget m.1 k i) (mget m.1 k j) y.1) y.2) (f32zero, q.2)
      (mset (mset q.1 i j x.1) j i x.1, x.2)) p) (mzero, m.2)

/-- The scaled identity. -/
def mdiag (n : Nat) (f : W32) : Mat := (upto n).foldl (fun m i => mset m i i f) mzero

/-- Attempts `k … 4` of R181: the status and the factor. -/
def invrTry (g : Nat → Nat) (a : Mat) (n : Nat) (ok : Bool) : Nat → Nat → W32 → Cnt → (Nat × Option Mat) × Cnt
  | 0, _, _, c => ((5, none), c)
  | f + 1, k, lam, c =>
    if 0 < k && !ok then ((5, none), c)
    else
      let m := if 1 < k then step1 g (fun d => rmul d lam 0x42C80000) c else (lam, c)
      let s := if k = 0 then f32zero else m.1
      let r := chol g a n s m.2
      match r.1 with
      | some l => ((k, some l), r.2)
      | none => invrTry g a n ok f (k + 1) m.1 r.2

/-- INVR: the result, its status and the counts. -/
def invr (g : Nat → Nat) (a : Mat) (n mode : Nat) : (Mat × Nat) × Tally :=
  let tr := (upto n).foldl (fun (p : W32 × Cnt) i =>
    step1 g (fun d => rnd d (numAdd (f32val p.1) (f32val (mget a i i)))) p.2) (f32zero, {})
  let ok := f32pos tr.1 && f32finite tr.1
  let nf : W32 := f32round .rne 0 (numOfNat n)
  let lam := if ok then
      let q := step1 g (fun d => rdiv d tr.1 nf) tr.2
      step1 g (fun d => rmul d 0x358637BD q.1) q.2
    else (f32zero, tr.2)
  let t := invrTry g a n ok 5 0 lam.1 lam.2
  match t.1.2 with
  | some l =>
    let o := formOutput g l n mode t.2
    ((o.1, t.1.1), o.2.tally)
  | none =>
    let f := if ok then step1 g (fun d => rdiv d nf tr.1) t.2 else (f32one, t.2)
    let f := if mode = 1 then step1 g (fun d => rsqroot d f.1) f.2 else f
    ((mdiag n f.1, 5), f.2.tally)

/-! ## Running a program (R163, R178) -/

/-- Writes a destination: an element register takes sixteen values, a block register the first. -/
def writeDest (d : Nat) (v : List W32) (r : Regs) : Regs :=
  if d < 0x10 then { r with e := r.e.set d v }
  else { r with b := r.b.set (d - 0x10) (nthD 0 v 0) }

/-- One instruction. -/
def runIns (x : ProgIn) (i w : Nat) (r : Regs) : Regs :=
  let op := insOp w
  let add (t : Tally) (r : Regs) : Regs := { r with tally := tallyAdd r.tally t }
  if op = 0x18 then
    { r with
      sw := if bitAt w 7 then some (operand x r (insD w)) else r.sw
      sm1 := if bitAt w 6 then some (operand x r (insA w)) else r.sm1
      sm2 := if bitAt w 5 then some (operand x r (insB w)) else r.sm2 }
  else if op = 0x19 then
    let n := bits w 10 4 + 1
    let mode := bits w 8 2
    let a := (upto n).map fun k => nthD zeros16 r.e (insA w + k)
    let v := invr (progDraw x 0 i) a n mode
    let e := (upto n).foldl (fun e k => e.set (insD w + k) ((nthD zeros16 v.1.1 k).take n ++ List.replicate (16 - n) f32zero)) r.e
    let st := v.1.2
    add v.2 { r with
      e := e, b := r.b.set (bits w 5 3) (f32round .rne 0 (numOfNat st)), calls := r.calls + 1
      damped := r.damped + b2n (decide (1 ≤ st ∧ st ≤ 4)), fallbacks := r.fallbacks + b2n (st == 5) }
  else if op = 0x10 then writeDest (insD w) [blockMax (operand x r (insA w))] r
  else if op = 0x11 then
    let v := blockSum (progDraw x 0 i) (operand x r (insA w))
    add v.2 (writeDest (insD w) [v.1] r)
  else if op = 0x12 then writeDest (insD w) [canon (nthD 0 (operand x r (insA w)) (bits w 2 4))] r
  else
    let a := operand x r (insA w)
    let b := operand x r (insB w)
    let c := operand x r (insC w)
    let n := if insD w < 0x10 then 16 else 1
    let v := tallyAll ((upto n).map fun e => element op (progDraw x e i) (nthD 0 a e) (nthD 0 b e) (nthD 0 c e))
    add v.2 (writeDest (insD w) v.1 r)

/-- A whole program, instructions in order. -/
def runProgram (x : ProgIn) (code : List Nat) : Regs :=
  (code.zip (upto code.length)).foldl (fun r p => runIns x p.2 p.1 r) {}

/-! ## Derived operands (R170) -/

def deriveOperands (seed : W64) (step set : Nat) (p : List W32) (t : Nat) : List W32 × Tally :=
  let at_ : GrainAt := ⟨seed, step, 0xFFFFFFFFFFFFFFFE, 0, 0, 0, set⟩
  let g (k s : Nat) : Nat := srdDraw .programRound at_ (k + 16 * s)
  let v (i : Nat) : W32 := nthD 0 p i
  let d0 := rsub (g 0 0) f32one (v 1)
  let d1 := rsub (g 1 0) f32one (v 2)
  let p1 := pown (g 2) 1 (v 1) t
  let d2 := rsub (g 2 0) f32one p1.1
  let p2 := pown (g 3) 1 (v 2) t
  let d3 := rsub (g 3 0) f32one p2.1
  let q := rsqroot (g 4 1) d3.1
  let a := rmul (g 4 2) (v 0) q.1
  let d4 := rdiv (g 4 0) a.1 d2.1
  let d6 := rmul (g 6 0) (v 3) q.1
  let d8 := rfnma (g 8 0) (v 0) (v 4) f32one
  ([d0.1, d1.1, d2.1, d3.1, d4.1, (if f32isNan d4.1 then f32nan else f32neg d4.1), d6.1, f32neg (v 0), d8.1],
    [d0.2, d1.2, p1.2, d2.2, p2.2, d3.2, q.2, a.2, d4.2, d6.2, d8.2].foldl tallyAdd {})

/-! ## Checks of an image (R185) -/

/-- The opcodes of R173, and which of A, B, C each register-layout instruction uses. -/
def usesA (_ : Nat) : Bool := true
def usesB (op : Nat) : Bool := (decide (1 ≤ op ∧ op ≤ 6)) || op == 0x09 || op == 0x0A || op == 0x0B || op == 0x0C || op == 0x0E
def usesC (op : Nat) : Bool := op == 0x04 || op == 0x05 || op == 0x0B
def knownOp (op : Nat) : Bool := decide (1 ≤ op ∧ op ≤ 0x0E) || decide (0x10 ≤ op ∧ op ≤ 0x12) || op == 0x18 || op == 0x19
def isBlockOp (op : Nat) : Bool := decide (0x10 ≤ op ∧ op ≤ 0x12)

/-- Whether a source supplies element values. -/
def isElementSource (c : Nat) : Bool := decide (c < 0x10) || decide (0x18 ≤ c ∧ c ≤ 0x1B)

def insReservedOk (w : Nat) : Bool :=
  if insOp w = 0x18 || insOp w = 0x19 then bits w 0 5 == 0 else bits w 0 2 == 0

/-- Check 3 of R185 on one instruction. -/
def insOperandsOk (w : Nat) : Bool :=
  let op := insOp w
  if op = 0x18 then
    -- a source field of a STORE is used when its enable bit is 1 (R172, R178)
    (bitAt w 7 || insD w == 0) && (bitAt w 6 || insA w == 0) && (bitAt w 5 || insB w == 0)
  else if op = 0x19 then
    let n := bits w 10 4 + 1
    let d := insD w
    let a := insA w
    decide (d + n ≤ 16) && decide (a + n ≤ 16) && decide (bits w 8 2 ≤ 1) && (d == a || decide (d + n ≤ a) || decide (a + n ≤ d))
  else if op = 0x12 then
    decide (0x10 ≤ insD w ∧ insD w ≤ 0x17) && insB w == 0 && bits w 6 2 == 0
  else if isBlockOp op then
    decide (0x10 ≤ insD w ∧ insD w ≤ 0x17) && insB w == 0 && insC w == 0
  else
    decide (insD w ≤ 0x17) && (usesB op || insB w == 0) && (usesC op || insC w == 0)
      && (decide (insD w < 0x10) || !(isElementSource (insA w) || (usesB op && isElementSource (insB w)) || (usesC op && isElementSource (insC w))))

/-- Check 4 of R185: sources of enabled and unused STORE fields are registers, and no field is stored twice. -/
def storesOk (code : List Nat) : Bool :=
  let st := code.filter fun w => insOp w == 0x18
  (st.all fun w => decide (insD w ≤ 0x17) && decide (insA w ≤ 0x17) && decide (insB w ≤ 0x17))
    && [5, 6, 7].all fun b => decide ((st.filter fun w => bitAt w b).length ≤ 1)

/-- R186: the clock length. -/
def insClocks (w : Nat) : Nat :=
  if insOp w = 0x0E then 8 else if insOp w = 0x19 then 2 * (bits w 10 4 + 1) ^ 2 + 8 else 1
def clockLength (code : List Nat) : Nat := (code.map insClocks).sum

end Sys2Proof.Machine
end

