-- ==== Sys2Proof/Machine/Coalesce.lean ====
section
/-!
DEFINITION. Gradient messages and the Coalescer (R129 to R145, R150, R152, R537): checks and step tags, the early queue,
slots, the order of consumption, coalescing in SRD and in Ledgers, and what a twin forwards to its partner.
-/
namespace Sys2Proof.Machine

/-! ## Which step, which rows -/

/-- The step whose gradients are current: from COMMIT on, the next one (R133, R135). -/
def gradStepNow (s : State) : Nat := if curStation s = 5 then curStep s + 1 else curStep s

/-- Whether this module updates a row in a step (R151); in the step of a failover only what it led before (R452). -/
def ledIn (s : State) (step row : Nat) : Bool :=
  if s.twin.failStep = some step then row % 2 == mySide s else leadsRow s row

/-- R438: whether a bag belongs to this twin's side. -/
def sideBag (s : State) (bag : Nat) : Bool := bag / 65536 % 2 == mySide s

/-- The occurrences that a module retains for update (R130, R452). -/
def retained (s : State) (step : Nat) : List Occ :=
  (ownOccs s step).filter fun o => s.twin.failStep != some step || sideBag s o.bag

/-- R97, R98: whether a set has a variant; an occurrence of any other variant has no target. -/
def variantKnown (s : State) (set variant : Nat) : Bool :=
  match tableSet s set with
  | some ts => variant == 0 || decide (variant < ts.variants)
  | none => false

/-- The occurrences of the targets that this module leads, in the order of R136. -/
def updateOccs (s : State) (step : Nat) : List Occ :=
  sortOccs ((retained s step ++ s.step.occs.filter fun o => o.step == step && o.partner).filter fun o =>
    ledIn s step o.row && variantKnown s o.set o.variant)

/-! ## Slots (R141, R144, R537) -/

def slotBytes (mode : Nat) : Nat := if mode = 1 then 272 else 80

/-- R537: spill slots in the whole pages of the spill area. -/
def spillSlots (s : State) : Nat :=
  let lo := s.plan.spillOff * 1024
  let hi := lo + s.plan.spillKib * 1024
  (hi / pageBytes - ceilDiv lo pageBytes) * (if setting s E.COALESCE_MODE = 1 then 12 else 31)

/-- The slots of a region. -/
def slotCapacity (s : State) : Nat :=
  setting s E.COALESCE_WORKSPACE_KIB * 1024 / slotBytes (setting s E.COALESCE_MODE) + spillSlots s

/-- An accumulator as slot allocation makes it. -/
def newAcc (g : Nat) (k : Nat × Nat × Nat × Nat) (slice : Nat) (expect : List (Nat × Nat)) (hot slot : Bool) : Acc :=
  { region := g, set := k.1, table := k.2.1, row := k.2.2.1, variant := k.2.2.2, slice := slice, slot := slot, hot := hot
    count := expect.length, next := 0, expect := expect, held := [], taken := []
    sums := List.replicate (if hot then 256 else 16) f32zero, ledgers := List.replicate 16 0
    nonfinite := List.replicate 16 false, complete := false, values := [], applied := false }

/-- The target slices of a region in ascending order, with the (bag, position) pairs of each. -/
def regionTargets (s : State) (g : Nat) (os : List Occ) : List ((Nat × Nat × Nat × Nat) × Nat × List (Nat × Nat)) :=
  let mine := os.filter fun o => occRegion s o == g
  ((mine.map occKey).eraseDups.mergeSort keyLe).flatMap fun k =>
    let pairs := (mine.filter fun o => occKey o == k).map fun o => (o.bag, o.position)
    match (tableSet s k.1).bind fun ts => tableOf ts k.2.1 with
    | some d => (upto (localSlices s d)).map fun j => (k, j, pairs)
    | none => []

/-- R144: slots in ascending order; a target slice that needs more than remain gets none. -/
def allocate (g thr : Nat) : List ((Nat × Nat × Nat × Nat) × Nat × List (Nat × Nat)) → Nat → List Acc
  | [], _ => []
  | x :: rest, left =>
    let hot := decide (thr < x.2.2.length)
    let need := if hot then 16 else 1
    if need ≤ left then newAcc g x.1 x.2.1 x.2.2 hot true :: allocate g thr rest (left - need)
    else newAcc g x.1 x.2.1 x.2.2 hot false :: allocate g thr rest left

/-- The target slices of a step, with the slots that its retained occurrences give them. -/
def stepAccs (step : Nat) (s : State) : List Acc :=
  let os := updateOccs s step
  sixteen.flatMap fun g => allocate g (setting s E.HOT_ROW_THRESHOLD) (regionTargets s g os) (slotCapacity s)

/-- Counts the slots of a step: the drops and the hot target slices, beyond those counted before. -/
def countSlots (accs : List Acc) (s : State) : State :=
  let drops := (accs.filter fun a => !a.slot).length
  let hots (l : List Acc) : Nat := (l.filter fun a => a.hot).length
  let sats (l : List Acc) : Nat := (l.filter fun a => decide (2 ^ 32 ≤ a.count)).length
  let s := countN E.COALESCE_DROPS (drops - s.step.drops) s
  let s := countN E.HOT_ROW_SPLITS (hots accs - hots s.step.accs) s
  let s := countN E.OCCURRENCE_SATURATIONS (sats accs - sats s.step.accs) s
  let first := (accs.find? fun a => !a.slot).map fun a => a.region
  let s := match first with
    | some g => raiseOnceRunAt 0x0606 (unitCoord s (g / 4) (g % 4) 2 9) drops s
    | none => s
  { s with step := { s.step with drops := max drops s.step.drops } }

/-! ## The Ledger (R139) -/

/-- A term as an integer × 2^(−f), and whether a non-zero term became zero. -/
def ledgerTerm (f : Nat) (v : ExactNum) : Int × Bool :=
  let i := roundInt .rne 0 (numMul v (pow2 f))
  (i, i == 0 && !(numIsZero v))

/-- R139: the clamp, and whether it clamped. -/
def ledgerClamp (x : Int) : Int × Bool :=
  if (2 : Int) ^ 127 - 1 < x then (2 ^ 127 - 1, true)
  else if x < -(2 ^ 127 - 1) then (-(2 ^ 127 - 1), true)
  else (x, false)

def countClamp (clamped : Bool) (s : State) : State := whenS clamped (count E.LEDGER_OVERFLOWS) s

/-- R155: the squares of the finite elements of a gradient enter the norm Ledger. -/
def normAdd (l : List W32) (s : State) : State :=
  if setting s E.NORM_MODE = 0 then s
  else
    let f := setting s E.LEDGER_FRAC_NORM
    let ts := (l.filter f32finite).map fun x => ledgerTerm f (numMul (f32val x) (f32val x))
    countN E.LEDGER_UNDERFLOWS (ts.filter Prod.snd).length
      { s with step := { s.step with ledger := ts.foldl (fun a t => a + t.1) s.step.ledger } }

/-! ## Adding contributions (R136 to R141, R145) -/

/-- The coordinates of element e of an accumulator's target slice. -/
def accAt (s : State) (a : Acc) (step e : Nat) : GrainAt :=
  match (tableSet s a.set).bind fun ts => (tableOf ts a.table).map fun d => (ts, d) with
  | some td => elemAt s td.1 td.2 step a.row a.variant a.slice e
  | none => ⟨s.plan.seed, step, a.row, 0, a.table, a.variant, a.set⟩

/-- The exact term w × g of an element. -/
def term (w g : W32) : ExactNum := numMul (f32val w) (f32val g)

/-- Adds one contribution whose turn it is: the new accumulator, the counts, and the Ledger underflows. -/
def addTerm (s : State) (step : Nat) (a : Acc) (c : Contribution) : Acc × Tally × Nat :=
  let ord := a.next % 2 ^ 31
  let bad := (upto 16).map fun e => !(f32finite (nthD 0 c.grads e))
  let nf := (upto 16).map fun e => nthD false a.nonfinite e || nthD false bad e
  let a := { a with next := a.next + 1, expect := a.expect.drop 1, nonfinite := nf }
  if setting s E.COALESCE_MODE = 1 then
    let f := setting s E.LEDGER_FRAC_COALESCE
    let ts := (upto 16).map fun e =>
      if nthD false bad e then ((0 : Int), false) else ledgerTerm f (term c.weight (nthD 0 c.grads e))
    ({ a with ledgers := (a.ledgers.zip ts).map fun p => p.1 + p.2.1 }, {}, (ts.filter Prod.snd).length)
  else
    let part := if a.hot then ord % 16 else 0
    let r := tallyAll ((upto 16).map fun e =>
      let old := nthD 0 a.sums (16 * part + e)
      if nthD false bad e then (old, {})
      else srdAdd (srdDraw .coalesceAdd (accAt s a step e) ord) old (term c.weight (nthD 0 c.grads e)))
    ({ a with sums := a.sums.take (16 * part) ++ r.1 ++ a.sums.drop (16 * part + 16) }, r.2, 0)

/-- Adds one contribution whose turn it is; what is added again (R152) has been counted before.  The last number is 1 when it
is counted now. -/
def absorb (s : State) (step : Nat) (a : Acc) (c : Contribution) : Acc × Tally × Nat × Nat :=
  let r := addTerm s step { a with held := a.held.erase c, taken := a.taken ++ [{ c with counted := true }] } c
  if c.counted then (r.1, {}, 0, 0) else (r.1, r.2.1, r.2.2, 1)

/-- Adds the held contributions whose turn has come. -/
def absorbHeld (s : State) (step : Nat) : Nat → Acc → Tally → Nat → Nat → Acc × Tally × Nat × Nat
  | 0, a, t, u, n => (a, t, u, n)
  | k + 1, a, t, u, n =>
    match a.expect with
    | [] => (a, t, u, n)
    | p :: _ =>
      match a.held.find? fun c => c.bag == p.1 && c.position == p.2 with
      | some c =>
        let r := absorb s step a c
        absorbHeld s step k r.1 (tallyAdd t r.2.1) (u + r.2.2.1) (n + r.2.2.2)
      | none => (a, t, u, n)

/-- R138, R140, R141: the coalesced value of a complete accumulator before R145, its counts, and the Ledger clamps. -/
def accTotal (s : State) (step : Nat) (a : Acc) : List W32 × Tally × Nat :=
  if setting s E.COALESCE_MODE = 1 then
    let f := setting s E.LEDGER_FRAC_COALESCE
    let cs := a.ledgers.map ledgerClamp
    let r := tallyAll ((upto 16).map fun e =>
      f32enc .srd (srdDraw .coalesceAdd (accAt s a step e) 0xFFFFFFFF)
        (numMul (numOfInt (nthD (0, false) cs e).1) (pow2 (-(f : Int)))))
    (r.1, r.2, (cs.filter Prod.snd).length)
  else if a.hot then
    let r := combineList (fun e ord => srdDraw .coalesceAdd (accAt s a step e) ord)
      ((upto 16).map fun j => ((a.sums.drop (16 * j)).take 16, 0x80000000 + j)) zeros16
    (r.1, r.2, 0)
  else (a.sums, {}, 0)

/-- A target slice whose last contribution has been added. -/
def completeAcc (step : Nat) (a : Acc) (s : State) : Acc × State :=
  let r := accTotal s step a
  let v := (upto 16).map fun e => if nthD false a.nonfinite e then f32nan else nthD 0 r.1 e
  let bad := (a.nonfinite.filter fun b => b).length
  let s := countTally r.2.1 s
  let s := if r.2.2 = 0 then s else
    raiseOnceRunAt 0x0608 (unitCoord s (a.region / 4) (a.region % 4) 2 9) a.row (countN E.LEDGER_OVERFLOWS r.2.2 s)
  let s := countN E.GRAD_NONFINITE bad s
  let s := if bad = 0 then s else raiseOnceRunAt 0x0607 (unitCoord s (a.region / 4) (a.region % 4) 2 9) a.row s
  ({ a with complete := true, values := v }, normAdd v s)

def sameTarget (a : Acc) (region set table row variant slice : Nat) : Bool :=
  a.region == region && a.set == set && a.table == table && a.row == row && a.variant == variant && a.slice == slice

def putAcc (a : Acc) (s : State) : State :=
  let put (x : Acc) : Acc := if sameTarget x a.region a.set a.table a.row a.variant a.slice then a else x
  { s with step := { s.step with accs := s.step.accs.map put } }

/-- Completes an accumulator that waits for nothing more. -/
def tryComplete (step : Nat) (a : Acc) (s : State) : State :=
  if a.slot && !a.complete && a.expect.isEmpty then
    let r := completeAcc step a s
    putAcc r.1 r.2
  else putAcc a s

/-- Adds what an accumulator holds as far as the order goes, with the counts, and completes it when nothing is left. -/
def settleAcc (step : Nat) (a : Acc) (s : State) : State :=
  let r := absorbHeld s step a.expect.length a {} 0 0
  tryComplete step r.1 (countN E.CONTRIBUTIONS r.2.2.2 (countN E.LEDGER_UNDERFLOWS r.2.2.1 (countTally r.2.1 s)))

/-- The accumulator of a target slice once the slots of its step have been counted anew: a complete one stays, and any other
takes over the contributions that had come. -/
def mergeAcc (old : List Acc) (a : Acc) : Acc :=
  match old.find? fun x => sameTarget x a.region a.set a.table a.row a.variant a.slice with
  | some x => if x.complete then x else { a with held := x.taken ++ x.held }
  | none => a

/-- R141, R144, R152: counts the slots of a step, at (N, GATHER) and when occurrences of the partner come later. -/
def allocateSlots (step : Nat) (s : State) : State :=
  let accs := (stepAccs step s).map (mergeAcc s.step.accs)
  let s := countSlots accs s
  let s := { s with step := { s.step with accs := accs } }
  forEach (accs.filter fun a => !(a.held.isEmpty) && a.slot && !a.complete) (settleAcc step) s

/-- One contribution reaches a target slice: it is added in its turn, held, or discarded for want of a slot (R144). -/
def contribute (step region set table row variant slice : Nat) (c : Contribution) (s : State) : State :=
  match s.step.accs.find? fun a => sameTarget a region set table row variant slice with
  | none => s
  | some a =>
    if !a.slot || a.complete || !(a.expect.contains (c.bag, c.position)) then s
    else
      settleAcc step { a with held := a.held ++ [c] } s

/-! ## Forwarding to a partner (R152, R435) -/

/-- An occurrence entry, and a contribution entry: the same 32 bytes, then the gradient. -/
def occEntry (row variant set table slice position bag : Nat) (w : W32) : Bytes :=
  natLe 5 row ++ natLe 2 variant ++ natLe 1 set ++ natLe 2 table ++ natLe 1 slice ++ zeros 1 ++ natLe 4 position
    ++ natLe 8 bag ++ natLe 4 w.toNat ++ zeros 4

/-- Sends entries of n bytes each in packets of at most 4,096 bytes. -/
def sendEntries (die region gop step n : Nat) (es : List Bytes) (s : State) : State :=
  forEach (chunksOf (4096 / n) es.length es) (fun c => gIssue die (region % 4) gop 2 step c.flatten false .entries) s

/-- (N, GATHER): the retained occurrences of rows that the partner leads. -/
def sendOccurrences (step : Nat) (s : State) : State :=
  if !(isPaired s) then s
  else
    let os := (retained s step).filter fun o => !(ledIn s step o.row)
    forEach sixteen (fun g s =>
      let es := (os.filter fun o => occRegion s o == g).map fun o =>
        occEntry o.row o.variant o.set o.table 0 o.position o.bag o.weight
      sendEntries (g / 4) g 5 step 32 es s) s

/-- The step that a packet's STEP_LO names, near the current one. -/
def nearStep (s : State) (lo : Nat) : Nat :=
  let n := curStep s
  let base := n / 2 ^ 32 * 2 ^ 32 + lo
  if base + 2 ^ 31 < n then base + 2 ^ 32 else if n + 2 ^ 31 < base then base - 2 ^ 32 else base

/-- Order of (bag, position) pairs. -/
def pairLe (a b : Nat × Nat) : Bool := decide (a.1 < b.1) || (a.1 == b.1 && decide (a.2 ≤ b.2))

/-- OCCURRENCES: the entries of a packet are stored, and the slots of the step are counted with them (R144, R152). -/
def takeOccurrences (p : GPacket) (s : State) : State :=
  let step := nearStep s p.stepLo
  let os := (pieces 32 p.data).map fun e =>
    ({ step := step, set := field e 7 1, table := field e 8 2, row := field e 0 5, variant := field e 5 2 % 1024
       bag := field e 16 8, position := field e 12 4, weight := BitVec.ofNat 32 (field e 24 4), home := 0, partner := true } : Occ)
  let os := os.filter fun o => declared s o.set o.table
  let s := { s with step := { s.step with occs := s.step.occs ++ os } }
  if step = curStep s && pastGather s step && curStation s != 5 then allocateSlots step s else s

/-- The home region of a row of a declared table. -/
def rowRegion (s : State) (set table row : Nat) : Option Nat :=
  match (tableSet s set).bind fun ts => tableOf ts table with
  | some d => if inMyBand s d row then some (homeGroup s d row) else none
  | none => none

/-- CONTRIBUTIONS: entries of rows that this module leads join their target slices; one of a row that it does not hold is
refused (R150), and one of a row that it holds but does not lead is not for it to add (R151).  The answer is a status. -/
def takeContributions (p : GPacket) (s : State) : Nat × State :=
  let step := nearStep s p.stepLo
  let es := pieces 96 p.data
  let holds (e : Bytes) : Bool := (rowRegion s (field e 7 1) (field e 8 2) (field e 0 5)).isSome
  let bad := es.filter fun e => !(holds e)
  let s := forEach (es.filter fun e => holds e && ledIn s step (field e 0 5)) (fun e s =>
    let c : Contribution := { bag := field e 16 8, position := field e 12 4, weight := BitVec.ofNat 32 (field e 24 4), grads := codesOf (slice e 32 64) }
    let g := (rowRegion s (field e 7 1) (field e 8 2) (field e 0 5)).getD 0
    contribute step g (field e 7 1) (field e 8 2) (field e 0 5) (field e 5 2 % 1024) (field e 10 1) c (count E.TWIN_FORWARDS s)) s
  if bad.isEmpty then (0, s)
  else (0x0601, raiseOnceRun 0x0601 step (countN E.NOT_OWNER_REFUSED bad.length s))

/-! ## Checks of a gradient message (R131, R132, R134) -/

/-- A gradient message from its bytes. -/
def gradMsgOf (b : Bytes) : GradMsg :=
  let wide (c : Bytes) : List W32 := if gradFormat b = 1 then (pieces 2 c).map fun x => d16toF32 (leNat x) else codesOf c
  { step := gradStep b, t := gradT b, firstSample := gradFirst b, table := gradTable b, set := gradSet b
    variant := gradVariant b, source := gradSource b, format := gradFormat b, samples := gradSamples b
    slices := gradSlices b, firstSlice := gradFirstSlice b, sender := gradSender b
    values := wide ((b.drop 64).take (gradBodyBytes b)) }

/-- Whether a message's range of samples and table takes in a bag of a set. -/
def msgHasBag (m : GradMsg) (set bag : Nat) : Bool :=
  m.set == set && bag % 65536 == m.table && decide (m.firstSample ≤ bag / 65536) && decide (bag / 65536 < m.firstSample + m.samples)

def msgHasSlice (m : GradMsg) (slice : Nat) : Bool := decide (m.firstSlice ≤ slice) && decide (slice < m.firstSlice + m.slices)

/-- The occurrences of a region that a message's samples concern. -/
def msgRetained (s : State) (m : GradMsg) : List Occ := (retained s m.step).filter fun o => msgHasBag m o.set o.bag

/-- Check 1: ranges, declaration, VARIANT. -/
def malformed (s : State) (m : GradMsg) (os : List Occ) : Bool :=
  m.samples == 0 || decide (1024 < m.samples) || m.slices == 0 || decide (16 < m.slices) || !(declared s m.set m.table)
    || m.values.length != m.samples * m.slices * 16 || os.any fun o => o.variant != m.variant

/-- Check 2: whether every slice is one of this position's local slices. -/
def ownSlices (s : State) (m : GradMsg) : Bool :=
  match (tableSet s m.set).bind fun ts => tableOf ts m.table with
  | some d =>
    let lo := firstSliceAt s d (myPosition s)
    decide (lo ≤ m.firstSlice) && decide (m.firstSlice + m.slices ≤ lo + localSlices s d)
  | none => false

/-- Whether two messages of one region overlap in (sample, table, slice). -/
def overlaps (a b : GradMsg) : Bool :=
  a.set == b.set && a.table == b.table && decide (a.firstSample < b.firstSample + b.samples)
    && decide (b.firstSample < a.firstSample + a.samples) && decide (a.firstSlice < b.firstSlice + b.slices)
    && decide (b.firstSlice < a.firstSlice + a.slices)

/-- What a region does with a message. -/
inductive Verdict where
  | refuse (code : Nat) (ahead : Bool)
  | accept
  | early
  | later
  deriving DecidableEq, Repr

/-! ## Order of consumption (R142) -/

/-- The (bag, slice) pairs that a region retains occurrences for, with their sets. -/
def regionPairs (s : State) (g step : Nat) : List (Nat × Nat × Nat) :=
  let os := (retained s step).filter fun o => occRegion s o == g
  ((os.map fun o => (o.set, o.bag)).eraseDups).flatMap fun k =>
    match (tableSet s k.1).bind fun ts => tableOf ts (k.2 % 65536) with
    | some d => (upto (localSlices s d)).map fun j => (k.1, k.2, firstSliceAt s d (myPosition s) + j)
    | none => []

/-- Whether a (set, bag, slice) of a region has been consumed. -/
def consumed (s : State) (g : Nat) (k : Nat × Nat × Nat) : Bool :=
  let has (x : Staged) : Bool := x.region == g && msgHasBag x.msg k.1 k.2.1 && msgHasSlice x.msg k.2.2
  s.step.coverage.any has && !(s.step.staged.any has)

/-- The place of a message in the order: its first (sample, table, slice), as (bag number, slice). -/
def msgFirst (m : GradMsg) : Nat × Nat := (m.firstSample * 65536 + m.table, m.firstSlice)

def before (a b : Nat × Nat) : Bool := pairLe a b && a != b

/-- Whether everything that precedes a message in a region has been consumed. -/
def isNextIn (s : State) (g step : Nat) (m : GradMsg) : Bool :=
  (regionPairs s g step).all fun k => !(before (k.2.1, k.2.2) (msgFirst m)) || consumed s g k

def earlyBytes (s : State) (g : Nat) : Nat := ((s.step.early.filter fun x => x.region == g).map fun x => gradMsgBytes x.msg).sum

/-- R132, R134, R135, R142: the verdict of a region. -/
def verdict (s : State) (g : Nat) (m : GradMsg) : Verdict :=
  let os := (msgRetained s m).filter fun o => occRegion s o == g
  if malformed s m os then .refuse 0x0602 false
  else if !(ownSlices s m) then .refuse 0x0601 false
  else
    let n := gradStepNow s
    let t := match tableSet s m.set with
      | some ts => ts.t
      | none => 0
    let dup := m.step == n && s.step.coverage.any fun x => x.region == g && x.msg.step == m.step && overlaps x.msg m
    if m.t = t && m.step = n && !dup then
      (if admits s g (gradMsgBytes m) (isNextIn s g n m) then .accept else .later)
    else if m.t = t + 1 && m.step = n + 1 then
      (if earlyBytes s g + gradMsgBytes m ≤ setting s E.EARLY_QUEUE_KIB * 1024 then .early else .later)
    else if m.t < t || dup then .refuse 0x0603 false
    else .refuse 0x0604 true

/-- The counter of a refusal. -/
def refusalCounter (code : Nat) : Nat :=
  if code = 0x0602 then E.MALFORMED_REFUSED
  else if code = 0x0601 then E.NOT_OWNER_REFUSED
  else if code = 0x0603 then E.STALE_REFUSED
  else E.AHEAD_REFUSED

/-- Carries out a region's verdict. -/
def applyVerdict (m : GradMsg) (x : Nat × Verdict) (s : State) : State :=
  match x.2 with
  | .accept => { s with step := { s.step with coverage := s.step.coverage ++ [⟨x.1, m⟩], staged := s.step.staged ++ [⟨x.1, m⟩] } }
  | .early => count E.EARLY_HELD { s with step := { s.step with early := s.step.early ++ [⟨x.1, m⟩] } }
  | .later => s
  | .refuse code ahead =>
    let s := raiseOnceRunAt code (unitCoord s (x.1 / 4) (x.1 % 4) 2 9) m.firstSample (count (refusalCounter code) s)
    if ahead then { s with step := { s.step with ahead := s.step.ahead + 1 } } else s

/-- The regions that check a message: those that retain an occurrence of one of its samples, else the receiving one. -/
def msgRegions (s : State) (m : GradMsg) (receiving : Nat) : List Nat :=
  let gs := sixteen.filter fun g => (msgRetained s m).any fun o => occRegion s o == g
  if gs.isEmpty then [receiving] else gs

/-- The status of a message's verdicts: RETRY_LATER while a region has no room for it; else the first refusal, where a
duplicate in one region (R135) is none while another accepts the message; else 0. -/
def gradStatus (vs : List Verdict) : Nat :=
  let taken := vs.any fun v => v == .accept || v == .early
  if vs.contains .later then 0x0811
  else firstCode (vs.map fun v => match v with
    | .refuse c _ => (!(taken && c == 0x0603), c)
    | _ => (false, 0))

/-- GRAD_MSG: the answer's status, and each region's verdict carried out (R132, R142). -/
def takeGrad (m : Msg) (s : State) : Nat × State :=
  let g := gradMsgOf m.body
  if s.twin.failStep = some g.step && (msgRetained s g).isEmpty then (0, s)
  else
    let held := !((msgRetained s g).isEmpty)
    let vs := (msgRegions s g m.region).map fun r => (r, verdict s r g)
    let code := gradStatus (vs.map Prod.snd)
    let s := whenS (code == 0x0811) (count E.STAGING_RETRIES) s
    (code, forEach (vs.filter fun v => held || v.2 != .accept) (applyVerdict g) s)

/-- R135: at COMMIT held messages are released in arrival order and checked as messages of the next step. -/
def releaseEarly (s : State) : State :=
  let es := s.step.early
  forEach es (fun x s =>
    let v := verdict s x.region x.msg
    applyVerdict x.msg (x.region, if v = .later then .accept else v) s) { s with step := { s.step with early := [] } }

/-! ## Consuming (R142) -/

/-- The values of one slice of one sample of a message. -/
def msgGrad (m : GradMsg) (sample slice : Nat) : List W32 :=
  (m.values.drop (((sample - m.firstSample) * m.slices + (slice - m.firstSlice)) * 16)).take 16

/-- Expands a message in a region: each contribution to its target slice here, or forwarded to the partner that leads. -/
def expand (g step : Nat) (m : GradMsg) (s : State) : State :=
  match (tableSet s m.set).bind fun ts => tableOf ts m.table with
  | none => s
  | some d =>
    let lo := firstSliceAt s d (myPosition s)
    let os := sortOccs ((msgRetained s m).filter fun o => occRegion s o == g)
    let cs := os.flatMap fun o => (upto m.slices).map fun i => (o, m.firstSlice + i - lo,
      ({ bag := o.bag, position := o.position, weight := o.weight, grads := msgGrad m (o.bag / 65536) (m.firstSlice + i) } : Contribution))
    let s := forEach (cs.filter fun c => ledIn s step c.1.row) (fun c =>
      contribute step g c.1.set c.1.table c.1.row c.1.variant c.2.1 c.2.2) s
    let out := if isPaired s then cs.filter fun c => !(ledIn s step c.1.row) else []
    sendEntries (g / 4) g 6 step 96 (out.map fun c =>
      occEntry c.1.row c.1.variant c.1.set c.1.table c.2.1 c.2.2.position c.2.2.bag c.2.2.weight ++ codesLe c.2.2.grads)
      (countN E.TWIN_FORWARDS out.length s)

/-- The staged message of a region that is next in order, while the module serves its run (R29). -/
def nextStaged (s : State) (g : Nat) : Option Staged :=
  let l := if !(serves s) then [] else (s.step.staged.filter fun x => x.region == g).mergeSort fun a b => pairLe (msgFirst a.msg) (msgFirst b.msg)
  match l with
  | [] => none
  | x :: _ => if isNextIn s g x.msg.step x.msg then some x else none

/-- GRAD_CONSUME: a region consumes the message that is next in order. -/
def consume (g : Nat) (s : State) : State :=
  match nextStaged s g with
  | none => s
  | some x =>
    if !(pastGather s x.msg.step) then s
    else expand g x.msg.step x.msg { s with step := { s.step with staged := s.step.staged.erase x } }

/-- Whether every gradient of a step that this module waits for has been consumed and coalesced. -/
def gradsDone (s : State) (step : Nat) : Bool :=
  (sixteen.all fun g => (regionPairs s g step).all (consumed s g)) && s.step.accs.all fun a => !a.slot || a.complete

/-- R452: at a failover the survivor expects nothing more from its partner. -/
def dropPartner (step : Nat) (s : State) : State :=
  let keep (a : Acc) (p : Nat × Nat) : Bool := sideBag s p.1 || a.held.any fun c => c.bag == p.1 && c.position == p.2
  forEach s.step.accs (fun a s =>
    settleAcc step { a with expect := a.expect.filter (keep a) } s) s

end Sys2Proof.Machine
end

