-- ==== Sys2Proof/Machine/Apply.lean ====
section
/-!
DEFINITION. Applying an update (R97 to R103, R146 to R149, R157, R163 to R166, R178, R179, R439): what a lane reads, the
program's inputs, STORE conversions, overlay creation and directory insertion.
-/
namespace Sys2Proof.Machine

/-! ## Fields as the lane reads them (R165) -/

/-- Exact values as F32 codes. -/
def exactF32 (v : ExactNum) : W32 := f32round .rz 0 v

/-- W, M1, M2 of a record, and the saturation events that reading M1 counts (R56). -/
def readFields (mode : Nat) (b : Bytes) (marks : List Nat) : (List W32 × List W32 × List W32) × Nat :=
  let w := (weightsOf mode b).map exactF32
  if isCompat mode then
    let f (base e : Nat) : W32 := exactF32 (f32val (BitVec.ofNat 32 (field b (base + 4 * e) 4)))
    ((w, (upto 16).map (f 72), (upto 16).map (f 136)), 0)
  else
    let k := nthD 0 marks 1
    let m1 := (upto 16).map fun e => m16val (field b (56 + 2 * e) 2) (markExpM k)
    let m2 := (upto 16).map fun e => s8val (field b (88 + e) 1) (markExpS k)
    ((w, m1.map fun x => exactF32 x.1, m2.map exactF32), (m1.map Prod.snd).sum)

/-! ## STORE (R178, R179) -/

/-- A record while STORE writes it: bytes, the block exponents, the counts, and the W elements for the watch. -/
structure Stored where
  bytes : Bytes
  expM : Nat
  expS : Nat
  tally : Tally := {}
  elems : List WatchElem := []
  deriving DecidableEq, Repr

def addTally (t : Tally) (r : Stored) : Stored := { r with tally := tallyAdd r.tally t }

/-- A scalar record field: infinities saturate (R65). -/
def recEncode (f : Fmt) (width : Nat) (mode : Mode) (g : Nat) (v : ExactNum) : Nat × Tally :=
  match v with
  | .inf s => (b2n s * 2 ^ (width - 1) + f.maxCode, { sat := 1 })
  | _ => scalarEncode f width mode g false v

/-- One element of W. -/
def storeW1 (mode : Nat) (e : Nat) (g : Nat) (c : W32) (r : Stored) : Stored :=
  let v := f32val c
  if f32isNan c then { addTally { nan := 1 } r with elems := r.elems ++ [watchElem .nan {} 0 false false] }
  else if isCompat mode then
    let x := recEncode fmtF32 32 .rne 0 v
    { addTally x.2 r with bytes := patch r.bytes (4 * e) (natLe 4 x.1), elems := r.elems ++ [watchScalar fmtF32 32 .rne 0 v x] }
  else if mode = 1 then
    let x := recEncode fmtD16E 24 .srd g v
    { addTally x.2 r with
      bytes := patch (patch r.bytes (2 * e) (natLe 2 (x.1 / 256))) (32 + e) (natLe 1 (x.1 % 256))
      elems := r.elems ++ [watchScalar fmtD16E 24 .srd g v x] }
  else
    let x := recEncode fmtD16 16 .srd g v
    { addTally x.2 r with bytes := patch r.bytes (2 * e) (natLe 2 x.1), elems := r.elems ++ [watchScalar fmtD16 16 .srd g v x] }

def storeW (mode : Nat) (at_ : Nat → GrainAt) (vs : List W32) (r : Stored) : Stored :=
  let r := (vs.zip (upto 16)).foldl (fun r p => storeW1 mode p.2 (srdDraw .weightStore (at_ p.2) 0) p.1 r) r
  if mode = 0 then { r with bytes := patch r.bytes 32 (zeros 16) } else r

/-- An F32 moment field of a Compat record. -/
def storeF32s (base : Nat) (vs : List W32) (r : Stored) : Stored :=
  (vs.zip (upto 16)).foldl (fun r p =>
    if f32isNan p.1 then addTally { nan := 1 } r
    else
      let x := recEncode fmtF32 32 .rne 0 (f32val p.1)
      { addTally x.2 r with bytes := patch r.bytes (base + 4 * p.2) (natLe 4 x.1) }) r

def storeM1 (mode : Nat) (at_ : Nat → GrainAt) (vs : List W32) (r : Stored) : Stored :=
  if isCompat mode then storeF32s 72 vs r
  else
    let n := (vs.filter f32isNan).length
    if 0 < n then addTally { nan := n } r
    else
      let x := m16encode .srd (vs.map f32val) ((upto 16).map fun e => srdDraw .moment1Store (at_ e) 0)
      { addTally x.2 r with bytes := patch r.bytes 56 (x.1.1.flatMap (natLe 2)), expM := x.1.2 }

def storeM2 (mode : Nat) (at_ : Nat → GrainAt) (vs : List W32) (r : Stored) : Stored :=
  if isCompat mode then storeF32s 136 vs r
  else
    let n := (vs.filter f32isNan).length
    if 0 < n then addTally { nan := n } r
    else
      let x := s8encode .srd (vs.map f32val) ((upto 16).map fun e => srdDraw .moment2Store (at_ e) 0)
      { addTally x.2 r with bytes := patch r.bytes 88 (x.1.1.flatMap (natLe 1)), expS := x.1.2 }

/-- Applies an optional store. -/
def optStore (o : Option (List W32)) (f : List W32 → Stored → Stored) (r : Stored) : Stored :=
  match o with
  | some vs => f vs r
  | none => r

/-- R83: the marks of a record written in step N. -/
def newMarks (mode step expM expS : Nat) : List Nat :=
  let stamp := step % 16
  if isCompat mode then List.replicate 4 (makeMark 0 0 stamp false false)
  else [makeMark 0 0 stamp false false, makeMark expM expS stamp false false]

/-! ## One run of a program on a record (R147, R163, R166) -/

/-- What a run leaves: the record's bytes and marks, the counts, the W elements, and the registers. -/
structure Run where
  bytes : Bytes
  marks : List Nat
  tally : Tally
  elems : List WatchElem
  regs : Regs
  deriving DecidableEq, Repr

/-- R439: a gradient rounded to D16 and widened again. -/
def mirrorRound (at_ : Nat → GrainAt) (g : List W32) : List W32 × Tally :=
  tallyAll ((g.zip (upto 16)).map fun p =>
    let r := scalarEncode fmtD16 16 .srd (srdDraw .coalesceAdd (at_ p.2) 0xFFFFFFFE) false (f32val p.1)
    (d16toF32 r.1, r.2))

/-- R166: SKIP. -/
def skipCount (t last : Nat) : Nat := if last = 0 then 0 else (t % 2 ^ 32 + 2 ^ 33 - last - 1) % 2 ^ 32

def natF32 (n : Nat) : W32 := f32round .rne 0 (numOfNat n)

/-- The program of a slot. -/
def programAt (s : State) (slot : Nat) : Program :=
  match s.programs.find? fun p => p.slot == slot with
  | some p => p
  | none => { slot := slot, modes := 0, tag := 0, consts := [], code := [] }

/-- Runs a program on a record and stores its results (R147, steps 3 and 4). -/
def runRecord (mode step t occ : Nat) (norm clip : W32) (bank derived : List W32) (p : Program) (at_ : Nat → GrainAt)
    (g : List W32) (b : Bytes) (marks : List Nat) : Run :=
  let f := readFields mode b marks
  let x : ProgIn := {
    w := f.1.1, m1 := f.1.2.1, m2 := f.1.2.2, g := g, occ := natF32 (min occ (2 ^ 32 - 1)), t := natF32 t
    skip := natF32 (skipCount t (lastT mode b)), norm := norm, clip := clip, bank := bank, derived := derived
    consts := p.consts, origin := at_ 0 }
  let r := runProgram x p.code
  let k := nthD 0 marks 1
  let s0 : Stored := { bytes := b, expM := markExpM k, expS := markExpS k }
  let s1 := optStore r.sw (storeW mode at_) s0
  let s2 := optStore r.sm1 (storeM1 mode at_) s1
  let s3 := optStore r.sm2 (storeM2 mode at_) s2
  let um := updateMetaOf mode b / 2 ^ 32 * 2 ^ 32 + t % 2 ^ 32
  { bytes := putUpdateMeta mode um s3.bytes, marks := newMarks mode step s3.expM s3.expS
    tally := tallyAdd (tallyAdd r.tally s3.tally) { sat := f.2 }, elems := s3.elems, regs := r }

/-- Counts a lane's run (R182, R187). -/
def countRun (lane : Nat) (r : Run) (s : State) : State :=
  let s := count E.PROGRAM_RUNS (countTally r.tally s)
  let s := countN E.INVR_CALLS r.regs.calls s
  let s := countN E.INVR_DAMPED r.regs.damped s
  let s := countN E.INVR_FALLBACKS r.regs.fallbacks s
  whenS (decide (0 < r.regs.fallbacks)) (fun s => raiseOnceRunAt 0x0615 lane 0 (setReg E.INVR_FALLBACK_FLAG 1 s)) s

/-! ## Norm and clip (R157) -/

def normIn (s : State) (step : Nat) : Option (W32 × W32) :=
  if s.twin.opStep = some step then some (s.twin.opNorm, s.twin.opClip) else none

/-- The norm and clip that programs of a step receive; none while they are not known. -/
def stepNorm (s : State) (step : Nat) : Option (W32 × W32) :=
  let find (n : Nat) : Option (W32 × W32) := (s.step.norms.find? fun x => x.1 == n).map Prod.snd
  let m := setting s E.NORM_MODE
  if m = 0 then some (f32zero, f32one)
  else if m = 2 then
    (if step = s.plan.s0 then some (f32zero, f32one)
     else match find (step - 1) with
       | some x => some x
       | none => normIn s step)
  else match find step with
    | some x => some x
    | none => normIn s step

/-! ## Overlays (R100 to R103) -/

def findNew (s : State) (g set table row variant : Nat) : Option NewOverlay :=
  s.step.newOverlays.find? fun o => o.region == g && o.set == set && o.table == table && o.row == row && o.variant == variant

/-- A base record as it stood at OPEN of the step. -/
def baseAtOpen (home mode : Nat) (s : State) : (Bytes × List Nat) × State :=
  match s.step.preBase.find? fun e => e.1 == home with
  | some e => (e.2, s)
  | none => readRecord home 0 (recSectors mode) s

/-- Keeps what a base record held before its first write of the step, where an overlay of it could still be made. -/
def keepBase (ts : TableSet) (home : Nat) (b : Bytes) (marks : List Nat) (s : State) : State :=
  if ts.variants ≤ 1 || (s.step.preBase.any fun e => e.1 == home) then s
  else { s with step := { s.step with preBase := (home, b, marks) :: s.step.preBase } }

/-- ROW_META and UPDATE_META of a new overlay. -/
def overlayBytes (mode variant : Nat) (b : Bytes) : Bytes :=
  let rm := 1 + (rowMetaOf mode b &&& 2) + variant * 2 ^ 16
  putUpdateMeta mode (lastT mode b + 0xFFFFFFFF * 2 ^ 32) (putRowMeta mode rm b)

/-- The marks of a copied record: the stamp of the step whose update creates it (R83), and POISON as copied (R271). -/
def copiedMark (step m : Nat) : Nat := makeMark (markExpM m) (markExpS m) (step % 16) (markPoison m) false

/-- R100: creates the overlay of a row, with k records; none when it fails (R103). -/
def createOverlay (step : Nat) (ts : TableSet) (d : TableDecl) (row variant : Nat) (s : State) : Option Nat × State :=
  let g := homeGroup s d row
  let k := localSlices s d
  let r := takePool g ts.mode k s
  let note (o : Option Nat) (s : State) : State :=
    { s with step := { s.step with newOverlays := s.step.newOverlays ++ [⟨g, ts.number, d.table, row, variant, o⟩] } }
  match r.1 with
  | none =>
    (none, note none (raiseOnceRunAt 0x0507 (unitCoord s (g / 4) (g % 4) 2 9) row (count E.OVERLAY_POOL_DROPS r.2)))
  | some first =>
    let s := forEach (upto k) (fun j s =>
      let b := baseAtOpen (baseRecord s ts d row j) ts.mode s
      let home := overlayRecord b.2 g ts.mode first j
      let s := countN E.POISON_PROPAGATED (b.1.2.filter markPoison).length b.2
      noteRecord home (storeRecord home (overlayBytes ts.mode variant b.1.1) (b.1.2.map (copiedMark step))
        (beforeRecordWrite home ts.mode false s))) r.2
    (some first, note (some first) s)

/-- Order of the directory insertions of a step (R102). -/
def newLe (a b : NewOverlay) : Bool := keyLe (a.set, a.table, a.row, a.variant) (b.set, b.table, b.row, b.variant)

/-- R102, R103: inserts the directory entry of a new overlay, or drops it when 64 probes find no empty entry. -/
def insertOverlay (step : Nat) (o : NewOverlay) (s : State) : State :=
  match o.record, (tableSet s o.set).bind fun ts => (tableOf ts o.table).map fun d => (ts, d) with
  | some first, some td =>
    let ts := td.1
    let d := td.2
    let s := dirRead o.region o.set o.table o.row o.variant s
    match dirFind s o.region o.set o.table o.row o.variant with
    | .empty slot =>
      let head := readRecord (baseRecord s ts d o.row 0) 0 (recSectors ts.mode) s
      let s := putDir o.region slot { row := o.row, table := o.table, set := o.set, variant := o.variant, record := first
                                      next := overlayHead ts.mode head.1.1, firstStep := step % 2 ^ 32 } head.2
      let s := forEach (upto (localSlices s d)) (fun j s =>
        let home := baseRecord s ts d o.row j
        let r := readRecord home 0 (recSectors ts.mode) s
        let b := putUpdateMeta ts.mode (lastT ts.mode r.1.1 + slot % 2 ^ 32 * 2 ^ 32) r.1.1
        noteRecord home (storeRecord home b r.1.2 (beforeRecordWrite home ts.mode false r.2))) s
      count E.OVERLAYS_CREATED (noteRecopy (dirPage s o.region slot) s)
    | .full =>
      let s := returnPool o.region ts.mode (localSlices s d) first s
      raiseOnceRunAt 0x0506 (unitCoord s (o.region / 4) (o.region % 4) 2 9) o.row (count E.OVERLAY_DIR_DROPS s)
    | .hit _ _ => s
  | _, _ => s

/-- Before COMMIT: the overlays of the step enter the directory in ascending order. -/
def insertOverlays (step : Nat) (s : State) : State :=
  forEach (s.step.newOverlays.mergeSort newLe) (insertOverlay step) { s with step := { s.step with newOverlays := [] } }

/-! ## One target slice (R147 to R149) -/

/-- Where a target lies: an existing record, or an overlay yet to be created from its base. -/
inductive Where_ where
  | at (home : Nat) (overlay : Bool)
  | create (base : Nat)
  | dropped
  deriving DecidableEq, Repr

def locate (s : State) (ts : TableSet) (d : TableDecl) (row variant slice : Nat) : Where_ :=
  let base := baseRecord s ts d row slice
  if variant = 0 then .at base false
  else if ts.variants ≤ variant then .dropped
  else
    let g := homeGroup s d row
    match dirFind s g ts.number d.table row variant with
    | .hit _ e => .at (overlayRecord s g ts.mode e.record slice) true
    | _ =>
      match findNew s g ts.number d.table row variant with
      | some o =>
        match o.record with
        | some first => .at (overlayRecord s g ts.mode first slice) true
        | none => .dropped
      | none => .create base

/-- R146: the Burin lane of the record at a place in an area: the record number (R88) plus the table's, modulo 8. -/
def burinLane (s : State) (start home mode table : Nat) : Nat :=
  let sp := spotOf s (addrOff home)
  unitCoord s (addrDie home) sp.region 2 ((recordIndex mode (home - start) + table) % 8)

/-- The first byte of the area that holds a table's record: the table area, or the overlay pool. -/
def recordArea (s : State) (g : Nat) (d : TableDecl) (mode : Nat) (overlay : Bool) : Nat :=
  recordAt g (if overlay then s.plan.slowTable else d.baseGranule) mode 0

/-- Runs the program on the record at a place, and writes it; the W elements are the watch's to count. -/
def updateAt (step : Nat) (ts : TableSet) (d : TableDecl) (row variant slice home occ : Nat) (g : List W32) (norm clip : W32)
    (s : State) : List WatchElem × State :=
  let rd := readRecord home 0 (recSectors ts.mode) s
  let s := rd.2
  let at_ (e : Nat) : GrainAt := elemAt s ts d step row variant slice e
  let r := runRecord ts.mode step ts.t occ norm clip ts.bank ts.derived (programAt s d.program) at_ g rd.1.1 rd.1.2
  let s := if variant = 0 then keepBase ts home rd.1.1 rd.1.2 s else s
  let s := beforeRecordWrite home ts.mode false s
  let slow := (cachedAt s home).isNone && !(isPinnedCopy s home)
  let s := storeRecord home r.bytes r.marks s
  let lane := burinLane s (recordArea s (homeGroup s d row) d ts.mode (variant != 0)) home ts.mode d.table
  (r.elems, whenS slow (count E.SLOW_TIER_UPDATES) (count E.SLICE_UPDATES (countRun lane r s)))

/-- Whether an update is skipped (R149), with its counts; what is read is the target, or the base of an overlay to be
created, by a lane. -/
def skips (lane mode home : Nat) (s : State) : Bool × State :=
  let rd := readRecord home 0 (recSectors mode) s
  let s := rd.2
  if isFrozen mode rd.1.1 && !(rd.1.2.any markPoison) then (true, count E.FROZEN_SKIPS s)
  else if rd.1.2.any markPoison then (true, raiseOnceRunAt 0x0609 lane home (count E.POISON_SKIPS s))
  else (false, s)

/-- The target slice's own update, and what the watch counts of it (R236, R243): the stored W elements, and whether a
coalesced gradient element is not zero. -/
def updateHere (step : Nat) (ts : TableSet) (d : TableDecl) (row variant slice home occ : Nat) (g : List W32) (norm clip : W32)
    (s : State) : State :=
  let u := updateAt step ts d row variant slice home occ g norm clip s
  watchStores (watchSlotOf u.2 true ts.number d.table) u.1 (g.any fun x => !(f32isZero x)) u.2

/-- Applies one coalesced gradient to a target slice.  The answer: the record written, whether it is an overlay and
whether this update created it; none when nothing was written. -/
def updateSlice (step : Nat) (ts : TableSet) (d : TableDecl) (row variant slice occ : Nat) (g : List W32) (norm clip : W32)
    (s : State) : Option (Nat × Bool × Bool) × State :=
  let lane (overlay : Bool) (home : Nat) : Nat := burinLane s (recordArea s (homeGroup s d row) d ts.mode overlay) home ts.mode d.table
  match locate s ts d row variant slice with
  | .dropped => (none, s)
  | .at home overlay =>
    let k := skips (lane overlay home) ts.mode home s
    if k.1 then (none, k.2)
    else (some (home, overlay, false), updateHere step ts d row variant slice home occ g norm clip k.2)
  | .create base =>
    let k := skips (lane false base) ts.mode base s
    if k.1 then (none, k.2)
    else
      let c := createOverlay step ts d row variant k.2
      match c.1 with
      | none => (none, c.2)
      | some first =>
        let home := overlayRecord c.2 (homeGroup c.2 d row) ts.mode first slice
        (some (home, true, true), updateHere step ts d row variant slice home occ g norm clip c.2)

/-- Whether the overlay of a target has still to be created. -/
def overlayMissing (s : State) (ts : TableSet) (d : TableDecl) (row variant slice : Nat) : Bool :=
  match locate s ts d row variant slice with
  | .create _ => true
  | _ => false

/-- R101: whether a variant of the row below this one has its overlay still to come in this step. -/
def lowerVariantOpen (s : State) (ts : TableSet) (d : TableDecl) (row variant : Nat) : Bool :=
  s.step.accs.any fun a => a.set == ts.number && a.table == d.table && a.row == row && decide (0 < a.variant)
    && decide (a.variant < variant) && a.slot && !a.applied && overlayMissing s ts d row a.variant a.slice

/-- Whether a target slice waits for the overlay of a lower variant (R101). -/
def awaitsLower (s : State) (ts : TableSet) (d : TableDecl) (row variant slice : Nat) : Bool :=
  decide (0 < variant) && overlayMissing s ts d row variant slice && lowerVariantOpen s ts d row variant

/-- Whether a lane may apply a target slice now: it is complete, and the module serves its run (R29). -/
def applies (s : State) (a : Acc) (region set table row variant slice : Nat) : Bool :=
  serves s && sameTarget a region set table row variant slice && a.complete && !a.applied && a.slot

/-- TARGET_SLICE_APPLY: a lane applies a completed target slice once its operands are known. -/
def applyTarget (region set table row variant slice : Nat) (s : State) : State :=
  let step := curStep s
  match s.step.accs.find? fun a => applies s a region set table row variant slice,
        (tableSet s set).bind fun ts => (tableOf ts table).map fun d => (ts, d), stepNorm s step with
  | some a, some td, some nc =>
    let ts := td.1
    let d := td.2
    let s := resolveReads ts d row variant s
    if awaitsLower s ts d row variant slice then s
    else
      let m := if s.plan.paired then mirrorRound (elemAt s ts d step row variant slice) a.values else (a.values, {})
      let s := countTally m.2 (putAcc { a with applied := true } s)
      let r := updateSlice step ts d row variant slice a.count m.1 nc.1 nc.2 s
      match r.1 with
      | none => r.2
      | some h =>
        let s := whenS (mirrors r.2) (sendOperands step nc.1 nc.2) r.2
        mirrorTable step h.1 { kind := 0, set := set, table := table, row := row, variant := variant, slice := slice }
          h.2.1 h.2.2 a.count m.1 s
  | _, _, _ => s

/-- Whether every target slice of the step has been applied or skipped. -/
def targetsDone (s : State) : Bool := s.step.accs.all fun a => !a.slot || a.applied

end Sys2Proof.Machine
end

