-- ==== Sys2Proof/Machine/Reduce.lean ====
section
/-!
DEFINITION. Collectives (R153 to R160, R328 to R331): dense shards, their update and multicast, the Ledger tree with norm
and clip, and step agreement.
-/
namespace Sys2Proof.Machine

/-! ## Dense groups (R158, R159, R328) -/

/-- The coordinates of element e of a group. -/
def groupAt (s : State) (t : Tensor) (step i e : Nat) : GrainAt :=
  ⟨s.plan.seed, step, groupRow t i, 16 * groupCol t i + e, t.number, 0, 0⟩

/-- The members whose partials a shard's owner waits for. -/
def awaitedMembers (s : State) : List Nat := (upto (memberCount s)).filter fun k => !(isLost s k && k != myOrder s)

/-- The partial of a group that a member has sent. -/
def partOf (s : State) (shard k group : Nat) : Option (List W32) :=
  (s.step.shardParts.find? fun p => p.shard == shard && p.order == k && decide (p.firstGroup ≤ group)
    && decide (group < p.firstGroup + p.values.length / 16)).map fun p => (p.values.drop ((group - p.firstGroup) * 16)).take 16

/-- R328: the sum of the members' partials of a group, with non-finite elements made NaN (R145). -/
def reduceGroup (s : State) (x : ShardRef) (step group : Nat) (parts : List (Nat × List W32)) : (List W32 × Nat) × Tally :=
  let at_ := groupAt s x.tensor step (x.first + group)
  let bad (e : Nat) : Bool := parts.any fun p => !(f32finite (nthD 0 p.2 e))
  let r := tallyAll ((upto 16).map fun e =>
    if bad e then (f32nan, {})
    else parts.foldl (fun (a : W32 × Tally) p =>
      let q := srdAdd (srdDraw .combineAdd (at_ e) (0x40000000 + p.1)) a.1 (f32val (nthD 0 p.2 e))
      (q.1, tallyAdd a.2 q.2)) (f32zero, {}))
  ((r.1, ((upto 16).filter bad).length), r.2)

def groupDone (s : State) (shard group : Nat) : Bool := s.step.dense.any fun g => g.shard == shard && g.group == group

/-- Reduces one group when every awaited partial of it has come. -/
def tryGroup (x : ShardRef) (step group : Nat) (s : State) : State :=
  let ps := (awaitedMembers s).map fun k => (k, partOf s x.shard k group)
  if groupDone s x.shard group || ps.any fun p => p.2.isNone then s
  else
    let r := reduceGroup s x step group (ps.map fun p => (p.1, p.2.getD []))
    let s := countN E.GRAD_NONFINITE r.1.2 (countTally r.2 s)
    let s := if r.1.2 = 0 then s else raiseOnceRun 0x0607 x.shard s
    normAdd r.1.1 { s with step := { s.step with dense := s.step.dense ++ [⟨x.shard, group, false, r.1.1⟩] } }

/-- R159: one reduced group is applied to its record. -/
def applyGroup (x : ShardRef) (step : Nat) (norm clip : W32) (g : DenseDone) (s : State) : State :=
  let t := x.tensor
  let mode := tensorMode s t
  let i := x.first + g.group
  let home := denseRecord s x g.group
  let at_ := groupAt s t step i
  let m := if s.plan.paired then mirrorRound at_ g.grads else (g.grads, {})
  let s := countTally m.2 { s with step := { s.step with dense := s.step.dense.map fun y =>
    if y.shard == g.shard && y.group == g.group then { y with applied := true } else y } }
  let lane := burinLane s s.plan.denseAddr home mode t.number
  let k := skips lane mode home s
  if k.1 then k.2
  else
    match tableSet s t.tableSet with
    | none => k.2
    | some ts =>
      let rd := readRecord home 0 (recSectors mode) k.2
      let r := runRecord mode step ts.t 1 norm clip ts.bank ts.derived (programAt s t.program) at_ m.1 rd.1.1 rd.1.2
      let s := storeRecord home r.bytes r.marks (beforeRecordWrite home mode true rd.2)
      let slow := (spotOf s (addrOff home)).portion == .slowFlat
      let s := whenS slow (count E.SLOW_TIER_UPDATES) (count E.DENSE_GROUP_UPDATES (countRun lane r s))
      let s := whenS (mirrors s) (sendOperands step norm clip) s
      mirrorDense step home ((ownedAll s).findIdx? (fun e => e == (x.shard, g.group)) |>.getD 0) m.1 s

/-! ## The multicast of a shard (R160, R331) -/

/-- FIELD_BYTES of a group. -/
def fieldBytes (mode : Nat) : Nat := if mode = 0 then 32 else if mode = 1 then 48 else 64

/-- Where byte `o` of the fields of a tensor's group lies in the replica. -/
def replicaAddr (mode : Nat) (t : Tensor) (i o : Nat) : Nat :=
  if isCompat mode then t.addr + 64 * i + o
  else if o < 32 then t.addr + 32 * i + o
  else t.addr + 2 * t.rows * t.cols + 16 * i + (o - 32)

/-- The fields of a group as the replica holds them, and whether they are poisoned. -/
def replicaFields (mode : Nat) (t : Tensor) (i : Nat) (s : State) : (Bytes × Bool) × State :=
  let n := if isCompat mode then 64 else 32
  let a := readRange (replicaAddr mode t i 0) n s
  if mode = 1 then
    let b := readRange (replicaAddr mode t i 32) 16 a.2
    ((a.1.1 ++ b.1.1, a.1.2 || b.1.2), b.2)
  else a

/-- Writes bytes, and counts the sectors that it writes poisoned (R271). -/
def writeCounted (a : Nat) (b : Bytes) (poison : Bool) (s : State) : State :=
  if b.isEmpty then s
  else writeRange a b poison (whenS poison (countN E.POISON_PROPAGATED (touched a b.length).length) s)

/-- Writes some bytes of a group's fields, from byte `o` of them, into the replica. -/
def writeFields (mode : Nat) (t : Tensor) (i o : Nat) (b : Bytes) (poison : Bool) (s : State) : State :=
  let n := if isCompat mode then 64 else 32
  writeCounted (replicaAddr mode t i (max o n)) (b.drop (n - o)) poison
    (writeCounted (replicaAddr mode t i o) (b.take (n - o)) poison s)

/-- Reads `len` bytes of a group's fields, from byte `o` of them, back from the replica, and whether they are poisoned. -/
def readGroup (mode : Nat) (t : Tensor) (i o len : Nat) (s : State) : (Bytes × Bool) × State :=
  let n := if isCompat mode then 64 else 32
  let k := min len (n - o)
  let a := if k = 0 then (([], false), s) else readRange (replicaAddr mode t i o) k s
  let c := if len = k then (([], false), a.2) else readRange (replicaAddr mode t i (max o n)) (len - k) a.2
  ((a.1.1 ++ c.1.1, a.1.2 || c.1.2), c.2)

/-- The header of a multicast message. -/
def castHead (step shard root first n fb : Nat) : Bytes :=
  natLe 8 step ++ natLe 4 shard ++ natLe 2 root ++ zeros 2 ++ natLe 4 first ++ natLe 4 n ++ natLe 1 fb ++ zeros 7

/-- Fragments forwarded in a tree (R331): one body to `n` children. -/
def countForwards (n : Nat) (body : Bytes) (s : State) : State := countN E.MCAST_FORWARDS (n * ceilDiv body.length 4080) s

/-- Sends groups of a shard, read back from the replica, to the children of some order in the tree from a root. -/
def castFrom (step : Nat) (x : ShardRef) (root me first n : Nat) (s : State) : State :=
  let mode := tensorMode s x.tensor
  let r := (upto n).foldl (fun (p : (Bytes × List Bool) × State) j =>
    let f := replicaFields mode x.tensor (x.first + first + j) p.2
    ((p.1.1 ++ f.1.1, p.1.2 ++ [f.1.2]), f.2)) (([], []), s)
  let fb := fieldBytes mode
  let bad := ((r.1.2.zip (upto n)).filter Prod.fst).flatMap fun q =>
    let lo := (32 + q.2 * fb) / 4080
    let hi := (32 + q.2 * fb + fb - 1) / 4080
    if lo = hi then [lo] else [lo, hi]
  let body := castHead step x.shard root first n fb ++ r.1.1
  let s := whenS (me == myOrder s && pairedAnew s != some root) (toReplacement 0x16 step body bad.eraseDups) r.2
  let s := whenS (me != root) (countForwards (castChildren s root me).length body) s
  forEach (castChildren s root me) (fun k => sendToMember 0 0x16 k step body bad.eraseDups .nobody) s

def noteShard (shard first n : Nat) (s : State) : State :=
  { s with step := { s.step with shardsIn := (shard, first, n) :: s.step.shardsIn } }

/-- Whether a shard's groups from `first` on are in the replica. -/
def shardIn (s : State) (shard first : Nat) : Bool := s.step.shardsIn.any fun e => e.1 == shard && e.2.1 == first

/-- R160: the owner copies the stored weight fields of a shard to its replica and multicasts them, in messages of at most
1 MiB of groups. -/
def castShard (step : Nat) (x : ShardRef) (root : Nat) (s : State) : State :=
  let mode := tensorMode s x.tensor
  let fb := fieldBytes mode
  let s := forEach (upto x.count) (fun j s =>
    let rd := readRecord (denseRecord s x j) 0 (fwdSectors mode) s
    let f := if mode = 0 then rd.1.1.take 32 else if mode = 1 then rd.1.1.take 48 else rd.1.1.take 64
    writeFields mode x.tensor (x.first + j) 0 f (rd.1.2.any markPoison) rd.2) s
  let per := 1048576 / fb
  forEach (upto (ceilDiv x.count per)) (fun i s =>
    let n := min per (x.count - i * per)
    castFrom step x root root (i * per) n (noteShard x.shard (i * per) n s)) s

/-- Applies what can be applied of a shard, and multicasts it when its last group is done. -/
def progressShard (step : Nat) (x : ShardRef) (s : State) : State :=
  let s := forEach (upto x.count) (tryGroup x step) s
  match stepNorm s step with
  | none => s
  | some nc =>
    let todo := s.step.dense.filter fun g => g.shard == x.shard && !g.applied
    let s := forEach todo (applyGroup x step nc.1 nc.2) s
    let all := (s.step.dense.filter fun g => g.shard == x.shard && g.applied).length == x.count
    if all && !(shardIn s x.shard 0) then castShard step x (myOrder s) s else s

/-- Whether this module updates a shard in a step. -/
def ledShard (s : State) (step shard : Nat) : Bool :=
  ownsShard s shard && (if s.twin.failStep = some step then shard % 2 == mySide s else leadsParity s shard)

/-- The shards that this module updates in a step. -/
def ledShards (s : State) (step : Nat) : List ShardRef := (allShards s).filter fun x => ledShard s step x.shard

/-- What a new norm lets go: the shards' apply pass. -/
def progressShards (step : Nat) (s : State) : State := forEach (ledShards s step) (progressShard step) s

/-- Whether no partial that this module still waits for precedes (shard, order). -/
def nextShardPart (s : State) (step shard order first : Nat) : Bool :=
  (ledShards s step).all fun x =>
    (awaitedMembers s).all fun k =>
      !(decide (x.shard < shard) || (x.shard == shard && decide (k < order)))
        || (upto x.count).all fun g => groupDone s x.shard g || (partOf s x.shard k g).isSome || (x.shard == shard && k == order && decide (first ≤ g))

/-- SHARD_GRAD: a member's partial of groups of a shard.  The answer is a status. -/
def takeShard (m : Msg) (s : State) : Nat × State :=
  let b := m.body
  let step := field b 0 8
  let shard := field b 8 4
  let order := field b 12 2
  let first := field b 16 4
  let vals := codesOf ((b.drop 32).take (64 * field b 20 4))
  if !(ownsShard s shard) || (shardRef s shard).isNone then
    (0x0601, raiseOnceRun 0x0601 shard (count E.NOT_OWNER_REFUSED s))
  else if step != curStep s || !(ledShard s step shard) then (0, s)
  else
    let known := s.step.shardParts.any fun p => p.shard == shard && p.order == order && p.firstGroup == first
    if known || groupDone s shard first then (0, s)
    else if !(admits s m.region b.length (nextShardPart s step shard order first)) then (0x0811, count E.STAGING_RETRIES s)
    else
      let s := { s with step := { s.step with shardParts := s.step.shardParts ++
        [{ region := m.region, step := step, shard := shard, order := order, firstGroup := first, values := vals }] } }
      match shardRef s shard with
      | some x =>
        let s := progressShard step x s
        (0, { s with step := { s.step with shardParts := s.step.shardParts.filter fun p =>
          !(p.shard == shard && (upto x.count).all fun g => groupDone s shard g) } })
      | none => (0, s)

/-- The pieces of `len` bytes of a multicast's groups from byte `lo` on, `fb` bytes a group: (group, byte of it, offset in
the piece, bytes), below group `n`. -/
def castPieces (fb n lo len : Nat) : List (Nat × Nat × Nat × Nat) :=
  ((upto (ceilDiv (lo % fb + len) fb)).map fun j =>
    let o := if j = 0 then lo % fb else 0
    let skip := if j = 0 then 0 else j * fb - lo % fb
    (lo / fb + j, o, skip, min (fb - o) (len - skip))).filter fun p => decide (p.1 < n)

/-- One fragment of a multicast message goes on to a child, as the next of the message that the child is sent; the first
starts that message, and one that has gone on before does not go again. -/
def relayFragment (step bytes off : Nat) (dest : Nat) (owner : MsgOwner) (b : Bytes) (poison : Bool) (s : State) : State :=
  let bad := if poison then [off / 4080] else []
  match s.fabric.msgs.find? fun m => m.owner == owner with
  | some m =>
    if m.body.length != off then s
    else
      let m := { m with body := m.body ++ b, poison := m.poison ++ bad }
      sendFragments (off / 4080) m (updMsg m.key (fun _ => m) s)
  | none => if off = 0 then startMsg 0 0x16 dest step bytes b bad owner s else s

/-- The messages that this module sends of a multicast it receives, as (child, module): to the children of its order and
of the one it stands in for, and to a replacement. -/
def castTargets (s : State) (root : Nat) : List (Nat × Nat) :=
  let to_ (k : Nat) : Nat × Nat := (k, memberModule s (actingFor s k))
  ((myOrders s).flatMap fun me => (castChildren s root me).map to_)
    ++ match pairedAnew s with
       | some k => if k = root then [] else [(memberCount s + k, memberModule s k)]
       | none => []

/-- SHARD_MULTICAST (R331): a fragment is written to the replica, and then goes on to the children, read back from there. -/
def takeCast (m : Msg) (s : State) : Nat × State :=
  let h := m.head
  let step := field h 0 8
  let shard := field h 8 4
  let root := field h 12 2
  let first := field h 16 4
  let n := field h 20 4
  match shardRef s shard with
  | none => (0x0601, raiseOnceRun 0x0601 shard (count E.NOT_OWNER_REFUSED s))
  | some x =>
    if step != curStep s || shardIn s shard first || decide (x.count < first + n) then (0, s)
    else
      let mode := tensorMode s x.tensor
      let fb := fieldBytes mode
      let data := if m.off = 0 then m.body.drop 32 else m.body
      let ps := castPieces fb n (m.off - 32) data.length
      let s := forEach ps (fun p => writeFields mode x.tensor (x.first + first + p.1) p.2.1 (slice data p.2.2.1 p.2.2.2) m.poison) s
      let r := ps.foldl (fun (r : (Bytes × Bool) × State) p =>
        let f := readGroup mode x.tensor (x.first + first + p.1) p.2.1 p.2.2.2 r.2
        ((r.1.1 ++ f.1.1, r.1.2 || f.1.2), f.2)) (([], false), s)
      let b := (if m.off = 0 then h else []) ++ r.1.1
      let s := forEach (castTargets r.2 root) (fun k s =>
        relayFragment step (32 + n * fb) m.off k.2 (.cast shard first k.1) b r.1.2
          (whenS (decide (k.1 < memberCount s)) (count E.MCAST_FORWARDS) s)) r.2
      (0, whenS m.last (noteShard shard first n) s)

/-- Whether every shard of the run is in the replica. -/
def replicasDone (s : State) : Bool :=
  (allShards s).all fun x => decide (x.count ≤ ((s.step.shardsIn.filter fun e => e.1 == x.shard).map fun e => e.2.2).sum)

/-- Whether every group that this module leads has been reduced. -/
def shardsReduced (s : State) (step : Nat) : Bool :=
  (ledShards s step).all fun x => (upto x.count).all fun g => groupDone s x.shard g

/-! ## The Ledger tree (R139, R155, R156, R330) -/

/-- A subtree sum as L and EXT, and back. -/
def ledgerBytes (x : Int) : Bytes := natLe 20 ((x % (2 : Int) ^ 160).toNat)
def ledgerOf (b : Bytes) : Int := let n := leNat (b.take 20); if n < 2 ^ 159 then (n : Int) else (n : Int) - 2 ^ 160

/-- R156: norm and clip of a total. -/
def normAndClip (s : State) (step : Nat) (total : Int) (m : W32) : (W32 × W32) × Tally :=
  let at_ : GrainAt := ⟨s.plan.seed, step, 0xFFFFFFFFFFFFFFFF, 0, 0, 0, 0⟩
  let g (i : Nat) : Nat := srdDraw .combineAdd at_ i
  let f := setting s E.LEDGER_FRAC_NORM
  let x := f32enc .srd (g 0) (numMul (numOfInt total) (pow2 (-(f : Int))))
  let n := f32enc .srd (g 1) (numSqrt (f32val x.1))
  if numLt num0 (f32val m) && numLt (f32val m) (f32val n.1) then
    let c := f32enc .srd (g 2) (numDiv (f32val m) (f32val n.1))
    ((n.1, c.1), tallyAdd (tallyAdd x.2 n.2) c.2)
  else ((n.1, f32one), tallyAdd x.2 n.2)

/-- CLIP_MAX_NORM of a step. -/
def clipMaxOf (s : State) (step : Nat) : W32 :=
  match s.step.clipMax.find? fun e => e.1 == step with
  | some e => e.2
  | none => BitVec.ofNat 32 (setting s E.CLIP_MAX_NORM)

/-- A member records the run's total: norm, clip, the dictionary's last values, and what the norm lets go. -/
def recordTotal (step : Nat) (total : Int) (s : State) : State :=
  let r := normAndClip s step total (clipMaxOf s step)
  let s := countTally r.2 { s with step := { s.step with norms := (step, r.1) :: s.step.norms } }
  let u := (total % (2 : Int) ^ 128).toNat
  let s := setReg E.LAST_NORM r.1.1.toNat (setReg E.LAST_CLIP r.1.2.toNat (setReg E.LAST_NORM_STEP step s))
  let s := setReg E.LAST_NORM_LEDGER_LO (u % 2 ^ 64) (setReg E.LAST_NORM_LEDGER_HI (u / 2 ^ 64) s)
  progressShards (curStep s) s

def downBody (step : Nat) (total : Int) (clamped : Bool) : Bytes :=
  natLe 8 step ++ natLe 1 (b2n clamped) ++ zeros 7 ++ natLe 16 (total % (2 : Int) ^ 128).toNat ++ zeros 32

/-- Sends the total to the children of the orders this module acts for, itself left out. -/
def sendDown (step : Nat) (total : Int) (clamped : Bool) (s : State) : State :=
  let s := toReplacement 0x15 step (downBody step total clamped) [] s
  let kids := (myOrders s).flatMap (ledgerChildren s)
  let s := whenS (!(actsAs s 0)) (countForwards (kids.filter fun k => !(actsAs s k)).length (downBody step total clamped)) s
  forEach kids (fun k s =>
    if actsAs s k then s else sendToMember 0 0x15 k step (downBody step total clamped) [] .nobody s) s

def hasNorm (s : State) (step : Nat) : Bool := s.step.norms.any fun x => x.1 == step

/-- Member 0 ends the sum: the clamp of R139, and LEDGER_DOWN. -/
def endLedger (step : Nat) (sum : Int) (s : State) : State :=
  let c := ledgerClamp sum
  let s := if c.2 then raiseOnceRun 0x0608 step (count E.LEDGER_OVERFLOWS s) else s
  recordTotal step c.1 (sendDown step c.1 c.2 s)

/-- The key under which a replacement's own sum is kept at the module that stands in for its order. -/
def ownKey (k : Nat) : Nat := k + 65536

/-- What an order's sum waits for: its children, and the replacement of an order that this module stands in for. -/
def ledgerAwaits (s : State) (k : Nat) : List Nat :=
  ledgerChildren s k ++ (if pairedAnew s = some k then [ownKey k] else [])

/-- Whether all of it has reported, or is no longer waited for. -/
def childrenIn (s : State) (k : Nat) : Bool :=
  (ledgerAwaits s k).all fun c => s.step.waived.contains (c % 65536) || s.step.childLedgers.any fun e => e.1 == c

/-- The body of LEDGER_UP. -/
def upBody (step k n : Nat) (sum : Int) : Bytes :=
  natLe 8 step ++ natLe 2 k ++ natLe 2 n ++ zeros 4 ++ ledgerBytes sum ++ zeros 28

/-- Sends the sum of one order's subtree when it can, and keeps it here when this module acts for the parent. -/
def ledgerUpOne (step k : Nat) (s : State) : State :=
  if s.step.ledgersSent.contains k then s
  else if s.twin.replacement && k = myOrder s then
    sendMsg 0 0x14 (memberModule s (k ^^^ 1)) step (upBody step k 1 s.step.ledger) [] .nobody
      { s with step := { s.step with ledgersSent := k :: s.step.ledgersSent } }
  else if !(childrenIn s k) then s
  else
    let mine := if k = myOrder s then s.step.ledger else 0
    let kids := s.step.childLedgers.filter fun e => (ledgerAwaits s k).contains e.1
    let sum := kids.foldl (fun a e => a + e.2.2) mine
    let n := kids.foldl (fun a e => a + e.2.1) (b2n (pairedAnew s != some k))
    let s := { s with step := { s.step with ledgersSent := k :: s.step.ledgersSent } }
    if k = 0 then endLedger step sum s
    else if actsAs s (ledgerParent k) then { s with step := { s.step with childLedgers := s.step.childLedgers ++ [(k, n, sum)] } }
    else
      sendToMember 0 0x14 (ledgerParent k) step (upBody step k n sum) [] .nobody s

/-- R330: sends upward what is complete; the higher order first, whose parent this module may also act for. -/
def ledgerUp (s : State) : State :=
  let step := curStep s
  if setting s E.NORM_MODE = 0 || !(gradsDone s step) || !(shardsReduced s step) || decide (curStation s < 2)
    || decide (4 < curStation s) then s
  else forEach ((myOrders s).mergeSort fun a b => decide (b ≤ a)) (ledgerUpOne step) s

/-- LEDGER_UP: a child's subtree sum; the first of each order counts (R451). -/
def takeLedgerUp (m : Msg) (s : State) : Nat × State :=
  let b := m.body
  let own := pairedAnew s == some (field b 8 2) && m.src == memberModule s (field b 8 2)
  let k := if own then ownKey (field b 8 2) else field b 8 2
  if field b 0 8 != curStep s || (s.step.childLedgers.any fun e => e.1 == k) then (0, s)
  else (0, ledgerUp { s with step := { s.step with childLedgers := s.step.childLedgers ++ [(k, field b 10 2, ledgerOf (slice b 16 20))] } })

/-- LEDGER_DOWN: the total is recorded and then sent on. -/
def takeLedgerDown (m : Msg) (s : State) : Nat × State :=
  let b := m.body
  let step := field b 0 8
  if hasNorm s step then (0, s)
  else
    let u := field b 16 16
    let total : Int := if u < 2 ^ 127 then (u : Int) else (u : Int) - 2 ^ 128
    let clamped := bitAt (field b 8 1) 0
    let s := whenS clamped (count E.LEDGER_OVERFLOWS) (count E.LEDGER_ROUNDS s)
    (0, sendDown step total clamped (recordTotal step total s))

/-! ## Step agreement (R153, R154) -/

/-- Members of a pitch position, the first member of this pitch, and the members of it. -/
def pitchFirst (s : State) : Nat := myPitch s * s.plan.p * perPosition s
def pitchMembers (s : State) : List Nat := (upto (s.plan.p * perPosition s)).map fun i => pitchFirst s + i

/-- The children of a member in its pitch's tree of fan-in 8. -/
def verdictChildren (s : State) (k : Nat) : List Nat :=
  let f := pitchFirst s
  (upto 8).filterMap fun i =>
    let r := 8 * (k - f) + 1 + i
    if r < s.plan.p * perPosition s then some (f + r) else none

def setHolds (h : Holds) (s : State) : State := { s with holds := h }

/-- R153, R154: a member takes the verdict of a step. -/
def takeVerdict (step : Nat) (disagree : Bool) (s : State) : State :=
  if s.holds.verdictFor = some step then s
  else
    let n := if disagree then s.holds.disagreeing + 1 else 0
    let s := setHolds { s.holds with verdictFor := some step, disagreeing := n } s
    let s := whenS disagree (count E.STEP_DISAGREEMENTS) s
    let s := if disagree && decide (setting s E.STEP_AGREE_LIMIT ≤ n) && !s.holds.disagree then
        raise 0x0605 step (setHolds { s.holds with disagree := true } s)
      else s
    let body := natLe 8 step ++ natLe 1 (b2n disagree) ++ zeros 23
    let s := toReplacement 0x18 step body [] s
    let kids := (myOrders s).flatMap (verdictChildren s)
    let s := whenS (!(actsAs s (pitchFirst s))) (countForwards (kids.filter fun k => !(actsAs s k)).length body) s
    forEach kids (fun k s =>
      if actsAs s k then s else sendToMember 0 0x18 k step body [] .nobody s) s

/-- The position-0 member forms the verdict when every member of its pitch has reported. -/
def tryVerdict (step : Nat) (s : State) : State :=
  let rs := s.holds.reports.filter fun r => r.1 == step
  if !((pitchMembers s).all fun k => s.step.waived.contains k || rs.any fun r => r.2.1 == k) || s.holds.verdictFor = some step then s
  else
    let first := match rs with
      | r :: _ => r.2.2.2
      | [] => []
    let disagree := rs.any fun r => r.2.2.1 != 0 || r.2.2.2 != first
    takeVerdict step disagree (setHolds { s.holds with reports := s.holds.reports.filter fun r => r.1 != step } s)

def takeReport (step k ahead : Nat) (ts : List (Nat × Nat)) (s : State) : State :=
  if s.holds.reports.any fun r => r.1 == step && r.2.1 == k then s
  else tryVerdict step (setHolds { s.holds with reports := s.holds.reports ++ [(step, k, ahead, ts)] } s)

/-- (N, COMMIT): reports t_N of every set and the step's ahead count to the position-0 member. -/
def sendReports (step : Nat) (s : State) : State :=
  let ts := s.sets.map fun t => (t.number, t.t)
  forEach (myOrders s) (fun k s =>
    let ahead := if k = myOrder s then s.step.ahead else 0
    if actsAs s (pitchFirst s) then takeReport step k ahead ts s
    else
      let body := natLe 8 step ++ natLe 2 k ++ natLe 2 ts.length ++ natLe 4 ahead ++ zeros 16
        ++ ts.flatMap fun e => natLe 1 e.1 ++ zeros 7 ++ natLe 8 e.2
      sendToMember 0 0x17 (pitchFirst s) step body [] .nobody s) s

/-- STEP_REPORT and STEP_VERDICT. -/
def takeReportMsg (m : Msg) (s : State) : Nat × State :=
  let b := m.body
  let ts := (upto (field b 10 2)).map fun i => (field b (32 + 16 * i) 1, field b (40 + 16 * i) 8)
  (0, takeReport (field b 0 8) (field b 8 2) (field b 12 4) ts s)

def takeVerdictMsg (m : Msg) (s : State) : Nat × State :=
  (0, takeVerdict (field m.body 0 8) (bitAt (field m.body 8 1) 0) s)

end Sys2Proof.Machine
end

