-- ==== Sys2Proof/Machine/Convert.lean ====
section
/-!
DEFINITION. Flat-space tensors as commands read and write them: elements of every stored format (R46, R54, R60, R189,
R190), the poison of what is read (R271), and the output conversion of an element or a K8 tile with its counts and what
the training watch counts (R64, R206, R236).
-/
namespace Sys2Proof.Machine

/-- How the work of a command ended (R376). -/
structure Done where
  status : Nat := 0
  detail : Nat := 0
  saturated : Bool := false
  poison : Bool := false
  deriving DecidableEq, Repr

/-! ## Operands -/

/-- A tensor as a command has read it: its stored bytes, and which of them lie in a poisoned unit. -/
structure Operand where
  tensor : Tensor
  bytes : Bytes
  poison : List Bool
  deriving DecidableEq, Repr

def tensorBytes (t : Tensor) : Nat := storedBytes t.format t.rows t.cols

/-- Reads a whole tensor. -/
def loadOperand (t : Tensor) (s : State) : Operand × State :=
  let r := readRange t.addr (tensorBytes t) s
  (⟨t, r.1.1, if r.1.2 then poisonMap r.2 t.addr (tensorBytes t) else []⟩, r.2)

/-- Bytes of one element of a scalar format. -/
def scalarBytes (format : Nat) : Nat := if format = 0 then 4 else if format = 5 then 1 else 2

/-- R54, R190: the offset of the K8 tile that holds stored element (i, j), and the element's block in it. -/
def k8TileOff (t : Tensor) (i j : Nat) : Nat := (i / 64 * ceilDiv t.cols 64 + j / 64) * 4288
def k8BlockOf (i j : Nat) : Nat := 4 * (i % 64) + j % 64 / 16

/-- The offsets of the bytes that say what stored element (i, j) is. -/
def elemOffsets (t : Tensor) (i j : Nat) : List Nat :=
  if t.format = 4 then
    let b := k8TileOff t i j
    [b + 64 * (i % 64) + j % 64, b + 4096 + k8BlockOf i j / 2, b + 4224]
  else (upto (scalarBytes t.format)).map fun k => (i * t.cols + j) * scalarBytes t.format + k

/-- Whether stored element (i, j) was read from a poisoned unit. -/
def elemPoison (o : Operand) (i j : Nat) : Bool :=
  (o.poison.any id) && (elemOffsets o.tensor i j).any fun k => nthD false o.poison k

/-- The code of a K8 element, its block offset and its tile exponent. -/
def k8Parts (o : Operand) (i j : Nat) : Nat × Nat × Nat :=
  let b := k8TileOff o.tensor i j
  let pair := field o.bytes (b + 4096 + k8BlockOf i j / 2) 1
  (field o.bytes (b + 64 * (i % 64) + j % 64) 1, if k8BlockOf i j % 2 = 0 then pair % 16 else pair / 16, field o.bytes (b + 4224) 1)

/-- The exact value of stored element (i, j); a U8Z element without its tensor's scale when `scaled` is false (R193). -/
def elemVal (scaled : Bool) (o : Operand) (i j : Nat) : ExactNum :=
  let t := o.tensor
  let code := field o.bytes ((i * t.cols + j) * scalarBytes t.format) (scalarBytes t.format)
  match formatOfCode t.format with
  | some .f32 => f32val (BitVec.ofNat 32 code)
  | some .f16 => f16val code
  | some .d16 => d16val code
  | some .u8z => if scaled then u8zVal code t.zeroPoint t.scale else numOfInt ((code : Int) - (t.zeroPoint : Int))
  | some .k8 => let p := k8Parts o i j; k8val p.1 p.2.1 p.2.2
  | _ => num0

/-! ## Checks that several commands share -/

/-- R46: formats permitted in flat space; U8Z holds activations only. -/
def flatFormat (t : Tensor) : Bool :=
  t.format == 0 || t.format == 1 || t.format == 2 || t.format == 4 || (t.format == 5 && t.cls == 1)

/-- The formats of a set of codes. -/
def formatIn (t : Tensor) (l : List Nat) : Bool := l.contains t.format

/-- Whether the stored bytes of two tensors meet. -/
def tensorsMeet (a b : Tensor) : Bool := meets a.addr (tensorBytes a) b.addr (tensorBytes b)

/-- Why a range may not be written by a command; 0 when it may. -/
def outputRefusal (s : State) (a n : Nat) : Nat :=
  if n = 0 then 0
  else if 2 ^ 43 ≤ a then 0x0701
  else writeRefusal s (addrDie a) (addrOff a) n

/-- The rounding code of an output: the one the command names, or ACT_ROUND (R64). -/
def roundingCode (s : State) (named : Bool) (code : Nat) : Nat := if named then code else setting s E.ACT_ROUND

/-! ## The output conversion (R64, R206) -/

/-- One element that a command writes: its Grain coordinates, the exact value that is converted, and the value before any
scale-down, which the watch sees (R239). -/
structure OutElem where
  at_ : GrainAt
  val : ExactNum
  input : ExactNum

/-- What a conversion has gathered: bytes, counts, watched elements, pinned blocks, and the state. -/
structure Conv where
  state : State
  bytes : Bytes := []
  tally : Tally := {}
  watch : List WatchElem := []
  pinned : Nat := 0

/-- The draw of one conversion: SR takes the unit's next draw, SRD the draw of the coordinates. -/
def convDraw (mode : Mode) (unit : Nat) (at_ : GrainAt) (s : State) : Nat × State :=
  match mode with
  | .sr => srNext unit s
  | .srd => (srdDraw .actConvert at_ 0, s)
  | _ => (0, s)

/-- Converts one element to a scalar format of flat space. -/
def convScalar (t : Tensor) (mode : Mode) (unit : Nat) (e : OutElem) (c : Conv) : Conv :=
  let d := convDraw mode unit e.at_ c.state
  let toInf := setting c.state E.OVERFLOW_MODE == 1
  let fin (code n : Nat) (y : Tally) (w : WatchElem) : Conv :=
    { state := d.2, bytes := c.bytes ++ natLe n code, tally := tallyAdd c.tally y
      watch := c.watch ++ [{ w with mag := if numNonfinite e.input then num0 else numAbs e.input }], pinned := c.pinned }
  let scalar (f : Fmt) (n : Nat) (inf : Bool) : Conv :=
    let r := scalarEncode f (8 * n) mode d.1 inf e.val
    fin r.1 n r.2 (watchScalar f (8 * n) mode d.1 e.val r)
  if t.format = 0 then scalar fmtF32 4 false
  else if t.format = 1 then scalar fmtF16 2 toInf
  else if t.format = 5 then
    let r := u8zEncode mode d.1 t.zeroPoint t.scale e.val
    fin r.1 1 r.2 (watchU8Z mode d.1 t.zeroPoint t.scale e.val r)
  else scalar fmtD16 2 toInf

/-- Converts elements to a scalar format, in order. -/
def convScalars (t : Tensor) (mode : Mode) (unit : Nat) (es : List OutElem) (c : Conv) : Conv :=
  es.foldl (fun c e => convScalar t mode unit e c) c

/-- The elements of one K8 block under an offset and a tile exponent. -/
def convK8Elems (mode : Mode) (unit o t : Nat) (es : List OutElem) (c : Conv) : Conv :=
  es.foldl (fun c e =>
    let d := convDraw mode unit e.at_ c.state
    let r := k8encode mode d.1 o t e.val
    let w := watchK8 mode d.1 o t e.val r
    { c with
      state := d.2, bytes := c.bytes ++ natLe 1 r.1, tally := tallyAdd c.tally r.2
      watch := c.watch ++ [{ w with mag := if numNonfinite e.input then num0 else numAbs e.input }] }) c

/-- R55, R242: one block: its offset and codes, filled to 16 elements with zero; a pinned block is counted. -/
def convK8Block (mode : Mode) (unit t : Nat) (es : List OutElem) (c : Conv) : Nat × Conv :=
  let bmax := amaxList (es.map fun e => e.val)
  let o := k8offset bmax t
  let r := convK8Elems mode unit o t es { c with tally := {} }
  let pin := decide (o = 15) && !(numIsZero bmax) && decide (0 < r.tally.under)
  (o, { r with tally := tallyAdd c.tally r.tally, bytes := r.bytes ++ zeros (16 - es.length), pinned := r.pinned + b2n pin })

/-- Blocks one after another, with their offsets. -/
def convK8Blocks (mode : Mode) (unit t : Nat) : List (List OutElem) → Conv → List Nat × Conv
  | [], c => ([], c)
  | b :: rest, c =>
    let r := convK8Block mode unit t b c
    let q := convK8Blocks mode unit t rest r.2
    (r.1 :: q.1, q.2)

/-- Two block offsets to a byte (R54). -/
def nibbles : List Nat → Bytes
  | a :: b :: rest => natLe 1 (a + 16 * b) ++ nibbles rest
  | [a] => natLe 1 a
  | [] => []

/-- R54: a K8 tile of the given stored rows of elements, each at most 64 long, as its bytes 0 to 4,224. -/
def convK8Tile (mode : Mode) (unit t : Nat) (rows : List (List OutElem)) (c : Conv) : Conv :=
  let blocks := (upto 64).flatMap fun i => (upto 4).map fun k => ((nthD [] rows i).drop (16 * k)).take 16
  let r := convK8Blocks mode unit t blocks { c with bytes := [] }
  { r.2 with bytes := c.bytes ++ r.2.bytes ++ nibbles r.1 ++ natLe 1 t }

/-- R72 to R74: the tile exponent of a tile of a tensor, and whether it is converted just in time. -/
def tileExpOf (s : State) (slot : Option Nat) (t : Tensor) (vals : List ExactNum) : Nat × Bool :=
  let delayed := if t.cls = 1 || t.cls = 2 then (slot.bind fun i => s.watch.slots[i]?).bind fun x => x.scale else none
  match delayed with
  | some e => (e, false)
  | none => (tileExponent (amaxList vals) (setting s E.SCALE_MARGIN), true)

/-- Counts what a conversion gathered, and enters it in the tensor's watch slot. -/
def countConv (slot : Option Nat) (jit : Bool) (c : Conv) : State :=
  let s := countTally { c.tally with jit := b2n jit } c.state
  let s := updSlotCount slot (fun w => { w with pinned := w.pinned + c.pinned, jit := w.jit || jit }) s
  watchElems slot c.watch s

/-! ## Writing a tensor -/

/-- A piece of an output: its offset in the stored tensor, its bytes, and whether it carries poison. -/
structure Piece where
  off : Nat
  bytes : Bytes
  poison : Bool
  deriving DecidableEq, Repr

/-- R54, R272: the parts of a stored tensor that a command supplies, as (offset, bytes): all of it, or of each K8 tile the
bytes before its reserved ones. -/
def suppliedRuns (t : Tensor) : List (Nat × Nat) :=
  if t.format = 4 then (upto (ceilDiv t.rows 64 * ceilDiv t.cols 64)).map fun k => (k * 4288, 4225)
  else [(0, tensorBytes t)]

/-- Writes the pieces of a tensor; bytes that no piece covers stay as they stand, and the bytes of `marks` carry poison too.
The answer says whether poison was propagated. -/
def writePieces (t : Tensor) (ps : List Piece) (marks : List Nat) (s : State) : Bool × State :=
  let old := sgets 0 s.mem.cells t.addr (tensorBytes t)
  let b := ps.foldl (fun b p => patch b p.off p.bytes) old
  let bad := ps.filter fun p => p.poison
  let clean := bad.isEmpty && marks.isEmpty
  let flag (k : Nat) : Bool := marks.contains k || bad.any fun p => decide (p.off ≤ k) && decide (k < p.off + p.bytes.length)
  (!clean, forEach (suppliedRuns t) (fun r s =>
    let flags := if clean then [] else (upto r.2).map fun k => flag (r.1 + k)
    writeMarked (t.addr + r.1) ((b.drop r.1).take r.2) flags s) s)

end Sys2Proof.Machine
end

