-- ==== Sys2Proof/Machine/Arrays.lean ====
section
/-!
DEFINITION. The matrix arrays (chapter 07): the checks of a GEMM, chunk sums, running sums and segments, replay and
saturation, the epilogue; and the Proof sampler that recomputes selected tiles (R246 to R249).
-/
namespace Sys2Proof.Machine

/-! ## The command (R207) -/

/-- The fields of a GEMM command. -/
structure Gemm where
  a : Nat
  b : Nat
  c : Nat
  x : Nat
  m : Nat
  n : Nat
  k : Nat
  transA : Bool
  transB : Bool
  outTrans : Bool
  swap : Bool
  epi : Nat
  form : Nat
  round : Nat
  named : Bool
  split : Nat
  grain : Nat
  mask : Nat
  scale : Nat
  deriving DecidableEq, Repr

def gemmOf (r : Rec64) : Gemm :=
  { a := rf r 143 128, b := rf r 159 144, c := rf r 175 160, x := rf r 191 176, m := rf r 223 192, n := rf r 255 224
    k := rf r 287 256, transA := rb r 288, transB := rb r 289, outTrans := rb r 290, swap := rb r 291, epi := rf r 293 292
    form := rf r 295 294, round := rf r 298 296, named := rb r 299, split := rf r 303 300 + 1, grain := rf r 319 304
    mask := rf r 383 320, scale := rf r 447 384 }

/-- R374: a GEMM that does no work. -/
def gemmZero (r : Rec64) : Bool := let g := gemmOf r; g.m == 0 || g.n == 0 || g.k == 0

/-- Tiles and chunks (R191). -/
def tilesDown (g : Gemm) : Nat := ceilDiv g.m 64
def tilesOver (g : Gemm) : Nat := ceilDiv g.n 64
def chunksOfK (g : Gemm) : Nat := ceilDiv g.k 64

/-- The selected arrays, ascending (R17). -/
def arraysOf (mask : Nat) : List Nat := if mask = 0 then upto 64 else (upto 64).filter fun u => bitAt mask u

/-- Whether a tensor's stored rows and columns are these. -/
def shaped (t : Tensor) (rows cols : Nat) : Bool := t.rows == rows && t.cols == cols

/-- The pairs of R188, in either order. -/
def pairOk (a b : Nat) : Bool :=
  (a == 2 && b == 2) || (a == 4 && b == 4) || (a == 5 && (b == 2 || b == 4)) || (b == 5 && (a == 2 || a == 4))

/-- Check 6 of R207. -/
def gemmShapes (g : Gemm) (a b c : Tensor) (x : Option Tensor) : Bool :=
  let row := if g.outTrans then (g.n, g.m) else (g.m, g.n)
  (if g.transA then shaped a g.k g.m else shaped a g.m g.k)
    && (if g.transB then shaped b g.n g.k else shaped b g.k g.n)
    && shaped c row.1 row.2
    && g.epi != 3 && g.form != 3
    && (match x with
      | none => true
      | some t => if g.form = 0 then shaped t row.1 row.2 else if g.form = 1 then t.rows * t.cols == g.n else t.rows * t.cols == g.m)
    && decide ((if g.swap then g.m else g.n) ≤ 65536)
    && decide (g.split ≤ chunksOfK g) && decide (g.split ≤ (arraysOf g.mask).length)

/-- Bytes of the scale record (R200). -/
def scaleBytes (g : Gemm) : Nat := if g.scale = 0 then 0 else tilesDown g * tilesOver g

/-- The checks of R207, first to last; 0 when all pass. -/
def gemmRefusal (s : State) (g : Gemm) : Nat :=
  let ts := [tensorOf s g.a, tensorOf s g.b, tensorOf s g.c] ++ (if g.epi = 0 then [] else [tensorOf s g.x])
  match tensorOf s g.a, tensorOf s g.b, tensorOf s g.c with
  | some a, some b, some c =>
    let x := if g.epi = 0 then none else tensorOf s g.x
    let ins := [a, b] ++ x.toList
    firstCode [
      (ts.contains none, 0x040A),
      (([a, b, c] ++ x.toList).any fun t => (formatOfCode t.format).isNone, 0x0401),
      ((modeOfCode g.round).isNone, 0x0402),
      (!(flatFormat a && formatIn a [2, 4, 5]) || !(flatFormat b && formatIn b [2, 4, 5]) || !(flatFormat c)
        || (x.toList.any fun t => !(formatIn t [0, 1, 2])), 0x0404),
      (!(pairOk a.format b.format), 0x0405),
      ((a.format == 4 && g.transA) || (b.format == 4 && !g.transB), 0x0406),
      (!(gemmShapes g a b c x), 0x0407),
      ((ins.any fun t => tensorsMeet c t || meets g.scale (scaleBytes g) t.addr (tensorBytes t))
        || meets g.scale (scaleBytes g) c.addr (tensorBytes c), 0x0409),
      (outputRefusal s c.addr (tensorBytes c) != 0, outputRefusal s c.addr (tensorBytes c)),
      (true, outputRefusal s g.scale (scaleBytes g))]
  | _, _, _ => 0x040A

/-! ## Chunk sums (R193, R194, R199) -/

/-- The magnitude of a value in units of 2^lsb, its lower bits dropped, and whether a dropped bit was not zero. -/
def windowMag (mag : Nat) (exp lsb : Int) : Nat × Bool :=
  if lsb ≤ exp then (mag <<< (exp - lsb).toNat, false)
  else (mag >>> (lsb - exp).toNat, mag % 2 ^ (lsb - exp).toNat != 0)

/-- A magnitude with a sign, as an integer. -/
def numToInt (neg : Bool) (mag : Nat) : Int := if neg then - (mag : Int) else (mag : Int)

/-- The exponent of the leading bit of a value that is not zero. -/
def leadExp : ExactNum → Option Int
  | .fin _ m e => if m = 0 then none else some (e + (bitLen m : Int) - 1)
  | _ => none

/-- The sum of the products of one chunk, and whether a non-zero bit was dropped. -/
def chunkSum (ps : List ExactNum) : ExactNum × Bool :=
  if ps.any numIsNan || (ps.contains (.inf true) && ps.contains (.inf false)) then (.nan, false)
  else if ps.contains (.inf true) then (.inf true, false)
  else if ps.contains (.inf false) then (.inf false, false)
  else
    match (ps.filterMap leadExp).max? with
    | none => (num0, false)
    | some top =>
      let lsb := top - 40
      let terms := ps.map fun p => match p with
        | .fin s m e => (numToInt s (windowMag m e lsb).1, (windowMag m e lsb).2)
        | _ => (0, false)
      let sum : Int := (terms.map Prod.fst).sum
      (.fin (decide (sum < 0)) sum.natAbs lsb, terms.any Prod.snd)

/-! ## A tile's running sums (R195 to R197, R201, R202) -/

/-- A GEMM at work: its fields, operands, run seed and step. -/
structure Job where
  g : Gemm
  a : Operand
  b : Operand
  x : Option Operand
  c : Tensor
  seed : W64
  step : Nat

/-- Logical elements of the operands, without a U8Z scale. -/
def aVal (j : Job) (i k : Nat) : ExactNum := if j.g.transA then elemVal false j.a k i else elemVal false j.a i k
def bVal (j : Job) (k c : Nat) : ExactNum := if j.g.transB then elemVal false j.b c k else elemVal false j.b k c

/-- The U8Z scale of the command, or 1. -/
def u8zScale (j : Job) : ExactNum :=
  if j.a.tensor.format = 5 then f32val j.a.tensor.scale
  else if j.b.tensor.format = 5 then f32val j.b.tensor.scale
  else num1

/-- The products of one element and chunk. -/
def chunkProducts (j : Job) (i c kc : Nat) : List ExactNum :=
  (upto (min 64 (j.g.k - 64 * kc))).map fun n => numMul (aVal j i (64 * kc + n)) (bVal j (64 * kc + n) c)

/-- The Grain coordinates of an element (R196). -/
def gemmAt (j : Job) (i c : Nat) : GrainAt :=
  if j.g.swap then ⟨j.seed, j.step, c, i, j.g.grain, 0, 0⟩ else ⟨j.seed, j.step, i, c, j.g.grain, 0, 0⟩

/-- The logical elements of a tile that are written, in ascending (row, column). -/
def tileElems (j : Job) (I J : Nat) : List (Nat × Nat) :=
  (upto (min 64 (j.g.m - 64 * I))).flatMap fun i => (upto (min 64 (j.g.n - 64 * J))).map fun c => (64 * I + i, 64 * J + c)

/-- What a pass has counted. -/
structure PassCount where
  tally : Tally := {}
  chunks : Nat := 0
  truncs : Nat := 0

/-- The smallest `e ≥ n` with `v × 2^(−e)` within a limit. -/
def excessFrom (limit v : ExactNum) : Nat → Nat → Nat
  | 0, n => n
  | f + 1, n => if numLe (numMul v (pow2 (-(n : Int)))) limit then n else excessFrom limit v f (n + 1)

/-- R202: the excess of a largest magnitude. -/
def excess (limit v : ExactNum) : Nat := excessFrom limit v 600 1

def f32limit : ExactNum := decodeMag fmtF32 false fmtF32.maxCode

/-- One rounding of running values with SRD: the new sums, or the excess when one saturates and `saturate` is false. -/
def roundSums (saturate : Bool) (xs : List (ExactNum × Nat)) (p : PassCount) : Except Nat (List W32) × PassCount :=
  let overV := xs.any fun x => f32saturates .srd x.2 x.1
  if overV && !saturate then
    (.error (excess f32limit (amaxList ((xs.map Prod.fst).filter fun v => !(numNonfinite v)))), p)
  else
    let r := xs.map fun x => let c := f32round .srd x.2 x.1; if f32isZero c then f32zero else c
    let t : Tally := {
      sat := (xs.filter fun x => f32saturates .srd x.2 x.1).length
      under := ((xs.zip r).filter fun y => f32isZero y.2 && !(numIsZero y.1.1)).length }
    (.ok r, { p with tally := tallyAdd p.tally t })

/-- The chunks `kc …` of a segment of a tile, each added to the running sums. -/
def segmentFrom (j : Job) (saturate : Bool) (a : Nat) (es : List (Nat × Nat)) :
    List Nat → List W32 → PassCount → Except Nat (List W32) × PassCount
  | [], sums, p => (.ok sums, p)
  | kc :: rest, sums, p =>
    let cs := es.map fun e => chunkSum (chunkProducts j e.1 e.2 kc)
    let p := { p with chunks := p.chunks + 1, truncs := p.truncs + (cs.filter Prod.snd).length }
    let xs := (es.zip (cs.zip sums)).map fun e =>
      (numAdd (f32val e.2.2) (numMul (numMul e.2.1.1 (u8zScale j)) (pow2 (-(a : Int)))), srdDraw .arrayAccum (gemmAt j e.1.1 e.1.2) kc)
    match roundSums saturate xs p with
    | (.ok r, p) => segmentFrom j saturate a es rest r p
    | (.error e, p) => (.error e, p)

/-- The chunks of a segment (R197). -/
def segmentChunks (g : Gemm) (seg : Nat) : List Nat :=
  let per := ceilDiv (chunksOfK g) g.split
  (upto (min per (chunksOfK g - seg * per))).map fun i => seg * per + i

/-- The segments of a tile in ascending order: their partials, or the first overflow. -/
def segmentsFrom (j : Job) (saturate : Bool) (a : Nat) (es : List (Nat × Nat)) :
    List Nat → List (Nat × List W32) → PassCount → Except Nat (List (Nat × List W32)) × PassCount
  | [], acc, p => (.ok acc.reverse, p)
  | seg :: rest, acc, p =>
    match segmentFrom j saturate a es (segmentChunks j.g seg) (es.map fun _ => f32zero) p with
    | (.ok r, p) => segmentsFrom j saturate a es rest ((seg, r) :: acc) p
    | (.error e, p) => (.error e, p)

/-- R197: the segment partials combined from exact +0. -/
def combineFrom (j : Job) (saturate : Bool) (es : List (Nat × Nat)) :
    List (Nat × List W32) → List W32 → PassCount → Except Nat (List W32) × PassCount
  | [], sums, p => (.ok sums, p)
  | (seg, part) :: rest, sums, p =>
    let xs := (es.zip (part.zip sums)).map fun e =>
      (numAdd (f32val e.2.2) (f32val e.2.1), srdDraw .arrayAccum (gemmAt j e.1.1 e.1.2) (0x80000000 + seg))
    match roundSums saturate xs p with
    | (.ok r, p) => combineFrom j saturate es rest r p
    | (.error e, p) => (.error e, p)

/-- One pass over a tile with a scale-down count: its running sums, or the excess of the overflow that ends the pass. -/
def tilePass (j : Job) (saturate : Bool) (a : Nat) (es : List (Nat × Nat)) (p : PassCount) : Except Nat (List W32) × PassCount :=
  match segmentsFrom j saturate a es (upto j.g.split) [] p with
  | (.error e, p) => (.error e, p)
  | (.ok parts, p) =>
    if j.g.split = 1 then (.ok (nthD (0, []) parts 0).2, p)
    else combineFrom j saturate es parts (es.map fun _ => f32zero) p

/-! ## Replay and saturation (R200 to R204) -/

/-- A tile after its accumulation: its sums, scale-down count, replays left, whether it saturates, replays so far. -/
structure Held where
  sums : List W32
  a : Nat
  left : Nat
  saturated : Bool
  replays : Nat
  count : PassCount

/-- The sums of a pass that has ended. -/
def passSums : Except Nat (List W32) → List W32
  | .ok r => r
  | .error _ => []

/-- What an aborted pass has counted, once the tile is computed again: its chunks, and no event of a running sum. -/
def abortedCount (before after : PassCount) : PassCount := { after with tally := before.tally }

/-- A pass that saturates. -/
def satPass (j : Job) (a left n : Nat) (es : List (Nat × Nat)) (p : PassCount) : Held :=
  let r := tilePass j true a es p
  ⟨passSums r.1, a, left, true, n, r.2⟩

/-- Whether an output carries its scale in a (R200). -/
def scaledOut (j : Job) : Bool := j.g.scale != 0 && formatIn j.c [0, 1, 2]

/-- Accumulates a tile, with a replay for each overflow that allows one; `left` replays remain.  A pass whose overflow
allows none saturates as it stands, and is computed again only where a becomes 255 (R203). -/
def accumulate (j : Job) (es : List (Nat × Nat)) : Nat → Nat → Nat → PassCount → Held
  | 0, a, n, p =>
    match tilePass j false a es p with
    | (.ok r, p) => ⟨r, a, 0, false, n, p⟩
    | (.error _, _) => satPass j a 0 n es p
  | left + 1, a, n, p =>
    match tilePass j false a es p with
    | (.ok r, p) => ⟨r, a, left + 1, false, n, p⟩
    | (.error e, q) =>
      if !(scaledOut j) || a = 255 then satPass j a (left + 1) n es p
      else if 255 < a + e then satPass j 255 (left + 1) n es (abortedCount p q)
      else accumulate j es left (a + e) (n + 1) (abortedCount p q)

/-- R205: the element of X that belongs to an element of C. -/
def xVal (j : Job) (i c : Nat) : ExactNum :=
  match j.x with
  | none => num0
  | some x =>
    let at_ (l : Nat) : ExactNum := elemVal true x (l / x.tensor.cols) (l % x.tensor.cols)
    if j.g.form = 0 then (if j.g.outTrans then elemVal true x c i else elemVal true x i c)
    else if j.g.form = 1 then at_ c
    else at_ i

/-- R205: the exact epilogue result of a running value that carries 2^(−a). -/
def epilogue (j : Job) (a : Nat) (i c : Nat) (r : ExactNum) : ExactNum :=
  if j.g.epi = 0 then r
  else if j.g.epi = 1 then numAdd r (numMul (xVal j i c) (pow2 (-(a : Int))))
  else numMul r (xVal j i c)

/-- R204: the running sums of a held tile at a scale-down count, which are those of a single pass at that count. -/
def sumsAt (j : Job) (es : List (Nat × Nat)) (h : Held) (a : Nat) : List W32 :=
  if a = h.a then h.sums else passSums (tilePass j true a es {}).1

/-- The epilogue results of a held tile at a scale-down count. -/
def results (j : Job) (es : List (Nat × Nat)) (h : Held) (a : Nat) : List ExactNum :=
  (es.zip (sumsAt j es h a)).map fun e => epilogue j a e.1.1 e.1.2 (f32val e.2)

/-- R201: the range of an output format; none for U8Z, whose codes clamp. -/
def outLimit (c : Tensor) (t : Nat) : Option ExactNum :=
  if c.format = 4 then some (numMul (numOfNat 31) (pow2 ((t : Int) - 127)))
  else if c.format = 1 then some (decodeMag fmtF16 false fmtF16.maxCode)
  else if c.format = 2 then some (decodeMag fmtD16 false fmtD16.maxCode)
  else if c.format = 0 then some f32limit
  else none

/-- The excess of finite results over a range; 0 when none lies beyond it. -/
def outExcess (limit : Option ExactNum) (ys : List ExactNum) : Nat :=
  match limit with
  | none => 0
  | some l =>
    let v := amaxList (ys.filter fun y => !(numNonfinite y))
    if numLt l v then excess l v else 0

/-- The conversion of a held tile settled: its final a and T, saturation and conversion replays. -/
structure Settled where
  a : Nat
  t : Nat
  saturated : Bool
  replays : Nat

/-- R202, R203: raises a or T for each conversion overflow that allows it. -/
def settleTile (j : Job) (es : List (Nat × Nat)) (h : Held) : Nat → Nat → Nat → Nat → Settled
  | left, a, t, n =>
    let e := outExcess (outLimit j.c t) (results j es h a)
    if e = 0 || h.saturated then ⟨a, t, h.saturated, n⟩
    else
      let k8 := decide (j.c.format = 4)
      if !k8 && !(scaledOut j) then ⟨a, t, true, n⟩
      else
        match left with
        | 0 => ⟨a, t, true, n⟩
        | left + 1 =>
          if k8 then (if 250 < t + e then ⟨a, 250, true, n⟩ else settleTile j es h left a (t + e) (n + 1))
          else if 255 < a + e then ⟨255, t, true, n⟩
          else settleTile j es h left (a + e) t (n + 1)

/-! ## Writing a tile -/

/-- The pieces of a tile of C. -/
def tilePieces (j : Job) (I J : Nat) (bytes : Bytes) (poison : Bool) : List Piece :=
  let si := if j.g.outTrans then J else I
  let sj := if j.g.outTrans then I else J
  if j.c.format = 4 then [⟨k8TileOff j.c (64 * si) (64 * sj), bytes, poison⟩]
  else
    let w := scalarBytes j.c.format
    let rows := min 64 (j.c.rows - 64 * si)
    let len := min 64 (j.c.cols - 64 * sj) * w
    (upto rows).map fun i => ⟨((64 * si + i) * j.c.cols + 64 * sj) * w, (bytes.drop (i * len)).take len, poison⟩

/-- The elements of a tile in stored rows. -/
def storedRows (j : Job) (I J : Nat) (es : List ((Nat × Nat) × OutElem)) : List (List OutElem) :=
  let base := if j.g.outTrans then 64 * J else 64 * I
  let key (e : (Nat × Nat) × OutElem) : Nat := if j.g.outTrans then e.1.2 else e.1.1
  let rows := if j.g.outTrans then min 64 (j.g.n - 64 * J) else min 64 (j.g.m - 64 * I)
  (upto rows).map fun i => (es.filter fun e => key e == base + i).map Prod.snd

/-- R271: whether a chunk of an operand, or the part of X, that a tile reads holds poison. -/
def tilePoison (j : Job) (I J : Nat) (es : List (Nat × Nat)) : Bool :=
  let rows := upto (min 64 (j.g.m - 64 * I))
  let cols := upto (min 64 (j.g.n - 64 * J))
  let a := (j.a.poison.any id) && rows.any fun i => (upto j.g.k).any fun k =>
    if j.g.transA then elemPoison j.a k (64 * I + i) else elemPoison j.a (64 * I + i) k
  let b := (j.b.poison.any id) && cols.any fun c => (upto j.g.k).any fun k =>
    if j.g.transB then elemPoison j.b (64 * J + c) k else elemPoison j.b k (64 * J + c)
  let x := match j.x with
    | none => false
    | some x => (x.poison.any id) && es.any fun e =>
      let l := if j.g.form = 1 then e.2 else e.1
      if j.g.form = 0 then (if j.g.outTrans then elemPoison x e.2 e.1 else elemPoison x e.1 e.2)
      else elemPoison x (l / x.tensor.cols) (l % x.tensor.cols)
  a || b || x

/-- The unit of a module-wide array (R17). -/
def arrayCoord (s : State) (u : Nat) : Nat := unitCoord s (u / 16) (u / 4 % 4) 0 (u % 4)

/-- R246, R496: whether a tile is selected for the Proof; without its capability PROOF_ENABLE acts as FALSE. -/
def proofSelected (s : State) (j : Job) (I J : Nat) : Bool :=
  let h := grainMix (j.seed ^^^ BitVec.ofNat 64 j.step)
  let h := grainMix (h ^^^ BitVec.ofNat 64 j.g.grain)
  let h := grainMix (h ^^^ BitVec.ofNat 64 (I * 2 ^ 32 + J))
  capOn s 7 && setting s E.PROOF_ENABLE == 1 && h.toNat % 2 ^ setting s E.PROOF_RATE_LOG2 == 0

/-- R249: queues a selected tile at its region's row engine, or skips it. -/
def queueProof (p : ProofTile) (s : State) : State :=
  if 4 ≤ (s.watch.proofs.filter fun x => x.region == p.region).length then count E.PROOF_TILES_SKIPPED s
  else setWatch { s.watch with proofs := s.watch.proofs ++ [p] } s

/-- What a GEMM has made so far: pieces of C, bytes of the scale record with their poison, and the completion's flags. -/
structure GemmAcc where
  pieces : List Piece := []
  scales : List (Nat × Bool) := []
  saturated : Bool := false
  state : State

/-- One output tile, computed by array `u`. -/
def gemmTile (r : Rec64) (j : Job) (slot : Option Nat) (u I J : Nat) (acc : GemmAcc) : GemmAcc :=
  let s := acc.state
  let es := tileElems j I J
  let h := accumulate j es 2 0 0 {}
  let first := results j es h h.a
  let te : Nat × Bool := if j.c.format = 4 then tileExpOf s slot j.c first else (0, false)
  let st := settleTile j es h h.left h.a te.1 0
  let ys := results j es h st.a
  let out := (es.zip ys).map fun e => (e.1, (⟨gemmAt j e.1.1 e.1.2, e.2, numMul e.2 (pow2 (st.a : Int))⟩ : OutElem))
  let rows := storedRows j I J out
  let mode := (modeOfCode (roundingCode s j.g.named j.g.round)).getD .rne
  let unit := arrayCoord s u
  let cv : Conv := if j.c.format = 4 then convK8Tile mode unit st.t rows { state := s }
    else convScalars j.c mode unit rows.flatten { state := s }
  let s := countConv slot te.2 cv
  let s := countTally h.count.tally s
  let s := countN E.ARRAY_CHUNKS h.count.chunks s
  let s := countN E.CHUNK_TRUNCATIONS h.count.truncs s
  let s := countN E.ACC_REPLAYS h.replays s
  let s := countN E.CONV_REPLAYS st.replays s
  let s := countN E.ARRAY_NONFINITE cv.tally.nonfinite s
  let s := count E.ARRAY_TILES s
  let s := updSlotCount slot (fun w => { w with
    replays := w.replays + h.replays + st.replays, saturated := w.saturated || st.saturated }) s
  let s := whenS st.saturated (fun s =>
    raiseOnceRunAt 0x0408 unit j.g.c (setReg E.ARRAY_SAT_FLAG 1 (count E.ARRAY_SAT_TILES s))) s
  let s := whenS (proofSelected s j I J) (queueProof ⟨u / 4, slot, r, j.step, I, J, st.a⟩) s
  let poison := tilePoison j I J es
  { pieces := acc.pieces ++ tilePieces j I J cv.bytes poison, scales := acc.scales ++ [(st.a, poison)]
    saturated := acc.saturated || st.saturated, state := s }

/-- The tiles in ascending (I, J). -/
def gemmTiles (g : Gemm) : List (Nat × Nat) :=
  (upto (tilesDown g)).flatMap fun i => (upto (tilesOver g)).map fun c => (i, c)

/-- Reads the operands of a GEMM. -/
def gemmJob (g : Gemm) (step : Nat) (s : State) : Option Job × State :=
  match tensorOf s g.a, tensorOf s g.b, tensorOf s g.c with
  | some a, some b, some c =>
    let ra := loadOperand a s
    let rb := loadOperand b ra.2
    match (if g.epi = 0 then none else tensorOf s g.x) with
    | none => (some ⟨g, ra.1, rb.1, none, c, s.plan.seed, step⟩, rb.2)
    | some x =>
      let rx := loadOperand x rb.2
      (some ⟨g, ra.1, rb.1, some rx.1, c, s.plan.seed, step⟩, rx.2)
  | _, _, _ => (none, s)

/-- The work of a GEMM that has passed R371, R372 and the zero rule. -/
def gemmWork (r : Rec64) (s : State) : Done × State :=
  let g := gemmOf r
  let code := gemmRefusal s g
  if code != 0 then ({ status := code }, countRefusal code (count E.GEMM_REFUSED s))
  else
    match gemmJob g (curStep s) s with
    | (none, s) => ({ status := 0x040A }, count E.GEMM_REFUSED s)
    | (some j, s) =>
      let slot := watchSlotOf s false 0 g.c
      let sel := arraysOf g.mask
      let tiles := gemmTiles g
      let acc := (tiles.zip (upto tiles.length)).foldl (fun acc t =>
        gemmTile r j slot (nthD 0 sel (t.2 * g.split % sel.length)) t.1.1 t.1.2 acc) ({ state := s } : GemmAcc)
      let w := writePieces j.c acc.pieces [] acc.state
      let s := if scaledOut j then
          writeMarked g.scale (acc.scales.flatMap fun e => natLe 1 e.1) (acc.scales.map Prod.snd) w.2
        else w.2
      ({ saturated := acc.saturated, poison := w.1 }, count E.GEMM_COMPLETED s)

/-! ## The Proof (R247 to R249) -/

/-- R247: the reference of one element, with its counts (R65, R67). -/
def proofRef (j : Job) (i c : Nat) : ExactNum × Tally :=
  let sum := numSum ((upto j.g.k).map fun k => numMul (aVal j i k) (bVal j k c))
  let y := epilogue j 0 i c (numMul sum (u8zScale j))
  let r := f32enc .srd (srdDraw .arrayAccum (gemmAt j i c) 0xFFFFFFFF) y
  (f32val r.1, r.2)

/-- R247: the element as it was written. -/
def proofNarrow (j : Job) (c : Operand) (down i col : Nat) : ExactNum :=
  numMul (if j.g.outTrans then elemVal true c col i else elemVal true c i col) (pow2 (down : Int))

/-- R248: the bin of a deviation D over a largest reference Rm. -/
def proofBin (d rm : ExactNum) : Nat :=
  if numIsZero d then 0
  else if numIsZero rm then 31
  else ((upto 31).reverse.find? fun (b : Nat) => numLe (numMul rm (pow2 ((b : Int) - 30))) d).elim 0 fun b => b + 1

/-- Bins one recomputed tile. -/
def binProof (p : ProofTile) (bin : Nat) (s : State) : State :=
  let s := count E.PROOF_TILES_CHECKED (count (E.PROOF_BIN + bin) s)
  let overV := decide (setting s E.PROOF_THRESHOLD_BIN ≤ bin)
  let s := whenS overV (fun s =>
    raiseOnceRunAt 0x0432 (unitCoord s (p.region / 4) (p.region % 4) 0 4) (gemmOf p.record).c (count E.PROOF_EXCEEDED s)) s
  updSlotCount p.slot (fun w => { w with
    proofTiles := w.proofTiles + 1, proofOver := w.proofOver + b2n overV, proofMax := max w.proofMax bin }) s

/-- Whether an element that the Proof reads lies in a poisoned unit: an operand's, or one of the tile as written. -/
def proofPoison (j : Job) (c : Operand) (I J : Nat) (es : List (Nat × Nat)) : Bool :=
  tilePoison j I J es || es.any fun e => if j.g.outTrans then elemPoison c e.2 e.1 else elemPoison c e.1 e.2

/-- PROOF_RECOMPUTE: the row engine of a region recomputes its first queued tile, while the module serves its run (R29). -/
def proofRecompute (region : Nat) (s : State) : State :=
  match (if serves s then s.watch.proofs else []).find? fun p => p.region == region with
  | none => s
  | some p =>
    let s := setWatch { s.watch with proofs := s.watch.proofs.erase p } s
    match gemmJob (gemmOf p.record) p.step s with
    | (none, s) => count E.PROOF_TILES_SKIPPED s
    | (some j, s) =>
      let rc := loadOperand j.c s
      let es := tileElems j p.tileI p.tileJ
      let rs := tallyAll (es.map fun e => proofRef j e.1 e.2)
      let fs := rs.1
      let s := countTally rs.2 rc.2
      let ns := es.map fun e => proofNarrow j rc.1 p.down e.1 e.2
      if fs.any numNonfinite || ns.any numNonfinite || proofPoison j rc.1 p.tileI p.tileJ es then
        count E.PROOF_TILES_SKIPPED s
      else
        binProof p (proofBin (amaxList ((ns.zip fs).map fun x => numSub x.1 x.2)) (amaxList fs)) s

end Sys2Proof.Machine
end

