-- ==== Sys2Proof/Machine/RowEngine.lean ====
section
/-!
DEFINITION. What the row engines do: DMA copy (R379), DMA transpose (R212, R213), Rucksack push and pop (R219 to R223),
normalisation and soft maximum with their statistics (R224 to R230).
-/
namespace Sys2Proof.Machine

/-- The unit of the row engine of module-wide region g (C0 unit 4). -/
def engineCoord (s : State) (g : Nat) : Nat := unitCoord s (g / 4) (g % 4) 0 4

/-- The selected row engines, ascending. -/
def enginesOf (mask : Nat) : List Nat := if mask = 0 then sixteen else sixteen.filter (bitAt mask)

/-! ## DMA copy (R379) -/

structure Copy where
  src : Nat
  dst : Nat
  n : Nat

def copyOf (r : Rec64) : Copy := ⟨rf r 191 128, rf r 255 192, rf r 319 256⟩
def copyZero (r : Rec64) : Bool := (copyOf r).n == 0

/-- The refusals of R379, and R287 for a destination in the peg window or in die control space. -/
def copyRefusal (s : State) (c : Copy) : Nat :=
  let src := readRefusal s (addrOff c.src) c.n
  let dst := writeRefusal s (addrDie c.dst) (addrOff c.dst) c.n
  firstCode [
    (src == 0x0701 || dst == 0x0701, 0x0701),
    (meets c.src c.n c.dst c.n, 0x0409),
    (dst != 0, dst),
    (true, src)]

def copyWork (r : Rec64) (s : State) : Done × State :=
  let c := copyOf r
  let code := copyRefusal s c
  if code != 0 then ({ status := code }, countRefusal code s)
  else
    let v := accessRead c.src c.n s
    let flags := if v.1.2 then accessPoison v.2 c.src c.n else []
    ({ poison := v.1.2 }, writeMarked c.dst v.1.1 flags v.2)

/-! ## DMA transpose (R212, R213) -/

structure Transpose where
  src : Nat
  dst : Nat
  rows : Nat
  cols : Nat
  round : Nat
  named : Bool
  mask : Nat

def transposeOf (r : Rec64) : Transpose :=
  ⟨rf r 143 128, rf r 159 144, rf r 191 160, rf r 223 192, rf r 226 224, rb r 227, rf r 255 240⟩
def transposeZero (r : Rec64) : Bool := let t := transposeOf r; t.rows == 0 || t.cols == 0

/-- Why a row engine may not write an output: R213 check 5 and R224 check 6 name the Rucksack among the protected areas. -/
def engineRefusal (s : State) (t : Tensor) : Nat :=
  let code := outputRefusal s t.addr (tensorBytes t)
  if code = 0x0426 then 0x050B else code

def transposeRefusal (s : State) (t : Transpose) : Nat :=
  match tensorOf s t.src, tensorOf s t.dst with
  | some a, some b => firstCode [
      ((formatOfCode a.format).isNone || (formatOfCode b.format).isNone, 0x0401),
      ((modeOfCode t.round).isNone, 0x0402),
      (!(flatFormat a) || !(flatFormat b), 0x0404),
      (!(shaped a t.rows t.cols) || !(shaped b t.cols t.rows), 0x0428),
      (tensorsMeet a b, 0x0409),
      (true, engineRefusal s b)]
  | _, _ => 0x040A

/-- The 64 × 64 blocks of the source, in ascending row-major order. -/
def sourceBlocks (t : Transpose) : List (Nat × Nat) :=
  (upto (ceilDiv t.rows 64)).flatMap fun i => (upto (ceilDiv t.cols 64)).map fun k => (i, k)

/-- The element of the destination that source element (i, j) becomes. -/
def transposed (s : State) (t : Transpose) (o : Operand) (i j : Nat) : OutElem :=
  let v := elemVal true o i j
  ⟨⟨s.plan.seed, curStep s, j, i, t.dst, 0, 0⟩, v, v⟩

/-- One block of a converting transpose: its destination rows, converted. -/
def transposeBlock (t : Transpose) (o : Operand) (d : Tensor) (slot : Option Nat) (unit bi bj : Nat) (acc : List Piece × State) :
    List Piece × State :=
  let s := acc.2
  let rows := (upto (min 64 (t.cols - 64 * bj))).map fun k =>
    (upto (min 64 (t.rows - 64 * bi))).map fun i => transposed s t o (64 * bi + i) (64 * bj + k)
  let mode := (modeOfCode (roundingCode s t.named t.round)).getD .rne
  if d.format = 4 then
    let te := tileExpOf s slot d (rows.flatten.map fun e => e.val)
    let cv := convK8Tile mode unit te.1 rows { state := s }
    (acc.1 ++ [⟨k8TileOff d (64 * bj) (64 * bi), cv.bytes, false⟩], countConv slot te.2 cv)
  else
    let cv := convScalars d mode unit rows.flatten { state := s }
    let w := scalarBytes d.format
    let len := (min 64 (t.rows - 64 * bi)) * w
    (acc.1 ++ (upto rows.length).map fun k =>
      (⟨((64 * bj + k) * d.cols + 64 * bi) * w, (cv.bytes.drop (k * len)).take len, false⟩ : Piece), countConv slot false cv)

/-- A transpose that copies codes bit for bit. -/
def transposeCodes (t : Transpose) (o : Operand) (d : Tensor) : List Piece :=
  let w := scalarBytes d.format
  (upto t.cols).map fun j => ⟨j * t.rows * w, (upto t.rows).flatMap fun i => slice o.bytes ((i * t.cols + j) * w) w, false⟩

/-- The destination bytes that come from poisoned sectors. -/
def transposeMarks (t : Transpose) (o : Operand) (d : Tensor) : List Nat :=
  if !(o.poison.any id) then []
  else (upto t.rows).flatMap fun i => (upto t.cols).flatMap fun j => if elemPoison o i j then elemOffsets d j i else []

def transposeWork (r : Rec64) (s : State) : Done × State :=
  let t := transposeOf r
  let code := transposeRefusal s t
  if code != 0 then ({ status := code }, countRefusal code s)
  else
    match tensorOf s t.src, tensorOf s t.dst with
    | some a, some d =>
      let ro := loadOperand a s
      let sel := enginesOf t.mask
      let blocks := sourceBlocks t
      let p : List Piece × State :=
        if a.format = d.format && d.format != 4 then (transposeCodes t ro.1 d, ro.2)
        else (blocks.zip (upto blocks.length)).foldl (fun acc b =>
          transposeBlock t ro.1 d (watchSlotOf s false 0 t.dst) (engineCoord s (nthD 0 sel (b.2 % sel.length))) b.1.1 b.1.2 acc)
          ([], ro.2)
      let w := writePieces d p.1 (transposeMarks t ro.1 d) p.2
      ({ poison := w.1 }, countN E.TRANSPOSE_BYTES (tensorBytes d) (count E.TRANSPOSE_COMMANDS w.2))
    | _, _ => ({ status := 0x040A }, s)

/-! ## The Rucksack (R217 to R223) -/

def setRowEng (e : RowEng) (s : State) : State := { s with rowEng := e }

/-- Frames of a region, bottom first; the pages in use. -/
def framesOf (s : State) (g : Nat) : List Frame := s.rowEng.frames.filter fun f => f.region == g
def pagesUsed (s : State) (g : Nat) : Nat := ((framesOf s g).map fun f => f.pages).sum

/-- The module payload address of a Rucksack page. -/
def ruckAddr (s : State) (g page : Nat) : Nat :=
  modAddr (g / 4) (slowAddr (g % 4) (((20480 - s.plan.rucksack) * 4096 + page) * pageBytes))

/-- The frame header. -/
def frameHeader (tag tensor step bytes prev : Nat) : Bytes :=
  natLe 2 tag ++ natLe 2 tensor ++ natLe 4 step ++ natLe 8 bytes ++ natLe 4 prev ++ zeros 36

def ruckRefused (code : Nat) (s : State) : Done × State := ({ status := code }, count E.RUCKSACK_REFUSED s)

/-- R374: a push of zero bytes. -/
def pushZero (s : State) (r : Rec64) : Bool :=
  match tensorOf s (rf r 143 128) with
  | some t => tensorBytes t == 0
  | none => false

def pushWork (r : Rec64) (s : State) : Done × State :=
  match tensorOf s (rf r 143 128) with
  | none => ruckRefused 0x040A s
  | some t =>
    let g := rf r 163 160
    let n := tensorBytes t
    let pages := ceilDiv (56 + n) pageBytes
    let used := pagesUsed s g
    if s.plan.rucksack * 4096 < used + pages then ruckRefused 0x0423 s
    else
      let prev := match (framesOf s g).getLast? with
        | some f => f.firstPage
        | none => 0xFFFFFFFF
      let ro := loadOperand t s
      let head := frameHeader (rf r 159 144) t.number (curStep s) n prev
      let tail := pages * pageBytes - 56 - n
      let flags := if ro.1.poison.any id then List.replicate 56 false ++ ro.1.poison ++ List.replicate tail false else []
      let s := writeMarked (ruckAddr s g used) (head ++ ro.1.bytes ++ zeros tail) flags ro.2
      let f : Frame := ⟨g, rf r 159 144, t.number, curStep s % 2 ^ 32, n, used, pages⟩
      let s := setRowEng { s.rowEng with
        frames := s.rowEng.frames ++ [f]
        highWater := supd 0 s.rowEng.highWater g (max (used + pages)) } s
      ({ poison := ro.1.poison.any id }, count E.RUCKSACK_PUSHES s)

def popWork (r : Rec64) (s : State) : Done × State :=
  let g := rf r 163 160
  match tensorOf s (rf r 143 128), (framesOf s g).getLast? with
  | none, _ => ruckRefused 0x040A s
  | some _, none => ruckRefused 0x0424 s
  | some t, some f =>
    if f.tag != rf r 159 144 || f.bytes != tensorBytes t then ruckRefused 0x0424 s
    else
      let code := outputRefusal s t.addr f.bytes
      if code != 0 then ruckRefused code (countRefusal code s)
      else
        let a := ruckAddr s g f.firstPage + 56
        let v := readRange a f.bytes s
        let flags := if v.1.2 then poisonMap v.2 a f.bytes else []
        let s := writeMarked t.addr v.1.1 flags v.2
        let s := setRowEng { s.rowEng with frames := s.rowEng.frames.filter fun x => x != f } s
        ({ poison := v.1.2 }, count E.RUCKSACK_POPS s)

/-- R223: at COMMIT every frame still on a Rucksack is discarded. -/
def dropResidue (s : State) : State :=
  let n := s.rowEng.frames.length
  if n = 0 then s
  else raiseOnceRun 0x0427 n (countN E.RUCKSACK_RESIDUE_FRAMES n (setRowEng { s.rowEng with frames := [] } s))

/-! ## Row-engine commands (R224 to R230) -/

structure RowCmd where
  x : Nat
  y : Nat
  dy : Nat
  gamma : Nat
  beta : Nat
  p : Nat
  rows : Nat
  len : Nat
  op : Nat
  round : Nat
  named : Bool
  eps : W32
  mask : Nat
  base : Nat
  tag : Nat
  spill : Nat
  grain : Nat
  fwdGrain : Nat
  bwd : Bool

def rowCmdOf (bwd : Bool) (r : Rec64) : RowCmd :=
  { x := rf r 143 128, y := rf r 159 144, dy := rf r 175 160, gamma := rf r 191 176, beta := rf r 207 192, p := rf r 223 208
    rows := rf r 255 224, len := rf r 271 256, op := rf r 273 272, round := rf r 276 274, named := rb r 277
    eps := BitVec.ofNat 32 (rf r 319 288), mask := rf r 335 320, base := rf r 351 336, tag := rf r 367 352
    spill := rf r 383 368, grain := rf r 399 384, fwdGrain := rf r 415 400, bwd := bwd }

def rowEngZero (r : Rec64) : Bool := rf r 255 224 == 0

/-- The tensors that a command names, by their use: 0 input x or dy, 1 scale or shift, 2 output, 3 statistics. -/
def namedTensors (c : RowCmd) : List (Nat × Nat) :=
  let opt (use n : Nat) : List (Nat × Nat) := if n = 0xFFFF then [] else [(use, n)]
  [(0, c.x), (2, c.y)] ++ (if c.bwd then [(0, c.dy)] else [])
    ++ (if c.op = 2 then [] else opt 1 c.gamma ++ (if c.bwd then opt 2 c.p else opt 1 c.beta))
    ++ opt 3 c.spill

/-- R225: rows of each engine, and where a row goes: its region and local index. -/
def rowsPer (c : RowCmd) : Nat := ceilDiv c.rows (enginesOf c.mask).length
def rowPlace (c : RowCmd) (row : Nat) : Nat × Nat := (nthD 0 (enginesOf c.mask) (row / rowsPer c), row % rowsPer c)

/-- R226: whether a row's statistics lie in the side memory. -/
def inSide (c : RowCmd) (row : Nat) : Bool := decide (c.base + (rowPlace c row).2 < 65536)

def emptyTag : SideTag := ⟨0, 0, 0, false⟩
/-- The key of the tag word of a row's block. -/
def tagKey (c : RowCmd) (row : Nat) : Nat := (rowPlace c row).1 * 64 + (c.base + (rowPlace c row).2) / 1024

/-- R227: whether a row's tag word matches. -/
def tagMatches (s : State) (c : RowCmd) (row : Nat) : Bool :=
  let t := sget emptyTag s.rowEng.tags (tagKey c row)
  t.valid && t.tag == c.tag && t.step == curStep s % 65536 && t.op == c.op

def epsOk (e : W32) : Bool := !(e.getLsbD 31) && decide (0x00800000 ≤ e.toNat) && decide (e.toNat < 0x7F800000)

/-- The checks of R224. -/
def rowCmdRefusal (s : State) (c : RowCmd) : Nat :=
  let named := (namedTensors c).map fun n => (n.1, tensorOf s n.2)
  if named.any fun n => n.2.isNone then 0x040A
  else
    let ts : List (Nat × Tensor) := named.filterMap fun n => n.2.map fun t => (n.1, t)
    let outs := ((ts.filter fun n => n.1 == 2) ++ (if c.bwd then [] else ts.filter fun n => n.1 == 3)).map Prod.snd
    let ins := ((ts.filter fun n => n.1 == 0 || n.1 == 1) ++ (if c.bwd then ts.filter fun n => n.1 == 3 else [])).map Prod.snd
    let shapeOk (n : Nat × Tensor) : Bool :=
      if n.1 = 1 then n.2.rows * n.2.cols == c.len
      else if n.1 = 3 then n.2.format == 0 && decide (2 * c.rows ≤ n.2.rows * n.2.cols)
      else shaped n.2 c.rows c.len
    let pairs := (upto outs.length).any fun i => (upto i).any fun k =>
      match outs[i]?, outs[k]? with
      | some a, some b => tensorsMeet a b
      | _, _ => false
    firstCode [
      (ts.any fun n => (formatOfCode n.2.format).isNone, 0x0401),
      ((modeOfCode c.round).isNone, 0x0402),
      (ts.any fun n =>
        if n.1 = 0 then !(formatIn n.2 [0, 1, 2]) else if n.1 = 1 then !(formatIn n.2 [0, 2])
        else if n.1 = 2 then !(formatIn n.2 [0, 1, 2, 5]) || !(flatFormat n.2) else false, 0x0404),
      (decide (c.len = 0) || decide (8192 < c.len) || c.op == 3 || (c.op != 2 && !(epsOk c.eps)) || c.base % 1024 != 0
        || ts.any (fun n => !(shapeOk n)), 0x0425),
      (c.spill == 0xFFFF && decide (65536 < c.base + min c.rows (rowsPer c)), 0x0421),
      ((outs.any fun o => ins.any (tensorsMeet o)) || pairs, 0x0409),
      (outs.any fun o => engineRefusal s o != 0, firstCode (outs.map fun o => (engineRefusal s o != 0, engineRefusal s o))),
      (c.bwd && (upto c.rows).any fun row => inSide c row && !(tagMatches s c row), 0x0422)]

/-! ### Statistics (R226) -/

/-- The SRAM line of a side-memory entry. -/
def sideLine (g entry : Nat) : Nat := sramKey (g / 4) (2 ^ 20 + g % 4 * 8192 + entry / 8)

/-- Stores the statistics of a row. -/
def storeStats (c : RowCmd) (row : Nat) (s0 s1 : W32) (poison : Bool) (s : State) : State :=
  let g := (rowPlace c row).1
  let e := c.base + (rowPlace c row).2
  if inSide c row then
    let s := fixLine (sideLine g e) s
    setRowEng { s.rowEng with
      side := sput 0 s.rowEng.side (g * 65536 + e) (BitVec.ofNat 64 (s0.toNat + s1.toNat * 2 ^ 32))
      tags := sput emptyTag s.rowEng.tags (tagKey c row) ⟨c.tag, curStep s % 65536, c.op, true⟩ } s
  else
    match tensorOf s c.spill with
    | none => s
    | some t =>
      let b := natLe 4 s0.toNat ++ natLe 4 s1.toNat
      count E.STATS_SPILLED (writeMarked (t.addr + 8 * row) b (List.replicate 8 poison) s)

/-- Reads the statistics of a row, and whether they are poisoned. -/
def loadStats (c : RowCmd) (row : Nat) (s : State) : ((W32 × W32) × Bool) × State :=
  let g := (rowPlace c row).1
  let e := c.base + (rowPlace c row).2
  if inSide c row then
    let s := fixLine (sideLine g e) s
    let v := (sget 0 s.rowEng.side (g * 65536 + e)).toNat
    (((BitVec.ofNat 32 v, BitVec.ofNat 32 (v / 2 ^ 32)), linePoison s (sideLine g e)), s)
  else
    match tensorOf s c.spill with
    | none => (((0, 0), false), s)
    | some t =>
      let r := readRange (t.addr + 8 * row) 8 s
      (((BitVec.ofNat 32 (field r.1.1 0 4), BitVec.ofNat 32 (field r.1.1 4 4)), r.1.2), r.2)

/-! ### Arithmetic (R228, R229) -/

/-- The Grain coordinates of a rounding of a row. -/
def rowAt (s : State) (tensor row column : Nat) : GrainAt := ⟨s.plan.seed, curStep s, row, column, tensor, 0, 0⟩

/-- `srd`: one rounding to F32, with its counts. -/
def rowSrd (at_ : GrainAt) (v : ExactNum) : W32 × Tally := f32enc .srd (srdDraw .actConvert at_ 0) v

/-- `srd64`: one rounding of a value in 0 to 1 to a multiple of 2^(−64), with its counts (R67). -/
def rowSrd64 (at_ : GrainAt) (v : ExactNum) : ExactNum × Tally :=
  match v with
  | .fin s m e =>
    if e ≤ -64 then
      let k := roundMag m (-64 - e).toNat .srd (srdDraw .actConvert at_ 0)
      (.fin s k (-64), { under := b2n (decide (k = 0 ∧ m ≠ 0)) })
    else (.fin s m e, {})
  | w => (w, {})

/-- `1 / √(v / d)` of a positive `v`, with a sticky last bit: 96 and more significant bits of the exact value. -/
def recipSqrt (v : ExactNum) (d : Nat) : ExactNum :=
  match v with
  | .fin _ m e =>
    if m = 0 then .inf false
    else
      -- √(d / (m 2^e)) = √(d 2^(2k + e') / m) 2^(−k − (e + e') / 2), with e + e' even
      let odd : Nat := (e % 2).toNat
      let k := 128 + bitLen m
      let n := d <<< (2 * k + odd)
      let q := n / m
      let r := isqrt q
      let exact := decide (n % m = 0) && decide (r * r = q)
      .fin false (2 * r + b2n (!exact)) (-(k : Int) - (e + odd) / 2 - 1)
  | _ => .nan

/-- One row of values. -/
def rowVals (o : Operand) (row len : Nat) : List ExactNum := (upto len).map fun i => elemVal true o row i

/-- The elements of a vector of L elements, or a constant where none is named. -/
def vecVals (o : Option Operand) (len : Nat) (d : ExactNum) : List ExactNum :=
  match o with
  | none => List.replicate len d
  | some o => (upto len).map fun i => elemVal true o (i / o.tensor.cols) (i % o.tensor.cols)

/-- What a row gives: its outputs (dx or y), the outputs p, its statistics (forward), whether it is non-finite or empty, and
what its roundings have counted. -/
structure RowOut where
  y : List ExactNum
  p : List ExactNum
  stats : W32 × W32
  nonfinite : Bool
  empty : Bool
  tally : Tally := {}

/-- Normalisation forward. -/
def normFwd (s : State) (c : RowCmd) (row : Nat) (x gam bet : List ExactNum) : RowOut :=
  let l := c.len
  let s1 := numSum x
  let s2 := numSum (x.map fun v => numMul v v)
  let eps := f32val c.eps
  let mu := if c.op = 0 then rowSrd (rowAt s c.grain row 0x8000) (numDiv s1 (numOfNat l)) else (f32zero, {})
  let rs :=
    if c.op = 0 then
      recipSqrt (numAdd (numSub (numMul (numOfNat l) s2) (numMul s1 s1)) (numMul eps (numOfNat (l * l)))) (l * l)
    else recipSqrt (numAdd s2 (numMul eps (numOfNat l))) l
  let rs := rowSrd (rowAt s c.grain row 0x8001) rs
  let y := (x.zip (gam.zip bet)).map fun e =>
    numAdd (numMul (numMul (numSub e.1 (f32val mu.1)) (f32val rs.1)) e.2.1) e.2.2
  ⟨y, [], (mu.1, rs.1), false, false, tallyAdd mu.2 rs.2⟩

/-- Normalisation backward; every term is brought over L, so that one division by L ends each element. -/
def normBwd (c : RowCmd) (stats : W32 × W32) (x dy gam : List ExactNum) : RowOut :=
  let mu := f32val stats.1
  let rs := f32val stats.2
  let l := numOfNat c.len
  let xh := x.map fun v => numMul (numSub v mu) rs
  let dg := (dy.zip gam).map fun e => numMul e.1 e.2
  let a := if c.op = 1 then num0 else numSum dg
  let b := numSum ((dg.zip xh).map fun e => numMul e.1 e.2)
  let dx := (dg.zip xh).map fun e => numDiv (numMul rs (numSub (numSub (numMul l e.1) a) (numMul e.2 b))) l
  ⟨dx, (dy.zip xh).map fun e => numMul e.1 e.2, stats, false, false, {}⟩

/-- The largest value of a row. -/
def rowMax : List ExactNum → ExactNum
  | [] => .inf true
  | v :: rest => rest.foldl (fun m w => if numLt m w then w else m) v

/-- The exponentials of a soft maximum, with their counts. -/
def rowExps (s : State) (tensor row : Nat) (m : ExactNum) (x : List ExactNum) : List ExactNum × Tally :=
  tallyAll ((x.zip (upto x.length)).map fun e => rowSrd64 (rowAt s tensor row (0x2000 + e.2)) (numExp (numSub e.1 m)))

def softFwd (s : State) (c : RowCmd) (row : Nat) (x : List ExactNum) : RowOut :=
  let m := rowMax x
  let es := rowExps s c.grain row m x
  let zf := rowSrd (rowAt s c.grain row 0x8001) (numSum es.1)
  ⟨es.1.map fun e => numDiv e (f32val zf.1), [], (f32round .rz 0 m, zf.1), false, false, tallyAdd es.2 zf.2⟩

def softBwd (s : State) (c : RowCmd) (row : Nat) (stats : W32 × W32) (x dy : List ExactNum) : RowOut :=
  let zf := f32val stats.2
  let es := rowExps s c.fwdGrain row (f32val stats.1) x
  let d := numSum ((dy.zip es.1).map fun e => numMul e.1 e.2)
  ⟨(dy.zip es.1).map fun e => numDiv (numMul e.2 (numSub (numMul e.1 zf) d)) (numMul zf zf), [], stats, false, false, es.2⟩

/-- R230: whether a row is non-finite. -/
def rowNonfinite (c : RowCmd) (x dy gam bet : List ExactNum) : Bool :=
  (x.any fun v => numIsNan v || v == .inf false || (c.op != 2 && v == .inf true))
    || (c.bwd && dy.any numNonfinite) || (c.op != 2 && (gam.any numNonfinite || bet.any numNonfinite))

/-- One row of a command. -/
def rowResult (s : State) (c : RowCmd) (row : Nat) (stats : W32 × W32) (x dy gam bet : List ExactNum) : RowOut :=
  if rowNonfinite c x dy gam bet then ⟨x.map fun _ => .nan, x.map fun _ => .nan, (f32nan, f32nan), true, false, {}⟩
  else if c.op = 2 && x.all (fun v => v == .inf true) then ⟨x.map fun _ => num0, [], (f32ninf, f32zero), false, true, {}⟩
  else if c.bwd then (if c.op = 2 then softBwd s c row stats x dy else normBwd c stats x dy gam)
  else if c.op = 2 then softFwd s c row x
  else normFwd s c row x gam bet

/-! ### The command -/

/-- What a row-engine command has loaded. -/
structure RowJob where
  c : RowCmd
  x : Operand
  dy : Option Operand
  gamma : Option Operand
  beta : Option Operand
  y : Tensor
  p : Option Tensor

/-- Loads an optional operand. -/
def loadOpt (want : Bool) (n : Nat) (s : State) : Option Operand × State :=
  match (if want && n != 0xFFFF then tensorOf s n else none) with
  | none => (none, s)
  | some t => let r := loadOperand t s; (some r.1, r.2)

/-- Whether a row reads a poisoned sector. -/
def rowPoison (j : RowJob) (row : Nat) : Bool :=
  let inRow (o : Operand) : Bool := (o.poison.any id) && (upto j.c.len).any fun i => elemPoison o row i
  inRow j.x || j.dy.elim false inRow || j.gamma.elim false (fun o => o.poison.any id) || j.beta.elim false (fun o => o.poison.any id)

/-- Converts the outputs of a row, dx before p at each element. -/
def rowConvert (j : RowJob) (row unit : Nat) (o : RowOut) (c1 c2 : Conv) : Conv × Conv :=
  let mode := (modeOfCode (roundingCode c1.state j.c.named j.c.round)).getD .rne
  (upto j.c.len).foldl (fun (cs : Conv × Conv) i =>
    let v := nthD .nan o.y i
    let a := convScalar j.y mode unit ⟨rowAt c1.state j.c.grain row i, v, v⟩ cs.1
    match j.p with
    | none => (a, { cs.2 with state := a.state })
    | some t =>
      let w := nthD .nan o.p i
      let b := convScalar t mode unit ⟨rowAt c1.state j.c.grain row (0x4000 + i), w, w⟩ { cs.2 with state := a.state }
      ({ a with state := b.state }, b)) (c1, c2)

/-- What the rows have made so far. -/
structure RowAcc where
  y : List Piece := []
  p : List Piece := []
  state : State

/-- One row. -/
def runRow (j : RowJob) (row : Nat) (acc : RowAcc) : RowAcc :=
  let c := j.c
  let s := acc.state
  let st := if c.bwd then loadStats c row s else (((0, 0), false), s)
  let s := st.2
  let x := rowVals j.x row c.len
  let dy := match j.dy with
    | some o => rowVals o row c.len
    | none => []
  let gam := vecVals j.gamma c.len num1
  let bet := vecVals j.beta c.len num0
  let o := rowResult s c row st.1.1 x dy gam bet
  let bad := rowPoison j row || st.1.2
  let s := whenS (!c.bwd) (storeStats c row o.stats.1 o.stats.2 bad) s
  let s := whenS o.nonfinite (count E.ROW_NONFINITE) (countTally o.tally s)
  let s := whenS o.empty (count E.ROW_EMPTY) s
  let cv := rowConvert j row (engineCoord s (rowPlace c row).1) o { state := s } { state := s }
  let ys := watchSlotOf s false 0 j.y.number
  let s := countConv ys false { cv.1 with state := cv.2.state }
  let s := match j.p with
    | some t => countConv (watchSlotOf s false 0 t.number) false { cv.2 with state := s }
    | none => s
  { y := acc.y ++ [⟨row * c.len * scalarBytes j.y.format, cv.1.bytes, bad⟩]
    p := match j.p with
      | some t => acc.p ++ [⟨row * c.len * scalarBytes t.format, cv.2.bytes, bad⟩]
      | none => []
    state := s }

/-- The work of ROWENG_FWD and ROWENG_BWD. -/
def rowEngWork (bwd : Bool) (r : Rec64) (s : State) : Done × State :=
  let c := rowCmdOf bwd r
  let code := rowCmdRefusal s c
  if code != 0 then ({ status := code }, countRefusal code (count E.ROWENG_REFUSED s))
  else
    match tensorOf s c.x, tensorOf s c.y with
    | some tx, some ty =>
      let x := loadOperand tx s
      let dy := loadOpt bwd c.dy x.2
      let gm := loadOpt (c.op != 2) c.gamma dy.2
      let bt := loadOpt (c.op != 2 && !bwd) c.beta gm.2
      let p := if bwd && c.op != 2 && c.p != 0xFFFF then tensorOf s c.p else none
      let j : RowJob := ⟨c, x.1, dy.1, gm.1, bt.1, ty, p⟩
      let acc := (upto c.rows).foldl (fun acc row => runRow j row acc) ({ state := bt.2 } : RowAcc)
      let w := writePieces ty acc.y [] acc.state
      let w2 := match p with
        | some t => writePieces t acc.p [] w.2
        | none => (false, w.2)
      let s := countN (if bwd then E.ROWENG_ROWS_BWD else E.ROWENG_ROWS_FWD) c.rows w2.2
      ({ poison := w.1 || w2.1 }, s)
    | _, _ => ({ status := 0x040A }, s)

end Sys2Proof.Machine
end

