-- ==== Sys2Proof/Machine/MemUnits.lean ====
section
/-!
DEFINITION. The units that work on memory by themselves (chapter 10): the parity cache's timer (R267), the Burnisher (R276
to R278), and the check-value unit (R280 to R284).
-/
namespace Sys2Proof.Machine

/-- PARITY_FLUSH_EXPIRY: an entry that has held a change for PARITY_FLUSH_US is written back. -/
def parityFlush (page : Nat) (s : State) : State := parityWriteback page s

/-! ## The Burnisher -/

/-- Pages of a region's tier (0 slow, 1 fast). -/
def tierPages (tier : Nat) : Nat := if tier = 0 then slowPop / pageBytes else fastPop / pageBytes

/-- The key of a Burnisher slice: module-wide region × 2 + tier. -/
def burnKey (region tier : Nat) : Nat := region * 2 + tier % 2
def burnOf (s : State) (region tier : Nat) : Burn := sget {} s.mem.burn (burnKey region tier)
def setBurn (region tier : Nat) (b : Burn) (s : State) : State :=
  setMem { s.mem with burn := sput {} s.mem.burn (burnKey region tier) b } s

/-- The Burnisher slice of a region (C3 unit 36). -/
def burnCoord (s : State) (region : Nat) : Nat := unitCoord s (region / 4) (region % 4) 3 36

/-- R276: whether the Burnisher runs. -/
def burnisherRuns (s : State) : Bool :=
  setting s E.BURNISHER_ENABLE == 1 && s.life.powState == .active && !(isState s .retention) && s.mem.filled

/-- R277: one page: every sector read, and stale parity rewritten. -/
def checkPage (region pk : Nat) (s : State) : State :=
  let s := fixPage pk s
  if staleOf s pk = (0, 0) then s
  else raiseOnceAt 0x0704 (burnCoord s region) pk (count E.PARITY_REPAIRS (setStale pk (0, 0) s))

/-- R278, R269: a lap ends: its duration and count, and the walk of a suspect region's tier. -/
def endLap (region tier : Nat) (s : State) : State :=
  let b := burnOf s region tier
  let left := sget 0 s.mem.suspect region
  let s := setMem { s.mem with suspect := sput 0 s.mem.suspect region (if bitAt left tier then left - 2 ^ tier else left) } s
  setBurn region tier { b with
    page := 0, laps := min (b.laps + 1) (2 ^ 32 - 1)
    lapS := min ((s.lantern.wallNs - b.startNs.getD s.lantern.wallNs) / 10 ^ 9) (2 ^ 32 - 1)
    startNs := some s.lantern.wallNs, alarmed := false } s

/-- BURNISHER_PAGE_CHECK: the next page of a region's tier; the first lap begins with the first page that is checked. -/
def burnisherPage (region tier : Nat) (s : State) : State :=
  if !(burnisherRuns s) then s
  else
    let b := burnOf s region tier
    let b := { b with startNs := some (b.startNs.getD s.lantern.wallNs) }
    let pk := pageKey (placeOf (region / 4) (tier % 2) (region % 4)) b.page
    let s := setBurn region tier b (checkPage region pk s)
    if tierPages tier ≤ b.page + 1 then endLap region (tier % 2) s
    else setBurn region tier { b with page := b.page + 1 } s

/-- BURNISHER_LAP_ALARM: the lap in progress has lasted BURNISHER_LAP_LIMIT_S. -/
def lapAlarm (region tier : Nat) (s : State) : State :=
  let b := burnOf s region tier
  if setting s E.BURNISHER_LAP_LIMIT_S = 0 || b.alarmed || b.startNs.isNone then s
  else
    raiseAt 0x0706 (burnCoord s region) (burnKey region tier)
      (count E.BURNISHER_ALARMS (setBurn region tier { b with alarmed := true } s))

/-! ## The check-value unit -/

/-- A scan command's fields. -/
def scanOf (q i : Nat) (r : Rec64) : Scan :=
  { queue := q, index := i, start := rf r 191 128, length := rf r 255 192, algo := rf r 256 256, fold := rf r 258 257
    compare := rb r 259, seqBase := rf r 383 320
    expected := if rb r 256 then rf r 447 384 else rf r 415 384, resultAddr := rf r 511 448 }

def scanZero (r : Rec64) : Bool := rf r 255 192 == 0

/-- R280: whether a scan's geometry is good. -/
def scanGood (s : State) (c : Scan) : Bool :=
  let o := addrOff c.start
  let place (a n : Nat) : Bool := match rangeSpot s a n with
    | some sp => addressable sp.portion && sp.portion != .peg && sp.portion != .control
    | none => false
  c.start % 64 == 0 && c.length % 64 == 0 && c.fold != 3 && place o c.length
    && (c.resultAddr == 0
      || (c.resultAddr % 16 == 0 && place (addrOff c.resultAddr) 16
        && [0, 0x0426].contains (writeRefusal s (addrDie c.resultAddr) (addrOff c.resultAddr) 16)))

/-- Why a scan is refused; 0 when it is not.  R280, and R218 of a range or a result record in the Rucksack. -/
def scanRefusal (s : State) (c : Scan) : Nat :=
  if !(scanGood s c) then 0x0709
  else if readRefusal s (addrOff c.start) c.length = 0x0426
      || (c.resultAddr != 0 && writeRefusal s (addrDie c.resultAddr) (addrOff c.resultAddr) 16 == 0x0426) then 0x0426
  else 0

/-- R284: a die's unit holds one scan that runs, the oldest, and a queue of 16. -/
def scansAt (s : State) (die : Nat) : List Scan := s.mem.scans.filter fun c => addrDie c.start == die
def scanQueueFull (s : State) (die : Nat) : Bool := decide (17 ≤ (scansAt s die).length)

/-- CRC-64/ECMA-182, most significant bit first. -/
def crc64Bits : Nat → Nat → Nat
  | 0, c => c
  | n + 1, c => crc64Bits n (if 2 ^ 63 ≤ c then ((c * 2) ^^^ 0x42F0E1EBA9EA3693) % 2 ^ 64 else c * 2)
def crc64 (c : Nat) (b : Bytes) : Nat := b.foldl (fun c x => crc64Bits 8 (c ^^^ (x.toNat * 2 ^ 56))) c

/-- R281: continues a CRC. -/
def scanUpdate (algo c : Nat) (b : Bytes) : Nat := if algo = 0 then crcRefl 0x82F63B78 c b else crc64 c b

/-- The units of a scan from unit u on: the CRC register, or none where a sector is poisoned. -/
def scanUnits (c : Scan) (n : Nat) : Nat → Nat → State → Option Nat × State
  | 0, acc, s => (some acc, s)
  | k + 1, acc, s =>
    let u := n - (k + 1)
    let a := c.start + 64 * u
    let fold := if c.fold = 1 then natLe 8 (memGlobal (myNumber s) (addrDie a) (addrOff a))
      else if c.fold = 2 then natLe 8 ((c.seqBase + u) % 2 ^ 64) else []
    let r := readRange a 64 s
    if r.1.2 then (none, r.2) else scanUnits c n k (scanUpdate c.algo acc (fold ++ r.1.1)) r.2

/-- R282, R283: a scan run to its end: result and status. -/
def scanResult (c : Scan) (s : State) : (Nat × Nat) × State :=
  let n := c.length / 64
  match scanUnits c n n (if c.algo = 0 then 0xFFFFFFFF else 0) s with
  | (none, s) => ((0, 0x0708), s)
  | (some v, s) =>
    let v := if c.algo = 0 then v ^^^ 0xFFFFFFFF else v
    ((v, if c.compare && v != c.expected then 0x0707 else 0), s)

/-- CHECK_SCAN_RUN: the unit of a die takes its oldest scan; nothing of a module out of service works on (R29). -/
def runScan (die : Nat) (s : State) : State :=
  match (if serves s then (scansAt s die).head? else none) with
  | none => s
  | some c =>
    let s := setMem { s.mem with scans := s.mem.scans.erase c } s
    let r := scanResult c s
    let st := r.1.2
    let s := count E.CHECK_SCANS r.2
    let s := setMem { s.mem with
      lastResult := sput 0 s.mem.lastResult die r.1.1, lastStatus := sput 0 s.mem.lastStatus die st } s
    let s := whenS (st == 0x0707) (fun s =>
      raiseAt 0x0707 (unitCoord s die 4 1 0) (c.queue * 65536 + c.index) (count E.CHECK_MISMATCHES s)) s
    let s := whenS (c.resultAddr != 0) (writeRange c.resultAddr (natLe 8 r.1.1 ++ natLe 2 st ++ zeros 6) false) s
    endPlain c.queue c.index (if st = 0x0708 then 0x0708 else 0) s

end Sys2Proof.Machine
end

