-- ==== Sys2Proof/Machine/RowOps.lean ====
section
/-!
DEFINITION. Row operations (R385 to R388): row images, ROW_READ, and the writing operations ROW_WRITE, ROW_FREEZE and
ROW_RESET, which change records only at a COMMIT point and, while the module is Paired, on both twins.
-/
namespace Sys2Proof.Machine

/-! ## Images (R385) -/

/-- Bytes of a record's image. -/
def imageLen (mode : Nat) : Nat := 64 * recSectors mode

/-- The image of a record: 64 bytes for each sector. -/
def imageOf (b : Bytes) (marks : List Nat) : Bytes :=
  ((pieces sectorBytes b).zip marks).flatMap fun p => p.1 ++ natLe 4 p.2 ++ zeros 4

/-- The payload bytes of an image, and the metadata of its sectors. -/
def imagePayload (img : Bytes) : Bytes := (pieces 64 img).flatMap fun p => p.take 56
def imageMarks (img : Bytes) : List Nat := (pieces 64 img).map fun p => field p 56 4

/-- R381, R385, R538: whether a range of module payload addresses lies wholly in one flat portion of this module. -/
def flatArea (s : State) (a n : Nat) : Bool := ringAreaOk s a n

/-! ## What every row operation names and checks -/

/-- A row operation's fields. -/
structure RowArgs where
  set : Nat
  table : Nat
  variant : Nat
  frozen : Bool
  first : Nat
  rows : Nat
  buf : Nat

def rowArgs (r : Rec64) : RowArgs :=
  { set := rf r 135 128, table := rf r 159 144, variant := rf r 169 160, frozen := rb r 176, first := rf r 231 192
    rows := rf r 287 256, buf := rf r 383 320 }

/-- R374: ROW_COUNT zero. -/
def rowsZero (r : Rec64) : Bool := rf r 287 256 == 0

/-- The declarations a row operation names. -/
def rowDecl (s : State) (set table : Nat) : Option (TableSet × TableDecl) :=
  (tableSet s set).bind fun ts => (tableOf ts table).map fun d => (ts, d)

/-- R385, R392: why a row operation is refused; `image`: it has an image, which ROW_READ (`reads`) writes. -/
def rowRefusal (s : State) (a : RowArgs) (image reads : Bool) : Nat :=
  match rowDecl s a.set a.table with
  | none => 0x020E
  | some td =>
    let d := td.2
    let lo := bandStart s d (myPitch s)
    let n := a.rows * localSlices s d * imageLen td.1.mode
    firstCode [
      (decide (a.first < lo) || decide (lo + bandRows s d (myPitch s) < a.first + a.rows), 0x0208),
      (image && !(flatArea s a.buf n), 0x020A),
      (reads && touchesImage s (addrDie a.buf) (addrOff a.buf) n, 0x030D)]

/-! ## ROW_READ (R386) -/

/-- Writes the images of `n` records, from record `i` on. -/
def readImages (ts : TableSet) (d : TableDecl) (a : RowArgs) : Nat → Nat → Bool × State → Bool × State
  | 0, _, p => p
  | n + 1, i, p =>
    let k := localSlices p.2 d
    let s := resolveReads ts d (a.first + i / k) a.variant p.2
    let home := (resolve s ts d (a.first + i / k) a.variant (i % k)).1
    let v := readRecord home 0 (recSectors ts.mode) s
    let flags := v.1.2.flatMap fun m => List.replicate 64 (markPoison m)
    let s := writeMarked (a.buf + i * imageLen ts.mode) (imageOf v.1.1 v.1.2) flags v.2
    readImages ts d a n (i + 1) (p.1 || v.1.2.any markPoison, s)

def rowReadWork (r : Rec64) (s : State) : Done × State :=
  let a := rowArgs r
  let code := rowRefusal s a true true
  match (if code = 0 then rowDecl s a.set a.table else none) with
  | none => ({ status := code }, s)
  | some td =>
    let p := readImages td.1 td.2 a (a.rows * localSlices s td.2) 0 (false, s)
    ({ poison := p.1 }, p.2)

/-! ## Writing one record (R387) -/

/-- Whether a row image may be stored: finite weights and Compat moments, no M16 code 0x8000, EXP_S at most 238. -/
def imageGood (mode : Nat) (img : Bytes) : Bool :=
  let b := imagePayload img
  let f32s (base n : Nat) : Bool := (upto n).all fun e => f32finite (BitVec.ofNat 32 (field b (base + 4 * e) 4))
  if isCompat mode then f32s 0 16 && f32s 72 16 && f32s 136 16
  else
    ((weightsOf mode b).all fun v => !(numNonfinite v))
      && ((upto 16).all fun e => field b (56 + 2 * e) 2 != 0x8000)
      && decide (markExpS (nthD 0 (imageMarks img) 1) ≤ 238)

/-- The bytes that ROW_WRITE stores over a record: what the image gives, IS_OVERLAY, VARIANT and OVERLAY_HEAD as they are,
and zero in every reserved field (R82, R85, R86). -/
def writtenBytes (mode : Nat) (img old : Bytes) : Bytes :=
  let b := imagePayload img
  let rm := (rowMetaOf mode b &&& 2) ||| (rowMetaOf mode old &&& (1 + 1023 * 2 ^ 16))
  let b := putUpdateMeta mode (lastT mode b + overlayHead mode old * 2 ^ 32) (putRowMeta mode rm b)
  if mode = 0 then patch b 32 (zeros 16) else if isCompat mode then patch b 208 (zeros 16) else b

/-- The bytes that ROW_FREEZE stores. -/
def frozenBytes (mode : Nat) (on : Bool) (old : Bytes) : Bytes :=
  let rm := rowMetaOf mode old
  putRowMeta mode (if on then rm ||| 2 else rm &&& (2 ^ 64 - 3)) old

/-- The bytes that ROW_RESET stores. -/
def resetBytes (mode : Nat) (old : Bytes) : Bytes :=
  let b := if isCompat mode then patch old 72 (zeros 128) else patch old 56 (zeros 48)
  putUpdateMeta mode (overlayHead mode old * 2 ^ 32) b

/-- What a writing operation (opcode 0x19, 0x1A, 0x1B) makes of a record: its bytes and the exponents of its update
sectors. -/
def rowOpBytes (op mode : Nat) (frozen : Bool) (img old : Bytes) (marks : List Nat) : Bytes × Nat × Nat :=
  let k := nthD 0 marks 1
  if op = 0x19 then
    let m := nthD 0 (imageMarks img) 1
    (writtenBytes mode img old, markExpM m, markExpS m)
  else if op = 0x1A then (frozenBytes mode frozen old, markExpM k, markExpS k)
  else (resetBytes mode old, 0, 0)

/-! ## Pending operations (R388) -/

/-- Whether the AXIS value is at a COMMIT point. -/
def atCommit (s : State) : Bool := curStation s == 5

/-- Whether an operation is another's. -/
def sameOp (a b : RowOp) : Bool := a.queue == b.queue && a.index == b.index
def putRowOp (o : RowOp) (s : State) : State :=
  { s with rowOps := s.rowOps.map fun x => if sameOp x o then o else x }
def dropRowOp (o : RowOp) (s : State) : State := { s with rowOps := s.rowOps.filter fun x => !(sameOp x o) }

/-- Records of an operation. -/
def rowOpTotal (s : State) (o : RowOp) : Nat :=
  match rowDecl s o.set o.table with
  | some td => o.rows * localSlices s td.2
  | none => 0

/-- A record left unwritten: counted, and the first one's status and row offset kept. -/
def refuseRecord (code offset : Nat) (o : RowOp) (s : State) : RowOp × State :=
  (if o.status = 0 then { o with status := code, detail := offset } else o, count E.ROW_RECORDS_REFUSED s)

/-- Whether a variant above 0 has an overlay for a row; variant 0 has its base record. -/
def rowTarget (s : State) (ts : TableSet) (d : TableDecl) (row variant slice : Nat) : Option Nat :=
  let p := resolve s ts d row variant slice
  if variant = 0 || p.2 then some p.1 else none

/-- Writes the next record of an operation, or leaves it unwritten. -/
def writeNext (ts : TableSet) (d : TableDecl) (o : RowOp) (s : State) : RowOp × State :=
  let k := localSlices s d
  let i := o.nextRecord
  let row := o.firstRow + i / k
  let o := { o with nextRecord := i + 1 }
  let s := resolveReads ts d row o.variant s
  match rowTarget s ts d row o.variant (i % k) with
  | none => refuseRecord 0x0209 (i / k) o s
  | some home =>
    let n := imageLen ts.mode
    let im := if o.op = 0x19 then readRange (o.buf + i * n) n s else (([], false), s)
    let s := im.2
    if o.op = 0x19 && (im.1.2 || !(imageGood ts.mode im.1.1)) then refuseRecord 0x020D (i / k) o s
    else
      let old := readRecord home 0 (recSectors ts.mode) s
      let v := rowOpBytes o.op ts.mode o.frozen im.1.1 old.1.1 old.1.2
      let marks := newMarks ts.mode (curStep s) v.2.1 v.2.2
      let s := noteRecord home (storeRecord home v.1 marks (beforeRecordWrite home ts.mode false old.2))
      if isPaired s then
        let key : TargetKey := { kind := 0, set := o.set, table := o.table, row := row, variant := o.variant, slice := i % k }
        let g := homeGroup s d row
        let s := gIssue (g / 4) (g % 4) 7 3 (curStep s) (keyBytes key ++ imageOf v.1 marks) false (.rowChange o.queue o.index) s
        ({ o with awaiting := o.awaiting + 1 }, s)
      else (o, count E.ROW_RECORDS_WRITTEN s)

def writeRest (ts : TableSet) (d : TableDecl) : Nat → RowOp × State → RowOp × State
  | 0, p => p
  | n + 1, p => writeRest ts d n (writeNext ts d p.1 p.2)

/-- Ends an operation once every record is written or refused and every acknowledgement has come. -/
def finishRowOp (o : RowOp) (s : State) : State :=
  if rowOpTotal s o ≤ o.nextRecord && o.awaiting = 0 then
    endCmd o.queue o.index o.status o.detail false false (dropRowOp o s)
  else putRowOp o s

/-- At a COMMIT point: writes the records an operation has still to write. -/
def runRowOp (o : RowOp) (s : State) : State :=
  match rowDecl s o.set o.table with
  | none => s
  | some td =>
    if atCommit s then
      let p := writeRest td.1 td.2 (rowOpTotal s o - o.nextRecord) (o, s)
      finishRowOp p.1 p.2
    else s

def runRowOps (s : State) : State := forEach s.rowOps runRowOp s

/-- The partner has acknowledged one record, or turned it away with a status. -/
def rowChangeAnswered (q i status : Nat) (s : State) : State :=
  match s.rowOps.find? fun o => o.queue == q && o.index == i with
  | none => s
  | some o =>
    let o := { o with awaiting := o.awaiting - 1, status := if o.status = 0 then status else o.status }
    finishRowOp o (whenS (status == 0) (count E.ROW_RECORDS_WRITTEN) s)

/-- R388: after a failover no acknowledgement is waited for: what awaited one is written, on this module alone. -/
def rowOpsAlone (s : State) : State :=
  forEach s.rowOps (fun o s => finishRowOp { o with awaiting := 0 } (countN E.ROW_RECORDS_WRITTEN o.awaiting s)) s

/-- R393: UNLOAD ends the unfinished ones. -/
def endRowOps (s : State) : State :=
  forEach s.rowOps (fun o s => endPlain o.queue o.index 0x0206 (dropRowOp o s)) s

/-- Starts a writing row operation. -/
def rowWriteWork (q i op : Nat) (r : Rec64) (s : State) : State :=
  let a := rowArgs r
  let code := rowRefusal s a (op == 0x19) false
  if code != 0 then endPlain q i code s
  else
    let o : RowOp := {
      queue := q, index := i, op := op, set := a.set, table := a.table, variant := a.variant, frozen := a.frozen
      firstRow := a.first, rows := a.rows, buf := a.buf, nextRecord := 0, awaiting := 0, status := 0, detail := 0 }
    runRowOp o { s with rowOps := s.rowOps ++ [o] }

/-- ROW_RECORDS_PENDING: records that wait for a COMMIT point. -/
def recordsPending (s : State) : Nat := (s.rowOps.map fun o => rowOpTotal s o - o.nextRecord).sum

/-- ROW_CHANGE at the partner: the record is written in the same window.  The answer is a status; RETRY_LATER while this
module's AXIS value is at no COMMIT point. -/
def takeRowChange (p : GPacket) (s : State) : Nat × State :=
  let k := keyOf p.data
  let img := p.data.drop 12
  if !(atCommit s) then (0x0811, s)
  else
    match rowDecl s k.set k.table with
    | none => (0x020E, s)
    | some td =>
      let s := resolveReads td.1 td.2 k.row k.variant s
      match rowTarget s td.1 td.2 k.row k.variant k.slice with
      | none => (0x0209, s)
      | some home => (0, storeRecord home (imagePayload img) (imageMarks img) (beforeRecordWrite home td.1.mode false s))

end Sys2Proof.Machine
end

