-- ==== Sys2Proof/Machine/Bindings.lean ====
section
/-!
DEFINITION. The commands that bind and feed a step: GATHER_POOL (R381), FEED_BIND (R426), SCHED (R168, R169, R389),
GRAD_SCATTER (R383) and DENSE_REDUCE (R384).
-/
namespace Sys2Proof.Machine

/-- Whether the AXIS value is at or beyond a point. -/
def reached (s : State) (step station : Nat) : Bool := decide (axisOf step station ≤ axis s)

/-! ## GATHER_POOL (R381) -/

/-- R374: SLOTS zero. -/
def poolZero (r : Rec64) : Bool := rf r 159 144 == 0

def poolOf (r : Rec64) : PoolBinding :=
  { set := rf r 135 128, fromStep := rf r 255 192, format := rf r 139 136
    round := if rb r 143 then some (rf r 142 140) else none
    slots := rf r 159 144, outAddr := rf r 319 256, slotBytes := rf r 383 320, tableStride := rf r 447 384 }

def poolRefusal (s : State) (r : Rec64) : Nat :=
  let b := poolOf r
  match tableSet s b.set with
  | none => 0x020E
  | some ts =>
    let n := b.slots * b.slotBytes
    firstCode [
      ((formatOfCode b.format).isNone, 0x0401),
      (decide (2 < b.format), 0x0404),
      ((modeOfCode (rf r 142 140)).isNone, 0x0402),
      (decide (b.slotBytes < ts.tables.length * b.tableStride) || !(flatArea s b.outAddr n), 0x020A),
      (reached s b.fromStep 1, 0x0204)]

def poolBindWork (r : Rec64) (s : State) : Done × State :=
  let code := poolRefusal s r
  if code != 0 then ({ status := code }, s)
  else ({}, { s with step := { s.step with poolBindings := s.step.poolBindings ++ [poolOf r] } })

/-! ## FEED_BIND (R426) -/

def feedOf (r : Rec64) : FeedBinding :=
  { set := rf r 135 128, fromStep := rf r 255 192, exportRing := rf r 141 136, exportEn := rb r 142
    gradRing := rf r 149 144, gradEn := rb r 150 }

/-- Whether a ring may be bound: ACTIVE, of the kind, and for the table set. -/
def ringServes (s : State) (x : Nat) (kind : RingKind) (set : Nat) : Bool :=
  (ring s x).state == .active && (ring s x).kind == kind && (ring s x).tableSet == set

def feedRefusal (s : State) (b : FeedBinding) : Nat :=
  firstCode [
    (!s.plan.feed, 0x0110),
    ((tableSet s b.set).isNone, 0x020E),
    ((b.exportEn && !(ringServes s b.exportRing .outlet b.set)) || (b.gradEn && !(ringServes s b.gradRing .gradient b.set)), 0x0111),
    (reached s b.fromStep 1, 0x0204)]

def feedBindWork (r : Rec64) (s : State) : Done × State :=
  let b := feedOf r
  let code := feedRefusal s b
  if code != 0 then ({ status := code }, s)
  else ({}, { s with step := { s.step with feedBindings := s.step.feedBindings ++ [b] } })

/-! ## SCHED (R168, R169, R389) -/

/-- Entry j of a SCHED record: valid, its table set, and the schedule. -/
def schedEntry (r : Rec64) (j : Nat) : Bool × Nat × SchedEntry :=
  let b := 128 + 128 * j
  (rb r (b + 108), rf r (b + 103) (b + 96), { step := rf r (b + 63) b, param := rf r (b + 107) (b + 104), value := BitVec.ofNat 32 (rf r (b + 95) (b + 64)) })

/-- R374: no valid entry. -/
def schedZero (r : Rec64) : Bool := (upto 3).all fun j => !(schedEntry r j).1

def schedRefusal (s : State) (set : Nat) (e : SchedEntry) : Nat :=
  firstCode [
    ((tableSet s set).isNone, 0x0617),
    (decide (e.step ≤ curStep s), 0x0616),
    (!(f32finite e.value), 0x0617)]

/-- One entry: refused, or in the set's schedule behind those executed before it. -/
def schedOne (r : Rec64) (d : Done) (j : Nat) (s : State) : Done × State :=
  let e := schedEntry r j
  if !e.1 then (d, s)
  else
    let code := schedRefusal s e.2.1 e.2.2
    if code != 0 then (if d.status = 0 then { d with status := code, detail := j } else d, count E.SCHED_REFUSED s)
    else (d, count E.SCHED_APPLIED (updSet e.2.1 (fun t => { t with scheds := t.scheds ++ [e.2.2] }) s))

def schedWork (r : Rec64) (s : State) : Done × State :=
  let a := schedOne r {} 0 s
  let b := schedOne r a.1 1 a.2
  schedOne r b.1 2 b.2

/-! ## Commands that wait for messages -/

/-- A running command waits for `n` messages; without any it has ended. -/
def awaitMsgs (q i n : Nat) (poison : Bool) (s : State) : State :=
  if n = 0 then endCmd q i 0 0 false poison s
  else updCmd q i (fun c => { c with outstanding := n, fail := 0, poison := poison }) s

/-- Sends one of a command's messages; one that its issuer refuses has ended with that refusal. -/
def sendOwned (q i op k step : Nat) (body : Bytes) (s : State) : State :=
  let code := msgRefusal s op k
  let s := sendToMember 0 op k step body [] (.command q i) s
  if code = 0 then s else cmdProgress q i code s

/-! ## GRAD_SCATTER (R383) -/

/-- Why GRAD_SCATTER is refused.  The batches of a set are accepted one by one from S0 on (R107), so a batch of STEP was
accepted exactly when STEP lies below the set's next one. -/
def scatterRefusal (s : State) (r : Rec64) : Nat :=
  let step := rf r 191 128
  match rowDecl s (rf r 199 192) (rf r 215 200) with
  | none => 0x020E
  | some td =>
    if decide (step < s.plan.s0) || decide (td.1.nextBatch ≤ step) then 0x020C
    else if reached s step 3 then 0x0204
    else match batchOf s td.1.number step with
    | none => 0x020C
    | some bt =>
      let n := bt.samples * td.2.width * (if rb r 216 then 2 else 4)
      let a := rf r 319 256
      if 0 < n && 2 ^ 43 ≤ a then 0x0701 else readRefusal s (addrOff a) n

/-- Runs of at most 1,024 consecutive samples of one variant: (first sample of the run, samples, variant). -/
def variantRuns : List Nat → Nat → List (Nat × Nat × Nat)
  | [], _ => []
  | v :: rest, i =>
    match variantRuns rest (i + 1) with
    | (j, n, w) :: more => if v = w && n < 1024 then (i, n + 1, v) :: more else (i, 1, v) :: (j, n, w) :: more
    | [] => [(i, 1, v)]

/-- Slices of a table in groups of at most 16 of one position: (first slice, slices). -/
def sliceGroups (s : State) (d : TableDecl) : List (Nat × Nat) :=
  let k := localSlices s d
  (upto s.plan.p).flatMap fun p => (upto (ceilDiv k 16)).map fun c => (p * k + 16 * c, min 16 (k - 16 * c))

/-- An element's bytes, or the canonical NaN where it was read from a poisoned unit. -/
def scatterElems (w : Nat) (b : Bytes) (poison : List Bool) (off n : Nat) : Bytes :=
  let raw := slice b (off * w) (n * w)
  if poison.isEmpty then raw
  else (upto n).flatMap fun e =>
    let x := (off + e) * w
    if ((poison.drop x).take w).any id then natLe w (nanCode (if w = 2 then fmtD16 else fmtF32)) else slice raw (e * w) w

/-- The messages of a GRAD_SCATTER: member order and body. -/
def scatterMsgs (s : State) (r : Rec64) (ts : TableSet) (d : TableDecl) (bt : Batch) (b : Bytes) (poison : List Bool) :
    List (Nat × Bytes) :=
  let w := if rb r 216 then 2 else 4
  (variantRuns bt.variants 0).flatMap fun v => (sliceGroups s d).flatMap fun g =>
    let head := gradHeader bt.step ts.t (bt.firstSample + v.1) d.table ts.number v.2.2 0 (b2n (rb r 216)) v.2.1 g.2 g.1 (myNumber s)
    let body := (upto v.2.1).flatMap fun i => scatterElems w b poison ((v.1 + i) * d.width + 16 * g.1) (16 * g.2)
    gradSends s bt d (head ++ body)

def scatterWork (q i : Nat) (r : Rec64) (s : State) : State :=
  let code := scatterRefusal s r
  if code != 0 then endPlain q i code (countRefusal code s)
  else
    match rowDecl s (rf r 199 192) (rf r 215 200), batchOf s (rf r 199 192) (rf r 191 128) with
    | some td, some bt =>
      let a := rf r 319 256
      let n := bt.samples * td.2.width * (if rb r 216 then 2 else 4)
      let v := if bt.segments.contains td.2.table && 0 < n then accessRead a n s else (([], false), s)
      let s := v.2
      let poison := if v.1.2 then accessPoison s a n else []
      let ms := if bt.segments.contains td.2.table then scatterMsgs s r td.1 td.2 bt v.1.1 poison else []
      let s := awaitMsgs q i ms.length v.1.2 s
      forEach ms (fun m s => sendOwned q i 0x12 m.1 bt.step m.2 s) s
    | _, _ => endPlain q i 0x020E s

/-! ## DENSE_REDUCE (R384) -/

/-- Why DENSE_REDUCE is refused. -/
def denseRefusal (s : State) (r : Rec64) : Nat :=
  match tensorOf s (rf r 215 200), tensorOf s (rf r 335 320) with
  | some t, some g =>
    firstCode [
      (t.cls != 4, 0x040A),
      (g.format != 0, 0x0404),
      (g.rows != t.rows || g.cols != t.cols, 0x0407),
      (reached s (rf r 191 128) 3, 0x0204)]
  | _, _ => 0x040A

/-- Groups of one SHARD_GRAD message at most. -/
def shardMsgGroups : Nat := 16384

/-- The messages of a DENSE_REDUCE: member order and body. -/
def denseMsgs (s : State) (step : Nat) (t : Tensor) (b : Bytes) (poison : List Bool) : List (Nat × Bytes) :=
  ((allShards s).filter fun x => x.tensor.number == t.number).flatMap fun x =>
    (upto (ceilDiv x.count shardMsgGroups)).map fun c =>
      let first := c * shardMsgGroups
      let n := min shardMsgGroups (x.count - first)
      (shardLead s x.shard,
        natLe 8 step ++ natLe 4 x.shard ++ natLe 2 (myOrder s) ++ zeros 2 ++ natLe 4 first ++ natLe 4 n ++ zeros 8
          ++ scatterElems 4 b poison ((x.first + first) * 16) (n * 16))

def denseReduceWork (q i : Nat) (r : Rec64) (s : State) : State :=
  let code := denseRefusal s r
  if code != 0 then endPlain q i code s
  else
    match tensorOf s (rf r 215 200), tensorOf s (rf r 335 320) with
    | some t, some g =>
      let o := loadOperand g s
      let ms := denseMsgs o.2 (rf r 191 128) t o.1.bytes o.1.poison
      let s := awaitMsgs q i ms.length (o.1.poison.any id) o.2
      forEach ms (fun m s => sendOwned q i 0x13 m.1 (rf r 191 128) m.2 s) s
    | _, _ => endPlain q i 0x040A s

end Sys2Proof.Machine
end

