-- ==== Sys2Proof/Machine/Plan.lean ====
section
/-!
DEFINITION. The run plan image and the checks LOAD makes on it (R391, with R24, R45, R46, R61, R77, R89 to R91, R143, R185,
R217, R233, R234, R251, R390, R432).
-/
namespace Sys2Proof.Machine

/-! ## The image -/

/-- Header fields that the checks read beside those a `Plan` keeps. -/
def imgBytes (b : Bytes) : Nat := field b 4 4
def imgP (b : Bytes) : Nat := field b 32 1
def imgN (b : Bytes) : Nat := field b 33 2 % 1024
def imgPaired (b : Bytes) : Bool := bitAt (field b 34 1) 2
def imgFeed (b : Bytes) : Bool := bitAt (field b 34 1) 3
def imgMembers (b : Bytes) : Nat := field b 36 2

/-- OFFSET and COUNT of a section. -/
def secOff (b : Bytes) (i : Nat) : Nat := field b (120 + 8 * i) 4
def secCount (b : Bytes) (i : Nat) : Nat := field b (124 + 8 * i) 4

/-- Ends of the variable sections: table sets with their tables, and program images, from an offset on; every step stays
within `fuel` bytes. -/
def setsEnd (b : Bytes) : Nat → Nat → Nat
  | 0, o => o
  | n + 1, o => if imgBytes b < o + 16 then 2 ^ 32 else setsEnd b n (o + 16 + 32 * field b (o + 2) 2)

/-- The offset after a program image at an offset. -/
def progEnd (b : Bytes) (o : Nat) : Nat := o + 32 + 4 * (field b (o + 1) 1 % 128)
def progNext (b : Bytes) (o : Nat) : Nat := ceilDiv (progEnd b o) 32 * 32
def progsEnd (b : Bytes) : Nat → Nat → Nat
  | 0, o => o
  | 1, o => if imgBytes b < o + 32 then 2 ^ 32 else progEnd b o
  | n + 2, o => if imgBytes b < o + 32 then 2 ^ 32 else progsEnd b (n + 1) (progNext b o)

/-- The smallest entry of a section. -/
def entryMin (i : Nat) : Nat := nthD 8 [4, 16, 80, 32, 32, 8] i

/-- The end of a section; past every image where its entries cannot lie in one. -/
def secEnd (b : Bytes) (i : Nat) : Nat :=
  let o := secOff b i
  let n := secCount b i
  if imgBytes b < o + n * entryMin i then 2 ^ 32
  else if i = 1 then setsEnd b n o
  else if i = 4 then progsEnd b n o
  else o + n * entryMin i

/-- The section's entries of fixed size. -/
def secEntries (b : Bytes) (i : Nat) : List Bytes :=
  (upto (secCount b i)).map fun k => slice b (secOff b i + k * entryMin i) (entryMin i)

/-! ## Parsed sections -/

/-- A table declaration. -/
def parseTable (e : Bytes) : TableDecl :=
  let f := field e 4 1
  { table := field e 0 2, width := field e 2 2, idx64 := bitAt f 0, pinned := bitAt f 1, init := bits f 2 2
    program := bits f 4 3, rows := field e 8 5, initBound := BitVec.ofNat 32 (field e 16 4)
    baseGranule := 0, granules := 0, pinnedBase := 0 }

/-- A declared table set: number, mode, TABLE_COUNT, VARIANT_COUNT, tables, and whether its reserved fields are zero. -/
structure SetDecl where
  number : Nat
  mode : Nat
  count : Nat
  variants : Nat
  tables : List TableDecl
  clean : Bool

def tableClean (e : Bytes) : Bool :=
  decide (field e 4 4 < 2 ^ 7) && field e 13 3 == 0 && field e 20 12 == 0

def parseSetsFrom (b : Bytes) : Nat → Nat → List SetDecl
  | 0, _ => []
  | n + 1, o =>
    let k := field b (o + 2) 2
    let es := (upto k).map fun i => slice b (o + 16 + 32 * i) 32
    { number := field b o 1, mode := field b (o + 1) 1 % 4, count := k, variants := field b (o + 4) 2 % 2048
      tables := es.map parseTable
      clean := decide (field b (o + 1) 1 < 4) && decide (field b (o + 4) 12 < 2048) && es.all tableClean }
      :: parseSetsFrom b n (o + 16 + 32 * k)

def parseSets (b : Bytes) : List SetDecl := parseSetsFrom b (secCount b 1) (secOff b 1)

def parseTensor (e : Bytes) : Tensor :=
  { number := field e 0 2, format := field e 2 1 % 16, cls := bits (field e 2 1) 4 3, tableSet := field e 3 1
    program := field e 4 1 % 8, rows := field e 8 4, cols := field e 12 4, addr := field e 16 8
    zeroPoint := field e 24 1, scale := BitVec.ofNat 32 (field e 25 4) }

def tensorClean (e : Bytes) : Bool :=
  let t := parseTensor e
  !(bitAt (field e 2 1) 7) && decide (field e 4 4 < 8) && field e 29 3 == 0
    && (t.cls == 4 || (t.tableSet == 0 && t.program == 0))
    && (t.format == 5 || (t.zeroPoint == 0 && t.scale == 0))

def parseTensors (b : Bytes) : List Tensor := (secEntries b 3).map parseTensor

/-- A program image as it stands: its bytes. -/
def parseProgsFrom (b : Bytes) : Nat → Nat → List Bytes
  | 0, _ => []
  | n + 1, o => slice b o (progEnd b o - o) :: parseProgsFrom b n (progNext b o)
def parseProgs (b : Bytes) : List Bytes := parseProgsFrom b (secCount b 4) (secOff b 4)

def progCode (p : Bytes) : List Nat := (pieces 4 (p.drop 32)).map leNat
def progOf (p : Bytes) : Program :=
  { slot := field p 0 1 % 8, modes := field p 2 1 % 8, tag := field p 4 4
    consts := codesOf ((p.drop 16).take 16), code := progCode p }

def parseWatch (e : Bytes) : WatchTarget :=
  { isTable := bitAt (field e 3 1) 0, set := field e 2 1, target := field e 0 2, kind := 0 }
def watchClean (e : Bytes) : Bool :=
  decide (field e 3 5 < 2) && (bitAt (field e 3 1) 0 || field e 2 1 == 0)

/-! ## Layout (R91) -/

/-- The granules a table takes in each region. -/
def tableGranules (p n mode : Nat) (d : TableDecl) : Nat :=
  let records := ceilDiv (ceilDiv d.rows n) 16 * (d.width / 16 / p)
  ceilDiv (ceilDiv records (recsPerPage mode)) 4096

/-- Gives each table its granules, in order; the two counters are the table area and the pinned portion. -/
def layTables (p n mode : Nat) : List TableDecl → Nat → Nat → List TableDecl × Nat × Nat
  | [], a, q => ([], a, q)
  | d :: rest, a, q =>
    let g := tableGranules p n mode d
    let r := layTables p n mode rest (a + g) (if d.pinned then q + g else q)
    ({ d with baseGranule := a, granules := g, pinnedBase := q } :: r.1, r.2)

def laySets (p n : Nat) : List SetDecl → Nat → Nat → List SetDecl × Nat × Nat
  | [], a, q => ([], a, q)
  | t :: rest, a, q =>
    let l := layTables p n t.mode (t.tables.mergeSort fun x y => decide (x.table ≤ y.table)) a q
    let r := laySets p n rest l.2.1 l.2.2
    ({ t with tables := l.1 } :: r.1, r.2)

/-- The declared sets in ascending order, laid out, with the granules of the table area and of the pinned portion. -/
def laidSets (b : Bytes) : List SetDecl × Nat × Nat :=
  laySets (imgP b) (imgN b) ((parseSets b).mergeSort fun x y => decide (x.number ≤ y.number)) 0 0

/-- The SET_PARAMS entry of a set: T_START and the bank. -/
def setParams (b : Bytes) (set : Nat) : Nat × List W32 :=
  match (secEntries b 2).find? fun e => field e 0 1 == set with
  | some e => (field e 8 8, codesOf ((e.drop 16).take 64))
  | none => (0, List.replicate 16 0)

/-- A table set as the run begins with it. -/
def runSet (b : Bytes) (t : SetDecl) : TableSet :=
  let p := setParams b t.number
  { number := t.number, mode := t.mode, variants := t.variants, tables := t.tables, tStart := p.1, t := p.1, bank := p.2
    derived := [], bankStep := 0, scheds := [], nextBatch := field b 24 8 }

/-- The plan as LOAD takes it. -/
def planOf (s : State) (addr : Nat) (b : Bytes) : Plan :=
  let ms := (secEntries b 0).map fun e => leNat e % 2 ^ 13
  { runId := field b 8 4, planAddr := addr, planCheck := field b 12 4, planBytes := imgBytes b
    seed := BitVec.ofNat 64 (field b 16 8), s0 := field b 24 8, p := imgP b, n := imgN b, paired := imgPaired b
    feed := imgFeed b, members := ms, fastFlat := field b 40 2, fastPinned := field b 42 2, fastDirectory := field b 44 2
    slowTable := field b 48 2, slowOverlay := field b 50 2, rucksack := field b 52 2, stagingOff := field b 56 4
    stagingKib := field b 60 4, spillOff := field b 64 4, spillKib := field b 68 4, shardGroups := field b 72 4
    denseAddr := field b 80 8, denseBytes := field b 88 8, ringAddr := field b 96 8, ringRecords := field b 104 4
    pegsUsed := field b 108 2, queueMask := field b 112 8
    order := (ms.findIdx? fun m => m == myNumber s).getD 0 }

/-- The settings that a run holds from its LOAD on (R477). -/
def heldByRun (e : Effect) : Bool := e == .atOpen || e == .atLoad || e == .atCommit

/-- The state in which the checks of a plan are made: the run's settings, plan, portions and declarations in force. -/
def candidate (addr : Nat) (b : Bytes) (s : State) : State :=
  let s := capture (fun e => heldByRun e.effect) s
  { s with
    loadState := .loaded
    plan := planOf s addr b
    sets := (laidSets b).1.map (runSet b)
    tensors := parseTensors b
    programs := (parseProgs b).map progOf }

/-! ## The checks, in the order of R391 -/

/-- Reserved fields of the header. -/
def planHeadClean (b : Bytes) : Bool :=
  field b 1 1 == 0 && field b 34 2 / 16 == 0 && field b 38 2 == 0 && field b 46 2 == 0 && field b 54 2 == 0
    && field b 76 4 == 0 && field b 110 2 == 0 && (b.drop 184).take 72 == zeros 72

/-- Reserved fields of the entries of sections 0, 1, 2, 3 and 5. -/
def planEntriesClean (b : Bytes) : Bool :=
  ((secEntries b 0).all fun e => decide (leNat e < 2 ^ 13))
    && ((parseSets b).all fun t => t.clean)
    && ((secEntries b 2).all fun e => field e 1 7 == 0)
    && ((secEntries b 3).all tensorClean)
    && ((secEntries b 5).all watchClean)

/-- Check 2. -/
def planMalformed (b : Bytes) : Bool :=
  let secs := (upto 6).filter fun i => secCount b i != 0
  let ext (i : Nat) : Nat × Nat := (secOff b i, secEnd b i)
  field b 0 1 != 2 || field b 2 2 != 256 || imgBytes b % 64 != 0 || decide (67108864 < imgBytes b) || decide (imgBytes b < 256)
    || field b 24 8 == 0 || decide (4088 < field b 108 2)
    || (secs.any fun i => secOff b i % 64 != 0 || decide (secOff b i < 256) || decide (imgBytes b < secEnd b i))
    || (secs.any fun i => secs.any fun j => decide (i < j) && decide ((ext i).1 < (ext j).2) && decide ((ext j).1 < (ext i).2))
    || secCount b 6 != 0 || secCount b 7 != 0 || !(planHeadClean b) || !(planEntriesClean b)

/-- Check 4: over the candidate state. -/
def planPlaced (c : State) (addr n : Nat) : Bool :=
  addr % 64 == 0 && addrDie addr == 0 && decide (addr < 2 ^ 43) &&
  match rangeSpot c (addrOff addr) n with
  | some sp => sp.portion == .slowFlat && sp.region == 0
  | none => false

/-- R432: what a plan with PAIRED 1, or 0, asks of the pairing settings. -/
def pairingOk (s : State) (p : Plan) : Bool :=
  if p.paired then
    forced s E.TWIN_SIDE == p.order % 2 && nthD 0xFFFF p.members (p.order ^^^ 1) == forced s E.TWIN_PEER
      && (isPaired s || (s.twin.state == .training &&
        match s.twin.beat with
        | some h => h.twinState == 5 && h.runId == p.runId
        | none => false))
  else forced s E.TWIN_ENABLE == 0

/-- Check 5. -/
def membershipOk (s : State) (p : Plan) (count : Nat) : Bool :=
  p.runId != 0 && [1, 2, 4, 8, 16].contains p.p && decide (1 ≤ p.n) && decide (p.n ≤ 512)
    && count == p.n * p.p * (if p.paired then 2 else 1) && p.members.length == count
    && p.members.eraseDups.length == count && p.members.all (coordValid s) && p.members.contains (myNumber s) && pairingOk s p

/-- Check 7: R45, R46, R61. -/
def formatsCode (ts : List Tensor) : Nat := firstCode [
  (ts.any fun t => (formatOfCode t.format).isNone, 0x0401),
  (ts.any fun t => !(flatFormat t), 0x0404),
  (ts.any fun t => t.format == 5 && !(u8zScaleOk t.scale), 0x0403)]

/-- Check 8: R77 with R90. -/
def tablesCode (s : State) (b : Bytes) : Nat :=
  let raw := parseSets b
  let all := raw.flatMap fun t => t.tables
  let pl := planOf s 0 b
  let laid := laidSets b
  firstCode [
    (raw.any (fun t => t.count == 0 || (t.tables.map fun d => d.table).eraseDups.length != t.count || t.tables.any fun d => decide (t.count ≤ d.table))
      || (raw.map fun t => t.number).eraseDups.length != raw.length, 0x0508),
    (raw.any (fun t => t.mode == 3) || all.any fun d => decide (1 < d.init), 0x0508),
    (raw.any fun t => (t.mode == 1 && !(capOn s 1)) || (t.mode == 2 && !(capOn s 2)) || (decide (1 < t.variants) && !(capOn s 4)), 0x0505),
    (raw.any fun t => t.variants == 0 || decide (1024 < t.variants), 0x0509),
    (all.any fun d => d.width == 0 || d.width % (16 * imgP b) != 0 || decide (4096 < d.width), 0x0501),
    (all.any fun d => d.rows == 0 || (!d.idx64 && decide (0xFFFFFFFF < d.rows)), 0x0502),
    (all.any fun d => d.init == 1 && (!(f32finite d.initBound) || d.initBound.getLsbD 31), 0x0502),
    (decide (1152 < pl.fastFlat + pl.fastPinned + pl.fastDirectory) || decide (20480 < pl.slowTable + pl.slowOverlay)
      || ((raw.any fun t => decide (1 < t.variants)) && (pl.fastDirectory == 0 || pl.slowOverlay == 0)), 0x0504),
    (decide (pl.slowTable < laid.2.1) || decide (pl.fastPinned < laid.2.2), 0x0503)]

/-- Check 9. -/
def paramsCode (b : Bytes) : Nat :=
  let es := secEntries b 2
  let nums := (parseSets b).map fun t => t.number
  firstCode [
    (es.length != nums.length || nums.any (fun n => (es.filter fun e => field e 0 1 == n).length != 1) || es.any fun e => field e 8 8 == 0, 0x0305),
    (es.any fun e => (codesOf ((e.drop 16).take 64)).any fun c => !(f32finite c), 0x0617)]

/-- The stored bytes of a declared tensor, extension bytes of an Extended dense parameter included (R390). -/
def declBytes (c : State) (t : Tensor) : Nat :=
  if t.cls = 4 && tensorMode c t = 1 then 3 * t.rows * t.cols else tensorBytes t

/-- Check 10, over the candidate state. -/
def tensorBad (c : State) (t : Tensor) : Bool :=
  t.number == 0xFFFF || t.rows == 0 || t.cols == 0 || decide (4 < t.cls) || !(flatArea c t.addr (declBytes c t))
    || (t.cls == 4 && ((tableSet c t.tableSet).isNone || t.cols % 16 != 0 || t.format != (if isCompat (tensorMode c t) then 0 else 2)))
def tensorsBad (c : State) : Bool :=
  c.tensors.any (tensorBad c) || (c.tensors.map fun t => t.number).eraseDups.length != c.tensors.length

/-- Check 11: R185. -/
def programsCode (s c : State) (b : Bytes) : Nat :=
  let ps := parseProgs b
  let slots := ps.map fun p => field p 0 1 % 8
  let code (p : Bytes) : List Nat := progCode p
  let len (p : Bytes) : Nat := field p 1 1 % 128
  let headClean (p : Bytes) : Bool := decide (field p 0 1 < 8) && decide (field p 1 1 < 128) && decide (field p 2 2 < 8) && field p 8 8 == 0
  let named (slot mode : Nat) : Bool := match c.programs.find? fun p => p.slot == slot with
    | some p => bitAt p.modes mode
    | none => false
  firstCode [
    (ps.any (fun p => len p == 0 || decide (64 < len p) || !(headClean p) || !((code p).all insReservedOk)) || slots.eraseDups.length != slots.length, 0x0610),
    (ps.any fun p => !((code p).all fun w => knownOp (insOp w)) || !((codesOf ((p.drop 16).take 16)).all f32finite), 0x0611),
    (ps.any fun p => !((code p).all insOperandsOk), 0x0612),
    (ps.any fun p => !(storesOk (code p)), 0x0613),
    (!(capOn s 6) && ps.any fun p => (code p).any fun w => insOp w == 0x19, 0x0505),
    (c.sets.any (fun t => t.tables.any fun d => !(named d.program t.mode))
      || c.tensors.any (fun t => t.cls == 4 && !(named t.program (tensorMode c t))), 0x0614)]

/-- The watch slots of a plan (R233): the listed targets, then the K8 activation and gradient tensors that none names. -/
def tensorKind (t : Tensor) : Nat := if t.cls = 4 then 3 else t.cls
def watchTargets (c : State) (b : Bytes) : List WatchTarget :=
  let listed := (secEntries b 5).map fun e =>
    let w := parseWatch e
    { w with kind := if w.isTable then 4 else match tensorOf c w.target with
      | some t => tensorKind t
      | none => 0 }
  let rest := (c.tensors.filter fun t => (t.cls == 1 || t.cls == 2) && t.format == 4
    && !(listed.any fun w => !w.isTable && w.target == t.number)).mergeSort fun x y => decide (x.number ≤ y.number)
  listed ++ rest.map fun t => { isTable := false, set := 0, target := t.number, kind := tensorKind t }

/-- Whether a byte range of every region's fast flat portion, from an offset in KiB, lies there and meets no other area. -/
def stageAreaBad (c : State) (off kib otherOff otherKib : Nat) : Bool :=
  let n := kib * 1024
  let at_ (g : Nat) : Nat := modAddr (g / 4) (fastAddr (g % 4) (off * 1024))
  n != 0 && (decide (c.plan.fastFlat * granuleBytes < off * 1024 + n) || meets off kib otherOff otherKib
    || sixteen.any fun g =>
      (c.tensors.any fun t => meets (at_ g) n t.addr (declBytes c t)) || meets (at_ g) n c.plan.denseAddr c.plan.denseBytes
        || meets (at_ g) n c.plan.ringAddr (64 * c.plan.ringRecords))

/-- Check 12. -/
def areasCode (s c : State) (b : Bytes) : Nat :=
  let p := c.plan
  let ws := watchTargets c b
  let listed := ws.take (secCount b 5)
  let slowFlat := 20480 - p.slowTable - p.slowOverlay
  let ringNeeded := setting c E.WATCH_RECORD_PERIOD != 0 || !(ws.isEmpty) || p.ringAddr != 0 || p.ringRecords != 0
  firstCode [
    (decide (p.stagingKib < 2048), 0x060A),
    (stageAreaBad c p.stagingOff p.stagingKib p.spillOff p.spillKib || stageAreaBad c p.spillOff p.spillKib p.stagingOff p.stagingKib, 0x060C),
    (decide (slowFlat < p.rucksack), 0x0420),
    (p.rucksack != 0 && !(capOn s 8), 0x0505),
    (decide (4096 < ws.length), 0x0430),
    (listed.any (fun w => if w.isTable then !(declared c w.set w.target) else (tensorOf c w.target).isNone)
      || (listed.map fun w => (w.isTable, w.set, w.target)).eraseDups.length != listed.length, 0x0434),
    (ringNeeded && (p.ringAddr % 64 != 0 || decide (p.ringRecords < 64) || decide (1048576 < p.ringRecords)
      || !(flatArea c p.ringAddr (64 * p.ringRecords))), 0x0435),
    (decide (12288 * 1024 < workspaceReserved c), 0x030E)]

/-- Check 13, over the candidate state. -/
def denseBad (c : State) : Bool :=
  let p := c.plan
  let sp := spotOf c (addrOff p.denseAddr)
  p.shardGroups == 0 || decide (2 ^ 43 ≤ p.denseAddr) || !(inDram p.denseAddr) || sp.off % pageBytes != 0
    || decide (p.denseBytes < denseExtent c) || (p.denseBytes != 0 && !(flatArea c p.denseAddr p.denseBytes))

/-- Check 14. -/
def pegsBusy (s : State) (n : Nat) : Bool := s.pegs.waits.any fun w => decide (w.peg < n)

/-- Check 15: bytes of a queue's rings, and whether every enabled queue's rings in module memory lie in flat portions. -/
def queueDepth (q : Queue) : Nat := 2 ^ q.depthLog2
def queueMissing (s c : State) : Bool :=
  (upto 64).any fun i =>
    let q := queue s i
    if q.state == .disabled then bitAt c.plan.queueMask i
    else (q.sqInDevice && !(flatArea c q.sqBase (64 * queueDepth q))) || (q.cqInDevice && !(flatArea c q.cqBase (16 * queueDepth q)))

/-- Check 16: the port that the default or committed route to a module leaves by. -/
def routeUp (s : State) (m : Nat) : Bool :=
  let p := withRoute s { address := memGlobal m 0 0, srcModule := myNumber s }
  let up (i : Nat) : Bool := (port s i).state == .up
  if m = myNumber s then true
  else match firstExpress s p with
    | some i => up i
    | none => match nextHop s p none with
      | .here => true
      | .port i _ => up i

/-- Checks 1 to 16 of an image read at an address; 0 when all pass. -/
def planRefusal (s : State) (addr : Nat) (b : Bytes) : Nat :=
  let code := firstCode [
    (!(isState s .ready) || s.loadState != .idle, 0x0301),
    (planMalformed b, 0x0302),
    (crc32c (patch b 12 (zeros 4)) != field b 12 4, 0x0303)]
  if code != 0 then code
  else
    let c := candidate addr b s
    firstCode [
      (!(planPlaced c addr (imgBytes b)), 0x0308),
      (!(membershipOk s c.plan (imgMembers b)) || secCount b 0 != imgMembers b, 0x0304),
      ((imgFeed b && !(capOn s 5)) || (setting c E.COALESCE_MODE == 1 && !(capOn s 3)), 0x0505),
      (formatsCode c.tensors != 0, formatsCode c.tensors),
      (tablesCode s b != 0, tablesCode s b),
      (paramsCode b != 0, paramsCode b),
      (tensorsBad c, 0x0306),
      (programsCode s c b != 0, programsCode s c b),
      (areasCode s c b != 0, areasCode s c b),
      (denseBad c, 0x0307),
      (pegsBusy s c.plan.pegsUsed, 0x030A),
      (queueMissing s c, 0x030B),
      (!(c.plan.members.all (routeUp s)), 0x0309)]

end Sys2Proof.Machine
end

