-- ==== Sys2Proof/Machine/Load.lean ====
section
/-!
DEFINITION. LOAD and UNLOAD (R391 to R393): reading the plan, joining the Ridgeline, laying out and initialising the run, and
leaving it.
-/
namespace Sys2Proof.Machine

/-! ## LOAD -/

def setLoad (l : LoadState) (s : State) : State := { s with loadState := l }

/-- A refused LOAD: LAST_LOAD_STATUS and LOADS_REFUSED. -/
def loadRefused (q i code : Nat) (s : State) : State :=
  endPlain q i code (count E.LOADS_REFUSED (setReg E.LAST_LOAD_STATUS code s))

/-- The state of a run, all of it gone: what LOAD starts from and UNLOAD leaves. -/
def emptyRun (s : State) : State :=
  { s with
    plan := {}, sets := [], tensors := [], programs := [], step := {}, holds := {}, place := {}, rowOps := [], watch := {}
    gen := {}, rowEng := {} }

/-- The run image at an address: the bytes, or none where they are in no place that can be read. -/
def readImage (addr : Nat) (s : State) : Option Bytes × State :=
  let good (n : Nat) : Bool := readRefusal s (addrOff addr) n == 0
  if !(good 256) then (none, s)
  else
    let h := accessRead addr 256 s
    let n := field h.1.1 4 4
    if n ≤ 256 || decide (67108864 < n) then (some h.1.1, h.2)
    else if !(good n) then (none, h.2)
    else
      let d := accessRead addr n h.2
      (some d.1.1, d.2)

/-- LOAD starts: checks 1 to 16, then JOIN_STEP and JOIN.  What has been checked is kept for the answer; nothing of it is in
force before that (R391). -/
def loadWork (q i : Nat) (r : Rec64) (s : State) : State :=
  let addr := rf r 191 128
  if !(isState s .ready) || s.loadState != .idle then loadRefused q i 0x0301 s
  else
    let im := readImage addr s
    let s := im.2
    match im.1 with
    | none => loadRefused q i 0x0308 s
    | some b =>
      let code := planRefusal s addr b
      if code != 0 then loadRefused q i code s
      else if (ridgeTargets s).isEmpty then loadRefused q i 0x0A08 s
      else if !(coordValid s s.ridge.source) then loadRefused q i 0x0A08 (count E.REQUESTS_REFUSED s)
      else
        let c := candidate addr b (emptyRun s)
        let s := { c with loadState := .loading, watch := { slots := (watchTargets c b).map newSlot } }
        let s := updCmd q i (fun c => { c with outstanding := 1 }) s
        let s := ridgeSendBoth 4093 s.plan.s0 .joinStep s
        ridgeSendBoth 4092 (s.plan.runId + s.plan.members.length * 2 ^ 32) .join s

/-- The running LOAD or UNLOAD, as (queue, index). -/
def runningCmd (s : State) (op : Nat) : Option (Nat × Nat) :=
  (upto 64).findSome? fun q => ((queue s q).cmds.find? fun c => isRunning c && rf c.record 7 0 == op).map fun c => (q, c.index)

/-! ### R392 -/

/-- The initial record of a dense group, from the member's own replica (R390). -/
def initDense (x : ShardRef) (i : Nat) (s : State) : State :=
  let mode := tensorMode s x.tensor
  let f := replicaFields mode x.tensor (x.first + i) s
  let b := initRecord mode f.1.1
  let a := denseRecord f.2 x i
  let m := if f.1.2 then poisonBit else 0
  let marks := (upto (recSectors mode)).map fun j => if j < fwdSectors mode then m else 0
  forEach ((pieces sectorBytes b).zip (marks.zip (upto marks.length))) (fun p => storeSector (a + p.2.2 * sectorBytes) p.1 p.2.1) f.2

def initDenseAll (s : State) : State :=
  forEach ((allShards s).filter fun x => ownsShard s x.shard) (fun x s => forEach (upto x.count) (initDense x) s) s

/-- Pegs 0 to n − 1 of every die to zero. -/
def clearPegs (n : Nat) (s : State) : State :=
  { s with pegs := { s.pegs with values := s.pegs.values.filter fun e => decide (n ≤ e.1 % 4096) } }

/-- R421: a ring whose backing range no longer lies in one flat portion is disabled. -/
def recheckRings (s : State) : State :=
  forEach (allRings.filter fun r => (ring s r).enable && !(ringAreaOk s (ring s r).backing (ring s r).apertureBytes)) ringInvalid s

/-- Pinned copies between the table area and the pinned portion (R93). -/
def movePinned (toFast : Bool) (s : State) : State :=
  forEach s.sets (fun ts s => forEach (ts.tables.filter fun d => d.pinned) (fun d => copyPinned ts d toFast) s) s

/-- R392, once the JOIN has been answered.  The settings read at LOAD are those that the checks saw. -/
def loadRun (s : State) : State :=
  let s := clearPegs s.plan.pegsUsed s
  let s := capture (fun e => e.effect == .atOpen || e.effect == .atCommit) s
  let s := clearDirectories (setLoad .loaded s)
  let s := forEach s.sets (fun ts s => forEach ts.tables (initTable ts) s) s
  let s := initDenseAll s
  let s := movePinned true s
  let s := watchLoad (s.watch.slots.map fun x => x.target) s
  let s := recheckRings (clearOnce 0x0701 s)
  let s := setEvents { s.lantern.events with onceRun := [] } s
  let s := setFabric { s.fabric with lost := [] } s
  let s := { s with twin := { s.twin with failStep := none, opStep := none, sentOps := none, markStep := none, marks := [], replayed := [], replacement := false } }
  setModState .running s

/-- The JOIN has been answered (R351, R352), or has failed. -/
def joinAnswered (status : Nat) (s : State) : State :=
  if s.loadState != .loading then s
  else
    match runningCmd s 0x50 with
    | none => s
    | some (q, i) =>
      if status = 0 then endPlain q i 0 (setReg E.LAST_LOAD_STATUS 0 (loadRun s))
      else loadRefused q i (if status = 0x0A03 then 0x0A03 else 0x0A08) (setLoad .idle (emptyRun s))

/-! ## UNLOAD (R393) -/

/-- Whether an UNLOAD does not wait for a COMMIT point. -/
def unloadForced (s : State) (r : Rec64) : Bool := rb r 224 || s.ridge.state == .noKeeper

/-- Whether an UNLOAD names another run than the loaded one. -/
def unloadMismatch (s : State) (r : Rec64) : Bool := rf r 223 192 != runId s

/-- R393 with FORCE, step 1: whether a command fails: it waits on a peg or has not started. -/
def failsAtForce (s : State) (q : Nat) (c : Cmd) : Bool :=
  if hasStarted c then c.phase == .running && s.pegs.waits.any fun w => w.queue == q && w.index == c.index && !w.header
  else true

def failWaiting (q i : Nat) (s : State) : State :=
  let doomed := (upto 64).flatMap fun k => ((queue s k).cmds.filter fun c => failsAtForce s k c && !(k == q && c.index == i)).map fun c => (k, c.index)
  let s := { s with pegs := { s.pegs with waits := s.pegs.waits.filter fun w => !(doomed.contains (w.queue, w.index)) } }
  forEach doomed (fun d s => endPlain d.1 d.2 0x0206 s) s

/-- R393 with FORCE, step 2: the step in progress ends without being committed. -/
def abandonStep (s : State) : State :=
  { s with step := { s.step with
      occs := [], parts := [], early := [], staged := [], coverage := [], accs := [], newOverlays := [], shardParts := [], dense := [] } }

/-- The ring space of batches still kept is given back. -/
def dropBatches (s : State) : State :=
  match (s.step.batches.map fun b => b.step).max? with
  | some n => releaseBatches n s
  | none => s

/-- TWIN_STATE after a run has been left. -/
def twinAfterRun (t : TwinState) : TwinState :=
  match t with
  | .failedOver => .training
  | .copySource => .training
  | .copyTarget => .training
  | x => x

/-- A generation cut that has not been made ends with the run, and its command with it. -/
def endCuts (s : State) : State :=
  forEach s.gen.cuts (fun c => endPlain c.2.2.2.1 c.2.2.2.2 0x0206) { s with gen := { s.gen with cuts := [] } }

/-- Steps 1 to 4 of R393; `leave`: the timekeeper is told. -/
def leaveRun (leave : Bool) (s : State) : State :=
  let s := whenS leave (ridgeSendBoth 4091 (runId s) .leave) s
  let s := endCuts (endRowOps s)
  let s := movePinned false (dropAllCached s)
  let s := dropBatches s
  let s := { s with mem := { s.mem with repairs := [], window := false }
                    twin := { s.twin with state := twinAfterRun s.twin.state, copyNext := [], copyGot := [], copyDone := [], recopy := [] }
                    ridge := { s.ridge with reported := none } }
  let s := takeRoutes (setLoad .idle (emptyRun s))
  whenS (stepping s) (setModState .ready) s

/-- UNLOAD starts: at a COMMIT point, or forced. -/
def unloadWork (q i : Nat) (r : Rec64) (s : State) : State :=
  if unloadMismatch s r then endPlain q i 0x030C s
  else if unloadForced s r then
    let s := abandonStep (failWaiting q i s)
    let s := leaveRun (s.ridge.state != .noKeeper && routeUp s s.ridge.source) s
    endPlain q i 0 (count E.FORCED_UNLOADS s)
  else endPlain q i 0 (leaveRun true s)

end Sys2Proof.Machine
end

