-- ==== Sys2Proof/Machine/Gen.lean ====
section
/-!
DEFINITION. Generations (R461 to R465): the change map and hold area, cuts, and the shards that GEN_EXPORT writes.
-/
namespace Sys2Proof.Machine

def setGen (g : Gen) (s : State) : State := { s with gen := g }

/-! ## GEN_SETUP (R461) -/

/-- Bytes of the slow flat portion of a region. -/
def slowFlatBytes (s : State) : Nat := (20480 - s.plan.rucksack - s.plan.slowTable - s.plan.slowOverlay) * granuleBytes

def genSetupRefusal (s : State) (mapOff holdOff mapKib holdKib : Nat) : Nat :=
  let past (off kib : Nat) : Bool := decide (slowFlatBytes s < (off + kib) * 1024)
  firstCode [
    (past mapOff mapKib || past holdOff holdKib || meets mapOff mapKib holdOff holdKib
      || decide (mapKib < ceilDiv (2 * (s.plan.slowTable + s.plan.slowOverlay) * 4096 * 32) 8192), 0x0910)]

def genSetupWork (r : Rec64) (s : State) : Done × State :=
  let code := genSetupRefusal s (rf r 287 256) (rf r 319 288) (rf r 351 320) (rf r 383 352)
  if code != 0 then ({ status := code }, s)
  else
    ({}, setGen { s.gen with
      setup := true, mapOff := rf r 287 256, holdOff := rf r 319 288, mapKib := rf r 351 320, holdKib := rf r 383 352 } s)

/-! ## GEN_CUT (R462) -/

/-- One cut at its COMMIT: the planes are exchanged and the generation is open, or an earlier one still is. -/
def makeCut (c : Nat × Nat × Bool × Nat × Nat) (s : State) : State :=
  if s.gen.isOpen then endPlain c.2.2.2.1 c.2.2.2.2 0x0911 s
  else
    let s := setGen { s.gen with
      current := s.gen.frozen, frozen := s.gen.current, isOpen := true, step := c.1, number := c.2.1, full := c.2.2.1
      salvage := s.holds.salvaged, exported := 0, hold := [], inexact := [] } s
    endPlain c.2.2.2.1 c.2.2.2.2 0 (count E.GEN_CUTS s)

/-- (N, COMMIT): the cuts of the step. -/
def makeCuts (step : Nat) (s : State) : State :=
  let due := s.gen.cuts.filter fun c => decide (c.1 ≤ step)
  forEach due makeCut (setGen { s.gen with cuts := s.gen.cuts.filter fun c => decide (step < c.1) } s)

/-- The last committed step of a salvaged module. -/
def lastCommitted (s : State) : Nat := if curStation s = 5 then curStep s else curStep s - 1

/-- GEN_CUT starts: it waits for its COMMIT point; in salvage it is made at once. -/
def genCutWork (q i : Nat) (r : Rec64) (s : State) : State :=
  if s.holds.salvaged then makeCut (lastCommitted s, rf r 223 192, true, q, i) s
  else if reached s (rf r 191 128) 5 then endPlain q i 0x0204 s
  else setGen { s.gen with cuts := s.gen.cuts ++ [(rf r 191 128, rf r 223 192, rb r 224, q, i)] } s

/-! ## Releasing a generation -/

def releaseGen (s : State) : State :=
  setGen { s.gen with isOpen := false, frozen := [], hold := [], inexact := [], exported := 0 } s

def genReleaseWork (r : Rec64) (s : State) : Done × State :=
  if !s.gen.isOpen || rf r 223 192 != s.gen.number then ({ status := 0x0912 }, s) else ({}, releaseGen s)

/-! ## Shards (R464) -/

/-- The forward payload of a record as the generation holds it, with whether it is torn and whether it is poisoned. -/
def genPayload (sh : GenShard) (home : Nat) (s : State) : (Bytes × Bool × Bool) × State :=
  let rec_ := if sh.kind = 2 then denseSlot s home else slotOfHome s home
  match s.gen.hold.find? fun e => e.1 / 2 ^ 32 == regionOfAddr s home && e.2.1 == rec_ with
  | some e => let f := leNat (e.2.2.take 1); ((e.2.2.drop 1, bitAt f 0, bitAt f 1), s)
  | none =>
    let r := readRecord home 0 (fwdSectors sh.mode) s
    ((r.1.1, r.1.2.any markTorn, r.1.2.any markPoison), r.2)

/-- The payloads of the records of a row, joined, with the marks of all of them. -/
def rowPayloads (sh : GenShard) : List Nat → State → (List Bytes × Bool × Bool) × State
  | [], s => (([], false, false), s)
  | h :: rest, s =>
    let p := genPayload sh h s
    let t := rowPayloads sh rest p.2
    ((p.1.1 :: t.1.1, p.1.2.1 || t.1.2.1, p.1.2.2 || t.1.2.2), t.2)

/-- The weights of one record in the shard's FORMAT. -/
def shardWeights (mode : Nat) (b : Bytes) : Bytes :=
  (weightsOf mode b).flatMap fun v =>
    let c := (exactF32 v).toNat
    if mode = 0 then natLe 2 (c / 65536) else natLe 4 c

/-- One row of a shard: its marks (bit 0 torn, bit 1 poisoned) and its weights, zero where it is poisoned. -/
def shardRow (sh : GenShard) (homes : List Nat) (s : State) : (Nat × Bytes) × State :=
  let p := rowPayloads sh homes s
  let w := if p.1.2.2 then zeros (sh.cols * exportBytes sh.mode) else p.1.1.flatMap (shardWeights sh.mode)
  ((b2n p.1.2.1 + 2 * b2n p.1.2.2, w), p.2)

/-- Every row: none where it is not present in the generation. -/
def shardRowsOf (sh : GenShard) : List (Nat × Nat) → State → List (Option (Nat × Bytes)) × State
  | [], s => ([], s)
  | r :: rest, s =>
    let homes := rowHomes s sh r.2
    if sh.kind = 0 && !(homes.any (inGeneration s)) then
      let t := shardRowsOf sh rest s
      (none :: t.1, t.2)
    else
      let p := shardRow sh homes s
      let t := shardRowsOf sh rest p.2
      (some p.1 :: t.1, t.2)

/-- Numbers of `n` bits each, the first lowest, padded to a multiple of 8 bytes. -/
def packBits (n : Nat) (l : List Nat) : Bytes :=
  natLe (ceilDiv (n * l.length) 64 * 8) (l.foldr (fun v acc => v + acc * 2 ^ n) 0)

/-- The bytes of a shard; none where a table shard has no present row. -/
def shardBytes (index : Nat) (sh : GenShard) (s : State) : Option Bytes × State :=
  let v := shardRowsOf sh sh.rows s
  let s := v.2
  let rows := v.1
  if sh.kind = 0 && rows.all fun x => x.isNone then (none, s)
  else
    let marks := rows.map fun x => match x with
      | some p => p.1
      | none => 0
    let torn := marks.any fun m => bitAt m 0
    let poison := marks.any fun m => bitAt m 1
    let names := if sh.kind = 0 then packBits 1 (rows.map fun x => b2n x.isSome)
      else if sh.kind = 1 then sh.rows.flatMap fun r => natLe 8 r.1 else []
    let body := names ++ (if torn || poison then packBits 2 marks else []) ++ rows.flatMap fun x => match x with
      | some p => p.2
      | none => []
    let column := match (tableSet s sh.set).bind fun ts => tableOf ts sh.table with
      | some d => if sh.kind = 2 then 0 else sliceColumn s d 0
      | none => 0
    let flags := b2n s.gen.full + 2 * b2n torn + 4 * b2n poison + 8 * b2n (s.gen.inexact.contains index) + 16 * b2n s.gen.salvage
    let head := natLe 4 s.gen.number ++ natLe 4 (64 + body.length) ++ natLe 8 s.gen.step ++ natLe 1 sh.set ++ natLe 1 sh.kind
      ++ natLe 2 sh.table ++ natLe 2 sh.variant ++ natLe 1 (if sh.mode = 0 then 2 else 0) ++ natLe 1 flags ++ natLe 8 sh.first
      ++ natLe 2 (if sh.kind = 0 then 16 else 0) ++ natLe 2 sh.rows.length ++ natLe 2 column ++ natLe 2 sh.cols
      ++ natLe 2 (myNumber s) ++ zeros 18
    let b := head ++ zeros 4 ++ body
    (some (patch b 60 (natLe 4 (crc32c b))), s)

/-! ## GEN_EXPORT (R465) -/

/-- Whether an export's destination is a gateway of this module whose port has role 2, or another module's gateway. -/
def gatewayOk (s : State) (a : Nat) : Bool :=
  gClass a == 2 && (gModule a != myNumber s || roleOf s (6 + b2n (bitAt a 40)) == 2)

/-- Why an export is refused (R286, R291, R465); 0 when it is not. -/
def exportRefusal (s : State) (r : Rec64) : Nat :=
  let issued := if rf r 226 225 = 1 then issueRefusal s (rf r 319 256) 2 else 0
  firstCode [
    (issued != 0, issued),
    (decide (rf r 383 320 < 2 ^ 20 + 64) || (rf r 226 225 == 1 && !(gatewayOk s (rf r 319 256)))
      || !s.gen.isOpen || rf r 223 192 != s.gen.number, 0x0912)]

/-- Sends bytes to the destination of an export: as a PCIe write, or as WRITEs of class C4 whose responses the command
awaits. -/
def exportWrite (q i : Nat) (gateway : Bool) (addr : Nat) (b : Bytes) (s : State) : State :=
  if gateway then
    let ps := pieces 4096 b
    let s := updCmd q i (fun c => { c with outstanding := c.outstanding + ps.length }) s
    forEach (ps.zip (upto ps.length)) (fun p s => issue 0 (addr + 4096 * p.2) 2 4 p.1 false (.command q i) s) s
  else sendHost (.memWrite addr b false) s

/-- What an export has done: bytes and shards written, and whether the next shard did not fit. -/
structure ExportRun where
  used : Nat
  shards : Nat
  full : Bool

/-- Writes the shards from index `k` on, until they end or one does not fit. -/
def exportFrom (q i : Nat) (gateway : Bool) (addr bytes : Nat) : List GenShard → Nat → ExportRun → State → ExportRun × State
  | [], _, x, s => (x, s)
  | sh :: rest, k, x, s =>
    let v := shardBytes k sh s
    let s := v.2
    match v.1 with
    | none => exportFrom q i gateway addr bytes rest (k + 1) x (setGen { s.gen with exported := k + 1 } s)
    | some b =>
      if bytes < x.used + b.length then ({ x with full := true }, s)
      else
        let s := exportWrite q i gateway (addr + x.used) b s
        let s := countN E.GEN_BYTES_EXPORTED b.length (count E.GEN_SHARDS_EXPORTED (setGen { s.gen with exported := k + 1 } s))
        exportFrom q i gateway addr bytes rest (k + 1) { x with used := x.used + b.length, shards := x.shards + 1 } s

def genExportWork (q i : Nat) (r : Rec64) (s : State) : State :=
  let code := exportRefusal s r
  if code != 0 then endPlain q i code (whenS (code == 0x0801 || code == 0x080C) (count E.REQUESTS_REFUSED) s)
  else
    let gateway := rf r 226 225 == 1
    let addr := rf r 319 256
    let bytes := rf r 383 320
    let v := exportFrom q i gateway addr bytes ((genShards s).drop s.gen.exported) s.gen.exported ⟨0, 0, false⟩ s
    let x := v.1
    let s := if x.used + 64 ≤ bytes then exportWrite q i gateway (addr + x.used) (zeros 64) v.2 else v.2
    let s := if x.full then s else releaseGen s
    let status := if x.full then 0x0913 else 0
    match findCmd s q i with
    | some c =>
      if c.outstanding = 0 then endCmd q i status x.shards false false s
      else updCmd q i (fun c => { c with fail := status, detail := x.shards }) s
    | none => s

end Sys2Proof.Machine
end

