-- ==== Sys2Proof/Machine/Commands.lean ====
section
/-!
DEFINITION. The command stream (R371 to R377, R391, R408 to R414): which bits of a record are reserved, the checks a command
meets when it starts, what holds it back, its work, its completion, and the completion records of its queue.
-/
namespace Sys2Proof.Machine

/-! ## Records and reserved fields (R371, R372) -/

def opcodeOf (r : Rec64) : Nat := rf r 7 0

/-- The fields of an opcode's body as (lowest bit, width), ascending; none for a reserved opcode. -/
def bodyFields (r : Rec64) : Option (List (Nat × Nat)) :=
  match opcodeOf r with
  | 0x00 => some []
  | 0x01 => some [(192, 64), (256, 64)]
  | 0x02 => some [(128, 14), (144, 2), (192, 64)]
  | 0x03 => some [(128, 14), (192, 64)]
  | 0x08 => some [(128, 43), (192, 43), (256, 64), (320, 16)]
  | 0x09 => some [(128, 100), (240, 16)]
  | 0x0A => some [(128, 36)]
  | 0x0B => some [(128, 36)]
  | 0x10 => some [(128, 192), (320, 64), (384, 43)]
  | 0x18 => some [(128, 8), (144, 26), (192, 40), (256, 32), (320, 43)]
  | 0x19 => some [(128, 8), (144, 26), (192, 40), (256, 32), (320, 43)]
  | 0x1A => some [(128, 8), (144, 26), (176, 1), (192, 40), (256, 32)]
  | 0x1B => some [(128, 8), (144, 26), (192, 40), (256, 32)]
  | 0x1C => some [(128, 150), (288, 128)]
  | 0x1D => some [(128, 150), (288, 128)]
  | 0x20 => some [(128, 32), (192, 64), (256, 43), (320, 64), (384, 64)]
  | 0x21 => some [(128, 64), (192, 25), (256, 43)]
  | 0x28 => some [(128, 64), (200, 16), (320, 16)]
  | 0x30 => some [(128, 109), (256, 109), (384, 109)]
  | 0x38 => some [(128, 43), (192, 64), (256, 4), (320, 64), (384, if rb r 256 then 64 else 32), (448, 43)]
  | 0x40 => some [(256, 128)]
  | 0x41 => some [(128, 64), (192, 33), (256, 128)]
  | 0x42 => some [(192, 32), (225, 1), (256, 128)]
  | 0x43 => some [(192, 32), (256, 128)]
  | 0x48 => some [(128, 15), (144, 7), (192, 64)]
  | 0x50 => some [(128, 43)]
  | 0x51 => some [(192, 33)]
  | _ => none

/-- Whether the bits from `at_` on that lie in no field are all zero. -/
def gapsZero (r : Rec64) : Nat → List (Nat × Nat) → Bool
  | at_, [] => bits r.toNat at_ (512 - at_) == 0
  | at_, f :: rest => bits r.toNat at_ (f.1 - at_) == 0 && gapsZero r (f.1 + f.2) rest

/-- R371: whether every reserved field of the header, and of the opcode's body, is zero. -/
def recordClean (r : Rec64) : Bool :=
  rf r 15 13 == 0 && rf r 47 42 == 0 && rf r 63 62 == 0 && rf r 79 78 == 0 &&
  match bodyFields r with
  | some fs => gapsZero r 128 fs
  | none => true

/-- R372: commands that need no loaded run. -/
def runFree (op : Nat) : Bool := [0x00, 0x01, 0x02, 0x03, 0x08, 0x38, 0x50].contains op

/-- R459: what a salvaged module accepts. -/
def salvageAllows (op : Nat) : Bool := [0x08, 0x18, 0x38, 0x40, 0x41, 0x42, 0x43, 0x51].contains op

/-- Header fields. -/
def waitEn (r : Rec64) : Bool := rb r 8
def signalEn (r : Rec64) : Bool := rb r 9
def fenceOf (r : Rec64) : Bool := rb r 10
def signalOnFail (r : Rec64) : Bool := rb r 11
def continueOnError (r : Rec64) : Bool := rb r 12
def waitPeg (r : Rec64) : Nat := rf r 63 48
def signalPegOf (r : Rec64) : Nat := rf r 79 64

/-- R374: whether a command does no work. -/
def zeroWork (s : State) (r : Rec64) : Bool :=
  match opcodeOf r with
  | 0x01 => rf r 255 192 == 0
  | 0x08 => copyZero r
  | 0x09 => transposeZero r
  | 0x0A => pushZero s r
  | 0x10 => gemmZero r
  | 0x18 => rowsZero r
  | 0x19 => rowsZero r
  | 0x1A => rowsZero r
  | 0x1B => rowsZero r
  | 0x1C => rowEngZero r
  | 0x1D => rowEngZero r
  | 0x20 => poolZero r
  | 0x30 => schedZero r
  | 0x38 => scanZero r
  | _ => false

/-- R373: the checks before the opcode's own; 0 when none of them ends the command. -/
def startCode (s : State) (r : Rec64) : Nat :=
  firstCode [
    (!(recordClean r), 0x0203),
    ((bodyFields r).isNone, 0x0202),
    (!(runFree (opcodeOf r)) && !(isMember s), 0x0206),
    (s.holds.salvaged && !(salvageAllows (opcodeOf r)), 0x0915),
    (signalEn r && isRidgePeg (pegDie (signalPegOf r)) (pegNum (signalPegOf r)), 0x0A12),
    (zeroWork s r, 0x0201)]

/-! ## PEG_SIGNAL, PEG_WAIT, PEG_SET (R378) -/

/-- The peg that a MEMORY-class address names. -/
def pegOfAddr (a : Nat) : Option Nat :=
  let o := gOff a
  if gClass a = 0 && pegBase ≤ o && (o - pegBase) % 64 = 0 && (o - pegBase) / 64 < 4096 then some ((o - pegBase) / 64) else none

/-- The checks of PEG_SIGNAL, first to last. -/
def pegSignalRefusal (s : State) (a : Nat) : Nat :=
  firstCode [
    (decide (2 < gClass a) || bits a 56 4 != 0, 0x0801),
    (!(coordValid s (gModule a)), 0x080C),
    ((pegOfAddr a).isNone, 0x020B),
    (isRidgePeg (gDie a) ((pegOfAddr a).getD 0), 0x0A12)]

def pegSignalWork (q i : Nat) (r : Rec64) (s : State) : State :=
  let a := rf r 319 256
  let v := rf r 255 192
  let code := pegSignalRefusal s a
  if code != 0 then endPlain q i code (whenS (code == 0x0801 || code == 0x080C) (count E.REQUESTS_REFUSED) s)
  else if gModule a = myNumber s then
    endPlain q i 0 (signalPeg (gDie a) ((pegOfAddr a).getD 0) (BitVec.ofNat 64 v) s)
  else issue 0 a 4 3 (natLe 8 v) false (.command q i) (updCmd q i (fun c => { c with outstanding := 1 }) s)

def pegWaitWork (q i : Nat) (r : Rec64) (s : State) : State :=
  let w : PegWaitRec := {
    die := pegDie (rf r 143 128), peg := pegNum (rf r 143 128), target := BitVec.ofNat 64 (rf r 255 192), cls := rf r 145 144
    queue := q, index := i, header := false }
  let h := peghold w s
  if h.1 = 1 then h.2 else endPlain q i h.1 h.2

def pegSetWork (q i : Nat) (r : Rec64) (s : State) : State :=
  let die := pegDie (rf r 143 128)
  let peg := pegNum (rf r 143 128)
  if isRidgePeg die peg then endPlain q i 0x0A12 s
  else
    let h := setPeg die peg (BitVec.ofNat 64 (rf r 255 192)) s
    endPlain q i h.1 h.2

/-! ## CHECK_SCAN (R280) -/

def checkScanWork (q i : Nat) (r : Rec64) (s : State) : State :=
  let c := scanOf q i r
  let code := scanRefusal s c
  if code = 0 then setMem { s.mem with scans := s.mem.scans ++ [c] } s else endPlain q i code (countRefusal code s)

/-! ## The work of every opcode -/

/-- Ends a command with what its work left. -/
def ended (q i : Nat) (p : Done × State) : State := endCmd q i p.1.status p.1.detail p.1.saturated p.1.poison p.2

/-- The work of a started command that has passed the start checks. -/
def commandWork (q i : Nat) (r : Rec64) (s : State) : State :=
  match opcodeOf r with
  | 0x00 => endPlain q i 0 s
  | 0x01 => pegSignalWork q i r s
  | 0x02 => pegWaitWork q i r s
  | 0x03 => pegSetWork q i r s
  | 0x08 => ended q i (copyWork r s)
  | 0x09 => ended q i (transposeWork r s)
  | 0x0A => ended q i (pushWork r s)
  | 0x0B => ended q i (popWork r s)
  | 0x10 => ended q i (gemmWork r s)
  | 0x18 => ended q i (rowReadWork r s)
  | 0x19 => rowWriteWork q i 0x19 r s
  | 0x1A => rowWriteWork q i 0x1A r s
  | 0x1B => rowWriteWork q i 0x1B r s
  | 0x1C => ended q i (rowEngWork false r s)
  | 0x1D => ended q i (rowEngWork true r s)
  | 0x20 => ended q i (poolBindWork r s)
  | 0x21 => scatterWork q i r s
  | 0x28 => denseReduceWork q i r s
  | 0x30 => ended q i (schedWork r s)
  | 0x38 => checkScanWork q i r s
  | 0x40 => ended q i (genSetupWork r s)
  | 0x41 => genCutWork q i r s
  | 0x42 => genExportWork q i r s
  | 0x43 => ended q i (genReleaseWork r s)
  | 0x48 => ended q i (feedBindWork r s)
  | 0x50 => loadWork q i r s
  | 0x51 => unloadWork q i r s
  | _ => endPlain q i 0x0202 s

/-! ## Starting (R375, R391) -/

/-- Commands that have not started, oldest first. -/
def unstarted (v : Queue) : List Cmd := v.cmds.filter fun c => !(hasStarted c)

/-- Whether a command waits behind a FENCE. -/
def fenced (v : Queue) (c : Cmd) : Bool :=
  fenceOf c.record && (v.cmds.takeWhile fun x => x.index != c.index).any fun x => !(isComplete x)

/-- Whether a command's header wait is satisfied. -/
def waitDone (s : State) (c : Cmd) : Bool :=
  !(waitEn c.record) || c.phase == .ready ||
  (c.phase == .fetched
    && decide (rf c.record 127 80 ≤ (pegValue s (pegDie (waitPeg c.record)) (pegNum (waitPeg c.record))).toNat))

/-- Whether any command of any queue is running. -/
def anyRunning (s : State) : Bool := s.host.queues.any fun e => e.2.cmds.any isRunning

/-- Whether a LOAD or UNLOAD is running. -/
def exclusiveRuns (s : State) : Bool := (runningCmd s 0x50).isSome || (runningCmd s 0x51).isSome

def isForced (s : State) (r : Rec64) : Bool := opcodeOf r == 0x51 && unloadForced s r

/-- The queue whose next command is a LOAD, or at a COMMIT point an UNLOAD, with its header wait and fence satisfied: the
other queues start nothing before it has ended. -/
def holdingQueue (s : State) : Option Nat :=
  (s.host.queues.find? fun e =>
    match unstarted e.2 with
    | c :: _ =>
      (opcodeOf c.record == 0x50 || (opcodeOf c.record == 0x51 && atCommit s)) && waitDone s c && !(fenced e.2 c)
    | [] => false).map Prod.fst

/-- Whether an UNLOAD waits for a COMMIT point; one that will be refused does not, nor one of a salvaged module, whose axis stands
still. -/
def unloadWaits (s : State) (r : Rec64) : Bool :=
  opcodeOf r == 0x51 && isMember s && recordClean r && !(unloadMismatch s r) && !(atCommit s) && !s.holds.salvaged

/-- Whether a command is held back by LOAD or UNLOAD, or does not start before a point, or finds the scan queue full. -/
def heldBack (s : State) (q : Nat) (r : Rec64) : Bool :=
  if exclusiveRuns s then true
  else if isForced s r then false
  else
    let op := opcodeOf r
    (match holdingQueue s with
          | some k => k != q
          | none => false)
      || ((op == 0x50 || op == 0x51) && anyRunning s)
      || unloadWaits s r
      || ((op == 0x21 || op == 0x28) && s.loadState == .loaded && !(reached s (rf r 191 128) 2))
      || (op == 0x38 && !(scanZero r) && scanQueueFull s (addrDie (rf r 191 128)))

/-- The counters that ZERO_WORK commands enter as well: R210, R232, R285. -/
def countZeroWork (op : Nat) (s : State) : State :=
  match op with
  | 0x09 => count E.TRANSPOSE_COMMANDS s
  | 0x10 => count E.GEMM_COMPLETED s
  | 0x38 => count E.CHECK_SCANS s
  | _ => s

/-- A started command meets its checks and does its work. -/
def startNow (q i : Nat) (r : Rec64) (s : State) : State :=
  let s := setPhase q i .running s
  let code := startCode s r
  if code != 0 then
    (if opcodeOf r = 0x50 then loadRefused q i code s
     else endPlain q i code (whenS (code == 0x0201) (countZeroWork (opcodeOf r)) s))
  else commandWork q i r s

/-- Whether a queue may start commands: it has not stopped for a failure and is not being disabled. -/
def queueStarts (s : State) (v : Queue) : Bool :=
  serves s && !v.disabling && (v.state == .running || v.state == .stoppedTorn)

/-- COMMAND_START: the command starts when it is its queue's next, its fence and header wait are satisfied and nothing
holds it back; a header wait that is not yet satisfied begins. -/
def startCommand (q i : Nat) (s : State) : State :=
  let v := queue s q
  match unstarted v with
  | [] => s
  | c :: _ =>
    if c.index != i || !(queueStarts s v) || fenced v c || c.phase == .waiting then s
    else if waitEn c.record && c.phase != .ready then
      let w : PegWaitRec := {
        die := pegDie (waitPeg c.record), peg := pegNum (waitPeg c.record), target := BitVec.ofNat 64 (rf c.record 127 80)
        cls := rf c.record 41 40, queue := q, index := i, header := true }
      let h := peghold w s
      if h.1 = 1 then setPhase q i .waiting h.2
      else if h.1 != 0 then endPlain q i h.1 h.2
      else
        let s := setPhase q i .ready h.2
        if heldBack s q c.record then s else startNow q i c.record s
    else if heldBack s q c.record then s
    else startNow q i c.record s

/-- A command's own row: the queue holds it, or takes it as its next, and it starts when it may. -/
def commandRow (q i : Nat) (r : Rec64) (s : State) : State :=
  let i := i % 2 ^ 32
  match findCmd s q i with
  | some _ => startCommand q i s
  | none =>
    if (queue s q).state == .running then
      startCommand q i (updQueue q (fun v => { v with
        cmds := v.cmds ++ [{ index := i, record := r, phase := .fetched }], sqFetched := (i + 1) % 2 ^ 32 }) s)
    else s

/-! ## Interrupts and completion records (R412 to R414) -/

/-- R414: a message after records were written. -/
def completionInterrupt (q : Nat) (s : State) : State :=
  let v := queue s q
  if !v.intEnable then s
  else if setting s E.INT_COALESCE_US = 0 then msix v.vector s
  else if v.coalescing then setQueue q { v with uncovered := true } s
  else msix v.vector (setQueue q { v with coalescing := true } s)

/-- The end of a coalescing period. -/
def coalesceExpiry (q : Nat) (s : State) : State :=
  let v := queue s q
  if !v.coalescing then s
  else if v.uncovered then msix v.vector (setQueue q { v with uncovered := false } s)
  else setQueue q { v with coalescing := false } s

/-- The completion record of an index. -/
def completionBytes (s : State) (q : Nat) (v : Queue) (i summary : Nat) : Bytes :=
  let phase := b2n (i / queueDepth v % 2 == 0)
  natLe 8 summary ++ natLe 8 (q + phase * 2 ^ 6 + s.host.epoch * 2 ^ 16 + i * 2 ^ 32)

/-- R412: writes one record and raises CQ_PRODUCER. -/
def writeCompletion (q : Nat) (c : Cmd) (summary : Nat) (s : State) : State :=
  let v := queue s q
  let b := completionBytes s q v c.index summary
  let a := v.cqBase + c.index % queueDepth v * 16
  let s := if v.cqInDevice then writeRange a b false s else sendHost (.memWrite a b false) s
  setQueue q { v with cqProducer := (v.cqProducer + 1) % 2 ^ 32, cmds := v.cmds.filter fun x => x.index != c.index } s

/-- The commands at the front of a queue that are complete, in queue order. -/
def leadingComplete (v : Queue) : List Cmd := v.cmds.takeWhile isComplete

/-- Writes the records of the leading complete commands. -/
def writeCompletions (q : Nat) (s : State) : State :=
  let cs := leadingComplete (queue s q)
  if cs.isEmpty then s
  else
    completionInterrupt q (forEach cs (fun c s =>
      match c.phase with
      | .recorded x => writeCompletion q c x s
      | _ => s) s)

/-- A queue being disabled is DISABLED once none of its commands runs. -/
def settleDisable (q : Nat) (s : State) : State :=
  let v := queue s q
  if v.disabling && !(v.cmds.any isRunning) then
    setQueue q { v with state := .disabled, disabling := false, cmds := [], recheck := none, flushing := false
                        coalescing := false, uncovered := false } s
  else s

/-- R408: whether the module may use a queue's rings: those in host memory need Bus Master Enable and a function in D0. -/
def hostRings (v : Queue) : Bool := !v.sqInDevice || !v.cqInDevice
def mayMaster (s : State) : Bool := s.host.bme && !s.host.d3hot && !s.host.lost

/-- What a queue can write now: a fenced queue writes none of its records; records in host memory follow a flush. -/
def settleRecords (q : Nat) (s : State) : State :=
  let v := queue s q
  if (leadingComplete v).isEmpty then s
  else if v.state == .fenced then
    setQueue q { v with cmds := v.cmds.filter fun c => !(isComplete c) } s
  else if hostRings v && !(mayMaster s) then s
  else if v.cqInDevice then writeCompletions q s
  else if v.flushing then s
  else
    match leadingComplete v with
    | c :: _ => sendHost (.memRead (v.cqBase + c.index % queueDepth v * 16) 0) (setQueue q { v with flushing := true } s)
    | [] => s

/-- COMPLETION_FLUSH_DONE. -/
def flushDone (q : Nat) (s : State) : State :=
  if (queue s q).flushing && mayMaster s then
    settleDisable q (writeCompletions q (updQueue q (fun v => { v with flushing := false }) s))
  else s

/-! ## Completing (R376, R377) -/

/-- The summary of a completed command. -/
def summaryOf (r : Rec64) (status detail : Nat) (saturated poison signalled : Bool) : Nat :=
  status + rf r 31 16 * 2 ^ 16 + b2n saturated * 2 ^ 32 + b2n poison * 2 ^ 33 + b2n signalled * 2 ^ 34 + detail * 2 ^ 40

/-- R377: whether a status is a success. -/
def succeeded (status : Nat) : Bool := status == 0 || status == 0x0201

/-- Takes the waits of commands that have not started off the pegs. -/
def dropWaits (q : Nat) (is : List Nat) (s : State) : State :=
  { s with pegs := { s.pegs with waits := s.pegs.waits.filter fun w => !(w.queue == q && is.contains w.index) } }

/-- Discards the commands that a queue has fetched and not started; they will be fetched again. -/
def discardUnstarted (q : Nat) (s : State) : State :=
  let v := queue s q
  match unstarted v with
  | [] => s
  | c :: rest =>
    setQueue q { v with cmds := v.cmds.filter hasStarted, sqFetched := c.index } (dropWaits q ((c :: rest).map fun x => x.index) s)

/-- R377, R411: a failure stops its queue. -/
def stopQueue (q i status : Nat) (s : State) : State :=
  let v := queue s q
  if v.state == .running || v.state == .stoppedTorn then
    let s := updQueue q (fun v => { v with state := .stoppedError, stopIndex := i, stopStatus := status, recheck := none }) (discardUnstarted q s)
    causeQueueStopped s
  else s

/-- COMMAND_COMPLETE: the header signal, the counters, the summary, the queue's stop and its records. -/
def completeCommand (q i : Nat) (s : State) : State :=
  match findCmd s q i with
  | none => s
  | some c =>
    match c.phase with
    | .done status detail saturated poison =>
      let r := c.record
      let die := pegDie (signalPegOf r)
      let peg := pegNum (signalPegOf r)
      let ok := succeeded status
      let signals := signalEn r && (ok || signalOnFail r) && !(isRidgePeg die peg)
      let s := setPhase q i (.recorded (summaryOf r status detail saturated poison signals)) s
      let s := whenS signals (signalPeg die peg 1) s
      let s := whenS ok (count E.COMMANDS_COMPLETED) s
      let s := whenS (status == 0x0201) (count E.ZERO_WORK_COMPLETIONS) s
      let s := whenS (!ok) (count E.COMMANDS_FAILED) s
      let s := whenS (!ok && !(continueOnError r)) (stopQueue q i status) s
      settleDisable q (settleRecords q s)
    | _ => s

end Sys2Proof.Machine
end

