-- ==== Sys2Proof/Machine/Host.lean ====
section
/-!
DEFINITION. The PCIe endpoint (chapter 15): descriptor fetch and its rechecks (R408 to R411), doorbells (R407), enabling
and disabling queues (R406), the BARs (R398 to R404, R420 to R423), configuration writes, link retrain and host loss
(R415 to R418).
-/
namespace Sys2Proof.Machine

def setHostIf (h : HostIf) (s : State) : State := { s with host := h }
def allQueues : List Nat := upto 64

/-- R406, R506: a device-resident ring range that may be used, and a valid configuration. -/
def queueBaseOk (s : State) (inDevice : Bool) (base len : Nat) : Bool :=
  if inDevice then base % 64 == 0 && flatArea s base len else base % 4096 == 0
def queueConfigOk (s : State) (v : Queue) : Bool :=
  decide (6 ≤ v.depthLog2) && decide (v.depthLog2 ≤ 15) && queueBaseOk s v.sqInDevice v.sqBase (64 * queueDepth v)
    && queueBaseOk s v.cqInDevice v.cqBase (16 * queueDepth v)

/-- QUEUE_ENABLE. -/
def enableQueue (q : Nat) (s : State) : State :=
  let v := queue s q
  if v.state != .disabled then s
  else if !(serves s) then setQueue q { v with stopStatus := 0x0105 } s
  else if queueConfigOk s v then
    setQueue q { v with
      state := .running, sqProducer := 0, sqFetched := 0, cqProducer := 0, cqHead := 0, stopIndex := 0
      epochAtEnable := s.host.epoch, cmds := [], recheck := none, flushing := false, disabling := false
      coalescing := false, uncovered := false } s
  else raise 0x0102 q (setQueue q { v with stopStatus := 0x0102 } s)

/-- QUEUE_DISABLE. -/
def disableQueue (q : Nat) (s : State) : State :=
  if (queue s q).state == .disabled then s
  else settleDisable q (updQueue q (fun v => { v with disabling := true, recheck := none }) (discardUnstarted q s))

/-- QUEUE_RESTART: fetching resumes behind the commands that had started. -/
def restartQueue (q : Nat) (s : State) : State :=
  updQueue q (fun v => if v.state == .stoppedError && !v.disabling then { v with state := .running } else v) s

/-! ## Doorbells (R407, R411) -/

def mod32 (a b : Nat) : Nat := (a + 2 ^ 32 - b % 2 ^ 32) % 2 ^ 32

def ignoreDoorbell (q : Nat) (s : State) : State := raiseOnce 0x0103 q (count E.DOORBELLS_IGNORED s)

def doorbellOpen (s : State) (v : Queue) : Bool := serves s && v.state != .disabled && v.state != .fenced

/-- A KIND 0 doorbell. -/
def doorbellSq (q i : Nat) (s : State) : State :=
  let v := queue s q
  let i := i % 2 ^ 32
  if doorbellOpen s v && decide (mod32 i v.sqProducer < 2 ^ 31) && decide (mod32 i v.cqHead ≤ queueDepth v) then
    if v.state == .stoppedTorn then setQueue q { v with sqProducer := i, state := .running, sqFetched := v.stopIndex } s
    else setQueue q { v with sqProducer := i } s
  else ignoreDoorbell q s

/-- A KIND 1 doorbell. -/
def doorbellCq (q i : Nat) (s : State) : State :=
  let v := queue s q
  let i := i % 2 ^ 32
  if doorbellOpen s v && decide (mod32 i v.cqHead ≤ mod32 v.cqProducer v.cqHead) then setQueue q { v with cqHead := i } s
  else ignoreDoorbell q s

/-! ## Fetching (R408 to R410) -/

/-- Whether a queue may read its submission ring now. -/
def mayRead (s : State) (v : Queue) : Bool :=
  serves s && (!(hostRings v) || (mayMaster s && s.host.linkL0))

/-- R408: whether a running queue has an index to fetch. -/
def fetchable (s : State) (v : Queue) : Bool :=
  v.state == .running && !v.disabling && mayRead s v && v.sqFetched != v.sqProducer
    && decide (mod32 v.sqFetched v.cqHead < queueDepth v)

/-- A descriptor read at an index: the record, or none where it did not end well.  A ring in module memory is read there. -/
def readDescriptor (v : Queue) (i : Nat) (reply : HostReply) (s : State) : Option Rec64 × State :=
  if v.sqInDevice then
    let r := readRange (v.sqBase + i % queueDepth v * 64) 64 s
    (if r.1.2 then none else some (recOf r.1.1), r.2)
  else
    match reply with
    | .record r => (some r, s)
    | _ => (none, s)

/-- A good record is fetched. -/
def fetched (q i : Nat) (r : Rec64) (s : State) : State :=
  updQueue q (fun v => { v with
    cmds := v.cmds ++ [{ index := i, record := r, phase := .fetched }], sqFetched := (i + 1) % 2 ^ 32, recheck := none }) s

/-- COMMAND_FETCH: the descriptor check of the next index. -/
def fetchCommand (q : Nat) (reply : HostReply) (s : State) : State :=
  let v := queue s q
  if !(fetchable s v) || v.recheck.isSome then s
  else
    let i := v.sqFetched
    let d := readDescriptor v i reply s
    match d.1.filter fun r => descriptorGood r q i with
    | some r => fetched q i r d.2
    | none => updQueue q (fun v => { v with recheck := some (i, 0) }) d.2

/-- DESCRIPTOR_RECHECK_EXPIRY: a re-read; after the fourth that is not good the queue has stopped torn.  The timer does not
run while the link is out of L0 (R415). -/
def recheckDescriptor (q : Nat) (reply : HostReply) (s : State) : State :=
  let v := queue s q
  match v.recheck with
  | none => s
  | some (i, n) =>
    if !s.host.linkL0 || !(mayRead s v) then s
    else
      let d := readDescriptor v i reply (count E.DESC_RECHECKS s)
      match d.1.filter fun r => descriptorGood r q i with
      | some r => fetched q i r d.2
      | none =>
        if n + 1 < 4 then updQueue q (fun v => { v with recheck := some (i, n + 1) }) d.2
        else
          let s := updQueue q (fun v => { v with state := .stoppedTorn, stopIndex := i, stopStatus := 0x0101, recheck := none }) d.2
          raise 0x0101 q (count E.TORN_DESCRIPTORS (causeQueueStopped s))

/-- PCIE_COMPLETION_TIMEOUT: a flush read is issued again; a descriptor read counts as not good. -/
def completionTimeout (q : Nat) (s : State) : State :=
  let v := queue s q
  if !s.host.linkL0 then s
  else if v.flushing then settleRecords q (setQueue q { v with flushing := false } s)
  else if v.recheck.isSome then recheckDescriptor q .bad s
  else fetchCommand q .bad s

/-! ## BAR0 (R398 to R400, R405, R420) -/

/-- Replaces the low or high 32 bits of a 64-bit register. -/
def setHalf (old : Nat) (high : Bool) (v : Nat) : Nat :=
  if high then old % 2 ^ 32 + v % 2 ^ 32 * 2 ^ 32 else old / 2 ^ 32 * 2 ^ 32 + v % 2 ^ 32

/-- A 32-bit write of word `w` of a queue's registers. -/
def queueWord (q w v : Nat) (s : State) : State :=
  let k := queue s q
  let free := k.state == .disabled
  match w with
  | 0 => if free then setQueue q { k with sqBase := setHalf k.sqBase false v } s else s
  | 1 => if free then setQueue q { k with sqBase := setHalf k.sqBase true v } s else s
  | 2 => if free then setQueue q { k with cqBase := setHalf k.cqBase false v } s else s
  | 3 => if free then setQueue q { k with cqBase := setHalf k.cqBase true v } s else s
  | 4 =>
    if free then
      setQueue q { k with
        sqInDevice := bitAt v 0, cqInDevice := bitAt v 1, depthLog2 := bits v 2 4, vector := bits v 6 6, intEnable := bitAt v 12 } s
    else s
  | 5 =>
    let s := whenS (bitAt v 1) (disableQueue q) s
    let s := whenS (bitAt v 0) (enableQueue q) s
    whenS (bitAt v 2) (restartQueue q) s
  | _ => s

def ringKindOf (n : Nat) : RingKind := nthD .off [.off, .batch, .gradient, .outlet] n

/-- R421, R506: RING_ENABLE. -/
def enableRing (r : Nat) (s : State) : State :=
  if serves s then ringEnable r s else updRing r (fun g => { g with stopStatus := 0x0105 }) s

/-- A 32-bit write of word `w` of a ring's registers. -/
def ringWord (r w v : Nat) (s : State) : State :=
  let g := ring s r
  if g.enable then (if w = 0 && !(bitAt v 2) then ringDisable r s else s)
  else
    match w with
    | 0 =>
      let s := setRing r { g with kind := ringKindOf (v % 4), tableSet := bits v 8 8, reqFilter := bitAt v 16 } s
      whenS (bitAt v 2) (enableRing r) s
    | 1 => setRing r { g with requester := v % 65536 } s
    | 2 => setRing r { g with apertureOffset := v } s
    | 3 => setRing r { g with apertureBytes := v } s
    | 4 => setRing r { g with backing := setHalf g.backing false v } s
    | 5 => setRing r { g with backing := setHalf g.backing true v } s
    | _ => s

/-- CAUSE_CLEAR: bit 0 CAUSE_ERROR_EVENT, 1 CAUSE_QUEUE_STOPPED, 2 CAUSE_HOST_LOSS. -/
def clearCauses (m : Nat) (s : State) : State :=
  setHostIf { s.host with
    causeError := s.host.causeError && !(bitAt m 0), causeQueue := s.host.causeQueue && !(bitAt m 1)
    causeLoss := s.host.causeLoss && !(bitAt m 2) } s

/-- Sends the messages that are pending and no longer masked (R414). -/
def sendPendingMsix (s : State) : State :=
  forEach (s.host.pba.map Prod.fst) (fun v s => msix v (setHostIf { s.host with pba := sput false s.host.pba v false } s)) s

/-- A 32-bit write of word `k` of the MSI-X table. -/
def msixWord (k v : Nat) (s : State) : State :=
  let h := { s.host with table := sput 0 s.host.table k v }
  let h := if k % 4 = 3 then { h with unmasked := sput false h.unmasked (k / 4) (!(bitAt v 0)) } else h
  sendPendingMsix (setHostIf h s)

/-- A 32-bit write of a BAR0 word that chapter 15 defines; none where its offset is not one of those. -/
def hostWord (o v : Nat) (s : State) : Option State :=
  if 0x10000 ≤ o && o < 0x11000 then some (queueWord ((o - 0x10000) / 64) ((o - 0x10000) % 64 / 4) v s)
  else if 0x20000 ≤ o && o < 0x21000 then some (ringWord ((o - 0x20000) / 64) ((o - 0x20000) % 64 / 4) v s)
  else if o = 0x30000 then some (setHostIf { s.host with windowGib := s.host.windowGib / 4 * 4 + bits v 30 2 } s)
  else if o = 0x30004 then
    some (setHostIf { s.host with windowGib := s.host.windowGib % 4 + bits v 0 9 * 4, windowDie := bits v 9 2 } s)
  else if o = 0x200018 then some (clearCauses (v % 8) s)
  else if 0x200000 ≤ o && o < 0x200040 then some s
  else if 0x300000 ≤ o && o < 0x300410 then some (msixWord ((o - 0x300000) / 4) v s)
  else if 0x301000 ≤ o && o < 0x301010 then some s
  else none

/-- A DOORBELL write. -/
def doorbell (v : Nat) (s : State) : State :=
  if bitAt v 6 then doorbellCq (bits v 0 6) (bits v 32 32) s else doorbellSq (bits v 0 6) (bits v 32 32) s

/-! ## BAR2 (R401 to R404) -/

/-- The module payload address of a byte of the movable window. -/
def windowAddr (s : State) (o : Nat) : Nat := modAddr s.host.windowDie ((s.host.windowGib * 2 ^ 30 + o) % 2 ^ 41)

def readBar2 (o n : Nat) (s : State) : State :=
  if !(serves s) then emit .unsupportedRequest s
  else
    let a := windowAddr s o
    let code := readRefusal s (addrOff a) n
    if code != 0 then emit .unsupportedRequest (barRefused code s)
    else
      let r := accessRead a n s
      emit (.readData r.1.1 r.1.2) (whenS r.1.2 (count E.HOST_POISON_READS) r.2)

def writeBar2 (o : Nat) (b : Bytes) (poison : Bool) (s : State) : State :=
  if !(serves s) then s
  else
    let a := windowAddr s o
    let code := writeRefusal s (addrDie a) (addrOff a) b.length
    if code != 0 then barRefused code s
    else writeRange a b poison (whenS poison (count E.HOST_POISON_WRITES) s)

/-! ## BAR4 (R422, R423) -/

def intakeWrite (requester offset : Nat) (b : Bytes) (poison : Bool) (s : State) : State :=
  if serves s then windowWrite requester offset b poison s else s

/-- R422: the control block of a ring; its write-only fields read zero. -/
def controlBlock (s : State) (r : Nat) : Bytes :=
  let g := ring s r
  zeros 8 ++ natLe 8 g.consumer ++ natLe 8 g.readyStep ++ zeros 8 ++ natLe 2 s.host.epoch
    ++ natLe 1 (b2n (g.state == .stopped) + 2 * b2n g.incomplete + freeField s.free 0 2 6)

/-- A byte of the control area; a reserved one is undefined (R10). -/
def controlByte (s : State) (o : Nat) : Byte :=
  if o < 0x40000 && o % 0x1000 < 35 then nthD 0 (controlBlock s (o / 0x1000)) (o % 0x1000) else Config.freeByte s.free o

def exportRead (offset n : Nat) (s : State) : State :=
  if !(serves s) then emit .unsupportedRequest s
  else if offset < 0x100000 then
    emit (.readData ((upto n).map fun i => controlByte s (offset + i)) false) (nextFree s).2
  else windowRead offset n s

/-! ## Configuration, link and host loss (R415 to R418) -/

/-- What waited for the link or for Bus Master Enable goes on. -/
def resumeHost (s : State) : State :=
  let s := if s.host.linkL0 && s.host.bme && !s.host.d3hot then setHostIf { s.host with lost := false } s else s
  forEach allQueues settleRecords (sendPendingMsix s)

/-- Registers that a reset of the endpoint clears in configuration space. -/
def resetConfig (s : State) : State :=
  setHostIf { s.host with
    bme := false, funcMask := false, msixEnable := false, d3hot := false, table := [], unmasked := [], pba := [] } s

/-- R417, step 2, for one queue. -/
def fenceQueue (q : Nat) (s : State) : State :=
  let v := queue s q
  if v.state == .disabled || !(hostRings v) then s
  else settleDisable q (settleRecords q (updQueue q (fun v => { v with
    state := .fenced, recheck := none, flushing := false, coalescing := false, uncovered := false }) (discardUnstarted q s)))

/-- R417. -/
def hostLoss (s : State) : State :=
  let s := count E.HOST_LOSS_EVENTS (setHostIf { s.host with heldOut := [], lost := true, lossTimer := false } s)
  let s := forEach allQueues fenceQueue s
  let s := setHostIf { s.host with epoch := if s.host.epoch = 0xFFFF then 1 else s.host.epoch + 1 } s
  raise 0x0104 s.host.epoch (causeHostLoss s)

/-- The link has come to L0, at a rate and width that the partner and the channel decide. -/
def linkUp (s : State) : State :=
  let held := s.host.heldOut
  let f := nextFree s
  let s := setHostIf { s.host with
    linkL0 := true, lossTimer := false, heldOut := [], speed := Config.linkSpeed f.1, width := Config.linkWidth f.1 } f.2
  resumeHost (forEach held emit s)

def linkDown (s : State) : State := setHostIf { s.host with linkL0 := false, speed := 0, width := 0 } s

/-- PCIE_LINK_EXIT_L0. -/
def linkExit (s : State) : State :=
  if s.host.linkL0 then linkDown (setHostIf { s.host with lossTimer := true } s) else s

/-- PCIE_LINK_RETURN_L0. -/
def linkReturn (s : State) : State :=
  if s.host.linkL0 || s.host.perst then s
  else linkUp (whenS s.host.lossTimer (count E.HOST_LINK_RECOVERIES) s)

/-- HOST_LOSS_TIMEOUT. -/
def lossTimeout (s : State) : State := if s.host.lossTimer then hostLoss (resetConfig s) else s

/-- R506: whether the endpoint has been released. -/
def endpointReady (s : State) : Bool :=
  decide (4 < s.life.stage) || serves s || (isState s .outOfService && s.life.conversion)

/-- PERST_ASSERT, FUNCTION_LEVEL_RESET, PCIE_HOT_RESET and D3HOT_ENTRY. -/
def perstOn (s : State) : State :=
  let s := setHostIf { s.host with perst := true } s
  if endpointReady s then hostLoss (resetConfig (linkDown s)) else s
def functionReset (s : State) : State := hostLoss (resetConfig s)
def hotReset (s : State) : State := hostLoss (resetConfig (linkDown s))
def enterD3hot (s : State) : State := hostLoss (setHostIf { s.host with d3hot := true } s)

/-- PERST_DEASSERT: with stage 4 ended the endpoint trains its link (R506). -/
def perstOff (s : State) : State :=
  let s := setHostIf { s.host with perst := false } s
  if endpointReady s && !s.host.linkL0 then linkUp s else s

/-- CONFIGURATION_WRITE. -/
def configWrite (bme mask d3 : Bool) (s : State) : State :=
  let enters := d3 && !s.host.d3hot
  let s := setHostIf { s.host with bme := bme, funcMask := mask, msixEnable := bme, d3hot := d3 } s
  if enters then hostLoss s else resumeHost s

end Sys2Proof.Machine
end

