-- ==== Sys2Proof/Machine/Twin.lean ====
section
/-!
DEFINITION. Twins (R431 to R456): heartbeats and pair formation, replaying the mirror log, copies, twin repair (R279),
failover, and the loss of a member during a step.
-/
namespace Sys2Proof.Machine

/-! ## Names of records -/

/-- The rows of a table homed in a region start at this one. -/
def firstHomed (s : State) (d : TableDecl) (g : Nat) : Nat :=
  bandStart s d (myPitch s) + (g + 16 * 65536 - d.table) % 16

/-- Every declaration with its set. -/
def allTables (s : State) : List (TableSet × TableDecl) := s.sets.flatMap fun ts => ts.tables.map fun d => (ts, d)

/-- The target slice whose record is number `n` of a table in a region. -/
def recordTarget (s : State) (ts : TableSet) (d : TableDecl) (g n : Nat) : Option TargetKey :=
  let k := localSlices s d
  if n / k < homedRows s d (myPitch s) g then
    some { kind := 0, set := ts.number, table := d.table, row := firstHomed s d g + 16 * (n / k), variant := 0, slice := n % k }
  else none

/-- The number of the record that a byte of an area lies in; none past the last record of its page. -/
def recordNumber (mode rel : Nat) : Option Nat :=
  if rel % pageBytes / recLen mode < recsPerPage mode then some (recordIndex mode rel) else none

/-- The target of a byte at `off` of a region's table area, or of its pinned portion. -/
def areaTarget (s : State) (g off : Nat) (pinned : Bool) : Option TargetKey :=
  let gr := off / granuleBytes
  let base (d : TableDecl) : Nat := if pinned then s.plan.fastFlat + d.pinnedBase else d.baseGranule
  match (allTables s).find? fun x => (x.2.pinned || !pinned) && decide (base x.2 ≤ gr)
      && decide (gr < base x.2 + x.2.granules) with
  | none => none
  | some x => (recordNumber x.1.mode (off - base x.2 * granuleBytes)).bind (recordTarget s x.1 x.2 g)

/-- The overlay whose record holds a byte of a region's overlay pool. -/
def poolTarget (s : State) (g off : Nat) : Option TargetKey :=
  let es := (dirEntries s g).map Prod.snd
  es.findSome? fun e =>
    match (tableSet s e.set).bind fun ts => (tableOf ts e.table).map fun d => (ts, d) with
    | none => none
    | some x =>
      ((upto (localSlices s x.2)).find? fun j =>
        let a := (spotOf s (addrOff (overlayRecord s g x.1.mode e.record j))).off
        decide (a ≤ off) && decide (off < a + recLen x.1.mode)).map fun j =>
          { kind := 0, set := e.set, table := e.table, row := e.row, variant := e.variant, slice := j }

/-- The dense group whose record holds a byte of the dense area. -/
def denseTarget (s : State) (a : Nat) : Option TargetKey :=
  (ownedAll s).findSome? fun e =>
    match shardRef s e.1 with
    | none => none
    | some x =>
      let h := denseRecord s x e.2
      if h ≤ a && a < h + recLen (tensorMode s x.tensor) then
        some { kind := 1, set := 0, table := x.tensor.number, row := groupRow x.tensor (x.first + e.2), variant := 0
               slice := groupCol x.tensor (x.first + e.2) }
      else none

/-- R279: the record that a sector belongs to, by its logical coordinates. -/
def namedAt (s : State) (a : Nat) : Option TargetKey :=
  let sp := spotOf s (addrOff a)
  let g := addrDie a * 4 + sp.region
  if meets a 1 s.plan.denseAddr (densePages s * pageBytes) then denseTarget s a
  else match sp.portion with
    | .table => areaTarget s g sp.off false
    | .pinned => areaTarget s g sp.off true
    | .overlay => poolTarget s g sp.off
    | _ => none

/-- The group of a tensor as (shard, group of the shard), where this module holds its record. -/
def groupPlace (s : State) (tensor i : Nat) : Option (ShardRef × Nat) :=
  ((allShards s).find? fun x => x.tensor.number == tensor && decide (x.first ≤ i) && decide (i < x.first + x.count)
    && ownsShard s x.shard).map fun x => (x, i - x.first)

/-- Where the record of a key lies here, and its numeric mode. -/
def keyHome (s : State) (k : TargetKey) : Option (Nat × Nat) :=
  if k.kind = 1 then
    (tensorOf s k.table).bind fun t => (groupPlace s k.table (k.row * (t.cols / 16) + k.slice)).map fun x =>
      (denseRecord s x.1 x.2, tensorMode s t)
  else (rowDecl s k.set k.table).bind fun td => (rowTarget s td.1 td.2 k.row k.variant k.slice).map fun h => (h, td.1.mode)

/-- The directory reads that finding the record of a key makes. -/
def keyRead (k : TargetKey) (s : State) : State :=
  match if k.kind = 1 then none else rowDecl s k.set k.table with
  | some td => resolveReads td.1 td.2 k.row k.variant s
  | none => s

/-! ## Replaying the mirror log (R441 to R443, R455) -/

/-- One entry of a MIRROR_LOG packet. -/
structure Entry40 where
  grad : Bytes
  kind : Nat
  region : Nat
  record : Nat
  occ : Nat

def entry40 (b : Bytes) : Entry40 :=
  let w := field b 32 8
  { grad := b.take 32, kind := bits w 0 3, region := bits w 3 2, record := bits w 5 32, occ := bits w 37 27 }

/-- The mirror gradient as F32 codes. -/
def entryGrad (e : Entry40) : List W32 := (pieces 2 e.grad).map fun b => d16toF32 (leNat b)

/-- What becomes of an entry. -/
inductive Replayed where
  | done
  | skipped
  | diverged
  deriving DecidableEq, Repr

/-- R455: whether a copy target has received the page of a record. -/
def pageHere (s : State) (home : Nat) : Bool :=
  s.twin.state != .copyTarget
    || (let pk := pageOfSec (secOfAddr home); decide (copyPos pk < sget 0 s.twin.copyGot (copyDie pk)))

def noteReplay (k : TargetKey) (s : State) : State := setTwin { s.twin with replayed := k :: s.twin.replayed } s

/-- Whether a record is poisoned. -/
def recordPoisoned (home mode : Nat) (s : State) : Bool × State :=
  let r := readRecord home 0 (recSectors mode) s
  (r.1.2.any markPoison, r.2)

/-- Replays an entry on the record of a table target. -/
def replayTable (step : Nat) (k : TargetKey) (ts : TableSet) (d : TableDecl) (home occ : Nat) (g : List W32) (nc : W32 × W32)
    (s : State) : Replayed × State :=
  if !(pageHere s home) then (.skipped, s)
  else
    let p := recordPoisoned home ts.mode s
    if p.1 then (.skipped, p.2)
    else
      (.done, noteReplay k (updateAt step ts d k.row k.variant k.slice home occ g nc.1 nc.2 p.2).2)

/-- BASE: the record number names the target. -/
def replayBase (step die : Nat) (e : Entry40) (nc : W32 × W32) (s : State) : Replayed × State :=
  let g := die * 4 + e.region
  let off := e.record / 32 * pageBytes
  match (allTables s).find? fun x => decide (x.2.baseGranule * granuleBytes ≤ off)
      && decide (off < (x.2.baseGranule + x.2.granules) * granuleBytes) with
  | none => (.diverged, s)
  | some x =>
    let n := (off / pageBytes - x.2.baseGranule * 4096) * recsPerPage x.1.mode + e.record % 32
    match if e.record % 32 < recsPerPage x.1.mode then recordTarget s x.1 x.2 g n else none with
    | none => (.diverged, s)
    | some k => replayTable step k x.1 x.2 (baseRecord s x.1 x.2 k.row k.slice) e.occ (entryGrad e) nc s

/-- KEYED: the KEY before it names the target. -/
def replayKeyed (step : Nat) (key e : Entry40) (nc : W32 × W32) (s : State) : Replayed × State :=
  let k := keyOf key.grad
  let occ := field key.grad 16 4
  let create := bitAt (field key.grad 12 1) 0
  match rowDecl s k.set k.table with
  | none => (.diverged, s)
  | some td =>
    let s := resolveReads td.1 td.2 k.row k.variant s
    let w := locate s td.1 td.2 k.row k.variant k.slice
    if s.twin.state == .copyTarget then
      match w with
      | .at home _ => if create then (.skipped, s) else replayTable step k td.1 td.2 home occ (entryGrad e) nc s
      | _ => (.skipped, s)
    else
      match w, create with
      | .at home _, false => replayTable step k td.1 td.2 home occ (entryGrad e) nc s
      | .create base, true =>
        let p := recordPoisoned base td.1.mode s
        if p.1 then (.skipped, p.2)
        else
          let c := createOverlay step td.1 td.2 k.row k.variant p.2
          match c.1 with
          | none => (.diverged, c.2)
          | some first =>
            replayTable step k td.1 td.2 (overlayRecord c.2 (homeGroup c.2 td.2 k.row) td.1.mode first k.slice) occ
              (entryGrad e) nc c.2
      | _, _ => (.diverged, s)

/-- DENSE: the index of an owned group names the target. -/
def replayDense (step : Nat) (e : Entry40) (nc : W32 × W32) (s : State) : Replayed × State :=
  match (ownedAll s)[e.record]? with
  | none => (.diverged, s)
  | some o =>
    match (shardRef s o.1).bind fun x => (tableSet s x.tensor.tableSet).map fun ts => (x, ts) with
    | none => (.diverged, s)
    | some x =>
      let t := x.1.tensor
      let mode := tensorMode s t
      let home := denseRecord s x.1 o.2
      if !(pageHere s home) then (.skipped, s)
      else
        let rd := readRecord home 0 (recSectors mode) s
        if rd.1.2.any markPoison then (.skipped, rd.2)
        else
          let r := runRecord mode step x.2.t 1 nc.1 nc.2 x.2.bank x.2.derived (programAt s t.program)
            (groupAt s t step (x.1.first + o.2)) (entryGrad e) rd.1.1 rd.1.2
          let s := storeRecord home r.bytes r.marks (beforeRecordWrite home mode true rd.2)
          let k : TargetKey := { kind := 1, set := 0, table := o.1, row := o.2, variant := 0, slice := 0 }
          (.done, noteReplay k (count E.DENSE_GROUP_UPDATES (countRun (burinLane s s.plan.denseAddr home mode t.number) r s)))

/-- The entries of a packet, in order; the answer says whether one of them could not be resolved. -/
def replayAll (step die : Nat) (nc : W32 × W32) : Option Entry40 → List Entry40 → State → Bool × State
  | _, [], s => (false, s)
  | key, e :: rest, s =>
    let note (n : Nat) (r : Replayed × State) : Bool × State :=
      match r.1 with
      | .done => replayAll step die nc none rest (countN E.MIRROR_ENTRIES_REPLAYED n r.2)
      | .skipped => replayAll step die nc none rest (countN E.MIRROR_SKIPS n r.2)
      | .diverged => (true, r.2)
    if e.kind = 3 then replayAll step die nc (some e) rest s
    else if e.kind = 1 then note 1 (replayBase step die e nc s)
    else if e.kind = 4 then note 1 (replayDense step e nc s)
    else
      match key with
      | some k => if e.kind = 2 then note 2 (replayKeyed step k e nc s) else (true, s)
      | none => (true, s)

/-- The operands that entries of a step are replayed with. -/
def replayOperands (s : State) (step : Nat) : Option (W32 × W32) :=
  match normIn s step with
  | some x => some x
  | none => stepNorm s step

/-- A module serves the mirror log while it is in the run and the axis is in the packet's step. -/
def mirrorOpen (s : State) (step : Nat) : Bool := s.loadState == .loaded && curStep s == step

/-- MIRROR_LOG: every entry is replayed or skipped, then the packet is answered; a follower that cannot resolve one
leaves service. -/
def mirrorLog (p : GPacket) (s : State) : State :=
  gServe p (fun s =>
    let step := nearStep s p.stepLo
    match if mirrorOpen s step && gOpen s then replayOperands s step else none with
    | none => gAnswer p 0x0811 [] false s
    | some nc =>
      let r := replayAll step p.die nc none ((pieces 40 p.data).map entry40) s
      if r.1 then
        let c := unitCoord r.2 p.die 4 2 2
        leaveService 0x0906 c (raiseAt 0x0906 c step r.2)
      else gAnswer p 0 [] false r.2) s

/-- STEP_OPERANDS: the values that programs of the step ran with at the lead. -/
def takeOperands (p : GPacket) (s : State) : State :=
  gServe p (fun s =>
    gAnswer p 0 [] false (setTwin { s.twin with
      opStep := some (field p.data 0 8)
      opNorm := BitVec.ofNat 32 (field p.data 8 4)
      opClip := BitVec.ofNat 32 (field p.data 12 4) } s)) s

/-- STEP_MARK: answered once everything that preceded it on its path has been replayed or skipped. -/
def takeMark (p : GPacket) (s : State) : State :=
  gServe p (fun s =>
    gAnswer p 0 [] false (setTwin { s.twin with partnerMarks := s.twin.partnerMarks ++ [(p.die, field p.data 0 8)] } s)) s

/-- R445: a module that is ready for (N, APPLIED) marks the end of step N on the path of each die. -/
def sendMarks (step : Nat) (s : State) : State :=
  if !(mirrors s) || s.twin.markStep == some step then s
  else
    forEach four (fun d s => gIssue d 0 3 1 step (natLe 8 step) false (.mark step) s)
      (setTwin { s.twin with markStep := some step, marks := [] } s)

def marksAnswered (s : State) (step : Nat) : Bool := s.twin.markStep == some step && four.all s.twin.marks.contains

/-- R453: a copy target has replayed what precedes the marks of a step. -/
def marksTaken (s : State) (step : Nat) : Bool := four.all fun d => s.twin.partnerMarks.contains (d, step)

/-! ## Occurrences, contributions and row changes from the partner -/

/-- OCCURRENCES and CONTRIBUTIONS are answered at once. -/
def takeOccPacket (p : GPacket) (s : State) : State := gServe p (fun s => gAnswer p 0 [] false (takeOccurrences p s)) s
def takeContribPacket (p : GPacket) (s : State) : State :=
  gServe p (fun s => let r := takeContributions p s; gAnswer p r.1 [] false r.2) s
def takeRowPacket (p : GPacket) (s : State) : State :=
  gServe p (fun s => let r := takeRowChange p s; gAnswer p r.1 [] false r.2) s

/-! ## Copies (R437, R454 to R456) -/

/-- The pages of a die that a copy covers: (tier, region, first page, page after the last).  Outside a run every populated
page; in a run the table area, overlay pool, pinned portion, directory and dense area. -/
def copySpans (s : State) (die : Nat) : List (Nat × Nat × Nat × Nat) :=
  if s.loadState = .idle then
    four.flatMap fun r => [(0, r, 0, slowPop / pageBytes), (1, r, 0, fastPop / pageBytes)]
  else
    let p := s.plan
    let runs := four.flatMap fun r =>
      [(0, r, 0, (p.slowTable + p.slowOverlay) * 4096),
       (1, r, p.fastFlat * 4096, (p.fastFlat + p.fastPinned + p.fastDirectory) * 4096)]
    let n := densePages s
    if n = 0 || addrDie p.denseAddr != die then runs
    else
      let pk := pageOfSec (secOfAddr p.denseAddr)
      let tier := placeOfPage pk / 4 % 2
      runs ++ [(tier, placeOfPage pk % 4, pageNo pk, pageNo pk + n)]

/-- The first page of a span at or after a position, as a page number. -/
def spanFrom (x : Nat × Nat × Nat × Nat) (k : Nat) : Nat := max x.2.2.1 (ceilDiv (k - (x.2.1 * 2 + x.1)) 8)

/-- The position of the next page of a die to copy. -/
def nextCopy (s : State) (die k : Nat) : Option Nat :=
  ((copySpans s die).filterMap fun x =>
    let n := spanFrom x k
    if n < x.2.2.2 then some (n * 8 + x.2.1 * 2 + x.1) else none).min?

/-- COPY_PAGES_LEFT: pages not yet sent or not yet acknowledged, and the recopy set. -/
def copyPagesLeft (s : State) : Nat :=
  if s.twin.state != .copySource then 0
  else
    let left (d : Nat) : Nat := ((copySpans s d).map fun x => x.2.2.2 - spanFrom x (sget 0 s.twin.copyNext d)).sum
    let out := ((s.twin.reqs ++ s.twin.queued).filter fun r => match r.origin with
      | .copy _ => true
      | _ => false).length
    (four.map left).sum + out + s.twin.recopy.length

/-- A page by its die and position. -/
def pageAt (die k : Nat) : Nat := pageKey (placeOf die (k % 2) (k / 2 % 4)) (k / 8)
def copyLocator (die k : Nat) : Nat := die + k % 8 % 2 * 4 + k % 8 / 2 * 8 + k / 8 * 32

/-- Whether a page holds directory entries, and the first slot of its region's directory in it. -/
def dirSlot (s : State) (pk : Nat) : Option Nat :=
  let lo := (s.plan.fastFlat + s.plan.fastPinned) * 4096
  if laidOut s && placeOfPage pk / 4 % 2 == 1 && decide (lo ≤ pageNo pk)
      && decide (pageNo pk < lo + s.plan.fastDirectory * 4096) then some ((pageNo pk - lo) * 124)
  else none

/-- The die and region of a page. -/
def pageRegion (pk : Nat) : Nat := placeOfPage pk / 8 * 4 + placeOfPage pk % 4

/-- Bytes 0 to 59 of the 62 payload sectors of a page, with current values, and whether one is poisoned. -/
def pageImage (pk : Nat) (s : State) : (Bytes × Bool) × State :=
  let r := readRange (pageAddr pk) pageBytes s
  let pt := pageOfSec (secOfAddr (pinnedTwin r.2 (pageAddr pk)))
  let ms := (upto 62).map fun i => curMark r.2 (secKey pt i)
  ((((pieces sectorBytes r.1.1).zip ms).flatMap (fun x => x.1 ++ natLe 4 x.2), ms.any markPoison), r.2)

/-- Sends one page. -/
def sendPage (die k : Nat) (s : State) : State :=
  let r := pageImage (pageAt die k) s
  gIssue die (k / 2 % 4) 4 1 (curStep s) (natLe 8 (copyLocator die k) ++ r.1.1) r.1.2 (.copy (copyLocator die k)) r.2

/-- Whether a page of a die's own walk (not of the recopy set) is on its way. -/
def copyBusy (s : State) (die : Nat) : Bool :=
  gBusy s fun o => match o with
    | .copy l => l % 4 == die && decide (sget 0 s.twin.copyNext die ≤ l / 4 + 1)
    | _ => false

/-- Sends the next page of a die, or notes that its last one has been acknowledged. -/
def copyOn (die : Nat) (s : State) : State :=
  if copyBusy s die || s.twin.copyDone.contains die then s
  else
    match nextCopy s die (sget 0 s.twin.copyNext die) with
    | some k => sendPage die k (setTwin { s.twin with copyNext := sput 0 s.twin.copyNext die (k + 1) } s)
    | none => setTwin { s.twin with copyDone := s.twin.copyDone ++ [die] } s

def noCopy (s : State) : State :=
  let keep (r : GReq) : Bool := match r.origin with
    | .copy _ => false
    | _ => true
  setTwin { s.twin with
    copyNext := [], copyGot := [], copyDone := [], recopy := []
    reqs := s.twin.reqs.filter keep, queued := s.twin.queued.filter keep } s

def setTwinState (t : TwinState) (s : State) : State := setTwin { s.twin with state := t } s

/-- Starts a copy from its first page. -/
def startCopy (s : State) : State := forEach four copyOn (setTwinState .copySource (noCopy s))

/-- The heartbeat of every UP Guyline port (R436). -/
def sendHeartbeats (s : State) : State :=
  forEach four (fun d s =>
    if (port s (8 + d)).state == .up then
      emit (.heartbeat (8 + d) (myNumber s) (modStateCode s.life.modState) (twinStateCode s.twin.state)
        (BitVec.ofNat 64 (axis s)) (runId s)) s
    else s) s

/-- The source has copied everything. -/
def copyComplete (s : State) : State :=
  sendHeartbeats (count E.COPIES_COMPLETED (setTwinState .paired (noCopy s)))

/-- Whether nothing of a copy is left to send or to be acknowledged. -/
def copyFinished (s : State) : Bool :=
  s.twin.state == .copySource && four.all s.twin.copyDone.contains && s.twin.recopy.isEmpty
    && !(gBusy s fun o => match o with
      | .copy _ => true
      | _ => false)

/-- R437, R455: the source becomes PAIRED: outside a run with the last acknowledgement, in a run at a COMMIT point at
which the marks of its step have been answered. -/
def tryPair (s : State) : State :=
  if copyFinished s && (s.loadState == .idle || (curStation s == 5 && marksAnswered s (curStep s))) then copyComplete s else s

/-- R455: between COMMIT and the next OPEN the recopy set is sent. -/
def sendRecopy (s : State) : State :=
  if s.twin.state != .copySource then s
  else forEach s.twin.recopy (fun pk s => sendPage (copyDie pk) (copyPos pk) s) (setTwin { s.twin with recopy := [] } s)

/-- A page has been acknowledged; one that failed starts the copy anew. -/
def copyAnswered (locator status : Nat) (s : State) : State :=
  if s.twin.state != .copySource then s
  else if status = 0 then tryPair (copyOn (locator % 4) s)
  else startCopy (raise 0x0907 locator s)

/-- R456: a Guyline path of the copy has gone DOWN. -/
def copyPathDown (s : State) : State :=
  match s.twin.state with
  | .copySource => startCopy (raise 0x0907 0 s)
  | .copyTarget => setTwin { s.twin with copyGot := [] } s
  | _ => s

/-- The pool of a region once a directory entry has come with a copied page: its next free record lies past the entry's. -/
def adoptEntry (g : Nat) (e : DirEntry) (s : State) : State :=
  match rowDecl s e.set e.table with
  | none => s
  | some td =>
    let mode := td.1.mode
    let x := e.record - slowAddr (g % 4) 0 - s.plan.slowTable * granuleBytes
    let n := recordIndex mode x + localSlices s td.2
    let old := poolNextFor s g mode
    { s with place := { s.place with
        poolNext := if old < n then sput 0 s.place.poolNext g (n * 2 + b2n (isCompat mode)) else s.place.poolNext } }

/-- The records that the directory's overlays hold. -/
def poolHeld (s : State) : Nat :=
  (sixteen.flatMap fun g => (dirEntries s g).map fun e => match rowDecl s e.2.set e.2.table with
    | some td => localSlices s td.2
    | none => 0).sum

/-- The pool figures follow a copied directory page. -/
def adoptPage (pk : Nat) (s : State) : State :=
  match dirSlot s pk with
  | none => s
  | some lo =>
    let es := (dirEntries s (pageRegion pk)).filter fun e => decide (lo ≤ e.1) && decide (e.1 < lo + 124)
    let s := forEach es (fun e => adoptEntry (pageRegion pk) e.2) s
    { s with place := { s.place with poolUsed := poolHeld s } }

/-- Writes a copied page: payload and metadata of its 62 sectors, with new light codes and parity. -/
def writeCopied (pk : Nat) (b : Bytes) (s : State) : State :=
  let s := forEach ((pieces 60 b).zip (upto 62)) (fun x s =>
    let sk := secKey pk x.2
    let was := markPoison (secMark s sk)
    let w := leNat x.1
    let s := whenS (was && !(markPoison (w / 2 ^ 448))) (count E.POISON_CLEARED) s
    setDamage sk 0 (putWord sk w s)) s
  let s := { s with place := { s.place with cache := s.place.cache.filter fun c => !(meets c.home (cachedLen c) (pageAddr pk) pageBytes) } }
  adoptPage pk (freshParity pk s)

/-- COPY_PAGE at the target. -/
def copyPage (p : GPacket) (s : State) : State :=
  gServe p (fun s =>
    let l := field p.data 0 8
    let die := l % 4
    let k := l / 32 * 8 + l / 8 % 4 * 2 + l / 4 % 2
    if s.twin.state != .copyTarget then gAnswer p 0x0811 [] false s
    else
      let s := writeCopied (pageAt die k) (p.data.drop 8) s
      let got := max (sget 0 s.twin.copyGot die) (k + 1)
      let s := gAnswer p 0 [] false (setTwin { s.twin with copyGot := sput 0 s.twin.copyGot die got } s)
      if s.loadState == .idle && four.all fun d => (nextCopy s d (sget 0 s.twin.copyGot d)).isNone then
        setTwinState .paired (noCopy s)
      else s) s

/-! ## Pair formation (R437) -/

def guylineUp (s : State) : Bool := four.any fun d => (port s (8 + d)).state == .up

/-- Forms a pair, or begins a replacement's copy, when the partner's last heartbeat allows it. -/
def formPair (s : State) : State :=
  match s.twin.beat with
  | none => s
  | some b =>
    if !(gOpen s) || !(guylineUp s) then s
    else if s.twin.state == .training then
      if isState s .ready && s.loadState == .idle && b.modState == 1 && b.twinState != 5
          && (b.twinState == 1 || b.twinState == (if mySide s = 0 then 3 else 2)) then
        (if mySide s = 0 then startCopy s else setTwinState .copyTarget (noCopy s))
      else if s.loadState == .loaded && s.plan.paired && b.twinState == 5 && b.runId == runId s then
        setTwin { s.twin with state := .copyTarget, replacement := true } (noCopy s)
      else s
    else if s.twin.state == .failedOver && s.loadState == .loaded && b.runId == runId s
        && (b.twinState == 1 || b.twinState == 3) && (b.modState == 2 || b.modState == 3) then startCopy s
    else if s.twin.state == .copyTarget && s.loadState == .loaded && b.twinState == 4 && b.runId == runId s then
      setTwinState .paired (noCopy s)
    else s

/-- HEARTBEAT_RECEIVE: a beat from the partner. -/
def heartbeat (b : Beat) (s : State) : State :=
  if !(gOpen s) then s else formPair (setTwin { s.twin with beat := some b } s)

/-! ## Twin repair (R279) -/

def setRepairs (l : List Repair) (s : State) : State := setMem { s.mem with repairs := l } s
def repairKey (r : Repair) : TargetKey := ⟨r.kind, r.set, r.table, r.row, r.variant, r.slice⟩
def repairIs (k : TargetKey) (r : Repair) : Bool := repairKey r == k

/-- Asks the partner for a record. -/
def askRepair (r : Repair) (s : State) : State :=
  let k := repairKey r
  let s := keyRead k s
  match keyHome s k with
  | none => s
  | some h =>
    let g := regionOfAddr s h.1
    gIssue (g / 4) (g % 4) 8 3 (curStep s) (keyBytes k) false .repair s

/-- A repair has failed once more; the third failure ends it. -/
def repairFailed (k : TargetKey) (s : State) : State :=
  match s.mem.repairs.find? (repairIs k) with
  | none => s
  | some r =>
    if r.failures + 1 < 3 then
      setRepairs (s.mem.repairs.map fun x => if repairIs k x then { x with failures := x.failures + 1 } else x) s
    else
      let coord := match keyHome s k with
        | some h => let g := regionOfAddr s h.1; unitCoord s (g / 4) (g % 4) 2 9
        | none => endpointCoord s
      raiseAt 0x0705 coord k.row (count E.TWIN_REPAIR_FAILS (setRepairs (s.mem.repairs.filter fun x => !(repairIs k x)) s))

def repairAsked (s : State) (k : TargetKey) : Bool :=
  (s.twin.reqs ++ s.twin.queued).any fun r => r.origin == .repair && keyOf r.packet.data == k

/-- At (N, COMMIT): every repair not yet asked for is requested, or fails while the partner is absent. -/
def openRepairs (s : State) : State :=
  forEach s.mem.repairs (fun r s =>
    if repairAsked s (repairKey r) then s
    else if isPaired s then askRepair r s
    else repairFailed (repairKey r) s) s

/-- At (N + 1, OPEN): a repair that has not been written has failed in this window. -/
def closeRepairs (s : State) : State :=
  let late := s.mem.repairs.filter fun r => repairAsked s (repairKey r)
  let s := setTwin { s.twin with
    reqs := s.twin.reqs.filter fun r => r.origin != .repair
    queued := s.twin.queued.filter fun r => r.origin != .repair } s
  forEach late (fun r s => repairFailed (repairKey r) s) s

/-- Sectors poisoned since the last look become repairs; within a window they are asked for at once. -/
def takeFresh (s : State) : State :=
  if s.mem.fresh.isEmpty then s
  else
    let ks := s.mem.fresh
    let s := setMem { s.mem with fresh := [] } s
    if !(isPaired s) || s.loadState != .loaded || setting s E.TWIN_REPAIR_ENABLE != 1 then s
    else
      forEach ((ks.filterMap fun sk => namedAt s (secAddr sk)).eraseDups) (fun k s =>
        if s.mem.repairs.any (repairIs k) then s
        else
          let r : Repair := ⟨k.kind, k.set, k.table, k.row, k.variant, k.slice, 0⟩
          let s := setRepairs (s.mem.repairs ++ [r]) s
          if curStation s == 5 then askRepair r s else s) s

/-- REPAIR_REQUEST: the partner's record, as of its last COMMIT. -/
def repairRequest (p : GPacket) (s : State) : State :=
  gServe p (fun s =>
    let s := whenS (s.loadState == .loaded) (keyRead (keyOf p.data)) s
    match if s.loadState == .loaded then keyHome s (keyOf p.data) else none with
    | none => gAnswer p 0x0702 [] false s
    | some h =>
      let r := readRecord h.1 0 (recSectors h.2) s
      if r.1.2.any markPoison then gAnswer p 0x0702 [] false r.2
      else if curStation r.2 != 5 && r.1.2.any (fun m => markStamp m == curStep r.2 % 16) then gAnswer p 0x0811 [] false r.2
      else gAnswer p 0 (imageOf r.1.1 r.1.2) false r.2) s

/-- The partner's answer to a repair: the record is written whole in the window, or the repair has failed. -/
def repairAnswered (k : TargetKey) (status : Nat) (img : Bytes) (s : State) : State :=
  let s := keyRead k s
  match s.mem.repairs.find? (repairIs k), keyHome s k with
  | some _, some h =>
    if status != 0 || curStation s != 5 || img.length != imageLen h.2 then repairFailed k s
    else
      let s := storeRecord h.1 (imagePayload img) (imageMarks img) (beforeRecordWrite h.1 h.2 (k.kind == 1) s)
      count E.TWIN_REPAIRS (setRepairs (s.mem.repairs.filter fun x => !(repairIs k x)) s)
  | some _, none => repairFailed k s
  | none, _ => s

/-! ## Ends of Guyline requests -/

/-- What the end of a request brings about. -/
def gEnded (e : GEnded) (s : State) : State :=
  match e with
  | .nothing => s
  | .request r status data _ =>
    match r.origin with
    | .mirror => s
    | .operands => s
    | .entries => s
    | .mark step =>
      if status = 0 && s.twin.markStep == some step then
        tryPair (setTwin { s.twin with marks := if s.twin.marks.contains r.path then s.twin.marks else r.path :: s.twin.marks } s)
      else s
    | .copy l => copyAnswered l status s
    | .rowChange q i => rowChangeAnswered q i status s
    | .repair => repairAnswered (keyOf r.packet.data) status data s

/-- RESPONSE_RECEIVE over the Guyline, and TWIN_REPAIR_WRITE. -/
def guylineResponse (p : GPacket) (s : State) : State :=
  let r := gResponse p s
  formPair (gEnded r.1 r.2)

/-- FABRIC_REQUEST_TIMEOUT of a Guyline request. -/
def guylineTimeout (die tag : Nat) (s : State) : State :=
  let r := gTimeout die tag s
  gEnded r.1 r.2

/-- A Guyline port has gone DOWN (R444, R456). -/
def guylineDown (s : State) : State := gResend (copyPathDown s)

/-! ## Losing a member (R450, R451) -/

/-- A home module sends anew, to the stand-in, the runs of steps whose outputs it still awaits. -/
def resendRuns (k : Nat) (s : State) : State :=
  forEach (s.step.batches.filter fun b => decide (curStep s ≤ b.step) && !(outputsDone s b)) (fun b s => sendRun b [k] k s) s

/-- A LEDGER_UP that went to a lost member, and whose LEDGER_DOWN is awaited, goes to the stand-in. -/
def resendLedger (k : Nat) (s : State) : State :=
  if hasNorm s (curStep s) then s
  else ledgerUp { s with step := { s.step with ledgersSent := s.step.ledgersSent.filter fun o => o == 0 || ledgerParent o != k } }

/-- A STEP_REPORT that went to a lost member, and whose verdict is awaited. -/
def resendReport (k : Nat) (s : State) : State :=
  if pitchFirst s == k && curStation s == 5 && s.holds.verdictFor != some (curStep s) then sendReports (curStep s) s else s

/-- The stand-in forwards, in the lost member's place, the shards that are in the replica. -/
def forwardCasts (k : Nat) (s : State) : State :=
  forEach s.step.shardsIn (fun e s => match shardRef s e.1 with
    | some x => castFrom (curStep s) x (shardLead s e.1) k e.2.1 e.2.2 s
    | none => s) s

/-- Marks a member lost for the rest of the run. -/
def markLost (k : Nat) (s : State) : State :=
  if s.loadState != .loaded || isLost s k || k == myOrder s || decide (memberCount s ≤ k) then s
  else
    let s := count E.MEMBERS_LOST (setFabric { s.fabric with lost := s.fabric.lost ++ [k] } s)
    if !(s.plan.paired) then s
    else
      let s := resendReport k (resendLedger k (resendRuns k s))
      let s := if k ^^^ 1 == myOrder s then tryVerdict (curStep s) (ledgerUp (forwardCasts k s)) else s
      progressShards (curStep s) s

/-- A request to a module has failed, or its answer was TWIN_NOT_SERVING (R450). -/
def noteLoss (m status : Nat) (s : State) : State :=
  if failingStatus status || status == 0x0810 || status == 0x0905 then
    match orderOf s m with
    | some k => markLost k s
    | none => s
  else s

/-- Reads the liveness word of a module (R446); PROBES counts the reads (R466). -/
def readLiveness (m : Nat) (origin : Origin) (s : State) : State :=
  issue 0 (memGlobal m 0 controlBase) 1 1 (natLe 8 8) false origin (count E.PROBES s)

/-- TWIN_PROBE_EXPIRY: a member that owes a message is probed; a stand-in that awaits a child no longer waits for it. -/
def probeExpiry (k : Nat) (s : State) : State :=
  if s.loadState != .loaded || k == myOrder s || decide (memberCount s ≤ k) then s
  else
    let s := if (myOrders s).any fun o => o != myOrder s && ((ledgerChildren s o).contains k
        || (o == pitchFirst s && (pitchMembers s).contains k)) then
        tryVerdict (curStep s) (ledgerUp { s with step := { s.step with waived := if s.step.waived.contains k then s.step.waived else k :: s.step.waived } })
      else s
    if s.plan.paired && isLost s k then s
    else readLiveness (memberModule s k) (.probe k) s

/-- Whether a liveness word shows a member of this run at work. -/
def liveIn (s : State) (word : Nat) : Bool := (bits word 0 8 == 2 || bits word 0 8 == 3) && bits word 32 32 == runId s

/-- A probe has been answered, or has failed. -/
def probeAnswered (k status : Nat) (data : Bytes) (s : State) : State :=
  if status != 0 || !(liveIn s (leNat (data.take 8))) then markLost k s else s

/-! ## Failover (R447 to R449, R452) -/

/-- What the lost twin led in step N, and this module has not replayed: target slices it knows of, and dense groups. -/
def lostTargets (s : State) (step : Nat) : Nat :=
  let mine (row : Nat) : Bool := row % 2 == mySide s
  let ks := (((ownOccs s step ++ s.step.occs.filter fun o => o.step == step && o.partner).filter fun o => !(mine o.row)).map occKey).eraseDups
  let slices := ks.flatMap fun k => match rowDecl s k.1 k.2.1 with
    | some td => (upto (localSlices s td.2)).map fun j => ({ kind := 0, set := k.1, table := k.2.1, row := k.2.2.1, variant := k.2.2.2, slice := j } : TargetKey)
    | none => []
  let groups := ((ownedAll s).filter fun e => !(mine e.1)).map fun e => ({ kind := 1, set := 0, table := e.1, row := e.2, variant := 0, slice := 0 } : TargetKey)
  ((slices ++ groups).filter fun k => !(s.twin.replayed.contains k)).length

/-- R452, item 4: the shards that the lost twin led go out from here, as it now holds them. -/
def castLost (step : Nat) (s : State) : State :=
  let xs := (allShards s).filter fun x => ownsShard s x.shard && x.shard % 2 != mySide s
  forEach xs (fun x s => castShard step x (shardLead s x.shard) s) s

/-- R448, R452: this module carries the position alone from here on. -/
def failOver (s : State) : State :=
  let step := curStep s
  let partner := myOrder s ^^^ 1
  let before := curStation s != 5
  let s := rowOpsAlone (noCopy s)
  let s := setTwin { s.twin with state := .failedOver, reading := false, failStep := some step, reqs := [], queued := [] } s
  let s := raise 0x0904 (forced s E.TWIN_PEER) (count E.FAILOVERS s)
  let s := if before then castLost step (dropPartner step (countN E.FAILOVER_DROPS (lostTargets s step) s)) else s
  markLost partner s

/-- Outside a run a lost partner leaves this module TRAINING; a copy under way starts anew with the next pair. -/
def backToTraining (s : State) : State :=
  match s.twin.state with
  | .copySource => setTwinState .training (noCopy (raise 0x0907 0 s))
  | .copyTarget => setTwinState .training (noCopy (raise 0x0907 0 s))
  | .paired => setTwinState .training s
  | _ => s

def inTwinRun (s : State) : Bool := (s.loadState == .loaded || s.loadState == .unloading) && s.plan.paired

/-- TWIN_BEAT_LOSS: the partner's liveness word is read. -/
def beatLoss (s : State) : State :=
  if !(gOpen s) || s.twin.state == .unpaired || s.twin.state == .severed then s
  else
    let s := setTwin { s.twin with beat := none } s
    let s := readLiveness (forced s E.TWIN_PEER) .liveness s
    if inTwinRun s then s else backToTraining s

/-- HEARTBEAT_SEND_EXPIRY: heartbeats go out, and a liveness word still watched is read again. -/
def heartbeatTick (s : State) : State :=
  let s := sendHeartbeats s
  if s.twin.reading then readLiveness (forced s E.TWIN_PEER) .liveness s else s

/-- Side 1 leaves service when both twins live on without a Guyline. -/
def sever (s : State) : State := leaveService 0x0903 (endpointCoord s) (setTwinState .severed (setTwin { s.twin with reading := false } s))

/-- LIVENESS_DECISION: what the liveness read says of the partner. -/
def livenessDecision (ok : Bool) (word : Nat) (s : State) : State :=
  let live := ok && liveIn s word
  match s.twin.state with
  | .unpaired => s
  | .severed => s
  | .training => s
  | .failedOver => if inTwinRun s && live && bits word 8 8 == 5 && mySide s == 1 then sever s else s
  | _ =>
    if !(inTwinRun s) then backToTraining s
    else if live then (if mySide s = 1 then sever s else setTwin { s.twin with reading := true } s)
    else if s.twin.state == .copyTarget then backToTraining (setTwin { s.twin with reading := false } s)
    else failOver s

end Sys2Proof.Machine
end

