-- ==== Sys2Proof/Machine/Dict.lean ====
section
/-!
DEFINITION. The object dictionary (R475 to R478): what an entry reads as, the ordered checks of a write, and what a
write of a setting does, the settings and selectors of every chapter among them.
-/
namespace Sys2Proof.Machine

/-! ## Paths and selectors (R478) -/

/-- The number of a path's selector copies. -/
def pathNo : Path → Nat
  | .mailbox => 0
  | .i3c => 1
  | .uart => 2
  | .odp source _ => 3 + source

def selKey (p : Path) (k : Nat) : Nat := pathNo p * 2 ^ 24 + k

/-- A path's selection. -/
def sel (s : State) (p : Path) (k : Nat) : Nat := sget (dfltOf k) s.lantern.selectors (selKey p k)

def setLantern (l : Lantern) (s : State) : State := { s with lantern := l }

def setSel (p : Path) (k v : Nat) (s : State) : State :=
  setLantern { s.lantern with selectors := sput (dfltOf k) s.lantern.selectors (selKey p k) v } s

/-- An ODP source is used; a seventeenth takes the copies of the one least recently used, which return to their defaults. -/
def touchSource (source : Nat) (s : State) : State :=
  let l := source :: s.lantern.odpSources.filter fun x => x != source
  let gone := l.drop 16
  let no (k : Nat) : Bool := gone.any fun x => k / 2 ^ 24 == 3 + x
  setLantern { s.lantern with
    odpSources := l.take 16
    selectors := s.lantern.selectors.filter fun e => !(no e.1)
    odpKept := s.lantern.odpKept.filter fun e => !(gone.contains e.source) } s

def touchPath (p : Path) (s : State) : State :=
  match p with
  | .odp source _ => touchSource source s
  | _ => s

/-! ## Values that entries show -/

/-- The first value listed for a key. -/
def listed (k : Nat) (l : List (Nat × Nat)) : Option Nat := (l.find? fun e => e.1 == k).map Prod.snd

def ridgeStateCode : RidgeState → Nat
  | .waiting => 0
  | .following => 1
  | .standby => 2
  | .keeper => 3
  | .noKeeper => 4
  | .deposed => 5
  | .configInvalid => 6

def portStateCode : PortState → Nat
  | .disabled => 0
  | .training => 1
  | .up => 2
  | .down => 3
  | .refused => 4

def loadStateCode : LoadState → Nat
  | .idle => 0
  | .loading => 1
  | .loaded => 2
  | .unloading => 3

def pendingCode : SetPending → Nat
  | .none => 0
  | .commit _ => 1
  | .revert => 2
  | .awaiting => 3

def fwStateCode : FwState → Nat
  | .idle => 0
  | .receiving => 1
  | .verified => 2
  | .failed => 3

/-- R43: run membership; zero outside a run. -/
def readsMember (s : State) : List (Nat × Nat) := [
  (E.RUN_ID, runId s), (E.PITCH_SIZE, s.plan.p), (E.PITCH_COUNT, s.plan.n), (E.PITCH_INDEX, myPitch s),
  (E.PITCH_POSITION, myPosition s), (E.RUN_MEMBER_COUNT, memberCount s), (E.GRAIN_SEED, s.plan.seed.toNat)]

/-- R104: the layout of the run. -/
def readsLayout (s : State) : List (Nat × Nat) := [
  (E.FAST_FLAT, s.plan.fastFlat), (E.FAST_PINNED, s.plan.fastPinned), (E.FAST_DIRECTORY, s.plan.fastDirectory),
  (E.FAST_CACHE, cacheGranules s), (E.SLOW_TABLE, s.plan.slowTable), (E.SLOW_OVERLAY, s.plan.slowOverlay),
  (E.SLOW_FLAT, 20480 - s.plan.slowTable - s.plan.slowOverlay)]

/-- R104: the selected table; zero where the selection names none. -/
def readsTable (s : State) (p : Path) : List (Nat × Nat) :=
  let x := sel s p E.TABLE_SELECT
  match rowDecl s (x / 65536) (x % 65536) with
  | some (_, d) => [
      (E.SEL_WIDTH, d.width), (E.SEL_ROWS, d.rows), (E.SEL_FIRST_SLICE, firstSliceAt s d (myPosition s)),
      (E.SEL_LOCAL_SLICES, localSlices s d), (E.SEL_BAND_START, bandStart s d (myPitch s)),
      (E.SEL_BAND_ROWS, bandRows s d (myPitch s)), (E.SEL_BASE_GRANULE, d.baseGranule), (E.SEL_GRANULES, d.granules),
      (E.SEL_PLACEMENT, b2n d.pinned)]
  | none => []

/-- R104, R128, R162: overlays, cache, dense and staging figures of the run. -/
def readsRun (s : State) : List (Nat × Nat) := [
  (E.DIR_ENTRIES_USED, (sixteen.map (dirUsed s)).foldl max 0), (E.POOL_RECORDS_USED, s.place.poolUsed),
  (E.CACHE_RECORDS_RESIDENT, s.place.cache.length), (E.DENSE_SHARD_GROUPS, s.plan.shardGroups),
  (E.GRAD_STAGING_BYTES, stagingBytes s), (E.COALESCE_SPILL_BYTES, s.plan.spillKib * 1024),
  (E.RUCKSACK_GRANULES, s.plan.rucksack), (E.WATCH_SLOTS, s.watch.slots.length), (E.WATCH_RING_ADDR, s.plan.ringAddr),
  (E.WATCH_RING_RECORDS, s.plan.ringRecords), (E.WATCH_RING_HEAD, s.watch.head), (E.WATCH_RING_TAIL, s.watch.tail)]

/-- R162, R187: the selected table set. -/
def readsSet (s : State) (p : Path) : List (Nat × Nat) :=
  (match tableSet s (sel s p E.TSET_SELECT) with
   | some t => [(E.TSET_T, t.t), (E.TSET_T_START, t.tStart)]
   | none => []) ++
  (match tableSet s (sel s p E.PARAM_SET_SELECT) with
   | some t => (E.PARAM_STEP, t.bankStep) :: ((upto 16).map fun i => (E.PARAM + i, (nthD 0 t.bank i).toNat)) ++
       (upto 9).map fun i => (E.DERIVED + i, (nthD 0 t.derived i).toNat)
   | none => [])

/-- R187: the selected program slot. -/
def readsProgram (s : State) (p : Path) : List (Nat × Nat) :=
  match s.programs.find? fun g => g.slot == sel s p E.PROGRAM_SELECT with
  | some g => [(E.SEL_LENGTH, g.code.length), (E.SEL_MODES, g.modes), (E.SEL_CLOCKS, clockLength g.code), (E.SEL_TAG, g.tag)]
  | none => []

/-- R232: the selected region's Rucksack. -/
def readsRucksack (s : State) (p : Path) : List (Nat × Nat) :=
  let g := sel s p E.RUCKSACK_SELECT
  let fs := s.rowEng.frames.filter fun f => f.region == g
  [(E.RUCKSACK_DEPTH, fs.length), (E.RUCKSACK_TOP_PAGE, (fs.map fun f => f.pages).sum),
   (E.RUCKSACK_HIGH_WATER, sget 0 s.rowEng.highWater g)]

/-- R255: the selected watch slot. -/
def readsWatch (s : State) (p : Path) : List (Nat × Nat) :=
  match s.watch.slots[sel s p E.WATCH_SELECT]? with
  | some x => [
      (E.SEL_KIND, x.target.kind),
      (E.SEL_TARGET, x.target.target + x.target.set * 65536 + b2n x.target.isTable * 2 ^ 24), (E.SEL_ZERO_STREAK, x.streak),
      (E.SEL_HISTORY_STEPS, x.added), (E.SEL_NEXT_TILE_EXP, if x.resetAsked then 0 else (delayedExp s x).getD 0), (E.SEL_WINDOW_AMAX, (windowMax x).toNat),
      (E.SEL_LAST_RECORD_STEP, x.lastRecord)]
  | none => []

/-- R285: the selected region, channel and die. -/
def readsMemory (s : State) (p : Path) : List (Nat × Nat) :=
  let g := sel s p E.REGION_SELECT
  let c := sel s p E.CHANNEL_SELECT
  let d := sel s p E.CHECK_DIE_SELECT
  [(E.SEL_SLOW_LAP_S, (burnOf s g 0).lapS), (E.SEL_FAST_LAP_S, (burnOf s g 1).lapS),
   (E.SEL_SLOW_LAP_PAGES, (burnOf s g 0).page), (E.SEL_FAST_LAP_PAGES, (burnOf s g 1).page),
   (E.SEL_SLOW_LAPS, (burnOf s g 0).laps), (E.SEL_FAST_LAPS, (burnOf s g 1).laps),
   (E.SEL_PARITY_SUSPECT, b2n (sget 0 s.mem.suspect g != 0)), (E.SEL_CHANNEL_CORRECTED, sget 0 s.mem.chanCorrected c),
   (E.SEL_CHANNEL_POISONED, sget 0 s.mem.chanPoisoned c), (E.SEL_CHECK_QUEUED, (scansAt s d).length),
   (E.SEL_CHECK_LAST_RESULT, sget 0 s.mem.lastResult d), (E.SEL_CHECK_LAST_STATUS, sget 0 s.mem.lastStatus d)]

/-- R320, R341, R466: the selected port, class and Guyline port. -/
def readsFabric (s : State) (p : Path) : List (Nat × Nat) :=
  let f := port s (sel s p E.PORT_SELECT)
  let g := port s (8 + sel s p E.GPORT_SELECT)
  let c := sel s p E.CLASS_SELECT
  [(E.COORD_TABLE_CHECK, coordCheckOf [reg s E.TORUS_DIM_X, reg s E.TORUS_DIM_Y, reg s E.TORUS_DIM_Z] s.dict.coordTable),
   (E.MY_COORD, sget 0 s.dict.coordTable (myNumber s)), (E.SEL_PORT_STATE, portStateCode f.state),
   (E.SEL_PORT_LEVEL, if f.state == .up then f.level else 0), (E.SEL_PEER_MODULE, f.peerModule), (E.SEL_PEER_PORT, f.peerPort),
   (E.SEL_REFUSE_CODE, f.refuse), (E.SEL_FEC_CORRECTED, f.fecCorrected), (E.SEL_FEC_UNCORRECTABLE, f.fecUncorrectable),
   (E.SEL_CRC_ERRORS, f.crcErrors), (E.SEL_REPLAYS, f.replayCount), (E.SEL_RETRAINS, f.retrains),
   (E.SEL_FLITS_SENT, sget 0 s.fabric.flitsSent c), (E.SEL_FLITS_RECEIVED, sget 0 s.fabric.flitsReceived c),
   (E.SEL_CREDIT_STALLS, sget 0 s.fabric.creditStalls c), (E.SEL_RETRY_LATER_SENT, sget 0 s.fabric.laterSent c),
   (E.SEL_RETRY_LATER_RECEIVED, sget 0 s.fabric.laterReceived c), (E.SEL_GPORT_STATE, portStateCode g.state),
   (E.SEL_GPORT_REFUSE_CODE, g.refuse)]

/-- R370: the timekeeper's entries; zero on a module that is neither timekeeper nor standby.  The time since the current
point is a free value. -/
def readsKeeper (s : State) : List (Nat × Nat) :=
  let k := s.ridge.keeper
  [(E.RIDGE_PARTICIPANTS, k.participants.length),
   (E.RIDGE_READY_COUNT, (k.participants.filter fun p => k.reports.contains (p.moduleNumber, nextPoint k.point)).length),
   (E.RIDGE_HELD_COUNT, (k.participants.filter fun p => k.reports.any fun r => r.1 == p.moduleNumber && r.2 % 8 == 7).length),
   (E.RIDGE_PENDING_RUNS, k.runs.length), (E.RIDGE_LATE_MODULE, k.lateModule), (E.RIDGE_LATE_COUNT, k.lateCount),
   (E.RIDGE_POINT_AGE_MS, (Config.freeWord s.free).toNat % 2 ^ 32)]

/-- R362, R370: the axis and wall time. -/
def readsAxis (s : State) : List (Nat × Nat) := [
  (E.RIDGE_SOURCE, s.ridge.source), (E.RIDGE_STATE, ridgeStateCode s.ridge.state), (E.RIDGE_POINT, pointNow s),
  (E.RIDGE_AXIS_VALUE, axis s), (E.PTP_LOCKED, b2n s.lantern.ptpLocked),
  (E.PTP_OFFSET_NS, (s.lantern.ptpOffset % (2 : Int) ^ 64).toNat), (E.WALL_TIME_NS, s.lantern.wallNs)]

/-- R394: the loaded plan. -/
def readsPlan (s : State) : List (Nat × Nat) := [
  (E.PLAN_ADDR_LOADED, s.plan.planAddr), (E.PLAN_CHECK_LOADED, s.plan.planCheck), (E.START_STEP, s.plan.s0),
  (E.RUN_PAIRED, b2n s.plan.paired), (E.RUN_FEED, b2n s.plan.feed), (E.PEGS_USED, s.plan.pegsUsed),
  (E.QUEUE_MASK, s.plan.queueMask), (E.TENSOR_COUNT, s.tensors.length), (E.MEMBER_ORDER, s.plan.order),
  (E.ROW_RECORDS_PENDING, recordsPending s)]

/-- R32, R43, R394, R430, R466: states that are always shown. -/
def readsState (s : State) : List (Nat × Nat) := [
  (E.MODULE_STATE, modStateCode s.life.modState), (E.FAULT_COORD, s.life.fault.coord), (E.FAULT_CODE, s.life.fault.code),
  (E.FAULT_POINT, s.life.fault.step % 2 ^ 64 + s.life.fault.station * 2 ^ 64), (E.BRIDGE_ERRORS, s.life.bridgeErrors),
  (E.LOAD_STATE, loadStateCode s.loadState), (E.PCIE_LINK_SPEED, s.host.speed), (E.PCIE_LINK_WIDTH, s.host.width),
  (E.HOST_EPOCH, s.host.epoch), (E.TWIN_STATE, twinStateCode s.twin.state), (E.COPY_PAGES_LEFT, copyPagesLeft s),
  (E.GEN_OPEN, if s.gen.isOpen then s.gen.number else 0), (E.GEN_OPEN_STEP, if s.gen.isOpen then s.gen.step else 0)]

/-! ### Capabilities (R495, R496) -/

/-- The capability ids that stand in the list. -/
def capsOn (s : State) : List Nat := ((upto 9).map fun i => i + 1).filter (capOn s)

/-- BASE_INDEX of a capability. -/
def capBase (id : Nat) : Nat := nthD 0 [0, 0, 0, 0x3200, 0x3003, 0x6000, 0x3300, 0x3403, 0x2301, 0x5001] id

/-- NEXT of a capability's entry: the entry of the next id in the list; a withdrawn entry keeps the one it had. -/
def capNext (s : State) (id : Nat) : Nat :=
  let later := (if capOn s id then capsOn s else (upto 9).map fun i => i + 1).filter fun j => decide (id < j)
  match later with
  | j :: _ => j + 1
  | [] => 0

def capEntry (s : State) (id : Nat) : Nat := id + 2 ^ 8 + capNext s id * 2 ^ 16 + capBase id * 2 ^ 24

def readsCaps (s : State) : List (Nat × Nat) :=
  (E.CAP_HEAD, match capsOn s with
    | id :: _ => id + 1
    | [] => 0) :: (upto 9).map fun i => (E.CAP_ENTRY + i, capEntry s (i + 1) + freeField s.free i 40 24)

/-! ### Setting sets (R488) -/

/-- A slot's image with CHECK as given. -/
def slotBytesWith (x : SetSlot) (check : Nat) : Bytes :=
  let body := x.entries.flatMap fun e =>
    natLe 2 (e.1 / 256) ++ natLe 1 (e.1 % 256) ++ [0] ++ natLe 2 (e.2.length % 65536) ++ [0, 0] ++ e.2
      ++ zeros ((4 - e.2.length % 4) % 4)
  natLe 4 x.number ++ natLe 2 x.entries.length ++ [0, 0] ++ natLe 4 (16 + body.length) ++ natLe 4 check ++ body

def slotCheck (x : SetSlot) : Nat := crc32c (slotBytesWith x 0)
def slotImage (x : SetSlot) : Bytes := slotBytesWith x (slotCheck x)
def slotEmpty (x : SetSlot) : Bool := x.entries.isEmpty

def readsSets (s : State) : List (Nat × Nat) :=
  let t := s.lantern.sets
  [(E.SET_STAGED_NUMBER, t.staged.number), (E.SET_STAGED_ENTRIES, t.staged.entries.length), (E.SET_ACTIVE_NUMBER, t.active.number),
   (E.SET_ACTIVE_CHECK, if slotEmpty t.active then 0 else slotCheck t.active), (E.SET_PREVIOUS_NUMBER, t.previous.number),
   (E.SET_PREVIOUS_CHECK, if slotEmpty t.previous then 0 else slotCheck t.previous), (E.SET_PENDING, pendingCode t.pending),
   (E.SET_LAST_STATUS, t.lastStatus), (E.SET_LAST_DETAIL, t.lastDetail)]

/-! ### Firmware images (R470) -/

/-- The bytes of a slot: B or A. -/
def fwSlot (f : Firmware) (b : Bool) : Sparse Byte := if b then f.slotB else f.slotA

/-- Bytes `k .. k + n − 1` of a slot. -/
def fwBytes (f : Firmware) (b : Bool) (k n : Nat) : Bytes := sgets 0 (fwSlot f b) k n
def fwField (f : Firmware) (b : Bool) (k n : Nat) : Nat := leNat (fwBytes f b k n)

/-- Whether a slot still holds the factory's image. -/
def isFactory (f : Firmware) (b : Bool) : Bool := f.factoryA && !b

def fwVersion (f : Firmware) (b : Bool) : Nat := if isFactory f b then Config.factoryVersion else fwField f b 8 8
def fwSvn (f : Firmware) (b : Bool) : Nat := if isFactory f b then Config.factorySvn else fwField f b 16 4
def fwBodyHash (f : Firmware) (b : Bool) : Bytes := if isFactory f b then Config.factoryHash else fwBytes f b 24 48

/-- Everything of R470 but the SVN. -/
def fwSound (f : Firmware) (b : Bool) : Bool :=
  isFactory f b ||
  (let n := fwField f b 4 4
   let key := fwField f b 20 1
   fwField f b 0 4 == 1 && decide (512 ≤ n) && decide (n ≤ 20971520) && decide (key < 4) && !(bitAt f.keyRevoked key)
     && sha384 (fwBytes f b 72 97) == Config.keyHash key && sha384 (fwBytes f b 512 (n - 512)) == fwBytes f b 24 48
     && Config.signatureGood (fwBytes f b 72 97) (sha384 (fwBytes f b 0 176)) (fwBytes f b 176 96))

/-- R470: a valid image. -/
def fwValid (f : Firmware) (b : Bool) : Bool := fwSound f b && decide (f.svnFloor ≤ fwSvn f b)

def readsLantern (s : State) : List (Nat × Nat) :=
  let f := s.lantern.fw
  let log := s.lantern.events
  [(E.EVENT_SEQ_LATEST, log.lastSeq), (E.EVENT_SEQ_OLDEST, match log.records with
      | r :: _ => r.seq
      | [] => 0),
   (E.FW_ACTIVE_SLOT, b2n f.activeB), (E.FW_ACTIVE_VERSION, fwVersion f f.runningB), (E.FW_ACTIVE_SVN, fwSvn f f.runningB),
   (E.FW_OTHER_VERSION, if fwValid f (!f.runningB) then fwVersion f (!f.runningB) else 0), (E.FW_TRIAL, b2n f.trialB.isSome),
   (E.FW_UPDATE_STATE, fwStateCode f.update), (E.FW_UPDATE_STATUS, f.status), (E.FW_UPDATE_BYTES, f.received),
   (E.SVN_FLOOR, f.svnFloor), (E.KEY_REVOKED_MASK, f.keyRevoked), (E.ODP_KEY_SET, b2n s.lantern.odpKey.isSome),
   (E.ODP_LAST_SEQ, s.lantern.odpLastSeq), (E.MANUFACTURE_DATE, Config.manufactureDate), (E.MAC_ADDRESS, Config.macAddress)]

/-! ### Power and sensors (R534, R535) -/

def senseAt (s : State) (i : Nat) : W32 := sget 0 s.power.sense i

/-- The larger of two F32 values. -/
def f32max (a b : W32) : W32 := if numLt (f32val a) (f32val b) then b else a

/-- The largest of the sense points `i .. i + n`. -/
def senseTop (s : State) (i n : Nat) : W32 := (upto n).foldl (fun m j => f32max m (senseAt s (i + 1 + j))) (senseAt s i)

def throttleCause (s : State) : Nat :=
  b2n (!s.power.hotDies.isEmpty) + 2 * b2n (!s.power.hotStacks.isEmpty) + 4 * b2n s.power.causePower + 8 * b2n s.power.causeFlow

def readsPower (s : State) (p : Path) : List (Nat × Nat) :=
  let i := sel s p E.SENSE_SELECT
  [(E.POWER_STATE, powStateCode s.life.powState), (E.THROTTLE_N, s.power.throttleN), (E.THROTTLE_CAUSE, throttleCause s),
   (E.FEED_STATE, b2n s.power.feedA.connected + 2 * b2n s.power.feedB.connected + 4 * b2n s.power.feedA.overV
      + 8 * b2n s.power.feedB.overV),
   (E.SLOT_ID, Config.slotId % 16), (E.I3C_STATIC_ADDR, 0x30 + Config.slotId % 16), (E.INPUT_POWER_W, (senseAt s 63).toNat),
   (E.DIE_TEMP_MAX_C, (senseTop s 32 3).toNat), (E.HBM_TEMP_MAX_C, (senseTop s 36 7).toNat),
   (E.COOLANT_INLET_C, (senseAt s 52).toNat), (E.COOLANT_FLOW_LPM, (senseAt s 54).toNat), (E.FEED_A_V, (senseAt s 0).toNat),
   (E.FEED_B_V, (senseAt s 2).toNat), (E.SEL_SENSE_VALUE, (senseAt s i).toNat),
   (E.SEL_SENSE_MAX, (sget 0 s.power.senseMax i).toNat), (E.SEL_SENSE_MIN, (sget 0 s.power.senseMin i).toNat)]

/-- Entries that read zero while the module is a member of no run (R43, R104, R162, R187, R232, R255, R394). -/
def zeroOutsideRun (k : Nat) : Bool :=
  let i := k / 256
  i == 0x2002 || k == E.GRAIN_SEED || i == 0x3001 || i == 0x3002
    || [E.DENSE_SHARD_GROUPS, E.GRAD_STAGING_BYTES, E.COALESCE_SPILL_BYTES, E.TSET_T, E.TSET_T_START].contains k
    || (i == 0x3301 && k != E.PROGRAM_SELECT) || (i == 0x3302 && k != E.PARAM_SET_SELECT) || i == 0x3303
    || i == 0x2301 || i == 0x2302 || i == 0x3401 || (i == 0x3402 && k != E.WATCH_SELECT)
    || (decide (E.PLAN_ADDR_LOADED ≤ k) && decide (k ≤ E.ROW_RECORDS_PENDING))

/-- What an entry shows that is not simply what was last written to it. -/
def computed (s : State) (p : Path) (k : Nat) : Option Nat :=
  match k / 256 / 256 with
  | 0x10 => listed k (readsCaps s ++ readsLantern s)
  | 0x11 => listed k (readsSets s)
  | 0x20 => listed k (readsState s ++ readsMember s)
  | 0x21 => listed k (readsMember s)
  | 0x23 => listed k (readsRucksack s p ++ readsRun s)
  | 0x30 => listed k (readsLayout s ++ readsTable s p ++ readsRun s)
  | 0x31 => listed k (readsRun s)
  | 0x32 => listed k (readsRun s ++ readsSet s p)
  | 0x33 => listed k (readsProgram s p ++ readsSet s p)
  | 0x34 => listed k (readsRun s ++ readsWatch s p)
  | 0x40 => listed k (readsMemory s p)
  | 0x50 => listed k (readsFabric s p)
  | 0x51 => listed k (readsFabric s p)
  | 0x58 => listed k (readsAxis s ++ (if keepsState s then readsKeeper s else []))
  | 0x60 => listed k (readsState s)
  | 0x61 => listed k (readsState s ++ readsPlan s)
  | 0x70 => listed k (readsState s ++ readsFabric s p)
  | 0x80 => listed k (readsPower s p)
  | 0x90 => listed k (readsLantern s)
  | 0xA0 => listed k (readsLantern s)
  | _ => none

/-- The number that a numeric entry reads as. -/
def valueOf (s : State) (p : Path) (e : Entry) : Nat :=
  if e.access == .wo then 0
  else if zeroOutsideRun e.key && !(isMember s) then 0
  else if e.selector then sel s p e.key
  else if e.key / 256 == 0x5802 && !(keepsState s) then 0
  else (computed s p e.key).getD (if e.ty == .steptime then 0 else reg s e.key)

/-! ## Reading (R475 to R477) -/

def indexEntries (index : Nat) : List Entry := entryTable.filter fun e => e.key / 256 == index

/-- Bytes of a type; for STRING and DOMAIN an entry's largest length. -/
def typeBytes : EType → Nat
  | .u8 => 1
  | .u16 => 2
  | .u32 => 4
  | .u64 => 8
  | .i64 => 8
  | .f32 => 4
  | .bool => 1
  | .string => 64
  | .domain => 0
  | .steptime => 16

/-- The length of a DOMAIN entry. -/
def domainLength (k : Nat) : Nat :=
  if k = E.COORD_TABLE then 16384
  else if k = E.ROUTE_TABLE then 32768
  else if k = E.EVENT_RECORDS then 1024
  else if k = E.FW_UPDATE_DATA then 20971520
  else if k = E.ODP_KEY then 48
  else if k = E.ATTEST_CHAIN then 4096
  else 65536

/-- R497: an event record's 64 bytes, the `i`-th of a read; its reserved fields are free. -/
def eventBytes (n i : Nat) (r : EventRec) : Bytes :=
  let b := natLe 8 r.seq ++ natLe 8 r.wallNs ++ natLe 8 r.step ++ natLe 8 r.station ++ natLe 2 r.code
    ++ natLe 1 (r.flags % 4 + freeField n (3 * i) 2 6) ++ natLe 1 (freeField n (3 * i + 1) 0 8)
    ++ natLe 4 r.coord ++ natLe 16 r.detail ++ natLe 4 (freeField n (3 * i + 2) 0 32)
  b ++ natLe 4 (crc32c b)

/-- R498: up to 16 records from a path's EVENT_READ_SEQ. -/
def eventWindow (s : State) (p : Path) : List EventRec :=
  (s.lantern.events.records.filter fun r => decide (sel s p E.EVENT_READ_SEQ ≤ r.seq)).take 16

def eventGone (s : State) (p : Path) : Bool :=
  let n := sel s p E.EVENT_READ_SEQ
  match s.lantern.events.records with
  | [] => true
  | r :: _ => decide (n < r.seq) || decide (s.lantern.events.lastSeq < n)

/-- What a DOMAIN entry holds; bytes beyond it read zero.  Reserved fields of the tables and of event records are free
values (R10); a setting-set image is as the module composes it. -/
def domainBytes (s : State) (p : Path) (k : Nat) : Bytes :=
  if k = E.COORD_TABLE then
    (upto 8192).flatMap fun n => natLe 2 (sget 0 s.dict.coordTable n % 2 ^ 13 + bits (sget 0 s.dict.coordTable n) 15 1 * 2 ^ 15
      + freeField s.free n 13 2)
  else if k = E.ROUTE_TABLE then
    (upto 8192).flatMap fun n =>
      let e := sget 0 s.dict.routeTable n
      natLe 4 (e % 2 ^ 7 + bits e 16 13 * 2 ^ 16 + freeField s.free (2 * n) 7 9 + freeField s.free (2 * n + 1) 29 3)
  else if k = E.EVENT_RECORDS then
    let rs := eventWindow s p
    ((upto rs.length).zip rs).flatMap fun e => eventBytes s.free e.1 e.2
  else if k = E.ATTEST_CHAIN then Config.attestChain
  else if k = E.SET_STAGED_IMAGE then slotImage s.lantern.sets.staged
  else if k = E.SET_ACTIVE_IMAGE then slotImage s.lantern.sets.active
  else if k = E.SET_PREVIOUS_IMAGE then slotImage s.lantern.sets.previous
  else []

/-- The characters of the constant strings. -/
def stringBytes (k : Nat) : Bytes :=
  if k = E.VENDOR_NAME then [0x4F, 0x62, 0x6E, 0x65, 0x6E]
  else if k = E.PRODUCT_NAME then [0x44, 0x61, 0x65, 0x6C, 0x61, 0x69, 0x74, 0x68, 0x20, 0x44, 0x32]
  else if k = E.PART_NUMBER then [0x4F, 0x42, 0x2D, 0x44, 0x32, 0x54, 0x34]
  else (upto 16).map Config.serialChar

/-- R471: what the ROM serves in recovery: the 0x1000 range and the 0xA001 range. -/
def served (s : State) (index : Nat) : Bool := !s.life.recovery || index / 256 == 0x10 || index == 0xA001

/-- The entry of an index and subindex. -/
def findEntry (s : State) (index sub : Nat) : Option Entry :=
  if served s index && sub != 0 then entryOf (index * 256 + sub) else none

/-- R480: what an unauthenticated ODP request may do under ODP_AUTH_MODE. -/
def pathRefusal (s : State) (p : Path) (writes : Bool) : Nat :=
  match p with
  | .odp _ false =>
    let mode := reg s E.ODP_AUTH_MODE
    if mode = 2 || (mode = 1 && writes) then 0x0C0B else 0
  | .i3c => if writes then 0x0C0C else 0
  | _ => 0

/-- A read of an entry: status and bytes.  `len`: the bytes asked for; none reads the whole value. -/
def readEntry (s : State) (p : Path) (index sub off : Nat) (len : Option Nat) : Nat × Bytes :=
  let code := pathRefusal s p false
  if code != 0 then (code, [])
  else if sub = 0 then
    match (indexEntries index).map fun e => e.key % 256 with
    | [] => (0x0C01, [])
    | l =>
      if !(served s index) then (0x0C01, [])
      else if len.getD 1 != 1 || off != 0 then (0x0C04, []) else (0, natLe 1 (l.foldl max 0))
  else
    match findEntry s index sub with
    | none => (0x0C01, [])
    | some e =>
      match e.ty with
      | .domain =>
        let n := domainLength e.key
        let k := len.getD (n - off)
        if n < off + k then (0x0C04, [])
        else if e.key = E.EVENT_RECORDS && eventGone s p then (0x0C17, [])
        else (0, if e.access == .wo then zeros k else slice (domainBytes s p e.key) off k)
      | .string => if off = 0 then (0, stringBytes e.key) else (0x0C04, [])
      | t =>
        let n := typeBytes t
        if len.getD n != n || off != 0 then (0x0C04, []) else (0, natLe n (valueOf s p e))

/-! ## DESCRIBE (R479) -/

def typeCode : EType → Nat
  | .u8 => 1
  | .u16 => 2
  | .u32 => 3
  | .u64 => 4
  | .i64 => 8
  | .f32 => 9
  | .bool => 10
  | .string => 11
  | .domain => 12
  | .steptime => 13

def accessCode : Access → Nat
  | .ro => 0
  | .rw => 1
  | .wo => 2
  | .rws => 3
  | .const => 4

/-- R488: whether an entry may be named in a setting set. -/
def settable (e : Entry) : Bool :=
  (e.access == .rw || e.access == .rws) && !e.selector && !e.counter && !e.secured && e.key / 65536 != 0x11

def entryLength (e : Entry) : Nat :=
  if e.ty == .domain then domainLength e.key else if e.key = E.SERIAL_NUMBER then 16 else typeBytes e.ty

/-- An entry's description; the reserved bits [31:20] are free. -/
def describeBytes (n : Nat) (e : Entry) : Bytes :=
  let los := e.ranges.map Prod.fst
  let his := e.ranges.map Prod.snd
  let lo := match los with
    | [] => 0
    | x :: r => r.foldl min x
  natLe 8 (typeCode e.ty + accessCode e.access * 2 ^ 8 + b2n e.i3c * 2 ^ 16 + b2n (settable e) * 2 ^ 17 + b2n e.selector * 2 ^ 18
      + b2n e.secured * 2 ^ 19 + freeField n 0 20 12 + entryLength e * 2 ^ 32)
    ++ natLe 8 (if e.ty == .domain || e.ty == .string then 0 else e.dflt) ++ natLe 8 lo ++ natLe 8 (his.foldl max 0)

def describeEntry (s : State) (p : Path) (index sub : Nat) : Nat × Bytes :=
  let code := pathRefusal s p false
  if code != 0 then (code, [])
  else if sub = 0 then
    if (indexEntries index).isEmpty || !(served s index) then (0x0C01, [])
    else (0, natLe 8 (1 + freeField s.free 0 20 12 + 2 ^ 32) ++ zeros 16 ++ natLe 8 255)
  else
    match findEntry s index sub with
    | none => (0x0C01, [])
    | some e => (0, describeBytes s.free e)

/-! ## Checks of a write (R476) -/

/-- Step 3: the paths of R473, R481, R486 and R487; the UART writes only in recovery. -/
def writePath (s : State) (p : Path) (e : Entry) : Bool :=
  match p with
  | .mailbox => true
  | .odp _ auth => auth || !(e.secured || e.key == E.FAULT_CODE || e.key / 256 == 0xA001)
  | .uart => s.life.recovery
  | .i3c => false

/-- Step 4. -/
def writeLength (e : Entry) (off n : Nat) : Bool :=
  if e.key = E.ODP_KEY then off == 0 && n == 48
  else match e.ty with
    | .domain => decide (off + n ≤ domainLength e.key)
    | .string => off == 0 && decide (n ≤ 64)
    | t => off == 0 && n == typeBytes t

/-- Step 5. -/
def writeRange5 (e : Entry) (v : Nat) : Bool :=
  e.ty == .domain || (e.ranges.any (fun r => decide (r.1 ≤ v) && decide (v ≤ r.2)) && v % e.mult == 0)

/-- The coordinate table with bytes written at an offset. -/
def coordTableAfter (s : State) (off : Nat) (b : Bytes) : Sparse Nat :=
  if b.isEmpty then s.dict.coordTable
  else
    let first := off / 2
    let n := (off + b.length - 1) / 2 - first + 1
    let old := (upto n).flatMap fun i => natLe 2 (sget 0 s.dict.coordTable (first + i))
    sputs 0 s.dict.coordTable first ((pieces 2 (patch old (off - 2 * first) b)).map fun x => leNat x &&& 0x9FFF)

/-- R289: no two valid entries hold one coordinate, and every coordinate lies inside the dimensions. -/
def coordTableGood (s : State) (t : Sparse Nat) : Bool :=
  let valid := (t.filter fun e => bitAt e.2 15).map fun e => e.2 % 8192
  valid.Nodup && valid.all fun c =>
    decide (coordIn c 0 < reg s E.TORUS_DIM_X) && decide (coordIn c 1 < reg s E.TORUS_DIM_Y) && decide (coordIn c 2 < reg s E.TORUS_DIM_Z)

/-- R311: a valid entry of a route table that may be committed. -/
def routeEntryGood (s : State) (dest e : Nat) : Bool :=
  let via := bits e 16 13
  !(bitAt e 0)
    || (bits e 7 9 == 0 && bits e 29 3 == 0
      && (!(bitAt e 1) || (coordValid s via && via != myNumber s && via != dest))
      && (!(bitAt e 2) || roleOf s (6 + b2n (bitAt e 3)) == 1))

def routeTableGood (s : State) : Bool := s.dict.routeTable.all fun e => routeEntryGood s e.1 e.2

/-- R35, R290: states INIT and READY. -/
def initOrReady (s : State) : Bool := isState s .init || isState s .ready

/-- R430: the four recheck times with one of them changed do not decrease. -/
def rechecksRise (s : State) (k v : Nat) : Bool :=
  let t (x : Nat) : Nat := if x = k then v else reg s x
  decide (t E.DESC_RECHECK_1_US ≤ t E.DESC_RECHECK_2_US) && decide (t E.DESC_RECHECK_2_US ≤ t E.DESC_RECHECK_3_US)
    && decide (t E.DESC_RECHECK_3_US ≤ t E.DESC_RECHECK_4_US)

/-- Step 6 for settings: the state rule of the owning chapter; 0 where it admits the write. -/
def settingRule (s : State) (k off : Nat) (b : Bytes) : Nat :=
  let v := leNat b
  if [E.MODULE_NUMBER, E.SYSTEM_ID, E.TORUS_DIM_X, E.TORUS_DIM_Y, E.TORUS_DIM_Z].contains k then
    if initOrReady s then 0 else 0x0C22
  else if k = E.COORD_TABLE then
    if !(initOrReady s) then 0x0C22 else if coordTableGood s (coordTableAfter s off b) then 0 else 0x0805
  else if k = E.PORT6_ROLE || k = E.PORT7_ROLE then if v = 1 && !(capOn s 9) then 0x0505 else 0
  else if [E.RIDGE_KEEPER, E.TWIN_ENABLE, E.TWIN_PEER, E.TWIN_SIDE].contains k then if isState s .ready then 0 else 0x0C22
  else if k = E.TSET_T then if isState s .held then 0 else 0x060B
  else if k = E.WATCH_RING_TAIL then if v < s.watch.tail || s.watch.head < v then 0x0C03 else 0
  else if [E.DESC_RECHECK_1_US, E.DESC_RECHECK_2_US, E.DESC_RECHECK_3_US, E.DESC_RECHECK_4_US].contains k then
    if rechecksRise s k v then 0 else 0x0C03
  else if k = E.ROUTE_TABLE_COMMIT then if v = 1 && !(routeTableGood s) then 0x0809 else 0
  else 0

/-- Steps 4 and 5, on an entry that is known to be writable. -/
def valueRefusal (e : Entry) (off : Nat) (b : Bytes) : Nat :=
  if !(writeLength e off b.length) then 0x0C04
  else if !(writeRange5 e (leNat b)) then 0x0C03
  else if e.ty == .f32 && f32isNan (BitVec.ofNat 32 (leNat b)) then 0x0C03
  else 0

/-- Steps 1 to 5. -/
def writeChecks (s : State) (p : Path) (index sub off : Nat) (b : Bytes) : Nat :=
  let code := pathRefusal s p true
  if code != 0 then code
  else if sub = 0 then (if (indexEntries index).isEmpty || !(served s index) then 0x0C01 else 0x0C02)
  else
    match findEntry s index sub with
    | none => 0x0C01
    | some e =>
      if (e.access == .ro || e.access == .const) && e.key != E.FAULT_CODE then 0x0C02
      else if !(writePath s p e) then 0x0C0B
      else if e.key = E.FAULT_CODE then (if b.length != 2 || off != 0 then 0x0C04 else if leNat b != 0 then 0x0C03 else 0)
      else valueRefusal e off b

/-! ## What a write of a setting does -/

/-- Whether the ports may train (R508). -/
def portsTrain (s : State) : Bool := serves s

/-- R302: a REFUSED port may train again. -/
def letTrain (s : State) : State := if portsTrain s then retryRefused s else s

/-- R289: the coordinate table of the dimensions. -/
def refillCoords (s : State) : State :=
  let x := reg s E.TORUS_DIM_X
  let y := reg s E.TORUS_DIM_Y
  let n := x * y * reg s E.TORUS_DIM_Z
  { s with dict := { s.dict with
      coordTable := (upto n).map fun i => (i, i % x + i / x % y * 2 ^ 5 + i / (x * y) * 2 ^ 9 + 2 ^ 15) } }

/-- R320: PORT_ENABLE_MASK acts at once. -/
def portMaskWritten (old new : Nat) (s : State) : State :=
  forEach (upto 8) (fun i s =>
    if bitAt new i && !(bitAt old i) then (if portsTrain s then startTraining i s else s)
    else if !(bitAt new i) && bitAt old i then disablePort i s
    else s) s

/-- R344, R360: RIDGE_STANDBY is written on a module that has taken its place. -/
def standbyWritten (b : Nat) (s : State) : State :=
  if !(serves s) then s
  else if s.ridge.state == .configInvalid || !(ridgeConfigValid s) then startRidge s
  else if b = 0xFFFF then updKeeper (fun k => { k with newStandby := none }) (setRidge { s.ridge with standby := none } s)
  else updKeeper (fun k => { k with newStandby := some b }) s

/-- R311: ROUTE_TABLE_COMMIT. -/
def commitRoutes (s : State) : State :=
  if isMember s then setFabric { s.fabric with routePending := some s.dict.routeTable } s
  else setFabric { s.fabric with route := s.dict.routeTable } s

/-- Stores a numeric setting and does what its chapter says of it. -/
def settingWritten (p : Option Path) (k v : Nat) (s : State) : State :=
  let old := reg s k
  let tset := match p with
    | some p => sel s p E.TSET_SELECT
    | none => 0
  if k = E.TSET_T then updSet tset (fun t => { t with t := v }) s
  else if k = E.WATCH_RING_TAIL then (writeTail v s).2
  else if k = E.SET_STAGED_NUMBER then
    setLantern { s.lantern with sets := { s.lantern.sets with staged := { s.lantern.sets.staged with number := v } } } s
  else
    let s := setReg k v s
    if [E.TORUS_DIM_X, E.TORUS_DIM_Y, E.TORUS_DIM_Z].contains k then letTrain (refillCoords s)
    else if k = E.PORT_ENABLE_MASK then letTrain (portMaskWritten old v s)
    else if k = E.RIDGE_KEEPER then startRidge s
    else if k = E.RIDGE_STANDBY then standbyWritten v s
    else if [E.PORT6_ROLE, E.PORT7_ROLE, E.EXPRESS_PEER6, E.EXPRESS_PEER7, E.LEVEL_CAP, E.ROUTE_MODE, E.HOP_LIMIT, E.MODULE_NUMBER, E.SYSTEM_ID, E.TWIN_ENABLE, E.TWIN_PEER, E.TWIN_SIDE].contains k then letTrain s
    else s

/-- A write of a setting, a selector, a counter or a flag that has passed its checks. -/
def storeEntry (p : Option Path) (e : Entry) (off : Nat) (b : Bytes) (s : State) : State :=
  if e.key = E.COORD_TABLE then letTrain { s with dict := { s.dict with coordTable := coordTableAfter s off b } }
  else if e.key = E.ROUTE_TABLE then
    if b.isEmpty then s
    else
      let first := off / 4
      let n := (off + b.length - 1) / 4 - first + 1
      let old := (upto n).flatMap fun i => natLe 4 (sget 0 s.dict.routeTable (first + i))
      letTrain { s with dict := { s.dict with
          routeTable := sputs 0 s.dict.routeTable first ((pieces 4 (patch old (off - 4 * first) b)).map leNat) } }
  else if e.selector then
    match p with
    | some p => setSel p e.key (leNat b) s
    | none => s
  else settingWritten p e.key (leNat b) s

end Sys2Proof.Machine
end

