-- ==== Sys2Proof/Machine/Sets.lean ====
section
/-!
DEFINITION. Setting sets (R488 to R494): staging, the acceptance of commits and reverts, and the application of a set.
-/
namespace Sys2Proof.Machine

def setSets (t : Sets) (s : State) : State := setLantern { s.lantern with sets := t } s

/-! ## Staging (R488) -/

/-- A slot with a value named: the entries stay in ascending key. -/
def slotPut (x : SetSlot) (k : Nat) (b : Bytes) : SetSlot :=
  { x with entries := (x.entries.filter fun e => decide (e.1 < k)) ++ (k, b) :: x.entries.filter fun e => decide (k < e.1) }

/-- Why a STAGE is refused; 0 when it is not. -/
def stageRefusal (s : State) (p : Path) (index sub : Nat) (b : Bytes) : Nat :=
  let k := index * 256 + sub
  let code := writeChecks s p index sub 0 b
  if code != 0 then code
  else
    match entryOf k with
    | none => 0x0C01
    | some e =>
      if !(settable e) then 0x0C0D
      else if e.ty == .domain && b.length != domainLength k then 0x0C04
      else if 65536 < (slotImage (slotPut s.lantern.sets.staged k b)).length then 0x0C10
      else 0

def stageEntry (p : Path) (index sub : Nat) (b : Bytes) (s : State) : Nat × State :=
  let code := stageRefusal s p index sub b
  if code != 0 then (code, s)
  else (0, setSets { s.lantern.sets with staged := slotPut s.lantern.sets.staged (index * 256 + sub) b } s)

/-! ## Application (R489, R491) -/

/-- The bytes of an entry's default; the coordinate table's is that of its dimensions (R289). -/
def defaultBytes (s : State) (k : Nat) : Bytes :=
  if k = E.COORD_TABLE then (upto 8192).flatMap fun n => natLe 2 (sget 0 (refillCoords s).dict.coordTable n)
  else match entryOf k with
    | some e => if e.ty == .domain then zeros (domainLength k) else natLe (typeBytes e.ty) e.dflt
    | none => []

/-- The writes of set X applied in place of set Y, in ascending key; none where an entry takes its default. -/
def setWrites (x y : SetSlot) : List (Nat × Option Bytes) :=
  let names := fun (t : SetSlot) k => t.entries.any fun e => e.1 == k
  let all := (x.entries.map fun e => (e.1, some e.2)) ++
    (y.entries.filter fun e => !(names x e.1)).map fun e => (e.1, (none : Option Bytes))
  all.mergeSort fun a b => decide (a.1 ≤ b.1)

/-- Why a write of an incoming set would be refused. -/
def setWriteRefusal (s : State) (w : Nat × Option Bytes) : Nat :=
  let b := w.2.getD (defaultBytes s w.1)
  let code := writeChecks s .mailbox (w.1 / 256) (w.1 % 256) 0 b
  if code != 0 then code else if w.2.isNone && w.1 == E.COORD_TABLE then (if initOrReady s then 0 else 0x0C22) else settingRule s w.1 0 b

def setWriteOne (w : Nat × Option Bytes) (s : State) : State :=
  match entryOf w.1 with
  | some e => storeEntry none e 0 (w.2.getD (defaultBytes s w.1)) s
  | none => s

/-- Applies X in place of Y: nothing where a write would be refused.  The answer is whether it was applied. -/
def applyWrites (x y : SetSlot) (s : State) : Bool × State :=
  let ws := setWrites x y
  match ws.find? fun w => setWriteRefusal s w != 0 with
  | some w =>
    let s := setSets { s.lantern.sets with lastStatus := setWriteRefusal s w, lastDetail := w.1 } s
    (false, raise 0x0C0E w.1 s)
  | none =>
    let s := forEach ws setWriteOne s
    (true, setSets { s.lantern.sets with lastStatus := 0, lastDetail := 0 } s)

/-- Carries out what is pending. -/
def applyPending (s : State) : State :=
  let t := s.lantern.sets
  match t.pending with
  | .commit confirm =>
    let r := applyWrites t.staged t.active s
    let t := r.2.lantern.sets
    if r.1 then setSets { t with previous := t.active, active := t.staged, staged := {}, pending := if confirm then .awaiting else .none } r.2
    else setSets { t with pending := .none } r.2
  | .revert =>
    let r := applyWrites t.previous t.active s
    let t := r.2.lantern.sets
    if r.1 then setSets { t with previous := t.active, active := t.previous, pending := .none } r.2
    else setSets { t with pending := .none } r.2
  | _ => s

/-- R490: whether a pending commit or revert may be applied now: the module is in no run, or at a COMMIT point of one. -/
def setsDue (s : State) : Bool :=
  match s.loadState with
  | .idle => true
  | .loaded => atCommit s
  | .loading => false
  | .unloading => false

def settleSets (s : State) : State := if setsDue s then applyPending s else s

/-! ## Requests (R490 to R493) -/

/-- Whether a commit or revert is pending. -/
def setBusy (s : State) : Bool :=
  match s.lantern.sets.pending with
  | .commit _ => true
  | .revert => true
  | _ => false

def setState (s : State) : Bool := isState s .ready || stepping s

def commitRefusal (s : State) (v : Nat) : Nat :=
  let t := s.lantern.sets
  firstCode [
    (v % 2 ^ 32 != t.staged.number, 0x0C07), (slotEmpty t.staged, 0x0C09), (setBusy s, 0x0C19), (!(setState s), 0x0C08)]

def commitSet (v : Nat) (s : State) : State :=
  settleSets (setSets { s.lantern.sets with pending := .commit (bitAt v 32) } s)

def revertRefusal (s : State) (v : Nat) : Nat :=
  let t := s.lantern.sets
  firstCode [(v != t.active.number, 0x0C07), (slotEmpty t.previous, 0x0C09), (setBusy s, 0x0C19), (!(setState s), 0x0C08)]

def revertSet (s : State) : State := settleSets (setSets { s.lantern.sets with pending := .revert } s)

def confirmRefusal (s : State) (v : Nat) : Nat := if v != s.lantern.sets.active.number then 0x0C07 else 0

def confirmSet (s : State) : State :=
  if s.lantern.sets.pending == .awaiting then setSets { s.lantern.sets with pending := .none } s else s

def clearSet (s : State) : State := setSets { s.lantern.sets with staged := {} } s

/-- R493: CONFIG_CONFIRM_S has passed. -/
def confirmTimeout (s : State) : State :=
  if s.lantern.sets.pending == .awaiting then revertSet (raise 0x0C0A s.lantern.sets.active.number s) else s

/-- R494: after module reset, as the module enters READY. -/
def applyAtReset (s : State) : State :=
  if reg s E.SET_APPLY_AT_RESET != 1 then s
  else
    let t := s.lantern.sets
    if t.active.intact then (applyWrites t.active {} s).2
    else
      let s := raise 0x0C06 t.active.number s
      if t.previous.intact then (applyWrites t.previous {} (setSets { t with active := t.previous, previous := t.active } s)).2 else s

end Sys2Proof.Machine
end

