-- ==== Sys2Proof/Machine/Steps.lean ====
section
/-!
DEFINITION. The step and its stations (R133, R153, R154, R345, R348, R354, R355, R361): what takes place when the axis
reaches a point, when this module is ready for the next one, what holds it, and what settles after anything that may
have changed the run.
-/
namespace Sys2Proof.Machine

/-! ## What a member of a run takes part in -/

/-- R459: a salvaged module takes no part in the steps of the Ridgeline. -/
def takesPart (s : State) : Bool := s.loadState == .loaded && stepping s && !s.holds.salvaged

/-- Whether this module has reached OPEN of a step. -/
def isOpened (s : State) (n : Nat) : Bool := s.step.opened == some n

/-- R453: a copy target leads nothing and takes no messages. -/
def isCopyTarget (s : State) : Bool := s.twin.state == .copyTarget

/-! ## (N, OPEN) (R133, R167, R168, R170, R240, R241, R276) -/

/-- The bank, the step counter and the derived operands of a set at OPEN. -/
def openSet (n : Nat) (s : State) (ts : TableSet) : TableSet × Tally :=
  let t := if s.step.opened.isSome then ts.t else (ts.t + (n - s.plan.s0)) % 2 ^ 64
  let due := (ts.scheds.filter fun e => decide (e.step ≤ n)).mergeSort fun a b => decide (a.step ≤ b.step)
  let bank := due.foldl (fun b e => b.set e.param e.value) ts.bank
  let d := deriveOperands s.plan.seed n ts.number bank t
  ({ ts with
      t := t, bank := bank, derived := d.1, bankStep := n
      scheds := ts.scheds.filter fun e => decide (n < e.step) }, d.2)

/-- (N, OPEN), in the order of R361: operands, watch, settings, and the end of the scrub and repair window. -/
def stationOpen (n : Nat) (s : State) : State :=
  let rs := s.sets.map (openSet n s)
  let s := countTally (rs.foldl (fun a r => tallyAdd a r.2) {}) { s with sets := rs.map Prod.fst }
  let s := capture (fun e => e.effect == .atOpen) (watchOpen s)
  let s := closeRepairs { s with mem := { s.mem with window := false } }
  { s with step := { s.step with
      opened := some n
      clipMax := (n, BitVec.ofNat 32 (setting s E.CLIP_MAX_NORM)) :: s.step.clipMax } }

/-! ## (N, GATHER), (N, GRADS), (N, APPLIED) -/

/-- (N, GATHER): gather, slot allocation, occurrence exchange, Lookahead for N + 1, and the outputs. -/
def stationGather (n : Nat) (s : State) : State :=
  homeGather n (startLookahead n (sendOccurrences n (allocateSlots n (gatherStep n s))))

/-- (N, APPLIED): the scrub window opens. -/
def stationApplied (s : State) : State := { s with mem := { s.mem with window := true } }

/-! ## (N, COMMIT) -/

/-- What a step held is given up; what belongs to a later step stays. -/
def endStep (n : Nat) (s : State) : State :=
  let d := s.step
  { s with
    step := { d with
      occs := d.occs.filter fun o => decide (n < o.step)
      runsFor := d.runsFor.filter fun r => decide (n < r.2)
      lateRuns := d.lateRuns.filter fun r => decide (n < r.1)
      parts := d.parts.filter fun p => decide (n < p.step)
      written := d.written.filter fun w => decide (n < w.1)
      published := d.published.filter fun p => decide (n < p.2.1)
      staged := [], coverage := [], accs := [], ahead := 0, ledger := 0, ledgersSent := [], childLedgers := [], waived := []
      clipMax := d.clipMax.filter fun e => decide (n ≤ e.1)
      norms := (if setting s E.NORM_MODE = 0 then [(n, f32zero, f32one)] else []) ++ d.norms.filter fun e => decide (n ≤ e.1)
      drops := 0, preBase := [], shardParts := [], dense := [], shardsIn := [] }
    holds := { s.holds with reports := s.holds.reports.filter fun r => decide (n ≤ r.1) }
    twin := { s.twin with replayed := [] } }

/-- R153: the step's report; a copy target sends none and waits for no verdict. -/
def reportStep (n : Nat) (s : State) : State :=
  if isCopyTarget s then setHolds { s.holds with verdictFor := some n } s else sendReports n s

/-- R133: every step counter advances. -/
def advanceCounters (s : State) : State := { s with sets := s.sets.map fun t => { t with t := (t.t + 1) % 2 ^ 64 } }

/-- (N, COMMIT) of a step that this module has taken part in, up to the watch; an overlay that has not entered the
directory before the report (R102) does so now. -/
def stationCommit (n : Nat) (s : State) : State :=
  let s := advanceCounters (reportStep n (insertOverlays n s))
  watchCommit n (dropResidue (releaseEarly (endStep n s)))

/-- The generation cuts of a step that has been committed, and the window for twin repairs. -/
def commitCuts (n : Nat) (s : State) : State := openRepairs (releaseBatches n (makeCuts n s))

/-- Any COMMIT point that the axis reaches in a run, in the order of R361: route tables take effect before cuts, and
settings that wait for a COMMIT after them. -/
def anyCommit (n : Nat) (s : State) : State :=
  let on := isOpened s n
  let s := takeRoutes (whenS on (stationCommit n) s)
  capture (fun e => e.effect == .atCommit) (whenS on (commitCuts n) s)

/-- R361: the events of the point the axis has just reached. -/
def stationEvents (v : Nat) (s : State) : State :=
  let n := axisStep v
  if !(takesPart s) then s
  else
    match axisStation v with
    | 0 => if s.plan.s0 ≤ n then stationOpen n s else s
    | 1 => if isOpened s n then stationGather n s else s
    | 2 => s
    | 3 => if isOpened s n then progressShards n s else s
    | 4 => if isOpened s n then stationApplied s else s
    | 5 => anyCommit n s
    | _ => s

/-! ## What holds the module (R111, R154, R245, R354, R428) -/

/-- The step whose OPEN is next, while the axis is at a COMMIT point from which this module takes part. -/
def nextStep (s : State) : Option Nat :=
  if takesPart s && atCommit s && decide (s.plan.s0 ≤ curStep s + 1) then some (curStep s + 1) else none

/-- R111: the sets whose batches this module brings: those with an ACTIVE BATCH ring. -/
def batchSets (s : State) : List Nat :=
  (s.sets.map fun t => t.number).filter fun n => allRings.any fun r => ringServes s r .batch n

/-- R428: whether the export slot that step `n` would overwrite has not been released. -/
def feedBusy (s : State) (n set : Nat) : Bool :=
  match feedBinding s set n, poolBinding s set n with
  | some f, some b =>
    f.exportEn && decide (f.fromStep + b.slots ≤ n) && decide ((ring s f.exportRing).consumedStep + b.slots < n)
  | _, _ => false

/-- R111: whether a batch of the next step is missing, or a run of it is on its way. -/
def batchMissing (s : State) (n : Nat) : Bool := s.step.homeSets.any fun k => (batchOf s k n).isNone
def runsOut (s : State) (n : Nat) : Bool := s.step.runsFor.any fun r => r.2 == n

/-- What the home module finds as the COMMIT point before a step is reached. -/
def settleHome (s : State) : State :=
  match nextStep s with
  | none => s
  | some n =>
    if s.step.homeFor = some n then s
    else
      let homes := batchSets s
      let s := { s with step := { s.step with
        homeSets := homes, homeFor := some n
        batches := s.step.batches.map fun b => if b.step == n then { b with home := homes.contains b.tableSet } else b } }
      let missing := batchMissing s n
      let busy := s.step.homeSets.any (feedBusy s n)
      let s := setHolds { s.holds with missingBatch := missing, feedSlot := busy } s
      let s := whenS missing (fun s => raise 0x0513 n (count E.HELD_FOR_BATCH s)) s
      whenS busy (fun s => raise 0x0114 n (count E.FEED_SLOT_HOLDS s)) s

/-- The causes that have ended do so. -/
def endCauses (s : State) : State :=
  match s.step.homeFor with
  | some n => setHolds { s.holds with
      missingBatch := s.holds.missingBatch && (batchMissing s n || runsOut s n)
      feedSlot := s.holds.feedSlot && s.step.homeSets.any (feedBusy s n) } s
  | none => s

def anyHold (h : Holds) : Bool := h.missingBatch || h.disagree || h.streak || h.feedSlot || h.salvaged

/-- R354, R355: HELD is entered at a COMMIT point only, and left when no cause is left. -/
def settleHeld (s : State) : State :=
  if s.loadState != .loaded then s
  else
    let s := endCauses s
    if isState s .running && anyHold s.holds && (nextStep s).isSome then setModState .held s
    else if isState s .held && !(anyHold s.holds) then setModState .running s
    else s

/-! ## Settling -/

/-- What takes place by itself after an event that may have changed the run: repairs are asked for, the Ledger enters the
tree, the home module looks at the next step, the module is held or let go, recopied pages go out, a pair is formed, and
a pending setting set is applied. -/
def settleRun (s : State) : State :=
  let s := takeFresh s
  let s := whenS (isOpened s (curStep s) && takesPart s && !(isCopyTarget s)) ledgerUp s
  let s := settleHeld (settleHome s)
  let s := whenS (takesPart s && atCommit s) (fun s => tryPair (sendRecopy s)) s
  settleSets s

/-! ## Readiness (R348, R355, R361) -/

/-- Whether a page of the recopy set is still to be sent. -/
def recopyLeft (s : State) : Bool := s.twin.state == .copySource && !(s.twin.recopy.isEmpty)

/-- R111, R253, R361: ready for (N, OPEN). -/
def readyOpen (n : Nat) (s : State) : Bool :=
  isState s .running && !(anyHold s.holds) && s.step.homeFor == some n && !(batchMissing s n) && !(runsOut s n)
    && !(recopyLeft s) && (!(isOpened s (n - 1)) || s.holds.verdictFor == some (n - 1))

/-- Whether the module Ledger has entered the tree: a member's sum has gone to its parent; member 0 is the root, where its
own Ledger enters when it is complete (R330). -/
def ledgerIn (s : State) : Bool :=
  setting s E.NORM_MODE == 0 || (myOrders s).all fun k => k == 0 || s.step.ledgersSent.contains k

/-- Whether nothing of step `n` is still to be applied here: the twin's entries have come, and proofs are binned. -/
def stepSettled (n : Nat) (s : State) : Bool :=
  s.watch.proofs.isEmpty && (if isCopyTarget s then marksTaken s n else !(mirrors s) || marksAnswered s n)

/-- R361: whether this module is ready for the pending point. -/
def readyFor (v : Nat) (s : State) : Bool :=
  let n := axisStep v
  if axisStation v = 0 then decide (s.plan.s0 ≤ n) && readyOpen n s
  else if !(isOpened s n) then false
  else if axisStation v = 5 then stepSettled n s && s.mem.pend.isEmpty
  else if isCopyTarget s then true
  else
    match axisStation v with
    | 1 => true
    | 2 => (stepBatches s n).all (outputsDone s) && allPublished s n
    | 3 => gradsDone s n && shardsReduced s n && ledgerIn s
    | 4 => targetsDone s && replicasDone s
    | _ => false

/-- What precedes the report of a point: STEP_MARKs; before a COMMIT the step's overlays enter the directories (R102) and
then the parity cache is emptied (R267). -/
def beforeReport (v : Nat) (s : State) : State :=
  let n := axisStep v
  if axisStation v = 4 && !(isCopyTarget s) && readyFor v s then sendMarks n s
  else if axisStation v = 5 && isOpened s n then
    let s := whenS (!(isCopyTarget s)) (sendMarks n) s
    parityFlushAll (whenS (stepSettled n s) (insertOverlays n) s)
  else s

/-- R355: the value of (N, HOLD). -/
def holdPoint (n : Nat) : Nat := n * 8 + 7

def report (v : Nat) (s : State) : State :=
  setRidge { s.ridge with reported := some v } (ridgeSendBoth 4094 v .ready s)

/-- READY_REPORT: the pending point is reported once, or (N, HOLD) in its place. -/
def readyReport (s : State) : State :=
  let v := nextPoint (axis s)
  if !(takesPart s) || s.ridge.reported == some v then s
  else
    let s := beforeReport v s
    if readyFor v s then report v s
    else if (nextStep s).isSome && isState s .held && s.ridge.reported != some (holdPoint (curStep s)) then
      report (holdPoint (curStep s)) s
    else s

/-! ## AXIS (R345, R361) -/

/-- The events of earlier points that still wait for their delays take place as the next point arrives, before its own. -/
def boundNow (s : State) : State :=
  forEach s.ridge.bound stationEvents (setRidge { s.ridge with bound := [] } s)

/-- AXIS_SIGNAL: refused unless the timekeeper that this module follows sends it; a value that raises the axis brings
the events of its point, except that a module in NO_KEEPER acts on none (R358). -/
def axisSignal (p : Packet) (s : State) : State :=
  settleRun (serveReq true p (fun s =>
    if p.srcModule != s.ridge.source then ((0x0A07, [], false), count E.RIDGE_SOURCE_REFUSALS s)
    else
      let v := leNat p.data
      let r := axisTake v (if axis s < v then boundNow s else s)
      ((0, [], false), if r.1 && s.ridge.state != .noKeeper then stationEvents v r.2 else r.2)) s)

/-- BOUND_DELAY_EXPIRY: an event that waited for its delay after a station. -/
def boundDelay (tag : Nat) (s : State) : State :=
  if s.ridge.bound.contains tag then
    settleRun (stationEvents tag (setRidge { s.ridge with bound := s.ridge.bound.filter fun v => v != tag } s))
  else s

end Sys2Proof.Machine
end

