-- ==== Sys2Proof/Machine/Messages.lean ====
section
/-!
DEFINITION. What requests, messages and responses bring about at this module: the Ridgeline signals of other modules
(R345), delivered messages (R326 to R331), and the ends of this module's own requests and messages (R325, R336, R339).
-/
namespace Sys2Proof.Machine

/-! ## Arrival and transit (R307 to R312, R332) -/

/-- A packet that a port has delivered is taken out of its buffers before it acts. -/
def arrive (p : Packet) (f : State → State) (s : State) : State := f (takeArrival p s)

/-- R310: the router of the intermediate module turns the packet towards its destination. -/
def turned (s : State) (p : Packet) (i : Nat) : Packet × Option Nat :=
  if p.via && !p.phase && p.viaModule == myNumber s then ({ p with phase := true, dateline := false }, none) else (p, some i)

/-- PACKET_TRANSIT: a packet that came in by a port goes on, has arrived, or comes back. -/
def transit (i : Nat) (p : Packet) (s : State) : State :=
  let s := takeArrival p s
  let t := turned s p i
  match nextHop s t.1 t.2 with
  | .here => forwardHop (i / 2) .here t.1 s
  | .port j d =>
    let s := whenS (hopCode s (i / 2) (.port j d) t.1 == 0) (countN E.TRANSIT_FLITS (flitsOf t.1).length) s
    forwardHop (i / 2) (.port j d) t.1 s

/-! ## Ridgeline signals (R345) -/

/-- A signal that the timekeeper or its standby takes from a member. -/
def memberSignal (p : Packet) (f : Nat → Nat → State → Nat × State) (s : State) : State :=
  serveReq true p (fun s => let r := f p.srcModule (leNat p.data) s; ((r.1, [], false), r.2)) s

def readySignal (p : Packet) (s : State) : State := memberSignal p (fun m v s => (0, takeReady m v s)) s
def joinStepSignal (p : Packet) (s : State) : State := memberSignal p (fun m v s => (0, takeJoinStep m v s)) s
def joinSignal (p : Packet) (s : State) : State := memberSignal p (fun m v s => takeJoin m (v % 2 ^ 32) (v / 2 ^ 32) s) s
def leaveSignal (p : Packet) (s : State) : State := memberSignal p (fun m _ s => (0, takeLeave m s)) s

/-- A signal that only the timekeeper of this module may send. -/
def sourceSignal (p : Packet) (f : Nat → State → State) (s : State) : State :=
  memberSignal p (fun m v s => if m = s.ridge.source then (0, f v s) else (0x0A07, count E.RIDGE_SOURCE_REFUSALS s)) s

/-- EXCLUDE at the standby. -/
def excludeSignal (p : Packet) (s : State) : State := sourceSignal p (fun v s => releaseWaits (updKeeper (removeParticipant v) s)) s

/-- ADMIT at a new standby. -/
def admitOne (v : Nat) (k : Keeper) : Keeper :=
  let k := removeParticipant (v % 2 ^ 32) k
  { k with participants := k.participants ++ [⟨v % 2 ^ 32, v / 2 ^ 32, 0⟩] }
def admitSignal (p : Packet) (s : State) : State := sourceSignal p (fun v s => releaseWaits (updKeeper (admitOne v) s)) s

/-! ## Ports (R298, R304, R305, R437) -/

/-- CONTROL_FLIT_INTERVAL: a port that is UP sends an IDLE control flit. -/
def controlInterval (i : Nat) (s : State) : State := if (port s i).state == .up then sendControl i 0 s else s

/-- PORT_TRAINING_DONE: the port is UP; a pair may form over a Guyline port. -/
def portTrained (i : Nat) (s : State) : State := formPair (trainingDone i s)

/-- RETRAIN_TIMEOUT: a retraining port is DOWN, and what a Guyline port carried is sent anew or lost; one that trained
after having been DOWN is still DOWN. -/
def retrainFailed (i : Nat) (s : State) : State :=
  if (port s i).state != .training then s
  else if (port s i).again then updPort i (fun p => { p with state := .down, again := false }) s
  else if !(port s i).retraining then s
  else if 8 ≤ i then guylineDown (portDown i s)
  else portDown i s

/-- LINK_DOWN_RETRY_EXPIRY. -/
def trainAgain (i : Nat) (s : State) : State := tryAgain i s

/-! ## Delivered messages -/

/-- R324: whether the storage that a message of several fragments needs is owned: its place in the staging area (R142,
R329), judged from its first fragment. -/
def hasRoom (s : State) (p : Packet) : Bool :=
  let h := fragBody p
  let g := fragRegion p
  let s := dropAssembly p s
  if bitAt (preFlags p) 0 then true
  else if p.op = 0x11 then
    match batchOf s (field h 8 1) (field h 0 8) with
    | some t => admits s g (preBytes p) (nextPart s t (field h 32 8) (field h 12 2) (field h 14 1))
    | none => true
  else if p.op = 0x12 then
    let m := gradMsgOf h
    let m := { m with values := List.replicate (m.samples * m.slices * 16) 0 }
    !((msgRegions s m g).any fun r => verdict s r m == .later)
  else if p.op = 0x13 then admits s g (preBytes p) (nextShardPart s (field h 0 8) (field h 8 4) (field h 12 2) (field h 16 4))
  else true

/-- A delivered message is taken and answered; the run then settles.  A module that has left service turns it away (R29,
R306). -/
def messageRow (op : Nat) (m : Msg) (f : Msg → State → Nat × State) (s : State) : State :=
  match takeMsg op m s with
  | none => s
  | some s =>
    if outOfService s then respond (requestOf s m) 0x0C21 [] false s
    else if !(serves s) then s else
    let r := f m s
    settleRun (answerMsg m r.1 r.2)

def indexRunRow (m : Msg) (s : State) : State := messageRow 0x10 m (fun m s => (0, takeRun m s)) s
def bandPartialRow (m : Msg) (s : State) : State := messageRow 0x11 m takeBands s
def gradMsgRow (m : Msg) (s : State) : State := messageRow 0x12 m takeGrad s
def shardGradRow (m : Msg) (s : State) : State := messageRow 0x13 m takeShard s
def ledgerUpRow (m : Msg) (s : State) : State := messageRow 0x14 m takeLedgerUp s
def ledgerDownRow (m : Msg) (s : State) : State := messageRow 0x15 m takeLedgerDown s
def shardMulticastRow (m : Msg) (s : State) : State := messageRow 0x16 m takeCast s
def stepReportRow (m : Msg) (s : State) : State := messageRow 0x17 m takeReportMsg s
def stepVerdictRow (m : Msg) (s : State) : State := messageRow 0x18 m takeVerdictMsg s

/-! ## The ends of this module's own requests and messages -/

/-- Statuses by which a member shows itself lost (R450). -/
def lossStatus (c : Nat) : Bool := failingStatus c || c == 0x0810 || c == 0x0905

/-- An index run is no longer awaited: it has been delivered, or goes to a stand-in in its place (R451). -/
def runEnded (key : Nat) (s : State) : State :=
  { s with step := { s.step with runsFor := s.step.runsFor.filter fun r => r.1 != key } }

/-- Tells the owner of a message of its end. -/
def tellOwner (m : OutMsg) (status : Nat) (s : State) : State :=
  match m.owner with
  | .command q i => cmdProgress q i status s
  | .ring r x => ringEntryDone r x (whenS (status != 0) (count E.FEED_GRAD_REFUSED) s)
  | .nobody => s
  | .cast _ _ _ => s

/-- What the end of a one-sided request brings about. -/
def requestEnded (r : Req) (status : Nat) (data : Bytes) (s : State) : State :=
  match r.origin with
  | .command q i => cmdProgress q i status s
  | .axis dest => axisAnswered dest status s
  | .join => joinAnswered status s
  | .probe k => probeAnswered k status data s
  | _ => s

/-- What the end of a request or message brings about. -/
def ended' (e : Ended) (s : State) : State :=
  match e with
  | .nothing => s
  | .request r status data _ => noteLoss (gModule r.packet.address) status (requestEnded r status data s)
  | .delivered m => tellOwner m 0 (runEnded m.key s)
  | .refused m status =>
    let s := whenS (s.plan.paired && lossStatus status) (runEnded m.key) s
    noteLoss m.dest status (tellOwner m status s)
  | .failed m status =>
    let s := whenS (s.plan.paired && lossStatus status) (runEnded m.key) s
    let s := match m.owner with
      | .command q i => cmdProgress q i 0x0810 s
      | _ => s
    noteLoss m.dest status s

/-- RESPONSE_RECEIVE. -/
def responseReceive (r : Reply) (s : State) : State :=
  match r with
  | .fabric die p => let e := responseArrives die p s; settleRun (gIssueQueued (ended' e.1 e.2))
  | .guyline p => settleRun (guylineResponse p s)

/-- A response is taken out of the buffers of the port that delivered it, and ends its request. -/
def responseArrival (r : Reply) (s : State) : State :=
  match r with
  | .fabric _ p => responseReceive r (takeArrival p s)
  | .guyline _ => responseReceive r s

/-- FABRIC_REQUEST_TIMEOUT. -/
def fabricTimeout (guyline : Bool) (die tag : Nat) (s : State) : State :=
  if guyline then settleRun (guylineTimeout die tag s)
  else let e := requestTimeout die tag s; settleRun (gIssueQueued (ended' e.1 e.2))

/-- RETRY_BACKOFF_EXPIRY. -/
def retryBackoff (t : Retry) (s : State) : State :=
  match t with
  | .guyline path tag => gBackoff path tag s
  | .request die tag => backoffExpiry (.request die tag) s
  | .message key => backoffExpiry (.message key) s

/-- DUP_FILTER_ENTRY_EXPIRY (R338): the entry of a fabric request, or of one that the twin sent from the same die over the
Guyline. -/
def dupExpiry (die src srcDie tag : Nat) (s : State) : State :=
  let twins := src == forced s E.TWIN_PEER && srcDie == die
  let s := setTwin { s.twin with dups := s.twin.dups.filter fun e => !(twins && e.1 == die && e.2.tag == tag) } s
  setFabric { s.fabric with
    dups := s.fabric.dups.filter fun e => !(e.die == die && e.src == src && e.srcDie == srcDie && e.tag == tag) } s

/-! ## One-sided operations at this module (R316, R318) -/

/-- Upsets that have come about since are there before an access. -/
def withUpsets (us : List Upset) (s : State) : State := us.foldl (fun s u => upsetAt u s) s

def readRow (p : Packet) (us : List Upset) (s : State) : State := settleRun (serveReq false p (opRead p) (withUpsets us s))
def writeRow (p : Packet) (s : State) : State := settleRun (serveReq false p (opWrite false p) s)
def poisonedWriteRow (p : Packet) (s : State) : State := settleRun (serveReq true p (opWrite true p) s)
def atomicAddRow (p : Packet) (s : State) : State := settleRun (serveReq true p (opAtomicAdd p) s)
def fabricPegSignalRow (p : Packet) (s : State) : State := serveReq true p (opPegSignal p) s

end Sys2Proof.Machine
end

