-- ==== Sys2Proof/Machine/Power.lean ====
section
/-!
DEFINITION. Starts, power and cooling (R257, R275, R362, R457, R468, R471, R472, R494, R497, R502 to R510, R515 to R528,
R533, R534): the stages of a start, resets and drains, feeds and rails, throttling, Lantern's own restart and clock.
-/
namespace Sys2Proof.Machine

def setLife (l : Life) (s : State) : State := { s with life := l }
def setPower (p : Power) (s : State) : State := { s with power := p }

/-- Whether a start is in progress. -/
def starting (s : State) : Bool := s.life.start.isSome

/-- Whether the cores run: the main rails are on and the dies are out of reset. -/
def coresRun (s : State) : Bool := serves s || (isState s .outOfService && s.life.conversion)

/-! ## Resets -/

/-- Entries whose stored values a reset leaves: retained settings (R469), and the durations of the last drain and fill. -/
def keptEntry (k : Nat) : Bool :=
  match entryOf k with
  | some e => e.access == .rws || k == E.DRAIN_TIME_US || k == E.FILL_TIME_MS
  | none => false

/-- R11, R12: settings and counters as a reset leaves them; selectors at their defaults. -/
def resetDict (s : State) : State :=
  let l := s.lantern
  let pend := match l.sets.pending with
    | .none => l.sets
    | _ => { l.sets with pending := .none }
  { s with
    dict := { s.dict with regs := s.dict.regs.filter fun e => keptEntry e.1, force := [], routeTable := [] }
    lantern := { l with
      selectors := [], odpSources := [], odpKept := [], mbxBusy := false, mbxDone := false, mbxStatus := 0, mbxReqBytes := 0
      mbxReq := [], mbxResp := [], i3cSelect := none, i3cRefused := false, sets := pend
      events := { l.events with buffered := [], once := [], onceRun := [] } } }

/-- What a reset of the dies leaves of them: nothing of the fabric, of the host interface or of the pegs; DRAM is kept, and
pending parity changes that no drain wrote back are lost (R269). -/
def resetUnits (s : State) : State :=
  let s := forEach four loseParity s
  { s with
    pegs := {}, ridge := {}, fabric := {}, twin := {}
    host := { perst := s.host.perst }
    mem := { s.mem with
      burn := [], window := false, fresh := [], chanCorrected := [], chanPoisoned := [], scans := [], lastResult := []
      lastStatus := [], repairs := [] }
    power := { s.power with senseMax := [], senseMin := [], sampled := false, energyUj := 0 }
    life := { s.life with bridgeErrors := 0 } }

/-- R510: a reset of the dies that also ends the membership of a run. -/
def resetDies (s : State) : State := resetUnits (setLoad .idle (emptyRun s))

/-- DRAM contents are lost with the rails. -/
def loseDram (s : State) : State := { s with mem := {} }

/-- Every main rail turns off (R527): the links go down, DRAM contents are lost, MODULE_PWRGD falls. -/
def railsOff (s : State) : State :=
  let s := whenS s.life.pwrgd (emit (.pin "MODULE_PWRGD" false)) s
  let s := setLife { s.life with conversion := false, pwrgd := false, powState := .standby } s
  let s := linkDown s
  loseDram (forEach (upto 12) disablePort s)

/-! ## Starts (R502, R509) -/

/-- The first stage of a kind of start. -/
def firstStage : StartKind → Nat
  | .cold => 1
  | .moduleReset => 4
  | .retentionExit => 4

/-- What a reset puts in force: CAP_DISABLE_MASK (R496), and the identity that the module was provisioned with, which, as
the dimensions and the coordinate table, stays in force until a later value takes effect at a training (R35, R290). -/
def forcedAtReset (e : Entry) : Bool :=
  e.effect == .atReset || [E.MODULE_NUMBER, E.MODULE_NUMBER_VALID, E.SYSTEM_ID].contains e.key

/-- A start begins at a stage: MODULE_STATE is INIT, settings and counters reset. -/
def beginStart (k : StartKind) (stage : Nat) (s : State) : State :=
  let s := capture forcedAtReset (resetDies (resetDict s))
  let s := setFabric { s.fabric with trainedDims := writtenDims s, trainedCoords := s.dict.coordTable } s
  setLife { s.life with
    faultUnits := []
    modState := .init, start := some k, stage := stage, overruns := 0, retryWait := false, startHalted := false
    awaitsFeed := false, recovery := false } s

/-- Stage 3 begins: the main rails come up. -/
def beginRails (s : State) : State :=
  setLife { s.life with stage := 3, conversion := true, powState := .active, retryWait := false, startHalted := false } s

/-- A cold start from stage 1: Lantern itself starts anew. -/
def coldFromPower (s : State) : State :=
  let s := beginStart .cold 1 s
  let s := setLantern { s.lantern with serving := false, ptpLocked := false } s
  setLife { s.life with standbyRail := true, powState := .standby } { s with mem := {}, host := { perst := s.host.perst } }

/-- R521: a cold start from stage 3. -/
def coldFromRails (s : State) : State :=
  let s := beginStart .cold 3 s
  beginRails { s with mem := {}, host := { perst := s.host.perst } }

/-- A start that keeps DRAM. -/
def warmStart (k : StartKind) (s : State) : State :=
  let s := beginStart k (firstStage k) s
  setLife { s.life with conversion := true, powState := .active } s

/-! ## Boot image selection (R471) and confirmation (R472) -/

def setFw (f : Firmware) (s : State) : State := setLantern { s.lantern with fw := f } s

/-- Cases 3 to 5: the active image, the other one, or none. -/
def bootActive (s : State) : Bool × State :=
  let f := s.lantern.fw
  if fwValid f f.activeB then (true, setFw { f with runningB := f.activeB } s)
  else if fwValid f (!f.activeB) then
    (true, raise 0x0C14 0 (setFw { f with activeB := !f.activeB, runningB := !f.activeB } s))
  else (false, s)

/-- The boot ROM's choice; the answer is whether an image has been booted. -/
def bootSelect (s : State) : Bool × State :=
  let f := s.lantern.fw
  match f.trialB with
  | some b =>
    if f.trialBoots = 0 && fwValid f b then (true, setFw { f with trialBoots := 1, runningB := b } s)
    else
      let r := bootActive (setFw { f with trialB := none, trialBoots := 0 } s)
      (r.1, whenS r.1 (raise 0x0C12 (b2n b)) r.2)
  | none => bootActive s

/-- A trial image is confirmed. -/
def confirmTrial (s : State) : State :=
  let f := s.lantern.fw
  match f.trialB with
  | some b =>
    if f.trialBoots = 1 && f.runningB == b then
      setFw { f with activeB := b, trialB := none, trialBoots := 0, svnFloor := max f.svnFloor (fwSvn f b) } s
    else s
  | none => s

/-- R468: Lantern takes what the dies have buffered, in the order in which they raised it. -/
def takeBuffered (s : State) : State :=
  let b := s.lantern.events.buffered
  forEach (b.map Prod.snd) takeEvent (setEvents { s.lantern.events with buffered := [] } s)

/-- Lantern's firmware, or the boot ROM in recovery, starts to serve. -/
def startServing (s : State) : State :=
  takeBuffered (setLantern { s.lantern with serving := true, events := { s.lantern.events with inInterval := 0 } } s)

/-! ## READY (R494, R508) -/

/-- The module becomes READY: set values are applied, the ports train and the Ridgeline starts. -/
def enterReady (s : State) : State :=
  let s := setLife { s.life with modState := .ready, start := none, stage := 0, overruns := 0 } s
  let s := applyAtReset s
  let s := startRidge (trainPorts s)
  whenS (reg s E.FW_AUTO_CONFIRM == 1) confirmTrial s

/-- The duration of a fill or of a drain: a free value within its limit. -/
def someTime (limit : Nat) (s : State) : Nat × State :=
  let f := nextFree s
  ((Config.freeWord f.1).toNat % (limit + 1), f.2)

/-- The end of a stage. -/
def stageDone (failedRails : List Nat) (s : State) : State :=
  match s.life.start with
  | none => s
  | some k =>
    if s.life.retryWait || s.life.startHalted then s
    else
      match s.life.stage with
      | 1 => setLife { s.life with stage := 2 } s
      | 2 =>
        let s := startServing s
        let r := bootSelect s
        if r.1 then beginRails r.2 else setLife { r.2.life with recovery := true, start := none, stage := 0 } r.2
      | 3 =>
        match failedRails with
        | rail :: _ => setLife { s.life with start := none, stage := 0 } s |> railsOff |> raise 0x0B04 rail
        | [] => setLife { s.life with stage := 4 } s
      | 4 =>
        let s := whenS (!s.life.pwrgd) (emit (.pin "MODULE_PWRGD" true)) s
        let s := setLife { s.life with stage := 5, pwrgd := true } s
        if s.host.perst then s else linkUp s
      | 5 => setLife { s.life with stage := if k == .cold then 6 else 7 } s
      | 6 =>
        let t := someTime 2000 (fillMemory s)
        setLife { t.2.life with stage := 7 } (setReg E.FILL_TIME_MS t.1 t.2)
      | 7 => enterReady s
      | _ => s

/-- R504: a stage has exceeded its limit; `unit` is the lowest-numbered unit that has not completed it. -/
def stageTimeout (unit : Nat) (s : State) : State :=
  if !(starting s) || s.life.retryWait || s.life.startHalted || decide (s.life.stage < 4) then s
  else
    let s := raise 0x0C30 s.life.stage s
    if s.life.overruns = 0 then
      railsOff (setLife { s.life with start := some .cold, overruns := 1, retryWait := true, stage := 0 } s)
    else
      let s := railsOff (setLife { s.life with start := none, stage := 0, overruns := 0 } (raise 0x0C31 s.life.stage s))
      leaveService 0x0C31 (ownUnit s unit) s

/-- BRINGUP_RETRY_EXPIRY. -/
def retryStart (s : State) : State := if s.life.retryWait then beginRails (resetDies s) else s

/-- R505: a start before READY ends; it begins anew with the next feed. -/
def endStart (s : State) : State :=
  railsOff (setLife { s.life with start := none, stage := 0, retryWait := false, startHalted := false, awaitsFeed := true } s)

/-! ## The power-fail drain (R457) -/

/-- Steps 1 to 3: record writes are whole, the parity cache is written back, traffic stops. -/
def drain (s : State) : State :=
  let t := someTime 1000 (parityFlushAll s)
  let s := setReg E.DRAIN_TIME_US t.1 t.2
  linkDown (forEach (upto 12) disablePort s)

/-- All four steps. -/
def drainToRetention (s : State) : State :=
  let s := drain s
  setLife { s.life with modState := .retention, powState := .retention } s

/-- A drain when the cores run. -/
def drainCores (s : State) : State := if coresRun s then drain s else s

/-- Pending event records are written to the flash (R497). -/
def flushEvents (s : State) : State :=
  let log := s.lantern.events
  let n := log.records.length
  setEvents { log with
    records := if 262144 < n then log.records.drop (ceilDiv (n - 262144) 1024 * 1024) else log.records
    unflushed := 0 } s

/-- A trip, or a rail out of its band: the fault is recorded, the module drains, and every main rail turns off. -/
def powerTrip (code coord detail : Nat) (s : State) : State :=
  let s := raiseAt code coord detail s
  let s := railsOff (drainCores s)
  leaveService code coord (setLife { s.life with start := none, stage := 0, retryWait := false, startHalted := false } s)

/-! ## Power-state requests (R521) -/

/-- Why a request is refused; 0 when it is not. -/
def powerRefusal (s : State) (v : Nat) : Nat :=
  let ok : Bool := match v with
    | 1 => isState s .ready || isState s .held
    | 2 => isState s .retention && (s.power.feedA.connected || s.power.feedB.connected)
    | 3 => !(isState s .init) && s.life.powState != .standby
    | 4 => isState s .ready || isState s .outOfService || isState s .retention
    | 5 => s.life.powState == .standby
    | _ => false
  if ok then 0 else 0x0C22

def toStandby (s : State) : State :=
  let was := s.life.modState
  let s := railsOff (drainCores s)
  let s := setLife { s.life with start := none, stage := 0, retryWait := false, startHalted := false } s
  if was == .outOfService then s else setModState .init (setLoad .idle (emptyRun s))

def powerRequest (v : Nat) (s : State) : State :=
  match v with
  | 1 => drainToRetention s
  | 2 => warmStart .retentionExit s
  | 3 => warmStart .moduleReset (drainCores s)
  | 4 => toStandby s
  | 5 => coldFromRails s
  | _ => s

/-- A request that a pin or the button makes: nothing where it is refused. -/
def pinRequest (v : Nat) (s : State) : State := if powerRefusal s v = 0 then powerRequest v s else s

/-- SERVICE_BUTTON_HOLD: FAULT blinks three times when the request is refused. -/
def buttonHold (s : State) : State :=
  if powerRefusal s 4 = 0 then powerRequest 4 s
  else forEach [true, false, true, false, true, false] (fun b s => emit (.pin "FAULT" b) s) s

/-- SERVICE_BUTTON_SHORT. -/
def buttonShort (s : State) : State := setReg E.LOCATE (1 - reg s E.LOCATE) s

/-! ## Feeds and the bulk bus (R515 to R519) -/

def inFeed (s : State) (f : Nat) : Feed := if f = 0 then s.power.feedA else s.power.feedB
def setFeed (f : Nat) (v : Feed) (s : State) : State :=
  setPower (if f = 0 then { s.power with feedA := v } else { s.power with feedB := v }) s
def anyFeed (s : State) : Bool := s.power.feedA.connected || s.power.feedB.connected

/-- R515: whether a feed's controller conducts: below its range only while it is the higher feed, that is not beside a feed
that is in range. -/
def conducts (v other : Feed) : Bool := if v.under then !(other.connected && !other.under) else v.connected

/-- The controllers of both feeds follow their voltages. -/
def settleFeeds (s : State) : State :=
  let a := s.power.feedA
  let b := s.power.feedB
  setPower { s.power with
    feedA := { a with connected := conducts a b }, feedB := { b with connected := conducts b a } } s

/-- Whether a feed holds a voltage that it can still lose: it conducts, or is the lower feed. -/
def feedLive (v : Feed) : Bool := v.connected || v.under

/-- A feed is in range: it connects; a module without power, or one whose start has ended under R505, starts cold. -/
def feedIn (f : Nat) (s : State) : State :=
  let s := settleFeeds (setFeed f { connected := true } s)
  let s := whenS s.life.pwrFailWarn (fun s => emit (.pin "PWR_FAIL_WARN#" true) (setLife { s.life with pwrFailWarn := false } s)) s
  if !s.life.standbyRail || s.life.awaitsFeed then coldFromPower s else s

def feedUnder (f : Nat) (s : State) : State :=
  let v := inFeed s f
  if v.connected && !v.under then raise 0x0B01 f (settleFeeds (setFeed f { v with under := true } s)) else s

/-- R505: the loss of both feeds ends a start in progress. -/
def noFeed (s : State) : State := if starting s && !(anyFeed s) then endStart s else s

def feedGone (f : Nat) (s : State) : State :=
  let v := inFeed s f
  if feedLive v then
    noFeed (raise 0x0B03 f (count E.FEED_LOSS_EVENTS
      (settleFeeds (setFeed f { v with connected := false, under := false } s))))
  else s

/-- Every rail falls, the standby rail included: Lantern is off, and event records not yet in the flash are lost. -/
def allOff (s : State) : State :=
  let s := railsOff s
  let log := s.lantern.events
  let kept := log.records.take (log.records.length - log.unflushed)
  let s := setEvents { log with
    records := kept, unflushed := 0, buffered := []
    lastSeq := log.lastSeq - log.unflushed } s
  let s := setLantern { s.lantern with
    serving := false, ptpLocked := false, ptpOffset := 0, i3cAddr := none, odpLastSeq := 0 } s
  setLife { s.life with standbyRail := false, start := none, stage := 0, retryWait := false, startHalted := false } s

/-- FEED_OVERVOLTAGE; R516 for the last connected feed. -/
def feedOver (f : Nat) (s : State) : State :=
  let v := inFeed s f
  if !(feedLive v) then s
  else
    let s := raise 0x0B02 f (settleFeeds (setFeed f { v with connected := false, overV := true, under := false } s))
    if anyFeed s then s
    else
      let s := recordFault 0x0B02 (endpointCoord s) s
      setModState .outOfService (allOff (flushEvents (drainCores s)))

/-- POWER_FAIL_WARNING. -/
def powerFail (s : State) : State :=
  let s := emit (.pin "PWR_FAIL_WARN#" false) (count E.POWER_FAIL_WARNINGS (raise 0x0B05 0 s))
  let s := setLife { s.life with pwrFailWarn := true } s
  let s := if starting s then endStart s else if coresRun s then drainToRetention s else s
  flushEvents s

/-- BULK_BUS_COLLAPSE. -/
def busCollapse (s : State) : State := setModState .init (setLoad .idle (emptyRun (allOff s)))

/-- RAIL_FAULT, after stage 3. -/
def railFault (rail : Nat) (s : State) : State :=
  if s.life.conversion && !(starting s && decide (s.life.stage < 4)) then powerTrip 0x0B04 (endpointCoord s) rail s else s

/-! ## Temperature, power and throttling (R523 to R526) -/

def isHot (s : State) : Bool := !s.power.hotDies.isEmpty || !s.power.hotStacks.isEmpty

/-- The throttle level falls by one, to 4 at the least. -/
def stepDown (k : Nat) (s : State) : State :=
  if s.power.throttleN ≤ 4 then s else count k (setPower { s.power with throttleN := s.power.throttleN - 1 } s)

/-- The coordinate of a die, or of an HBM3 stack at the region group it belongs to. -/
def hotCoord (s : State) (hbm : Bool) (unit : Nat) : Nat :=
  if hbm then unitCoord s (unit / 2) (unit % 2 * 2) 3 0 else unitCoord s (unit % 4) 4 2 0

/-- THERMAL_THROTTLE: a temperature has crossed a threshold. -/
def thermal (hbm : Bool) (unit value : Nat) (s : State) : State :=
  let list := if hbm then s.power.hotStacks else s.power.hotDies
  let on := decide ((if hbm then 90 else 100) ≤ value)
  let off := decide (value < (if hbm then 88 else 98))
  let was := isHot s
  let put (l : List Nat) : State := setPower (if hbm then { s.power with hotStacks := l } else { s.power with hotDies := l }) s
  if on && !(list.contains unit) then
    let s := stepDown E.THERMAL_THROTTLE_STEPS (put (list ++ [unit]))
    if was then s else raiseAt 0x0B06 (hotCoord s hbm unit) value s
  else if off then put (list.filter fun u => u != unit)
  else s

/-- THERMAL_SHUTDOWN. -/
def thermalTrip (hbm : Bool) (unit value : Nat) (s : State) : State :=
  if (if hbm then 95 else 105) ≤ value && s.life.conversion then powerTrip 0x0B07 (hotCoord s hbm unit) value s else s

/-- COOLANT_FLOW_LOW: the flow cause begins, or has cleared. -/
def flowLow (low : Bool) (s : State) : State :=
  if low && !s.power.causeFlow then raise 0x0B08 0 (count E.FLOW_LOW_EVENTS (setPower { s.power with causeFlow := true } s))
  else if !low then setPower { s.power with causeFlow := false } s
  else s

/-- The power limit in force, in watts. -/
def powerLimit (s : State) : Nat := if s.power.causeFlow then min 1000 (setting s E.POWER_LIMIT_W) else setting s E.POWER_LIMIT_W

/-- Input energy over 10 ms, and the time spent throttled. -/
def meter (milliwatts : Nat) (s : State) : State :=
  let e := s.power.energyUj + 10 * milliwatts
  let s := countN E.ENERGY_KJ (e / 1000000000) (setPower { s.power with energyUj := e % 1000000000 } s)
  if s.power.throttleN < 16 then countN E.THROTTLED_MS 10 s else s

/-- POWER_LIMIT_INTERVAL: 10 ms of averaged input power. -/
def powerInterval (milliwatts : Nat) (s : State) : State :=
  let s := meter milliwatts s
  let overV := decide (powerLimit s * 1000 < milliwatts)
  let first := overV && !s.power.causePower
  let s := setPower { s.power with causePower := overV } s
  let s := if overV then stepDown E.POWER_LIMIT_STEPS s else if isHot s then stepDown E.THERMAL_THROTTLE_STEPS s else s
  whenS first (raise 0x0B09 (milliwatts / 1000)) s

/-- THROTTLE_RAISE_INTERVAL: 100 ms without a cause, below 95 % of the limit. -/
def throttleRaise (milliwatts : Nat) (s : State) : State :=
  if isHot s || s.power.causePower || s.power.causeFlow || decide (powerLimit s * 950 ≤ milliwatts) then s
  else setPower { s.power with throttleN := min 16 (s.power.throttleN + 1) } s

/-- HBM3_REFRESH_DOUBLED (R257). -/
def refreshDoubled (stack : Nat) (hot : Bool) (s : State) : State :=
  let rest := s.power.refreshDoubled.filter fun x => x != stack
  setPower { s.power with refreshDoubled := if hot then rest ++ [stack] else rest } s

/-- SENSE_SAMPLE (R534). -/
def senseSample (vs : List W32) (s : State) : State :=
  if !s.lantern.serving then s
  else
    forEach (vs.zip (upto 64)) (fun x s =>
      let v := x.1
      let i := x.2
      let first := !s.power.sampled
      let hi := sget 0 s.power.senseMax i
      let lo := sget 0 s.power.senseMin i
      setPower { s.power with
        sense := sput 0 s.power.sense i v
        senseMax := sput 0 s.power.senseMax i (if first || numLt (f32val hi) (f32val v) then v else hi)
        senseMin := sput 0 s.power.senseMin i (if first || numLt (f32val v) (f32val lo) then v else lo)
        sampled := s.power.sampled || i == 63 } s) s

/-! ## Faults (R29, R30) -/

/-- R306: a port that has itself failed forwards nothing: it is DOWN, and does not train. -/
def stopFaultyPort (i : Nat) (s : State) : State :=
  if portFaulty s i then updPort i (fun p => { p with state := .down }) (dropPort i s) else s

/-- UNIT_FAULT: the module leaves service; a fault after the recorded one is logged. -/
def unitFault (unit : Nat) (s : State) : State :=
  let s := setLife { s.life with
    start := none, stage := 0, retryWait := false, startHalted := false, faultUnits := unit :: s.life.faultUnits } s
  leaveServiceLogged 0x0C21 (ownUnit s unit) (forEach (upto 12) stopFaultyPort s)

/-! ## The front indicators -/

/-- What an indicator shows. -/
inductive Lamp where
  | off
  | green
  | amber
  | blue
  | white
  | blinkGreen (hz : Option Nat)
  | blinkAmber (hz : Option Nat)
  deriving DecidableEq, Repr

/-- PWR: without the standby rail every indicator is dark but SAFE. -/
def lampPwr (s : State) : Lamp :=
  if !s.life.standbyRail then .off
  else match s.life.powState with
    | .standby => .amber
    | .active => .green
    | .retention => .blinkGreen (some 1)

def lampState (s : State) : Lamp :=
  if !s.life.standbyRail then .off
  else match s.life.modState with
    | .init => .blinkAmber none
    | .ready => .green
    | .running => .blinkGreen (some 2)
    | .held => .blinkAmber (some 2)
    | .outOfService => .off
    | .retention => .off

/-- A trip leaves the module out of service, in STANDBY too (R520). -/
def lampFault (s : State) : Lamp := if s.life.standbyRail && isState s .outOfService then .amber else .off
def lampLocate (s : State) : Lamp := if s.life.standbyRail && reg s E.LOCATE == 1 then .blue else .off

/-- SAFE: STANDBY, or no feed. -/
def lampSafe (s : State) : Lamp := if s.life.powState == .standby || !(anyFeed s) then .white else .off

/-! ## Lantern (R362, R468, R497) -/

/-- PTP lock is lost: one event for each loss. -/
def ptpLost (s : State) : State :=
  if s.lantern.ptpLocked then raise 0x0A15 0 (setLantern { s.lantern with ptpLocked := false } s) else s

/-- PTP_MESSAGE: a message of another domain than PTP_DOMAIN is not for this clock; a synchronisation message has the
slave ask its master for the delay. -/
def ptpMessage (m : PtpMsg) (offset : Int) (locked : Bool) (s : State) : State :=
  if !s.lantern.serving || m.domain != setting s E.PTP_DOMAIN then s
  else
    let s := whenS m.sync (emit (.ptpDelayRequest m.domain)) s
    let s := setLantern { s.lantern with wallNs := m.wallNs % 2 ^ 64, ptpOffset := offset } s
    if locked then setLantern { s.lantern with ptpLocked := true } s else ptpLost s

/-- LANTERN_FAULT: a start in progress loses its rails and goes on at stage 3 later (R505). -/
def lanternFault (s : State) : State :=
  if !s.lantern.serving then s
  else
    let s := count E.LANTERN_RESTARTS (ptpLost s)
    let s := setLantern { s.lantern with serving := false, mbxBusy := false } s
    if starting s || s.life.recovery then
      railsOff (setLife { s.life with recovery := false, start := some .cold, stage := 0, retryWait := false, startHalted := true } s)
    else s

/-- LANTERN_SERVING: Lantern serves again, on the image that the boot ROM chooses. -/
def lanternServing (s : State) : State :=
  if s.lantern.serving || !s.life.standbyRail || (starting s && !s.life.startHalted) then s
  else
    let s := startServing s
    let r := bootSelect s
    let s := raise 0x0C18 0 r.2
    if !r.1 then setLife { s.life with recovery := true, start := none, stage := 0, startHalted := false } s
    else if s.life.startHalted then beginRails (resetDies s)
    else s

/-- EVENT_RATE_INTERVAL. -/
def rateInterval (s : State) : State := setEvents { s.lantern.events with inInterval := 0 } s

end Sys2Proof.Machine
end

