-- ==== Sys2Proof/Machine/Salvage.lean ====
section
/-!
DEFINITION. Salvage (R459, R460): a module that has left service comes back without fill, with its run layout rebuilt from the
image and every torn record marked.
-/
namespace Sys2Proof.Machine

/-- The loaded plan's image as memory holds it now. -/
def salvageImage (s : State) : Option Bytes × State := readImage s.plan.planAddr s

/-- R459: why SALVAGE is refused; 0 when it is not. -/
def salvageRefusal (s : State) : Nat :=
  let ok := (isState s .outOfService || isState s .retention) && (s.loadState == .loaded || s.loadState == .unloading)
    && s.life.conversion
    && match (salvageImage s).1 with
      | some b => crc32c (patch b 12 (zeros 4)) == s.plan.planCheck
      | none => false
  if ok then 0 else 0x0915

/-- R460: a record whose sectors carry different STEP_STAMP values is marked TORN in each of them; the
first one's event names its key. -/
def scanRecord (home mode : Nat) (key : TargetKey) (s : State) : State :=
  let r := readRecord home 0 (recSectors mode) s
  match r.1.2 with
  | [] => r.2
  | m :: rest =>
    if rest.any fun x => markStamp x != markStamp m then
      let s := storeRecord home r.1.1 (r.1.2.map fun x => x ||| tornBit) r.2
      raiseOnceRun 0x0916 (leNat (keyBytes key)) (count E.TORN_RECORDS s)
    else r.2

/-- The base records of a table that are homed here. -/
def scanTable (ts : TableSet) (d : TableDecl) (s : State) : State :=
  let start := bandStart s d (myPitch s)
  let k := localSlices s d
  forEach (upto (bandRows s d (myPitch s) * k)) (fun i s =>
    scanRecord (baseRecord s ts d (start + i / k) (i % k)) ts.mode
      { kind := 0, set := ts.number, table := d.table, row := start + i / k, variant := 0, slice := i % k } s) s

/-- The overlay records that the directories name. -/
def scanOverlays (s : State) : State :=
  let s := forEach sixteen directoryRead s
  forEach (sixteen.flatMap (dirEntries s)) (fun x s =>
    match rowDecl s x.2.set x.2.table with
    | some td => forEach (upto (localSlices s td.2)) (fun j s =>
        scanRecord (resolve s td.1 td.2 x.2.row x.2.variant j).1 td.1.mode
          { kind := 0, set := x.2.set, table := x.2.table, row := x.2.row, variant := x.2.variant, slice := j } s) s
    | none => s) s

/-- The records of the dense groups that are owned here. -/
def scanDense (s : State) : State :=
  forEach ((allShards s).filter fun x => ownsShard s x.shard) (fun x s =>
    forEach (upto x.count) (fun i s => scanRecord (denseRecord s x i) (tensorMode s x.tensor)
      { kind := 1, set := 0, table := x.tensor.number, row := groupRow x.tensor (x.first + i), variant := 0
        slice := groupCol x.tensor (x.first + i) } s) s) s

def recoveryScan (s : State) : State :=
  scanDense (scanOverlays (forEach s.sets (fun ts s => forEach ts.tables (scanTable ts) s) s))

/-- Step 2: the layout from the image, without writing a record; what the step in progress held is gone. -/
def relayout (b : Bytes) (s : State) : State :=
  { s with
    sets := (laidSets b).1.map (runSet b)
    tensors := parseTensors b
    programs := (parseProgs b).map progOf
    step := {}, holds := { salvaged := true }, rowOps := [], watch := {}, gen := {}, rowEng := {} }

/-- SALVAGE: the dies restart without fill, dirty cached records are written back, the recovery scan runs, and the module is
HELD outside the Ridgeline.  The axis keeps the point at which the module left service. -/
def salvage (s : State) : State :=
  let im := salvageImage s
  match im.1 with
  | none => s
  | some b =>
    let a := s.pegs.values.filter fun e => e.1 == axisKey
    let s := relayout b (resetUnits im.2)
    let s := { s with
      pegs := { s.pegs with values := a }
      life := { s.life with modState := .held, powState := .active, start := none, stage := 0, pwrgd := true } }
    let s := setLoad .loaded (recoveryScan (dropAllCached s))
    let s := if s.host.perst then s else linkUp s
    trainPorts s

end Sys2Proof.Machine
end

