-- ==== Sys2Proof/Machine/Control.lean ====
section
/-!
DEFINITION. What the dictionary's writes do beyond storing a setting (R154, R245, R311, R459, R472, R473, R481, R487, R490,
R499, R521), and the paths that carry requests: ODP (R480 to R482), the mailbox (R483), I3C (R484, R485), the UART (R486),
BAR0 (R399) and SPDM (R474).
-/
namespace Sys2Proof.Machine

/-! ## Firmware update (R472, R473) -/

/-- The slot that no running image came from. -/
def spareSlot (s : State) : Bool := !s.lantern.fw.runningB

/-- A slot with new bytes; the factory's image in it is gone. -/
def putSlot (b : Bool) (v : Sparse Byte) (f : Firmware) : Firmware :=
  if b then { f with slotB := v } else { f with slotA := v, factoryA := false }

/-- FW_UPDATE_CONTROL: why a value is refused; 0 when it is not. -/
def fwRefusal (s : State) (v : Nat) : Nat :=
  let f := s.lantern.fw
  match v with
  | 1 => if f.trialB.isSome then 0x0C15 else 0
  | 3 =>
    firstCode [(f.update != .verified, 0x0C16),
      (stepping s || isState s .retention || isState s .init, 0x0C15)]
  | _ => 0

def fwBegin (s : State) : State :=
  let f := putSlot (spareSlot s) [] s.lantern.fw
  setFw { f with update := .receiving, status := 0, received := 0, verifying := false } s

def fwVerify (s : State) : State := setFw { s.lantern.fw with verifying := true } s

/-- FW_VERIFY_DONE. -/
def fwVerifyDone (s : State) : State :=
  let f := s.lantern.fw
  let b := spareSlot s
  if !f.verifying then s
  else if fwValid f b then setFw { f with verifying := false, update := .verified, status := 0 } s
  else setFw { f with verifying := false, update := .failed, status := if fwSound f b then 0x0C13 else 0x0C11 } s

/-- ACTIVATE: a cold restart on the trial image. -/
def fwActivate (s : State) : State :=
  let f := s.lantern.fw
  let s := setFw { f with trialB := some (spareSlot s), trialBoots := 0, update := .idle } s
  coldFromPower (railsOff (drainCores s))

def fwAbort (s : State) : State :=
  let f := s.lantern.fw
  if f.update == .idle then s
  else setFw { putSlot (spareSlot s) [] f with update := .idle, status := 0, received := 0, verifying := false } s

def fwControl (v : Nat) (s : State) : State :=
  match v with
  | 1 => fwBegin s
  | 2 => fwVerify s
  | 3 => fwActivate s
  | 4 => fwAbort s
  | _ => s

/-- A piece of the image. -/
def fwDataRefusal (s : State) (off : Nat) : Nat :=
  if s.lantern.fw.update == .receiving && off == s.lantern.fw.received then 0 else 0x0C16

def fwPiece (b : Bytes) (s : State) : State :=
  let f := s.lantern.fw
  let slot := sputs 0 (fwSlot f (spareSlot s)) f.received b
  setFw { putSlot (spareSlot s) slot f with received := f.received + b.length } s

/-! ## Writes that act -/

/-- R487: the fault record is cleared. -/
def clearFault (s : State) : State := setLife { s.life with fault := {} } s

/-- R499: zero is written to every counter. -/
def clearCounters (s : State) : State := forEach (entryTable.filter fun e => e.counter) (fun e s => setReg e.key 0 s) s

/-- R154: the disagreements are counted anew. -/
def resumeAgree (s : State) : State := { s with holds := { s.holds with disagree := false, disagreeing := 0 } }

/-- Step 6 of R476 with the rules of the entries that act. -/
def stateRule (s : State) (k off : Nat) (b : Bytes) : Nat :=
  let v := leNat b
  if k = E.SALVAGE then (if v = 1 then salvageRefusal s else 0)
  else if k = E.POWER_STATE_REQUEST then powerRefusal s v
  else if k = E.FW_UPDATE_CONTROL then fwRefusal s v
  else if k = E.FW_UPDATE_DATA then fwDataRefusal s off
  else if k = E.SET_COMMIT then commitRefusal s v
  else if k = E.SET_REVERT then revertRefusal s v
  else if k = E.SET_CONFIRM then confirmRefusal s v
  else settingRule s k off b

/-- What a write that has passed every check does.  A FALSE written to an entry on which TRUE acts has no effect. -/
def writeEffect (p : Path) (e : Entry) (off : Nat) (b : Bytes) (s : State) : State :=
  let k := e.key
  let v := leNat b
  if k = E.SALVAGE then whenS (v == 1) salvage s
  else if k = E.POWER_STATE_REQUEST then powerRequest v s
  else if k = E.FW_UPDATE_CONTROL then fwControl v s
  else if k = E.FW_UPDATE_DATA then fwPiece b s
  else if k = E.FW_CONFIRM then whenS (v == 1) confirmTrial s
  else if k = E.SET_COMMIT then commitSet v s
  else if k = E.SET_REVERT then revertSet s
  else if k = E.SET_CONFIRM then confirmSet s
  else if k = E.SET_CLEAR then whenS (v == 1) clearSet s
  else if k = E.FAULT_CODE then clearFault s
  else if k = E.COUNTERS_CLEAR_ALL then whenS (v == 1) clearCounters s
  else if k = E.STEP_AGREE_RESUME then whenS (v == 1) resumeAgree s
  else if k = E.WATCH_RESUME then whenS (v == 1) resumeStreaks s
  else if k = E.WATCH_HISTORY_RESET then askHistoryReset v s
  else if k = E.ROUTE_TABLE_COMMIT then whenS (v == 1) commitRoutes s
  else if k = E.ODP_KEY then setLantern { s.lantern with odpKey := some b } s
  else storeEntry (some p) e off b s

/-- The code with which a write is refused under R476; 0 when it is accepted. -/
def writeRefused (s : State) (p : Path) (index sub off : Nat) (b : Bytes) : Nat :=
  let code := writeChecks s p index sub off b
  if code != 0 then code else stateRule s (index * 256 + sub) off b

/-- A write of an entry: its status and the state after it. -/
def writeEntry (p : Path) (index sub off : Nat) (b : Bytes) (s : State) : Nat × State :=
  let code := writeRefused s p index sub off b
  if code != 0 then (code, s)
  else
    match entryOf (index * 256 + sub) with
    | some e => (0, settleRun (writeEffect p e off b s))
    | none => (0x0C01, s)

/-! ## Single requests -/

/-- The counters of a request of one operation: ODP requests answered and refused, mailbox requests. -/
def countRequest (p : Path) (refused : Bool) (s : State) : State :=
  match p with
  | .odp _ _ => count E.ODP_REQUESTS (whenS refused (count E.ODP_REFUSED) s)
  | .mailbox => count E.MAILBOX_REQUESTS s
  | _ => s

/-- Lantern answers a request of one operation that came by a path, while it serves.  `writes`: it is a WRITE or a STAGE. -/
def requested (p : Path) (writes : Bool) (f : State → Nat × Bytes × State) (s : State) : State :=
  if !s.lantern.serving then s
  else
    let refused := pathRefusal s p writes == 0x0C0B
    let r := f (touchPath p s)
    emit (.dictAnswer p r.1 r.2.1) (countRequest p refused r.2.2)

/-- A read of an entry.  RIDGE_POINT_AGE_MS and the reserved fields of tables and records are free values, so each read
takes one. -/
def readTaken (p : Path) (index sub off : Nat) (len : Option Nat) (s : State) : Nat × Bytes × State :=
  let r := readEntry s p index sub off len
  (r.1, r.2, (nextFree s).2)

/-- A description of an entry; its reserved bits are free. -/
def describeTaken (p : Path) (index sub : Nat) (s : State) : Nat × Bytes × State :=
  let r := describeEntry s p index sub
  (r.1, r.2, (nextFree s).2)

def requestRead (p : Path) (index sub : Nat) (s : State) : State :=
  requested p false (readTaken p index sub 0 none) s

def requestDescribe (p : Path) (index sub : Nat) (s : State) : State :=
  requested p false (describeTaken p index sub) s

def requestWrite (p : Path) (index sub off : Nat) (b : Bytes) (s : State) : State :=
  requested p true (fun s => let r := writeEntry p index sub off b s; (r.1, [], r.2)) s

/-- R480: a STAGE is a write for ODP_AUTH_MODE too; the check of the path stands among R476's. -/
def requestStage (p : Path) (index sub : Nat) (b : Bytes) (s : State) : State :=
  requested p true (fun s => let r := stageEntry p index sub b s; (r.1, [], r.2)) s

/-- A write of a number of `n` bytes to an entry named by its key. -/
def requestNumber (p : Path) (k n v : Nat) (s : State) : State := requestWrite p (k / 256) (k % 256) 0 (natLe n v) s

/-! ## ODP requests (R479 to R482) -/

/-- One operation of a request. -/
structure OdpOp where
  op : Nat
  sub : Nat
  index : Nat
  offset : Nat
  length : Nat
  rsv : Nat
  data : Bytes
  deriving DecidableEq, Repr

/-- A length padded to a multiple of 4. -/
def pad4 (n : Nat) : Nat := (n + 3) / 4 * 4

/-- The bytes of data that an operation carries. -/
def carried (op n : Nat) : Nat := if op = 2 || op = 4 then pad4 n else 0

/-- The next `n` operations of a request; none where they overrun it. -/
def odpOps : Nat → Bytes → Option (List OdpOp)
  | 0, _ => some []
  | n + 1, b =>
    if b.length < 12 then none
    else
      let op := field b 0 1
      let len := field b 8 2
      let c := carried op len
      if b.length < 12 + c then none
      else
        match odpOps n (b.drop (12 + c)) with
        | some rest => some ({
            op := op, sub := field b 1 1, index := field b 2 2, offset := field b 4 4, length := len, rsv := field b 10 2
            data := if c = 0 then [] else slice b 12 len } :: rest)
        | none => none

/-- The bytes that an operation adds to the response when it succeeds. -/
def answerBytes (o : OdpOp) : Nat :=
  match o.op with
  | 1 =>
    match entryOf (o.index * 256 + o.sub) with
    | some e => 4 + pad4 (if e.ty == .string then (stringBytes e.key).length else o.length)
    | none => 4 + pad4 o.length
  | 3 => 36
  | _ => 4

/-- The request's operations, where its layout is valid (R480); `tagged`: a tag ends it; `most`: the longest response. -/
def odpParse (b : Bytes) (tagged : Bool) (most : Nat) : Option (List OdpOp) :=
  let count := field b 3 1
  let body := (b.take (b.length - if tagged then 16 else 0)).drop 24
  let head : Bool := decide (24 + (if tagged then 16 else 0) ≤ b.length) && field b 0 1 == 1 && field b 1 1 == 0
    && field b 2 1 == b2n tagged && decide (1 ≤ count) && decide (count ≤ 32) && field b 18 6 == 0
    && (tagged || field b 8 8 == 0)
  if !head then none
  else
    match odpOps count body with
    | none => none
    | some ops =>
      if ops.all (fun o => decide (1 ≤ o.op) && decide (o.op ≤ 4) && o.rsv == 0)
        && decide (24 + (ops.map answerBytes).sum ≤ most) then some ops else none

/-- Performs one operation: status, data and state. -/
def odpOne (p : Path) (o : OdpOp) (s : State) : Nat × Bytes × State :=
  match o.op with
  | 1 => readTaken p o.index o.sub o.offset (some o.length) s
  | 2 => let r := writeEntry p o.index o.sub o.offset o.data s; (r.1, [], r.2)
  | 3 => describeTaken p o.index o.sub s
  | _ => if o.offset != 0 then (0x0C04, [], s) else let r := stageEntry p o.index o.sub o.data s; (r.1, [], r.2)

/-- An operation's part of the response. -/
def odpResult (status : Nat) (d : Bytes) : Bytes :=
  natLe 2 status ++ natLe 2 d.length ++ d ++ zeros (pad4 d.length - d.length)

/-- Performs the operations in order; after the first failure the rest are not attempted (R479). -/
def odpAll (p : Path) : List OdpOp → Bool → State → Bytes × State
  | [], _, s => ([], s)
  | o :: rest, failed, s =>
    let r := if failed then (0x0C0F, [], s) else odpOne p o s
    let t := odpAll p rest (failed || r.1 != 0) r.2.2
    (odpResult r.1 r.2.1 ++ t.1, t.2)

/-- The response's 24-byte header. -/
def odpHeader (b : Bytes) (ops status : Nat) : Bytes :=
  natLe 1 1 ++ natLe 1 1 ++ [0] ++ natLe 1 ops ++ natLe 4 (field b 4 4) ++ zeros 8 ++ natLe 2 status ++ zeros 6

/-- The response to a request whose layout is valid. -/
def odpAnswer (p : Path) (b : Bytes) (ops : List OdpOp) (s : State) : Bytes × State :=
  let r := odpAll p ops false s
  (odpHeader b ops.length 0 ++ r.1, r.2)

/-- R480: whether a request without authentication is refused under ODP_AUTH_MODE. -/
def odpNeedsAuth (s : State) (ops : List OdpOp) : Bool :=
  let mode := reg s E.ODP_AUTH_MODE
  mode == 2 || (mode == 1 && ops.any fun o => o.op == 2 || o.op == 4)

/-- R481: whether the tag that ends a request is right. -/
def odpTagGood (s : State) (b : Bytes) : Bool :=
  match s.lantern.odpKey with
  | some key =>
    let n := b.length - 16
    decide (16 ≤ b.length) && (hmac384 key (b.take n)).take 16 == b.drop n
  | none => false

/-- R482: a kept response. -/
def odpLookup (s : State) (source : Nat) (b : Bytes) : Option OdpKept :=
  s.lantern.odpKept.find? fun e => e.source == source && e.reqId == field b 4 4 && e.authSeq == field b 8 8

/-- R482: a source keeps its last 16 responses, newest first. -/
def odpKeep (source : Nat) (b r : Bytes) (s : State) : State :=
  let mine := { source := source, reqId := field b 4 4, authSeq := field b 8 8, response := r } ::
    s.lantern.odpKept.filter fun e => e.source == source
  setLantern { s.lantern with odpKept := mine.take 16 ++ s.lantern.odpKept.filter fun e => e.source != source } s

/-- A response is sent and kept. -/
def odpSend (source : Nat) (b r : Bytes) (s : State) : State :=
  odpKeep source b r (emit (.odpResponse source r) (count E.ODP_REQUESTS s))

def odpRefuse (source : Nat) (b : Bytes) (s : State) : State :=
  odpSend source b (odpHeader b 0 0x0C0B) (count E.ODP_REFUSED s)

/-- ODP_REQUEST: the layout, the tag, the kept responses, AUTH_SEQ and ODP_AUTH_MODE, and then the operations. -/
def odpRequest (source : Nat) (b : Bytes) (s : State) : State :=
  if !s.lantern.serving then s
  else
    let s := touchSource source s
    let tagged := bitAt (field b 2 1) 0
    match (if 1472 < b.length then none else odpParse b tagged 1472) with
    | none => odpSend source b (odpHeader b 0 0x0C05) s
    | some ops =>
      if tagged && !(odpTagGood s b) then odpRefuse source b s
      else
        match odpLookup s source b with
        | some e => emit (.odpResponse source e.response) (count E.ODP_REQUESTS s)
        | none =>
          if (tagged && decide (field b 8 8 ≤ s.lantern.odpLastSeq)) || (!tagged && odpNeedsAuth s ops) then odpRefuse source b s
          else
            let s := whenS tagged (fun s => setLantern { s.lantern with odpLastSeq := field b 8 8 } s) s
            let r := odpAnswer (.odp source tagged) b ops s
            odpSend source b r.1 r.2

/-! ## The mailbox (R483) -/

/-- The request that lies in the buffer; a byte never written since reset is undefined (R11, R483), a free value. -/
def mailboxBytes (s : State) : Bytes :=
  (upto (min s.lantern.mbxReqBytes 0x7000)).map fun i => (sget none s.lantern.mbxReq i).getD (Config.freeByte s.free i)

/-- The answer to the request in the buffer: its status, the response and the state after it. -/
def mailboxAnswer (s : State) : Nat × Bytes × State :=
  let b := mailboxBytes s
  let s := (nextFree s).2
  match (if 0x7000 < s.lantern.mbxReqBytes then none else odpParse b false 0x8000) with
  | none => (0x0C05, odpHeader b 0 0x0C05, s)
  | some ops =>
    let r := odpAnswer .mailbox b ops s
    (0, r.1, r.2)

/-- MAILBOX_GO: acted on in IDLE and DONE while Lantern serves the mailbox. -/
def mailboxGo (s : State) : State :=
  if !s.lantern.serving || s.life.recovery || s.lantern.mbxBusy then refuseBar s
  else
    let s := count E.MAILBOX_REQUESTS (setLantern { s.lantern with mbxBusy := true, mbxDone := false } s)
    let r := mailboxAnswer s
    let s := r.2.2
    if s.lantern.mbxBusy then
      setLantern { s.lantern with mbxBusy := false, mbxDone := true, mbxStatus := r.1, mbxResp := r.2.1 } s
    else s

/-- A 32-bit write of a word of the mailbox's area; none where its offset is reserved. -/
def mailboxWord (o v : Nat) (s : State) : Option State :=
  if o = 0 then some (whenS (bitAt v 0) mailboxGo s)
  else if o = 8 then some (setLantern { s.lantern with mbxReqBytes := v } s)
  else if o = 4 || o = 12 || 0x8000 ≤ o then some s
  else if 0x1000 ≤ o then some (setLantern { s.lantern with mbxReq := sputs none s.lantern.mbxReq (o - 0x1000) ((natLe 4 v).map some) } s)
  else none

/-! ## BAR0 (R399) -/

def barWord (o v : Nat) (s : State) : Option State :=
  if 0x100000 ≤ o && o < 0x110000 then mailboxWord (o - 0x100000) v s else hostWord o v s

/-- An 8-byte write of two words.  A ring's ENABLE is judged with the other fields of the write in place (R421), and a
queue's ENABLE, as the rest of a block, after those before it. -/
def barPair (o v : Nat) (s : State) : Option State :=
  if 0x20000 ≤ o && o < 0x21000 then (barWord (o + 4) (v / 2 ^ 32) s).bind (barWord o (v % 2 ^ 32))
  else (barWord o (v % 2 ^ 32) s).bind (barWord (o + 4) (v / 2 ^ 32))

/-- A write of BAR0: eight bytes at offset 0 are a doorbell; other registers take aligned accesses of four or eight bytes. -/
def bar0Write (o size v : Nat) (s : State) : State :=
  if !(size == 4 || size == 8) || o % size != 0 then refuseBar s
  else if o < 8 then (if size = 8 then doorbell v s else refuseBar s)
  else ((if size = 4 then barWord o (v % 2 ^ 32) s else barPair o v s).getD (refuseBar s))

/-- The register block of a queue (R405); the free values are its reserved fields (R10). -/
def queueBlock (s : State) (q : Nat) : Bytes :=
  let v := queue s q
  let f := freeField s.free
  let state := match v.state with
    | .disabled => 0
    | .running => 1
    | .stoppedTorn => 2
    | .stoppedError => 3
    | .fenced => 4
  natLe 8 v.sqBase ++ natLe 8 v.cqBase
    ++ natLe 4 (b2n v.sqInDevice + 2 * b2n v.cqInDevice + v.depthLog2 * 2 ^ 2 + v.vector * 2 ^ 6 + b2n v.intEnable * 2 ^ 12 + f 0 13 19)
    ++ natLe 4 (f 1 3 29) ++ natLe 2 (state + f 2 3 13) ++ natLe 2 v.stopStatus ++ natLe 4 v.sqProducer ++ natLe 4 v.sqFetched
    ++ natLe 4 v.cqProducer ++ natLe 4 v.cqHead ++ natLe 4 v.stopIndex ++ natLe 2 v.epochAtEnable
    ++ natLe 14 (f 3 0 32 + f 4 32 32 + f 5 64 32 + f 6 96 16)

/-- The register block of a ring (R420). -/
def ringBlock (s : State) (r : Nat) : Bytes :=
  let g := ring s r
  let f := freeField s.free
  let kind := match g.kind with
    | .off => 0
    | .batch => 1
    | .gradient => 2
    | .outlet => 3
  let state := match g.state with
    | .off => 0
    | .active => 1
    | .stopped => 2
  natLe 4 (kind + b2n g.enable * 2 ^ 2 + f 0 3 5 + g.tableSet * 2 ^ 8 + b2n g.reqFilter * 2 ^ 16 + f 1 17 15)
    ++ natLe 4 (g.requester + f 2 16 16) ++ natLe 4 g.apertureOffset ++ natLe 4 g.apertureBytes ++ natLe 8 g.backing
    ++ natLe 2 (state + f 3 3 13) ++ natLe 2 g.stopStatus ++ natLe 4 (f 4 0 32) ++ natLe 8 g.producer ++ natLe 8 g.consumer
    ++ natLe 8 g.readyStep ++ natLe 8 g.consumedStep

/-- A mask over the first 64 numbers. -/
def maskOf (p : Nat → Bool) : Nat := ((upto 64).map fun i => b2n (p i) * 2 ^ i).sum

/-- The first 64 bytes of the die-0 status page (R400). -/
def statusPage (s : State) : Bytes :=
  let f := freeField s.free
  let stopped (q : Nat) : Bool :=
    match (queue s q).state with
    | .stoppedTorn => true
    | .stoppedError => true
    | .fenced => true
    | _ => false
  natLe 2 (modStateCode s.life.modState + f 0 8 8) ++ natLe 2 s.host.epoch ++ natLe 4 (f 1 0 32) ++ natLe 8 (axis s)
    ++ natLe 8 s.lantern.events.lastSeq
    ++ natLe 8 (b2n s.host.causeError + 2 * b2n s.host.causeQueue + 4 * b2n s.host.causeLoss + f 2 3 29 + f 3 32 32)
    ++ natLe 8 (maskOf stopped) ++ natLe 8 (maskOf fun r => (ring s r).state == .stopped)
    ++ natLe 16 (f 4 0 32 + f 5 32 32 + f 6 64 32 + f 7 96 32)

/-- The mailbox's registers (R483). -/
def mailboxRegs (s : State) : Bytes :=
  let l := s.lantern
  let state := if !l.serving then 3 else if l.mbxBusy then 1 else if l.mbxDone then 2 else 0
  zeros 4 ++ natLe 4 (state + freeField s.free 0 2 14 + l.mbxStatus * 2 ^ 16) ++ natLe 4 l.mbxReqBytes ++ natLe 4 l.mbxResp.length

/-- A byte of BAR0; none at a reserved offset and in DOORBELL (R398). -/
def barByte (s : State) (o : Nat) : Option Byte :=
  if 0x10000 ≤ o && o < 0x11000 then some (nthD 0 (queueBlock s ((o - 0x10000) / 64)) (o % 64))
  else if 0x20000 ≤ o && o < 0x21000 then some (nthD 0 (ringBlock s ((o - 0x20000) / 64)) (o % 64))
  else if 0x30000 ≤ o && o < 0x30008 then
    some (nthD 0 (natLe 8 (freeField s.free 0 0 30 + s.host.windowGib * 2 ^ 30 + s.host.windowDie * 2 ^ 41 + freeField s.free 1 43 21))
      (o - 0x30000))
  else if 0x100000 ≤ o && o < 0x100010 then some (nthD 0 (mailboxRegs s) (o - 0x100000))
  else if 0x101000 ≤ o && o < 0x108000 then
    some ((sget none s.lantern.mbxReq (o - 0x101000)).getD (Config.freeByte s.free (o - 0x101000)))
  else if 0x108000 ≤ o && o < 0x110000 then some (nthD (Config.freeByte s.free o) s.lantern.mbxResp (o - 0x108000))
  else if 0x200000 ≤ o && o < 0x200040 then some (nthD 0 (statusPage s) (o - 0x200000))
  else if 0x300000 ≤ o && o < 0x300410 then some (nthD 0 (natLe 4 (sget 0 s.host.table ((o - 0x300000) / 4))) (o % 4))
  else if 0x301000 ≤ o && o < 0x301010 then
    some (BitVec.ofNat 8 ((upto 8).map fun i => b2n (sget false s.host.pba (8 * (o - 0x301000) + i)) * 2 ^ i).sum)
  else none

/-- R399: a read of BAR0 and what it leaves.  No row of the table reads BAR0, so no command takes this read. -/
def bar0Read (o size : Nat) (s : State) : Bytes × State :=
  let bytes := (upto size).map fun i => barByte s (o + i)
  if (size == 4 || size == 8) && o % size == 0 && bytes.all Option.isSome then (bytes.map fun b => b.getD 0, (nextFree s).2)
  else (zeros size, refuseBar s)

/-- REGISTER_WRITE. -/
def registerWrite (t : RegTarget) (s : State) : State :=
  match t with
  | .dict p index sub b => requestWrite p index sub 0 b s
  | .bar0 o size v => settleRun (bar0Write o size v s)

/-! ## I3C and the UART (R484 to R486) -/

/-- I3C_PRIVATE_WRITE. -/
def i3cWrite (b : Bytes) (s : State) : State :=
  if !s.lantern.serving || s.life.recovery || s.lantern.i3cAddr.isNone then s
  else if b.length = 3 then
    setLantern { s.lantern with i3cSelect := some (field b 0 2 * 256 + field b 2 1), i3cRefused := false } s
  else setLantern { s.lantern with i3cRefused := true } s

/-- R485: status and value of the selected entry. -/
def i3cValue (s : State) : Nat × Bytes :=
  if s.lantern.i3cRefused then (0x0C0C, [])
  else
    let k := s.lantern.i3cSelect.getD 0
    if k % 256 = 0 && k / 65536 = 0x10 then readEntry s .i3c (k / 256) 0 0 none
    else
      match entryOf k with
      | some e => if e.i3c then readEntry s .i3c (k / 256) (k % 256) 0 none else (0x0C0C, [])
      | none => if k % 256 = 0 && !(indexEntries (k / 256)).isEmpty then (0x0C0C, []) else (0x0C01, [])

/-- I3C_PRIVATE_READ. -/
def i3cRead (s : State) : State :=
  if !s.lantern.serving || s.life.recovery || s.lantern.i3cAddr.isNone then s
  else
    let r := i3cValue s
    emit (.i3cData (natLe 2 r.1 ++ r.2)) (setLantern { s.lantern with i3cRefused := false } (count E.I3C_READS (nextFree s).2))

/-- I3C_ADDRESS_ASSIGN. -/
def i3cAssign (address : Nat) (inBand : Bool) (s : State) : State :=
  if !s.lantern.serving then s else setLantern { s.lantern with i3cAddr := some address, i3cIbi := inBand } s

/-- UART_CONSOLE_COMMAND: the console prints the status and the value. -/
def uartCommand (write : Bool) (index sub : Nat) (b : Bytes) (s : State) : State :=
  if !s.lantern.serving then s
  else if write then
    let r := writeEntry .uart index sub 0 b s
    emit (.uart (natLe 2 r.1)) r.2
  else
    let r := readTaken .uart index sub 0 none s
    emit (.uart (natLe 2 r.1 ++ r.2.1)) r.2.2

/-! ## SPDM (R474) -/

/-- The six measurement blocks. -/
def measurements (s : State) : List Bytes :=
  let f := s.lantern.fw
  [Config.bootRomHash, fwBodyHash f f.runningB, natLe 8 (fwVersion f f.runningB) ++ natLe 4 (fwSvn f f.runningB),
   natLe 4 s.lantern.sets.active.number ++ natLe 4 (if slotEmpty s.lantern.sets.active then 0 else slotCheck s.lantern.sets.active),
   sha384 ((capsOn s).flatMap fun id => natLe 8 (capEntry s id)), natLe 4 f.svnFloor ++ natLe 1 f.keyRevoked]

/-- What an answer carries beside the layout that DSP0274 gives it.  0: GET_VERSION, 1: GET_CAPABILITIES,
2: NEGOTIATE_ALGORITHMS, 3: GET_DIGESTS, 4: GET_CERTIFICATE, 5: CHALLENGE, 6: GET_MEASUREMENTS, 7: any other request. -/
def spdmContent (kind : Nat) (s : State) : Bytes :=
  match kind with
  | 3 => sha384 Config.attestChain
  | 4 => Config.attestChain
  | 6 => (measurements s).flatten
  | _ => []

/-- Whether the answer is signed by the device identity key. -/
def spdmSigned (kind : Nat) : Bool := kind == 5 || kind == 6

/-- Answers an SPDM request: a free framing, the content, and the signature over the exchange so far. -/
def spdm (kind : Nat) (request : Bytes) (s : State) : State :=
  if !s.lantern.serving || s.life.recovery then s
  else
    let f := nextFree s
    let s := f.2
    let body := Config.spdmAnswer f.1 (natLe 1 kind ++ request) ++ spdmContent kind s
    let log := (if kind = 0 then [] else s.lantern.spdmLog) ++ request ++ body
    let answer := if spdmSigned kind then body ++ Config.signature log else body
    emit (.spdm answer) (setLantern { s.lantern with spdmLog := log } s)

/-! ## Events (R497, R498) -/

/-- EVENT_RECORDS. -/
def requestEvents (p : Path) (s : State) : State := requestRead p (E.EVENT_RECORDS / 256) (E.EVENT_RECORDS % 256) s

end Sys2Proof.Machine
end

