-- ==== Sys2Proof/WellFormed.lean ====
section
/-!
DEFINITION. Well-formed commands: every operand fits the field, bus or pin that carries it, and a command record has the
OPCODE of its row.  An ill-formed command is one that nothing can send.
-/
namespace Sys2Proof

/-- A number fits in `n` bits. -/
def fits (n v : Nat) : Bool := decide (v < 2 ^ n)

/-- A queue command: one of 64 queues (R405), a 32-bit index, and a record whose OPCODE is the row's (R371). -/
def wfCommand (opcode queue index : Nat) (r : Rec64) : Bool :=
  fits 6 queue && fits 32 index && r.toNat % 256 == opcode

/-- "Packet header, 32 bytes": the widths of its fields, and at most 4,096 bytes of data. -/
def wfPacket (p : Packet) : Bool :=
  fits 64 p.address && fits 13 p.srcModule && fits 2 p.srcDie && fits 8 p.op && fits 3 p.cls && fits 3 p.long
    && fits 13 p.viaModule && fits 16 p.tag && fits 16 p.status && fits 7 p.hops && fits 32 p.endCheck
    && p.rsv &&& reservedBits == p.rsv && decide (p.data.length ≤ 4096)

/-- A packet of one operation. -/
def wfOp (op : Nat) (p : Packet) : Bool := wfPacket p && p.op == op

/-- A Guyline packet (R435). -/
def wfGuyline (p : GPacket) : Bool :=
  fits 2 p.path && fits 8 p.gop && fits 3 p.cls && fits 2 p.die && fits 2 p.region && fits 16 p.tag && fits 16 p.status
    && fits 32 p.stepLo && fits 32 p.endCheck && fits 3 p.rsv && decide (p.data.length ≤ 4096)

/-- An assembled message (R321 to R324). -/
def wfMsg (op : Nat) (m : Msg) : Bool :=
  fits 13 m.src && fits 2 m.srcDie && fits 16 m.tag && m.op == op && fits 32 m.msgId && fits 32 m.stepLo && fits 4 m.region
    && decide (m.body.length ≤ 1048640) && decide (m.head.length ≤ 32) && fits 32 m.off

/-- A data flit (R297). -/
def wfFlit (f : Flit) : Bool :=
  fits 12 f.seq && fits 12 f.ack && decide (f.vcClass < 5) && fits 32 f.crc && f.body.length == 120

/-- A codeword of 544 symbols (R296). -/
def wfWord (c : Codeword) : Bool := decide (c.errors ≤ 544)

/-- A control flit (R298). -/
def wfControl (c : Control) : Bool :=
  wfWord c.word && fits 4 c.code && fits 12 c.ack && fits 12 c.nakSeq && c.credits.all fun e => decide (e.1 < 20) && fits 16 e.2

/-- A training record (R302). -/
def wfTrain (r : TrainRec) : Bool :=
  wfWord r.word && fits 13 r.moduleNumber && fits 4 r.port && fits 8 r.levels && fits 8 r.role && fits 32 r.systemId && fits 32 r.coordCheck
    && fits 8 r.dimX && fits 8 r.dimY && fits 8 r.dimZ && fits 8 r.selected && fits 16 r.twinPeer && fits 8 r.twinSide

/-- The eight fabric ports, the four Guyline ports, and all twelve (R292, R432). -/
def fabricPort (i : Nat) : Bool := decide (i < 8)
def guylinePort (i : Nat) : Bool := decide (8 ≤ i) && decide (i < 12)
def anyPort (i : Nat) : Bool := decide (i < 12)

/-- A dictionary request's path: an ODP source is an IPv4 address and a UDP port (R480). -/
def wfPath : Path → Bool
  | .mailbox => true
  | .odp source _ => fits 48 source
  | .i3c => true
  | .uart => true

/-- An entry's index and subindex (R475). -/
def wfEntry (index sub : Nat) : Bool := fits 16 index && fits 8 sub

/-- A response over the fabric or a Guyline. -/
def wfReply : Reply → Bool
  | .fabric die p => fits 2 die && wfPacket p
  | .guyline p => wfGuyline p

/-- What waits for a back-off. -/
def wfRetry : Retry → Bool
  | .request die tag => fits 2 die && fits 16 tag
  | .message _ => true
  | .guyline path tag => fits 2 path && fits 16 tag

/-- A REGISTER_WRITE: an entry, or a write of one to eight bytes inside the 32 MiB of BAR0 (R398, R399). -/
def wfTarget : RegTarget → Bool
  | .dict path index sub _ => wfPath path && wfEntry index sub
  | .bar0 offset size value =>
    decide (1 ≤ size) && decide (size ≤ 8) && fits 25 offset && decide (value < 2 ^ (8 * size))

/-- R397: a range inside a BAR. -/
def inBar (bar offset length : Nat) : Bool := Config.bars.any fun b => b.1 == bar && decide (offset + length ≤ b.2.2)

/-- Upsets: a region and tier and a mask over a sector's stored bits, an SRAM line of a die, or one of the six bridges. -/
def wfUpset : Upset → Bool
  | .dram region tier _ _ _ => decide (region < 16) && decide (tier < 2)
  | .sram die line word kind => fits 2 die && decide (line < 2 ^ 20 + 2 ^ 15) && fits 3 word && (kind == 1 || kind == 2)
  | .bridge number => decide (number < 6)

/-- A unit of this module, packed as in R36 below the module number: one that R16 or R18 names. -/
def wfUnit (c : Nat) : Bool :=
  let unit := c % 64
  let cluster := c / 64 % 4
  let region := c / 256 % 8
  fits 13 c && if region < 4 then decide (unit < ([5, 13, 10, 37][cluster]?).getD 0)
    else region == 4 && decide (unit < ([16, 1, 7, 0][cluster]?).getD 0)

/-- Whether a command is well formed. -/
def Instr.wf : Instr → Bool
  | .nop queue index record => wfCommand 0x00 queue index record
  | .pegSignal queue index record => wfCommand 0x01 queue index record
  | .pegWait queue index record => wfCommand 0x02 queue index record
  | .pegSet queue index record => wfCommand 0x03 queue index record
  | .dmaCopy queue index record => wfCommand 0x08 queue index record
  | .dmaTranspose queue index record => wfCommand 0x09 queue index record
  | .rucksackPush queue index record => wfCommand 0x0A queue index record
  | .rucksackPop queue index record => wfCommand 0x0B queue index record
  | .gemm queue index record => wfCommand 0x10 queue index record
  | .rowRead queue index record => wfCommand 0x18 queue index record
  | .rowWrite queue index record => wfCommand 0x19 queue index record
  | .rowFreeze queue index record => wfCommand 0x1A queue index record
  | .rowReset queue index record => wfCommand 0x1B queue index record
  | .rowengFwd queue index record => wfCommand 0x1C queue index record
  | .rowengBwd queue index record => wfCommand 0x1D queue index record
  | .gatherPool queue index record => wfCommand 0x20 queue index record
  | .gradScatter queue index record => wfCommand 0x21 queue index record
  | .denseReduce queue index record => wfCommand 0x28 queue index record
  | .sched queue index record => wfCommand 0x30 queue index record
  | .checkScan queue index record => wfCommand 0x38 queue index record
  | .genSetup queue index record => wfCommand 0x40 queue index record
  | .genCut queue index record => wfCommand 0x41 queue index record
  | .genExport queue index record => wfCommand 0x42 queue index record
  | .genRelease queue index record => wfCommand 0x43 queue index record
  | .feedBind queue index record => wfCommand 0x48 queue index record
  | .load queue index record => wfCommand 0x50 queue index record
  | .unload queue index record => wfCommand 0x51 queue index record
  | .commandFetch queue _ => fits 6 queue
  | .descriptorRecheckExpiry queue _ => fits 6 queue
  | .commandStart queue index => fits 6 queue && fits 32 index
  | .commandComplete queue index => fits 6 queue && fits 32 index
  | .completionFlushDone queue => fits 6 queue
  | .intCoalesceExpiry queue => fits 6 queue
  | .doorbellSqProducer queue index => fits 6 queue && fits 32 index
  | .doorbellCqHead queue index => fits 6 queue && fits 32 index
  | .queueEnable queue => fits 6 queue
  | .queueDisable queue => fits 6 queue
  | .queueRestart queue => fits 6 queue
  | .causeClear mask => fits 32 mask
  | .bar2Read offset length => inBar 2 offset length
  | .bar2Write offset data _ => inBar 2 offset data.length
  | .intakeWindowWrite requester offset data _ => fits 16 requester && inBar 4 offset data.length
  | .exportWindowRead offset length => inBar 4 offset length
  | .intakeProducerWrite ring size _ => fits 6 ring && decide (1 ≤ size)
  | .consumedStepWrite ring _ => fits 6 ring
  | .ringEnable ring => fits 6 ring
  | .ringDisable ring => fits 6 ring
  | .feedExportPublish _ => true
  | .mailboxGo => true
  | .pcieLinkExitL0 => true
  | .pcieLinkReturnL0 => true
  | .hostLossTimeout => true
  | .perstAssert => true
  | .perstDeassert => true
  | .functionLevelReset => true
  | .pcieHotReset => true
  | .d3hotEntry => true
  | .axisSignal packet => wfOp 0x04 packet
  | .readyReport => true
  | .readySignal packet => wfOp 0x04 packet
  | .beatExpiry => true
  | .joinStepSignal packet => wfOp 0x04 packet
  | .joinSignal packet => wfOp 0x04 packet
  | .leaveSignal packet => wfOp 0x04 packet
  | .excludeSignal packet => wfOp 0x04 packet
  | .admitSignal packet => wfOp 0x04 packet
  | .standbyAdmit => true
  | .ridgeSourceLoss => true
  | .standbyTakeover => true
  | .stepWatchdogExpiry => true
  | .boundDelayExpiry _ => true
  | .pegWaitTimeout queue index => fits 6 queue && fits 32 index
  | .dataFlitReceive port flit code => anyPort port && wfFlit flit && wfWord code
  | .controlFlitReceive port flit => anyPort port && wfControl flit
  | .nakReceive port flit => anyPort port && wfControl flit
  | .trainFlitReceive port record => anyPort port && wfTrain record
  | .heartbeatReceive port moduleNumber modState twinState _ runId => guylinePort port && fits 13 moduleNumber && fits 8 modState && fits 8 twinState && fits 32 runId
  | .controlFlitInterval port => anyPort port
  | .linkRetryExpiry port => anyPort port
  | .codewordLockLoss port => anyPort port
  | .portTrainingDone port => anyPort port
  | .retrainTimeout port => anyPort port
  | .linkDownRetryExpiry port => anyPort port
  | .packetTransit port packet => fabricPort port && wfPacket packet
  | .read packet upsets => wfOp 0x01 packet && upsets.all wfUpset
  | .write packet => wfOp 0x02 packet
  | .atomicAdd packet => wfOp 0x03 packet
  | .fabricPegSignal packet => wfOp 0x04 packet
  | .poisonedWrite packet => wfOp 0x19 packet
  | .responseReceive reply => wfReply reply
  | .fabricRequestTimeout _ die tag => fits 2 die && fits 16 tag
  | .retryBackoffExpiry retry => wfRetry retry
  | .messageFragmentReceive packet => wfPacket packet
  | .indexRun msg => wfMsg 0x10 msg
  | .bandPartial msg => wfMsg 0x11 msg
  | .gradMsg msg => wfMsg 0x12 msg
  | .gradConsume region => decide (region < 16)
  | .targetSliceApply region _ _ _ _ _ => decide (region < 16)
  | .shardGrad msg => wfMsg 0x13 msg
  | .ledgerUp msg => wfMsg 0x14 msg
  | .ledgerDown msg => wfMsg 0x15 msg
  | .shardMulticast msg => wfMsg 0x16 msg
  | .stepReport msg => wfMsg 0x17 msg
  | .stepVerdict msg => wfMsg 0x18 msg
  | .portEnableMaskWrite path value => wfPath path && fits 8 value
  | .routeTableCommit path value => wfPath path && fits 8 value
  | .torusDimWrite path axis value => wfPath path && decide (axis < 3) && fits 8 value
  | .coordTableWrite path _ _ => wfPath path
  | .parityFlushExpiry _ => true
  | .burnisherPageCheck region tier upsets => decide (region < 16) && decide (tier < 2) && upsets.all wfUpset
  | .burnisherLapAlarm region tier => decide (region < 16) && decide (tier < 2)
  | .repairRequest port packet => guylinePort port && wfGuyline packet
  | .twinRepairWrite port packet => guylinePort port && wfGuyline packet
  | .checkScanRun die => fits 2 die
  | .proofRecompute region => decide (region < 16)
  | .watchRingTailWrite path value => wfPath path && fits 64 value
  | .watchHistoryReset path value => wfPath path && fits 16 value
  | .watchResume path value => wfPath path && fits 8 value
  | .stepAgreeResume path value => wfPath path && fits 8 value
  | .tsetT path value => wfPath path && fits 64 value
  | .salvage path value => wfPath path && fits 8 value
  | .heartbeatSendExpiry => true
  | .twinBeatLoss => true
  | .livenessDecision _ word => fits 64 word
  | .twinProbeExpiry member => fits 13 member
  | .mirrorLog port packet => guylinePort port && wfGuyline packet
  | .stepOperands port packet => guylinePort port && wfGuyline packet
  | .stepMark port packet => guylinePort port && wfGuyline packet
  | .copyPage port packet => guylinePort port && wfGuyline packet
  | .occurrences port packet => guylinePort port && wfGuyline packet
  | .contributions port packet => guylinePort port && wfGuyline packet
  | .rowChange port packet => guylinePort port && wfGuyline packet
  | .inputPowerArrival feed => decide (feed < 2)
  | .bringupStageComplete failedRails => failedRails.all fun r => decide (r < 64)
  | .bringupStageTimeout unit => wfUnit unit
  | .bringupRetryExpiry => true
  | .feedUndervoltage feed => decide (feed < 2)
  | .feedLost feed => decide (feed < 2)
  | .feedOvervoltage feed => decide (feed < 2)
  | .feedReconnect feed => decide (feed < 2)
  | .powerFailWarning => true
  | .bulkBusCollapse => true
  | .railFault rail => decide (rail < 64)
  | .thermalThrottle _ unit _ => decide (unit < 8)
  | .thermalShutdown _ unit _ => decide (unit < 8)
  | .coolantFlowLow _ => true
  | .powerLimitInterval _ => true
  | .throttleRaiseInterval _ => true
  | .senseSample values => values.length == 64
  | .enterRetention path => wfPath path
  | .exitRetention path => wfPath path
  | .moduleReset path => wfPath path
  | .standbyRequest path => wfPath path
  | .coldStart path => wfPath path
  | .resetReqAssert => true
  | .serviceButtonShort => true
  | .serviceButtonHold => true
  | .lanternFault => true
  | .lanternServing => true
  | .fwBegin path => wfPath path
  | .fwUpdateData path _ _ => wfPath path
  | .fwVerify path => wfPath path
  | .fwVerifyDone => true
  | .fwActivate path => wfPath path
  | .fwAbort path => wfPath path
  | .fwConfirm path value => wfPath path && fits 8 value
  | .odpRequest source _ => fits 48 source
  | .odpRead path index sub => wfPath path && wfEntry index sub
  | .odpWrite path index sub _ => wfPath path && wfEntry index sub
  | .describe path index sub => wfPath path && wfEntry index sub
  | .stage path index sub _ => wfPath path && wfEntry index sub
  | .registerWrite target => wfTarget target
  | .i3cPrivateWrite _ => true
  | .i3cPrivateRead => true
  | .i3cAddressAssign address _ => fits 7 address
  | .uartConsoleCommand _ index sub _ => wfEntry index sub
  | .getVersion _ => true
  | .getCapabilities _ => true
  | .negotiateAlgorithms _ => true
  | .getDigests _ => true
  | .getCertificate _ => true
  | .challenge _ => true
  | .getMeasurements _ => true
  | .spdmUnsupported _ => true
  | .setCommit path value => wfPath path && fits 64 value
  | .setRevert path value => wfPath path && fits 32 value
  | .setConfirm path value => wfPath path && fits 32 value
  | .setClear path value => wfPath path && fits 8 value
  | .setConfirmTimeout => true
  | .faultCodeClear path value => wfPath path && fits 16 value
  | .countersClearAll path value => wfPath path && fits 8 value
  | .eventRateInterval => true
  | .eventLogFlashWrite => true
  | .eventRecords path => wfPath path
  | .ptpMessage message _ _ => decide (message.domain < 256)
  | .unitFault unit => wfUnit unit
  | .configurationWrite _ _ _ => true
  | .pcieCompletionTimeout queue => fits 6 queue
  | .dupFilterEntryExpiry die src srcDie tag => fits 2 die && fits 13 src && fits 2 srcDie && fits 16 tag
  | .hbm3RefreshDoubled stack _ => decide (stack < 8)
  | .ptpUnlocked => true

end Sys2Proof
end

