-- ==== Sys2Proof/Machine/Guard.lean ====
section
/-!
DEFINITION. The one way a command acts: a well-formed command has its effect; a term that no sender can send has none.
-/
namespace Sys2Proof.Machine

/-- A state with a queue of waiting commands. -/
def withQueue (cs : List Instr) (t : State) : State := { t with pending := cs }

/-- A well-formed command takes the state to the next, and the queue of waiting commands stays as it is.  A term with an
operand outside the field, bus or pin that carries it is no command: nothing reaches the module, and its state stays
(DESIGN CHOICE, log entry 249). -/
def guarded (i : Instr) (f : State → State) (s : State) : Host.Outcome State Fault Refusal :=
  .next (if i.wf then withQueue s.pending (f s) else s)

end Sys2Proof.Machine
end

