-- ==== Sys2Proof/Machine/CommandRows.lean ====
section
/-!
DEFINITION. The twenty-seven commands of the submission queues (chapters 07 to 10, 13 to 16): one meaning for each row.
-/
namespace Sys2Proof.Machine

/-- NOP (R372). -/
def execNop (queue : Nat) (index : Nat) (record : Rec64) (s : State) : Host.Outcome State Fault Refusal :=
  guarded (.nop queue index record) (fun s => settleRun (commandRow queue index record s)) s

/-- PEG_SIGNAL (R378). -/
def execPegSignal (queue : Nat) (index : Nat) (record : Rec64) (s : State) : Host.Outcome State Fault Refusal :=
  guarded (.pegSignal queue index record) (fun s => settleRun (commandRow queue index record s)) s

/-- PEG_WAIT (R378). -/
def execPegWait (queue : Nat) (index : Nat) (record : Rec64) (s : State) : Host.Outcome State Fault Refusal :=
  guarded (.pegWait queue index record) (fun s => settleRun (commandRow queue index record s)) s

/-- PEG_SET (R366). -/
def execPegSet (queue : Nat) (index : Nat) (record : Rec64) (s : State) : Host.Outcome State Fault Refusal :=
  guarded (.pegSet queue index record) (fun s => settleRun (commandRow queue index record s)) s

/-- DMA_COPY (R379). -/
def execDmaCopy (queue : Nat) (index : Nat) (record : Rec64) (s : State) : Host.Outcome State Fault Refusal :=
  guarded (.dmaCopy queue index record) (fun s => settleRun (commandRow queue index record s)) s

/-- DMA_TRANSPOSE (R212). -/
def execDmaTranspose (queue : Nat) (index : Nat) (record : Rec64) (s : State) : Host.Outcome State Fault Refusal :=
  guarded (.dmaTranspose queue index record) (fun s => settleRun (commandRow queue index record s)) s

/-- RUCKSACK_PUSH (R220). -/
def execRucksackPush (queue : Nat) (index : Nat) (record : Rec64) (s : State) : Host.Outcome State Fault Refusal :=
  guarded (.rucksackPush queue index record) (fun s => settleRun (commandRow queue index record s)) s

/-- RUCKSACK_POP (R221). -/
def execRucksackPop (queue : Nat) (index : Nat) (record : Rec64) (s : State) : Host.Outcome State Fault Refusal :=
  guarded (.rucksackPop queue index record) (fun s => settleRun (commandRow queue index record s)) s

/-- GEMM (R207). -/
def execGemm (queue : Nat) (index : Nat) (record : Rec64) (s : State) : Host.Outcome State Fault Refusal :=
  guarded (.gemm queue index record) (fun s => settleRun (commandRow queue index record s)) s

/-- ROW_READ (R386). -/
def execRowRead (queue : Nat) (index : Nat) (record : Rec64) (s : State) : Host.Outcome State Fault Refusal :=
  guarded (.rowRead queue index record) (fun s => settleRun (commandRow queue index record s)) s

/-- ROW_WRITE (R387). -/
def execRowWrite (queue : Nat) (index : Nat) (record : Rec64) (s : State) : Host.Outcome State Fault Refusal :=
  guarded (.rowWrite queue index record) (fun s => settleRun (commandRow queue index record s)) s

/-- ROW_FREEZE (R387). -/
def execRowFreeze (queue : Nat) (index : Nat) (record : Rec64) (s : State) : Host.Outcome State Fault Refusal :=
  guarded (.rowFreeze queue index record) (fun s => settleRun (commandRow queue index record s)) s

/-- ROW_RESET (R387). -/
def execRowReset (queue : Nat) (index : Nat) (record : Rec64) (s : State) : Host.Outcome State Fault Refusal :=
  guarded (.rowReset queue index record) (fun s => settleRun (commandRow queue index record s)) s

/-- ROWENG_FWD (R228). -/
def execRowengFwd (queue : Nat) (index : Nat) (record : Rec64) (s : State) : Host.Outcome State Fault Refusal :=
  guarded (.rowengFwd queue index record) (fun s => settleRun (commandRow queue index record s)) s

/-- ROWENG_BWD (R227). -/
def execRowengBwd (queue : Nat) (index : Nat) (record : Rec64) (s : State) : Host.Outcome State Fault Refusal :=
  guarded (.rowengBwd queue index record) (fun s => settleRun (commandRow queue index record s)) s

/-- GATHER_POOL (R381). -/
def execGatherPool (queue : Nat) (index : Nat) (record : Rec64) (s : State) : Host.Outcome State Fault Refusal :=
  guarded (.gatherPool queue index record) (fun s => settleRun (commandRow queue index record s)) s

/-- GRAD_SCATTER (R383). -/
def execGradScatter (queue : Nat) (index : Nat) (record : Rec64) (s : State) : Host.Outcome State Fault Refusal :=
  guarded (.gradScatter queue index record) (fun s => settleRun (commandRow queue index record s)) s

/-- DENSE_REDUCE (R384). -/
def execDenseReduce (queue : Nat) (index : Nat) (record : Rec64) (s : State) : Host.Outcome State Fault Refusal :=
  guarded (.denseReduce queue index record) (fun s => settleRun (commandRow queue index record s)) s

/-- SCHED (R389). -/
def execSched (queue : Nat) (index : Nat) (record : Rec64) (s : State) : Host.Outcome State Fault Refusal :=
  guarded (.sched queue index record) (fun s => settleRun (commandRow queue index record s)) s

/-- CHECK_SCAN (R280). -/
def execCheckScan (queue : Nat) (index : Nat) (record : Rec64) (s : State) : Host.Outcome State Fault Refusal :=
  guarded (.checkScan queue index record) (fun s => settleRun (commandRow queue index record s)) s

/-- GEN_SETUP (R461). -/
def execGenSetup (queue : Nat) (index : Nat) (record : Rec64) (s : State) : Host.Outcome State Fault Refusal :=
  guarded (.genSetup queue index record) (fun s => settleRun (commandRow queue index record s)) s

/-- GEN_CUT (R462). -/
def execGenCut (queue : Nat) (index : Nat) (record : Rec64) (s : State) : Host.Outcome State Fault Refusal :=
  guarded (.genCut queue index record) (fun s => settleRun (commandRow queue index record s)) s

/-- GEN_EXPORT (R465). -/
def execGenExport (queue : Nat) (index : Nat) (record : Rec64) (s : State) : Host.Outcome State Fault Refusal :=
  guarded (.genExport queue index record) (fun s => settleRun (commandRow queue index record s)) s

/-- GEN_RELEASE (R465). -/
def execGenRelease (queue : Nat) (index : Nat) (record : Rec64) (s : State) : Host.Outcome State Fault Refusal :=
  guarded (.genRelease queue index record) (fun s => settleRun (commandRow queue index record s)) s

/-- FEED_BIND (R426). -/
def execFeedBind (queue : Nat) (index : Nat) (record : Rec64) (s : State) : Host.Outcome State Fault Refusal :=
  guarded (.feedBind queue index record) (fun s => settleRun (commandRow queue index record s)) s

/-- LOAD (R391). -/
def execLoad (queue : Nat) (index : Nat) (record : Rec64) (s : State) : Host.Outcome State Fault Refusal :=
  guarded (.load queue index record) (fun s => settleRun (commandRow queue index record s)) s

/-- UNLOAD (R393). -/
def execUnload (queue : Nat) (index : Nat) (record : Rec64) (s : State) : Host.Outcome State Fault Refusal :=
  guarded (.unload queue index record) (fun s => settleRun (commandRow queue index record s)) s

end Sys2Proof.Machine
end

