-- ==== Sys2Proof/Machine/DictRows.lean ====
section
/-!
DEFINITION. The object dictionary by its paths, and the entries that act (R154, R241 to R254, R289, R311, R320, R459, R475 to R493, R499): one meaning for each row.
-/
namespace Sys2Proof.Machine

/-- PORT_ENABLE_MASK_WRITE (R320). -/
def execPortEnableMaskWrite (path : Path) (value : Nat) (s : State) : Host.Outcome State Fault Refusal :=
  guarded (.portEnableMaskWrite path value)
    (fun s => requestNumber path E.PORT_ENABLE_MASK 1 value s) s

/-- ROUTE_TABLE_COMMIT (R311). -/
def execRouteTableCommit (path : Path) (value : Nat) (s : State) : Host.Outcome State Fault Refusal :=
  guarded (.routeTableCommit path value) (fun s => requestNumber path E.ROUTE_TABLE_COMMIT 1 value s) s

/-- TORUS_DIM_WRITE (R289). -/
def execTorusDimWrite (path : Path) (axis : Nat) (value : Nat) (s : State) : Host.Outcome State Fault Refusal :=
  guarded (.torusDimWrite path axis value) (fun s => requestNumber path (E.TORUS_DIM_X + axis) 1 value s) s

/-- COORD_TABLE_WRITE (R289). -/
def execCoordTableWrite (path : Path) (first : Nat) (data : Bytes) (s : State) : Host.Outcome State Fault Refusal :=
  guarded (.coordTableWrite path first data)
    (fun s => requestWrite path (E.COORD_TABLE / 256) (E.COORD_TABLE % 256) (2 * first) data s) s

/-- WATCH_RING_TAIL_WRITE (R254). -/
def execWatchRingTailWrite (path : Path) (value : Nat) (s : State) : Host.Outcome State Fault Refusal :=
  guarded (.watchRingTailWrite path value) (fun s => requestNumber path E.WATCH_RING_TAIL 8 value s) s

/-- WATCH_HISTORY_RESET (R241). -/
def execWatchHistoryReset (path : Path) (value : Nat) (s : State) : Host.Outcome State Fault Refusal :=
  guarded (.watchHistoryReset path value) (fun s => requestNumber path E.WATCH_HISTORY_RESET 2 value s) s

/-- WATCH_RESUME (R245). -/
def execWatchResume (path : Path) (value : Nat) (s : State) : Host.Outcome State Fault Refusal :=
  guarded (.watchResume path value) (fun s => requestNumber path E.WATCH_RESUME 1 value s) s

/-- STEP_AGREE_RESUME (R154). -/
def execStepAgreeResume (path : Path) (value : Nat) (s : State) : Host.Outcome State Fault Refusal :=
  guarded (.stepAgreeResume path value) (fun s => requestNumber path E.STEP_AGREE_RESUME 1 value s) s

/-- TSET_T (R154). -/
def execTsetT (path : Path) (value : Nat) (s : State) : Host.Outcome State Fault Refusal :=
  guarded (.tsetT path value) (fun s => requestNumber path E.TSET_T 8 value s) s

/-- SALVAGE (R459). -/
def execSalvage (path : Path) (value : Nat) (s : State) : Host.Outcome State Fault Refusal :=
  guarded (.salvage path value) (fun s => requestNumber path E.SALVAGE 1 value s) s

/-- ODP_REQUEST (R480). -/
def execOdpRequest (source : Nat) (data : Bytes) (s : State) : Host.Outcome State Fault Refusal :=
  guarded (.odpRequest source data) (fun s => odpRequest source data s) s

/-- ODP_READ (R477). -/
def execOdpRead (path : Path) (index : Nat) (sub : Nat) (s : State) : Host.Outcome State Fault Refusal :=
  guarded (.odpRead path index sub) (fun s => requestRead path index sub s) s

/-- ODP_WRITE (R476). -/
def execOdpWrite (path : Path) (index : Nat) (sub : Nat) (data : Bytes) (s : State) : Host.Outcome State Fault Refusal :=
  guarded (.odpWrite path index sub data) (fun s => requestWrite path index sub 0 data s) s

/-- DESCRIBE (R479). -/
def execDescribe (path : Path) (index : Nat) (sub : Nat) (s : State) : Host.Outcome State Fault Refusal :=
  guarded (.describe path index sub) (fun s => requestDescribe path index sub s) s

/-- STAGE (R488). -/
def execStage (path : Path) (index : Nat) (sub : Nat) (data : Bytes) (s : State) : Host.Outcome State Fault Refusal :=
  guarded (.stage path index sub data) (fun s => requestStage path index sub data s) s

/-- REGISTER_WRITE (R476). -/
def execRegisterWrite (target : RegTarget) (s : State) : Host.Outcome State Fault Refusal :=
  guarded (.registerWrite target) (fun s => registerWrite target s) s

/-- I3C_PRIVATE_WRITE (R484). -/
def execI3cPrivateWrite (data : Bytes) (s : State) : Host.Outcome State Fault Refusal :=
  guarded (.i3cPrivateWrite data) (fun s => i3cWrite data s) s

/-- I3C_PRIVATE_READ (R484). -/
def execI3cPrivateRead (s : State) : Host.Outcome State Fault Refusal :=
  guarded .i3cPrivateRead (fun s => i3cRead s) s

/-- I3C_ADDRESS_ASSIGN (R484). -/
def execI3cAddressAssign (address : Nat) (inBand : Bool) (s : State) : Host.Outcome State Fault Refusal :=
  guarded (.i3cAddressAssign address inBand) (fun s => i3cAssign address inBand s) s

/-- UART_CONSOLE_COMMAND (R486). -/
def execUartConsoleCommand (write : Bool) (index : Nat) (sub : Nat) (data : Bytes) (s : State) :
    Host.Outcome State Fault Refusal :=
  guarded (.uartConsoleCommand write index sub data) (fun s => uartCommand write index sub data s) s

/-- SET_COMMIT (R490). -/
def execSetCommit (path : Path) (value : Nat) (s : State) : Host.Outcome State Fault Refusal :=
  guarded (.setCommit path value) (fun s => requestNumber path E.SET_COMMIT 8 value s) s

/-- SET_REVERT (R492). -/
def execSetRevert (path : Path) (value : Nat) (s : State) : Host.Outcome State Fault Refusal :=
  guarded (.setRevert path value) (fun s => requestNumber path E.SET_REVERT 4 value s) s

/-- SET_CONFIRM (R493). -/
def execSetConfirm (path : Path) (value : Nat) (s : State) : Host.Outcome State Fault Refusal :=
  guarded (.setConfirm path value) (fun s => requestNumber path E.SET_CONFIRM 4 value s) s

/-- SET_CLEAR (R488). -/
def execSetClear (path : Path) (value : Nat) (s : State) : Host.Outcome State Fault Refusal :=
  guarded (.setClear path value) (fun s => requestNumber path E.SET_CLEAR 1 value s) s

/-- SET_CONFIRM_TIMEOUT (R493). -/
def execSetConfirmTimeout (s : State) : Host.Outcome State Fault Refusal :=
  guarded .setConfirmTimeout (fun s => confirmTimeout s) s

/-- FAULT_CODE_CLEAR (R487). -/
def execFaultCodeClear (path : Path) (value : Nat) (s : State) : Host.Outcome State Fault Refusal :=
  guarded (.faultCodeClear path value) (fun s => requestNumber path E.FAULT_CODE 2 value s) s

/-- COUNTERS_CLEAR_ALL (R499). -/
def execCountersClearAll (path : Path) (value : Nat) (s : State) : Host.Outcome State Fault Refusal :=
  guarded (.countersClearAll path value) (fun s => requestNumber path E.COUNTERS_CLEAR_ALL 1 value s) s

end Sys2Proof.Machine
end

