-- ==== Sys2Proof/Machine/FabricRows.lean ====
section
/-!
DEFINITION. Packets, one-sided operations and the ends of requests (R312 to R340, R363): one meaning for each row.
-/
namespace Sys2Proof.Machine

/-- PACKET_TRANSIT (R312). -/
def execPacketTransit (port : Nat) (packet : Packet) (s : State) : Host.Outcome State Fault Refusal :=
  guarded (.packetTransit port packet) (fun s => transit port packet s) s

/-- READ (R318). -/
def execRead (packet : Packet) (upsets : List Upset) (s : State) : Host.Outcome State Fault Refusal :=
  guarded (.read packet upsets) (fun s => arrive packet (readRow packet upsets) s) s

/-- WRITE (R318). -/
def execWrite (packet : Packet) (s : State) : Host.Outcome State Fault Refusal :=
  guarded (.write packet) (fun s => arrive packet (writeRow packet) s) s

/-- ATOMIC_ADD (R318). -/
def execAtomicAdd (packet : Packet) (s : State) : Host.Outcome State Fault Refusal :=
  guarded (.atomicAdd packet) (fun s => arrive packet (atomicAddRow packet) s) s

/-- FABRIC_PEG_SIGNAL (R363). -/
def execFabricPegSignal (packet : Packet) (s : State) : Host.Outcome State Fault Refusal :=
  guarded (.fabricPegSignal packet) (fun s => arrive packet (fabricPegSignalRow packet) s) s

/-- POISONED_WRITE (R321). -/
def execPoisonedWrite (packet : Packet) (s : State) : Host.Outcome State Fault Refusal :=
  guarded (.poisonedWrite packet) (fun s => arrive packet (poisonedWriteRow packet) s) s

/-- RESPONSE_RECEIVE (R339). -/
def execResponseReceive (reply : Reply) (s : State) : Host.Outcome State Fault Refusal :=
  guarded (.responseReceive reply) (fun s => responseArrival reply s) s

/-- FABRIC_REQUEST_TIMEOUT (R336). -/
def execFabricRequestTimeout (guyline : Bool) (die : Nat) (tag : Nat) (s : State) : Host.Outcome State Fault Refusal :=
  guarded (.fabricRequestTimeout guyline die tag) (fun s => fabricTimeout guyline die tag s) s

/-- RETRY_BACKOFF_EXPIRY (R337). -/
def execRetryBackoffExpiry (retry : Retry) (s : State) : Host.Outcome State Fault Refusal :=
  guarded (.retryBackoffExpiry retry) (fun s => retryBackoff retry s) s

/-- MESSAGE_FRAGMENT_RECEIVE (R324). -/
def execMessageFragmentReceive (packet : Packet) (s : State) : Host.Outcome State Fault Refusal :=
  guarded (.messageFragmentReceive packet)
    (fun s => settleRun (arrive packet (fragmentReceive hasRoom packet) s)) s

/-- DUP_FILTER_ENTRY_EXPIRY (R338). -/
def execDupFilterEntryExpiry (die : Nat) (src : Nat) (srcDie : Nat) (tag : Nat) (s : State) :
    Host.Outcome State Fault Refusal :=
  guarded (.dupFilterEntryExpiry die src srcDie tag) (fun s => dupExpiry die src srcDie tag s) s

end Sys2Proof.Machine
end

