-- ==== Sys2Proof/Machine/HostRows.lean ====
section
/-!
DEFINITION. Accesses of the host and of its peers, and what befalls the PCIe link (R400 to R404, R415 to R429): one meaning for each row.
-/
namespace Sys2Proof.Machine

/-- CAUSE_CLEAR (R400). -/
def execCauseClear (mask : Nat) (s : State) : Host.Outcome State Fault Refusal :=
  guarded (.causeClear mask) (fun s => clearCauses mask s) s

/-- BAR2_READ (R404). -/
def execBar2Read (offset : Nat) (length : Nat) (s : State) : Host.Outcome State Fault Refusal :=
  guarded (.bar2Read offset length) (fun s => settleRun (readBar2 offset length s)) s

/-- BAR2_WRITE (R404). -/
def execBar2Write (offset : Nat) (data : Bytes) (poison : Bool) (s : State) : Host.Outcome State Fault Refusal :=
  guarded (.bar2Write offset data poison) (fun s => settleRun (writeBar2 offset data poison s)) s

/-- INTAKE_WINDOW_WRITE (R423). -/
def execIntakeWindowWrite (requester : Nat) (offset : Nat) (data : Bytes) (poison : Bool) (s : State) :
    Host.Outcome State Fault Refusal :=
  guarded (.intakeWindowWrite requester offset data poison)
    (fun s => settleRun (intakeWrite requester offset data poison s)) s

/-- EXPORT_WINDOW_READ (R423). -/
def execExportWindowRead (offset : Nat) (length : Nat) (s : State) : Host.Outcome State Fault Refusal :=
  guarded (.exportWindowRead offset length) (fun s => settleRun (exportRead offset length s)) s

/-- INTAKE_PRODUCER_WRITE (R423). -/
def execIntakeProducerWrite (ring : Nat) (size : Nat) (value : Nat) (s : State) : Host.Outcome State Fault Refusal :=
  guarded (.intakeProducerWrite ring size value)
    (fun s => settleRun (producerWrite ring size value s)) s

/-- CONSUMED_STEP_WRITE (R428). -/
def execConsumedStepWrite (ring : Nat) (value : Nat) (s : State) : Host.Outcome State Fault Refusal :=
  guarded (.consumedStepWrite ring value) (fun s => settleRun (consumedStepWrite ring value s)) s

/-- RING_ENABLE (R421). -/
def execRingEnable (ring : Nat) (s : State) : Host.Outcome State Fault Refusal :=
  guarded (.ringEnable ring) (fun s => enableRing ring s) s

/-- RING_DISABLE (R421). -/
def execRingDisable (ring : Nat) (s : State) : Host.Outcome State Fault Refusal :=
  guarded (.ringDisable ring) (fun s => ringDisable ring s) s

/-- FEED_EXPORT_PUBLISH (R427). -/
def execFeedExportPublish (tableSet : Nat) (s : State) : Host.Outcome State Fault Refusal :=
  guarded (.feedExportPublish tableSet) (fun s => settleRun (feedPublish tableSet s)) s

/-- MAILBOX_GO (R483). -/
def execMailboxGo (s : State) : Host.Outcome State Fault Refusal :=
  guarded .mailboxGo (fun s => settleRun (mailboxGo s)) s

/-- PCIE_LINK_EXIT_L0 (R415). -/
def execPcieLinkExitL0 (s : State) : Host.Outcome State Fault Refusal :=
  guarded .pcieLinkExitL0 (fun s => linkExit s) s

/-- PCIE_LINK_RETURN_L0 (R415). -/
def execPcieLinkReturnL0 (s : State) : Host.Outcome State Fault Refusal :=
  guarded .pcieLinkReturnL0 (fun s => settleRun (linkReturn s)) s

/-- HOST_LOSS_TIMEOUT (R416). -/
def execHostLossTimeout (s : State) : Host.Outcome State Fault Refusal :=
  guarded .hostLossTimeout (fun s => settleRun (lossTimeout s)) s

/-- PERST_ASSERT (R416). -/
def execPerstAssert (s : State) : Host.Outcome State Fault Refusal :=
  guarded .perstAssert (fun s => settleRun (perstOn s)) s

/-- PERST_DEASSERT (R506). -/
def execPerstDeassert (s : State) : Host.Outcome State Fault Refusal :=
  guarded .perstDeassert (fun s => settleRun (perstOff s)) s

/-- FUNCTION_LEVEL_RESET (R416). -/
def execFunctionLevelReset (s : State) : Host.Outcome State Fault Refusal :=
  guarded .functionLevelReset (fun s => settleRun (functionReset s)) s

/-- PCIE_HOT_RESET (R416). -/
def execPcieHotReset (s : State) : Host.Outcome State Fault Refusal :=
  guarded .pcieHotReset (fun s => settleRun (hotReset s)) s

/-- D3HOT_ENTRY (R416). -/
def execD3hotEntry (s : State) : Host.Outcome State Fault Refusal :=
  guarded .d3hotEntry (fun s => settleRun (enterD3hot s)) s

/-- CONFIGURATION_WRITE (R408). -/
def execConfigurationWrite (busMaster : Bool) (functionMask : Bool) (d3hot : Bool) (s : State) :
    Host.Outcome State Fault Refusal :=
  guarded (.configurationWrite busMaster functionMask d3hot)
    (fun s => settleRun (configWrite busMaster functionMask d3hot s)) s

end Sys2Proof.Machine
end

