-- ==== Sys2Proof/Machine/LanternRows.lean ====
section
/-!
DEFINITION. Lantern: its restarts and clock, firmware, attestation and event log (R362, R467 to R474, R497, R498): one meaning for each row.
-/
namespace Sys2Proof.Machine

/-- LANTERN_FAULT (R468). -/
def execLanternFault (s : State) : Host.Outcome State Fault Refusal :=
  guarded .lanternFault (fun s => lanternFault s) s

/-- LANTERN_SERVING (R468). -/
def execLanternServing (s : State) : Host.Outcome State Fault Refusal :=
  guarded .lanternServing (fun s => lanternServing s) s

/-- FW_BEGIN (R473). -/
def execFwBegin (path : Path) (s : State) : Host.Outcome State Fault Refusal :=
  guarded (.fwBegin path) (fun s => requestNumber path E.FW_UPDATE_CONTROL 1 1 s) s

/-- FW_UPDATE_DATA (R473). -/
def execFwUpdateData (path : Path) (offset : Nat) (data : Bytes) (s : State) : Host.Outcome State Fault Refusal :=
  guarded (.fwUpdateData path offset data)
    (fun s => requestWrite path (E.FW_UPDATE_DATA / 256) (E.FW_UPDATE_DATA % 256) offset data s) s

/-- FW_VERIFY (R473). -/
def execFwVerify (path : Path) (s : State) : Host.Outcome State Fault Refusal :=
  guarded (.fwVerify path) (fun s => requestNumber path E.FW_UPDATE_CONTROL 1 2 s) s

/-- FW_VERIFY_DONE (R470). -/
def execFwVerifyDone (s : State) : Host.Outcome State Fault Refusal :=
  guarded .fwVerifyDone (fun s => fwVerifyDone s) s

/-- FW_ACTIVATE (R472). -/
def execFwActivate (path : Path) (s : State) : Host.Outcome State Fault Refusal :=
  guarded (.fwActivate path) (fun s => requestNumber path E.FW_UPDATE_CONTROL 1 3 s) s

/-- FW_ABORT (R473). -/
def execFwAbort (path : Path) (s : State) : Host.Outcome State Fault Refusal :=
  guarded (.fwAbort path) (fun s => requestNumber path E.FW_UPDATE_CONTROL 1 4 s) s

/-- FW_CONFIRM (R472). -/
def execFwConfirm (path : Path) (value : Nat) (s : State) : Host.Outcome State Fault Refusal :=
  guarded (.fwConfirm path value) (fun s => requestNumber path E.FW_CONFIRM 1 value s) s

/-- GET_VERSION (R474). -/
def execGetVersion (request : Bytes) (s : State) : Host.Outcome State Fault Refusal :=
  guarded (.getVersion request) (fun s => spdm 0 request s) s

/-- GET_CAPABILITIES (R474). -/
def execGetCapabilities (request : Bytes) (s : State) : Host.Outcome State Fault Refusal :=
  guarded (.getCapabilities request) (fun s => spdm 1 request s) s

/-- NEGOTIATE_ALGORITHMS (R474). -/
def execNegotiateAlgorithms (request : Bytes) (s : State) : Host.Outcome State Fault Refusal :=
  guarded (.negotiateAlgorithms request) (fun s => spdm 2 request s) s

/-- GET_DIGESTS (R474). -/
def execGetDigests (request : Bytes) (s : State) : Host.Outcome State Fault Refusal :=
  guarded (.getDigests request) (fun s => spdm 3 request s) s

/-- GET_CERTIFICATE (R474). -/
def execGetCertificate (request : Bytes) (s : State) : Host.Outcome State Fault Refusal :=
  guarded (.getCertificate request) (fun s => spdm 4 request s) s

/-- CHALLENGE (R474). -/
def execChallenge (request : Bytes) (s : State) : Host.Outcome State Fault Refusal :=
  guarded (.challenge request) (fun s => spdm 5 request s) s

/-- GET_MEASUREMENTS (R474). -/
def execGetMeasurements (request : Bytes) (s : State) : Host.Outcome State Fault Refusal :=
  guarded (.getMeasurements request) (fun s => spdm 6 request s) s

/-- SPDM_UNSUPPORTED (R474). -/
def execSpdmUnsupported (request : Bytes) (s : State) : Host.Outcome State Fault Refusal :=
  guarded (.spdmUnsupported request) (fun s => spdm 7 request s) s

/-- EVENT_RATE_INTERVAL (R497). -/
def execEventRateInterval (s : State) : Host.Outcome State Fault Refusal :=
  guarded .eventRateInterval (fun s => rateInterval s) s

/-- EVENT_LOG_FLASH_WRITE (R497). -/
def execEventLogFlashWrite (s : State) : Host.Outcome State Fault Refusal :=
  guarded .eventLogFlashWrite (fun s => flushEvents s) s

/-- EVENT_RECORDS (R498). -/
def execEventRecords (path : Path) (s : State) : Host.Outcome State Fault Refusal :=
  guarded (.eventRecords path) (fun s => requestEvents path s) s

/-- PTP_MESSAGE (R362). -/
def execPtpMessage (message : PtpMsg) (offsetNs : Int) (locked : Bool) (s : State) : Host.Outcome State Fault Refusal :=
  guarded (.ptpMessage message offsetNs locked) (fun s => ptpMessage message offsetNs locked s) s

/-- PTP_UNLOCKED (R362). -/
def execPtpUnlocked (s : State) : Host.Outcome State Fault Refusal :=
  guarded .ptpUnlocked (fun s => ptpLost s) s

end Sys2Proof.Machine
end

