-- ==== Sys2Proof/Machine/LinkRows.lean ====
section
/-!
DEFINITION. Flits, training and loss of a port (R297 to R305, R436): one meaning for each row.
-/
namespace Sys2Proof.Machine

/-- DATA_FLIT_RECEIVE (R299). -/
def execDataFlitReceive (port : Nat) (flit : Flit) (code : Codeword) (s : State) : Host.Outcome State Fault Refusal :=
  guarded (.dataFlitReceive port flit code) (fun s => flitReceive port flit code s) s

/-- CONTROL_FLIT_RECEIVE (R298). -/
def execControlFlitReceive (port : Nat) (flit : Control) (s : State) : Host.Outcome State Fault Refusal :=
  guarded (.controlFlitReceive port flit) (fun s => controlReceive port flit s) s

/-- NAK_RECEIVE (R300). -/
def execNakReceive (port : Nat) (flit : Control) (s : State) : Host.Outcome State Fault Refusal :=
  guarded (.nakReceive port flit) (fun s => nakReceive port flit s) s

/-- TRAIN_FLIT_RECEIVE (R302). -/
def execTrainFlitReceive (port : Nat) (record : TrainRec) (s : State) : Host.Outcome State Fault Refusal :=
  guarded (.trainFlitReceive port record) (fun s => trainReceive port record s) s

/-- HEARTBEAT_RECEIVE (R436). -/
def execHeartbeatReceive (port : Nat) (moduleNumber : Nat) (modState : Nat) (twinState : Nat) (axis : W64) (runId : Nat) (s : State) :
    Host.Outcome State Fault Refusal :=
  guarded (.heartbeatReceive port moduleNumber modState twinState axis runId)
    (fun s => settleRun (heartbeat ⟨moduleNumber, modState, twinState, axis, runId⟩ s)) s

/-- CONTROL_FLIT_INTERVAL (R298). -/
def execControlFlitInterval (port : Nat) (s : State) : Host.Outcome State Fault Refusal :=
  guarded (.controlFlitInterval port) (fun s => controlInterval port s) s

/-- LINK_RETRY_EXPIRY (R300). -/
def execLinkRetryExpiry (port : Nat) (s : State) : Host.Outcome State Fault Refusal :=
  guarded (.linkRetryExpiry port) (fun s => retryExpiry port s) s

/-- CODEWORD_LOCK_LOSS (R304). -/
def execCodewordLockLoss (port : Nat) (s : State) : Host.Outcome State Fault Refusal :=
  guarded (.codewordLockLoss port) (fun s => retrain port s) s

/-- PORT_TRAINING_DONE (R304). -/
def execPortTrainingDone (port : Nat) (s : State) : Host.Outcome State Fault Refusal :=
  guarded (.portTrainingDone port) (fun s => settleRun (portTrained port s)) s

/-- RETRAIN_TIMEOUT (R305). -/
def execRetrainTimeout (port : Nat) (s : State) : Host.Outcome State Fault Refusal :=
  guarded (.retrainTimeout port) (fun s => settleRun (retrainFailed port s)) s

/-- LINK_DOWN_RETRY_EXPIRY (R305). -/
def execLinkDownRetryExpiry (port : Nat) (s : State) : Host.Outcome State Fault Refusal :=
  guarded (.linkDownRetryExpiry port) (fun s => trainAgain port s) s

end Sys2Proof.Machine
end

