-- ==== Sys2Proof/Machine/MemoryRows.lean ====
section
/-!
DEFINITION. The parity cache, the Burnisher, the check-value unit and the Proof sampler (R249, R267, R276 to R284): one meaning for each row.
-/
namespace Sys2Proof.Machine

/-- PARITY_FLUSH_EXPIRY (R267). -/
def execParityFlushExpiry (page : Nat) (s : State) : Host.Outcome State Fault Refusal :=
  guarded (.parityFlushExpiry page) (fun s => settleRun (parityFlush page s)) s

/-- BURNISHER_PAGE_CHECK (R277). -/
def execBurnisherPageCheck (region : Nat) (tier : Nat) (upsets : List Upset) (s : State) : Host.Outcome State Fault Refusal :=
  guarded (.burnisherPageCheck region tier upsets)
    (fun s => settleRun (burnisherPage region tier (withUpsets upsets s))) s

/-- BURNISHER_LAP_ALARM (R278). -/
def execBurnisherLapAlarm (region : Nat) (tier : Nat) (s : State) : Host.Outcome State Fault Refusal :=
  guarded (.burnisherLapAlarm region tier) (fun s => lapAlarm region tier s) s

/-- CHECK_SCAN_RUN (R282). -/
def execCheckScanRun (die : Nat) (s : State) : Host.Outcome State Fault Refusal :=
  guarded (.checkScanRun die) (fun s => settleRun (runScan die s)) s

/-- PROOF_RECOMPUTE (R249). -/
def execProofRecompute (region : Nat) (s : State) : Host.Outcome State Fault Refusal :=
  guarded (.proofRecompute region) (fun s => settleRun (proofRecompute region s)) s

end Sys2Proof.Machine
end

