-- ==== Sys2Proof/Machine/MessageRows.lean ====
section
/-!
DEFINITION. Delivered messages and the drain of gradients into targets (R120, R132 to R160, R326 to R331): one meaning for each row.
-/
namespace Sys2Proof.Machine

/-- INDEX_RUN (R326). -/
def execIndexRun (msg : Msg) (s : State) : Host.Outcome State Fault Refusal :=
  guarded (.indexRun msg) (fun s => indexRunRow msg s) s

/-- BAND_PARTIAL (R120). -/
def execBandPartial (msg : Msg) (s : State) : Host.Outcome State Fault Refusal :=
  guarded (.bandPartial msg) (fun s => bandPartialRow msg s) s

/-- GRAD_MSG (R132). -/
def execGradMsg (msg : Msg) (s : State) : Host.Outcome State Fault Refusal :=
  guarded (.gradMsg msg) (fun s => gradMsgRow msg s) s

/-- GRAD_CONSUME (R142). -/
def execGradConsume (region : Nat) (s : State) : Host.Outcome State Fault Refusal :=
  guarded (.gradConsume region) (fun s => settleRun (consume region s)) s

/-- TARGET_SLICE_APPLY (R147). -/
def execTargetSliceApply (region : Nat) (tableSet : Nat) (table : Nat) (row : Nat) (variant : Nat) (slice : Nat) (s : State) :
    Host.Outcome State Fault Refusal :=
  guarded (.targetSliceApply region tableSet table row variant slice)
    (fun s => settleRun (applyTarget region tableSet table row variant slice s)) s

/-- SHARD_GRAD (R328). -/
def execShardGrad (msg : Msg) (s : State) : Host.Outcome State Fault Refusal :=
  guarded (.shardGrad msg) (fun s => shardGradRow msg s) s

/-- LEDGER_UP (R330). -/
def execLedgerUp (msg : Msg) (s : State) : Host.Outcome State Fault Refusal :=
  guarded (.ledgerUp msg) (fun s => ledgerUpRow msg s) s

/-- LEDGER_DOWN (R330). -/
def execLedgerDown (msg : Msg) (s : State) : Host.Outcome State Fault Refusal :=
  guarded (.ledgerDown msg) (fun s => ledgerDownRow msg s) s

/-- SHARD_MULTICAST (R331). -/
def execShardMulticast (msg : Msg) (s : State) : Host.Outcome State Fault Refusal :=
  guarded (.shardMulticast msg) (fun s => shardMulticastRow msg s) s

/-- STEP_REPORT (R153). -/
def execStepReport (msg : Msg) (s : State) : Host.Outcome State Fault Refusal :=
  guarded (.stepReport msg) (fun s => stepReportRow msg s) s

/-- STEP_VERDICT (R153). -/
def execStepVerdict (msg : Msg) (s : State) : Host.Outcome State Fault Refusal :=
  guarded (.stepVerdict msg) (fun s => stepVerdictRow msg s) s

end Sys2Proof.Machine
end

