-- ==== Sys2Proof/Machine/PowerRows.lean ====
section
/-!
DEFINITION. Starts, feeds, rails, throttling and power-state requests (R29, R257, R502 to R534): one meaning for each row.
-/
namespace Sys2Proof.Machine

/-- INPUT_POWER_ARRIVAL (R502). -/
def execInputPowerArrival (feed : Nat) (s : State) : Host.Outcome State Fault Refusal :=
  guarded (.inputPowerArrival feed) (fun s => feedIn feed s) s

/-- BRINGUP_STAGE_COMPLETE (R502). -/
def execBringupStageComplete (failedRails : List Nat) (s : State) : Host.Outcome State Fault Refusal :=
  guarded (.bringupStageComplete failedRails) (fun s => stageDone failedRails s) s

/-- BRINGUP_STAGE_TIMEOUT (R504). -/
def execBringupStageTimeout (unit : Nat) (s : State) : Host.Outcome State Fault Refusal :=
  guarded (.bringupStageTimeout unit) (fun s => stageTimeout unit s) s

/-- BRINGUP_RETRY_EXPIRY (R504). -/
def execBringupRetryExpiry (s : State) : Host.Outcome State Fault Refusal :=
  guarded .bringupRetryExpiry (fun s => retryStart s) s

/-- FEED_UNDERVOLTAGE (R515). -/
def execFeedUndervoltage (feed : Nat) (s : State) : Host.Outcome State Fault Refusal :=
  guarded (.feedUndervoltage feed) (fun s => feedUnder feed s) s

/-- FEED_LOST (R515). -/
def execFeedLost (feed : Nat) (s : State) : Host.Outcome State Fault Refusal :=
  guarded (.feedLost feed) (fun s => feedGone feed s) s

/-- FEED_OVERVOLTAGE (R516). -/
def execFeedOvervoltage (feed : Nat) (s : State) : Host.Outcome State Fault Refusal :=
  guarded (.feedOvervoltage feed) (fun s => feedOver feed s) s

/-- FEED_RECONNECT (R515). -/
def execFeedReconnect (feed : Nat) (s : State) : Host.Outcome State Fault Refusal :=
  guarded (.feedReconnect feed) (fun s => feedIn feed s) s

/-- POWER_FAIL_WARNING (R518). -/
def execPowerFailWarning (s : State) : Host.Outcome State Fault Refusal :=
  guarded .powerFailWarning (fun s => powerFail s) s

/-- BULK_BUS_COLLAPSE (R518). -/
def execBulkBusCollapse (s : State) : Host.Outcome State Fault Refusal :=
  guarded .bulkBusCollapse (fun s => busCollapse s) s

/-- RAIL_FAULT (R528). -/
def execRailFault (rail : Nat) (s : State) : Host.Outcome State Fault Refusal :=
  guarded (.railFault rail) (fun s => railFault rail s) s

/-- THERMAL_THROTTLE (R525). -/
def execThermalThrottle (hbm : Bool) (unit : Nat) (value : Nat) (s : State) : Host.Outcome State Fault Refusal :=
  guarded (.thermalThrottle hbm unit value) (fun s => thermal hbm unit value s) s

/-- THERMAL_SHUTDOWN (R525). -/
def execThermalShutdown (hbm : Bool) (unit : Nat) (value : Nat) (s : State) : Host.Outcome State Fault Refusal :=
  guarded (.thermalShutdown hbm unit value) (fun s => thermalTrip hbm unit value s) s

/-- COOLANT_FLOW_LOW (R526). -/
def execCoolantFlowLow (low : Bool) (s : State) : Host.Outcome State Fault Refusal :=
  guarded (.coolantFlowLow low) (fun s => flowLow low s) s

/-- POWER_LIMIT_INTERVAL (R523). -/
def execPowerLimitInterval (milliwatts : Nat) (s : State) : Host.Outcome State Fault Refusal :=
  guarded (.powerLimitInterval milliwatts) (fun s => powerInterval milliwatts s) s

/-- THROTTLE_RAISE_INTERVAL (R523). -/
def execThrottleRaiseInterval (milliwatts : Nat) (s : State) : Host.Outcome State Fault Refusal :=
  guarded (.throttleRaiseInterval milliwatts) (fun s => throttleRaise milliwatts s) s

/-- SENSE_SAMPLE (R534). -/
def execSenseSample (values : List W32) (s : State) : Host.Outcome State Fault Refusal :=
  guarded (.senseSample values) (fun s => senseSample values s) s

/-- ENTER_RETENTION (R521). -/
def execEnterRetention (path : Path) (s : State) : Host.Outcome State Fault Refusal :=
  guarded (.enterRetention path) (fun s => requestNumber path E.POWER_STATE_REQUEST 1 1 s) s

/-- EXIT_RETENTION (R521). -/
def execExitRetention (path : Path) (s : State) : Host.Outcome State Fault Refusal :=
  guarded (.exitRetention path) (fun s => requestNumber path E.POWER_STATE_REQUEST 1 2 s) s

/-- MODULE_RESET (R521). -/
def execModuleReset (path : Path) (s : State) : Host.Outcome State Fault Refusal :=
  guarded (.moduleReset path) (fun s => requestNumber path E.POWER_STATE_REQUEST 1 3 s) s

/-- STANDBY_REQUEST (R521). -/
def execStandbyRequest (path : Path) (s : State) : Host.Outcome State Fault Refusal :=
  guarded (.standbyRequest path) (fun s => requestNumber path E.POWER_STATE_REQUEST 1 4 s) s

/-- COLD_START (R521). -/
def execColdStart (path : Path) (s : State) : Host.Outcome State Fault Refusal :=
  guarded (.coldStart path) (fun s => requestNumber path E.POWER_STATE_REQUEST 1 5 s) s

/-- RESET_REQ_ASSERT (R521). -/
def execResetReqAssert (s : State) : Host.Outcome State Fault Refusal :=
  guarded .resetReqAssert (fun s => pinRequest 3 s) s

/-- SERVICE_BUTTON_SHORT (R533). -/
def execServiceButtonShort (s : State) : Host.Outcome State Fault Refusal :=
  guarded .serviceButtonShort (fun s => buttonShort s) s

/-- SERVICE_BUTTON_HOLD (R533). -/
def execServiceButtonHold (s : State) : Host.Outcome State Fault Refusal :=
  guarded .serviceButtonHold (fun s => buttonHold s) s

/-- UNIT_FAULT (R29). -/
def execUnitFault (unit : Nat) (s : State) : Host.Outcome State Fault Refusal :=
  guarded (.unitFault unit) (fun s => unitFault unit s) s

/-- HBM3_REFRESH_DOUBLED (R257). -/
def execHbm3RefreshDoubled (stack : Nat) (hot : Bool) (s : State) : Host.Outcome State Fault Refusal :=
  guarded (.hbm3RefreshDoubled stack hot) (fun s => refreshDoubled stack hot s) s

end Sys2Proof.Machine
end

