-- ==== Sys2Proof/Machine/QueueRows.lean ====
section
/-!
DEFINITION. Fetching, starting and completing commands, and the queues' registers (R405 to R414): one meaning for each row.
-/
namespace Sys2Proof.Machine

/-- COMMAND_FETCH (R408). -/
def execCommandFetch (queue : Nat) (reply : HostReply) (s : State) : Host.Outcome State Fault Refusal :=
  guarded (.commandFetch queue reply) (fun s => settleRun (fetchCommand queue reply s)) s

/-- DESCRIPTOR_RECHECK_EXPIRY (R410). -/
def execDescriptorRecheckExpiry (queue : Nat) (reply : HostReply) (s : State) : Host.Outcome State Fault Refusal :=
  guarded (.descriptorRecheckExpiry queue reply)
    (fun s => settleRun (recheckDescriptor queue reply s)) s

/-- COMMAND_START (R375). -/
def execCommandStart (queue : Nat) (index : Nat) (s : State) : Host.Outcome State Fault Refusal :=
  guarded (.commandStart queue index) (fun s => settleRun (startCommand queue index s)) s

/-- COMMAND_COMPLETE (R376). -/
def execCommandComplete (queue : Nat) (index : Nat) (s : State) : Host.Outcome State Fault Refusal :=
  guarded (.commandComplete queue index) (fun s => settleRun (completeCommand queue index s)) s

/-- COMPLETION_FLUSH_DONE (R413). -/
def execCompletionFlushDone (queue : Nat) (s : State) : Host.Outcome State Fault Refusal :=
  guarded (.completionFlushDone queue) (fun s => settleRun (flushDone queue s)) s

/-- INT_COALESCE_EXPIRY (R414). -/
def execIntCoalesceExpiry (queue : Nat) (s : State) : Host.Outcome State Fault Refusal :=
  guarded (.intCoalesceExpiry queue) (fun s => coalesceExpiry queue s) s

/-- DOORBELL_SQ_PRODUCER (R407). -/
def execDoorbellSqProducer (queue : Nat) (index : Nat) (s : State) : Host.Outcome State Fault Refusal :=
  guarded (.doorbellSqProducer queue index) (fun s => doorbellSq queue index s) s

/-- DOORBELL_CQ_HEAD (R407). -/
def execDoorbellCqHead (queue : Nat) (index : Nat) (s : State) : Host.Outcome State Fault Refusal :=
  guarded (.doorbellCqHead queue index) (fun s => doorbellCq queue index s) s

/-- QUEUE_ENABLE (R406). -/
def execQueueEnable (queue : Nat) (s : State) : Host.Outcome State Fault Refusal :=
  guarded (.queueEnable queue) (fun s => enableQueue queue s) s

/-- QUEUE_DISABLE (R406). -/
def execQueueDisable (queue : Nat) (s : State) : Host.Outcome State Fault Refusal :=
  guarded (.queueDisable queue) (fun s => settleRun (disableQueue queue s)) s

/-- QUEUE_RESTART (R411). -/
def execQueueRestart (queue : Nat) (s : State) : Host.Outcome State Fault Refusal :=
  guarded (.queueRestart queue) (fun s => restartQueue queue s) s

/-- PCIE_COMPLETION_TIMEOUT (R410). -/
def execPcieCompletionTimeout (queue : Nat) (s : State) : Host.Outcome State Fault Refusal :=
  guarded (.pcieCompletionTimeout queue) (fun s => settleRun (completionTimeout queue s)) s

/-- PEG_WAIT_TIMEOUT (R365). -/
def execPegWaitTimeout (queue : Nat) (index : Nat) (s : State) : Host.Outcome State Fault Refusal :=
  guarded (.pegWaitTimeout queue index) (fun s => settleRun (waitTimeout queue index s)) s

end Sys2Proof.Machine
end

