-- ==== Sys2Proof/Machine/RidgeRows.lean ====
section
/-!
DEFINITION. The Ridgeline: its signals, reports, timers and losses (R342 to R365): one meaning for each row.
-/
namespace Sys2Proof.Machine

/-- AXIS_SIGNAL (R345). -/
def execAxisSignal (packet : Packet) (s : State) : Host.Outcome State Fault Refusal :=
  guarded (.axisSignal packet) (fun s => arrive packet (axisSignal packet) s) s

/-- READY_REPORT (R348). -/
def execReadyReport (s : State) : Host.Outcome State Fault Refusal :=
  guarded .readyReport (fun s => settleRun (readyReport s)) s

/-- READY_SIGNAL (R348). -/
def execReadySignal (packet : Packet) (s : State) : Host.Outcome State Fault Refusal :=
  guarded (.readySignal packet) (fun s => arrive packet (readySignal packet) s) s

/-- BEAT_EXPIRY (R349). -/
def execBeatExpiry (s : State) : Host.Outcome State Fault Refusal :=
  guarded .beatExpiry (fun s => beat s) s

/-- JOIN_STEP_SIGNAL (R351). -/
def execJoinStepSignal (packet : Packet) (s : State) : Host.Outcome State Fault Refusal :=
  guarded (.joinStepSignal packet) (fun s => arrive packet (joinStepSignal packet) s) s

/-- JOIN_SIGNAL (R352). -/
def execJoinSignal (packet : Packet) (s : State) : Host.Outcome State Fault Refusal :=
  guarded (.joinSignal packet) (fun s => arrive packet (joinSignal packet) s) s

/-- LEAVE_SIGNAL (R353). -/
def execLeaveSignal (packet : Packet) (s : State) : Host.Outcome State Fault Refusal :=
  guarded (.leaveSignal packet) (fun s => arrive packet (leaveSignal packet) s) s

/-- EXCLUDE_SIGNAL (R357). -/
def execExcludeSignal (packet : Packet) (s : State) : Host.Outcome State Fault Refusal :=
  guarded (.excludeSignal packet) (fun s => arrive packet (excludeSignal packet) s) s

/-- ADMIT_SIGNAL (R360). -/
def execAdmitSignal (packet : Packet) (s : State) : Host.Outcome State Fault Refusal :=
  guarded (.admitSignal packet) (fun s => arrive packet (admitSignal packet) s) s

/-- STANDBY_ADMIT (R360). -/
def execStandbyAdmit (s : State) : Host.Outcome State Fault Refusal :=
  guarded .standbyAdmit (fun s => admitStandby s) s

/-- RIDGE_SOURCE_LOSS (R358). -/
def execRidgeSourceLoss (s : State) : Host.Outcome State Fault Refusal :=
  guarded .ridgeSourceLoss (fun s => settleRun (sourceLoss s)) s

/-- STANDBY_TAKEOVER (R359). -/
def execStandbyTakeover (s : State) : Host.Outcome State Fault Refusal :=
  guarded .standbyTakeover (fun s => takeover s) s

/-- STEP_WATCHDOG_EXPIRY (R356). -/
def execStepWatchdogExpiry (s : State) : Host.Outcome State Fault Refusal :=
  guarded .stepWatchdogExpiry (fun s => watchdog s) s

/-- BOUND_DELAY_EXPIRY (R361). -/
def execBoundDelayExpiry (tag : Nat) (s : State) : Host.Outcome State Fault Refusal :=
  guarded (.boundDelayExpiry tag) (fun s => boundDelay tag s) s

end Sys2Proof.Machine
end

