-- ==== Sys2Proof/Machine/TwinRows.lean ====
section
/-!
DEFINITION. The twin pair over the Guyline (R431 to R456): one meaning for each row.
-/
namespace Sys2Proof.Machine

/-- REPAIR_REQUEST (R435). -/
def execRepairRequest (port : Nat) (packet : GPacket) (s : State) : Host.Outcome State Fault Refusal :=
  guarded (.repairRequest port packet)
    (fun s => settleRun (repairRequest { packet with path := port - 8 } s)) s

/-- TWIN_REPAIR_WRITE (R279). -/
def execTwinRepairWrite (port : Nat) (packet : GPacket) (s : State) : Host.Outcome State Fault Refusal :=
  guarded (.twinRepairWrite port packet)
    (fun s => settleRun (guylineResponse { packet with path := port - 8 } s)) s

/-- HEARTBEAT_SEND_EXPIRY (R436). -/
def execHeartbeatSendExpiry (s : State) : Host.Outcome State Fault Refusal :=
  guarded .heartbeatSendExpiry (fun s => heartbeatTick s) s

/-- TWIN_BEAT_LOSS (R447). -/
def execTwinBeatLoss (s : State) : Host.Outcome State Fault Refusal :=
  guarded .twinBeatLoss (fun s => settleRun (beatLoss s)) s

/-- LIVENESS_DECISION (R447). -/
def execLivenessDecision (ok : Bool) (word : Nat) (s : State) : Host.Outcome State Fault Refusal :=
  guarded (.livenessDecision ok word) (fun s => settleRun (livenessDecision ok word s)) s

/-- TWIN_PROBE_EXPIRY (R450). -/
def execTwinProbeExpiry (member : Nat) (s : State) : Host.Outcome State Fault Refusal :=
  guarded (.twinProbeExpiry member) (fun s => settleRun (probeExpiry member s)) s

/-- MIRROR_LOG (R442). -/
def execMirrorLog (port : Nat) (packet : GPacket) (s : State) : Host.Outcome State Fault Refusal :=
  guarded (.mirrorLog port packet) (fun s => settleRun (mirrorLog { packet with path := port - 8 } s)) s

/-- STEP_OPERANDS (R441). -/
def execStepOperands (port : Nat) (packet : GPacket) (s : State) : Host.Outcome State Fault Refusal :=
  guarded (.stepOperands port packet) (fun s => settleRun (takeOperands { packet with path := port - 8 } s)) s

/-- STEP_MARK (R445). -/
def execStepMark (port : Nat) (packet : GPacket) (s : State) : Host.Outcome State Fault Refusal :=
  guarded (.stepMark port packet) (fun s => settleRun (takeMark { packet with path := port - 8 } s)) s

/-- COPY_PAGE (R454). -/
def execCopyPage (port : Nat) (packet : GPacket) (s : State) : Host.Outcome State Fault Refusal :=
  guarded (.copyPage port packet) (fun s => settleRun (copyPage { packet with path := port - 8 } s)) s

/-- OCCURRENCES (R152). -/
def execOccurrences (port : Nat) (packet : GPacket) (s : State) : Host.Outcome State Fault Refusal :=
  guarded (.occurrences port packet) (fun s => settleRun (takeOccPacket { packet with path := port - 8 } s)) s

/-- CONTRIBUTIONS (R152). -/
def execContributions (port : Nat) (packet : GPacket) (s : State) : Host.Outcome State Fault Refusal :=
  guarded (.contributions port packet)
    (fun s => settleRun (takeContribPacket { packet with path := port - 8 } s)) s

/-- ROW_CHANGE (R388). -/
def execRowChange (port : Nat) (packet : GPacket) (s : State) : Host.Outcome State Fault Refusal :=
  guarded (.rowChange port packet) (fun s => settleRun (takeRowPacket { packet with path := port - 8 } s)) s

end Sys2Proof.Machine
end

