-- ==== Sys2Proof/Machine/Dispatch.lean ====
section
/-!
DEFINITION. One arm for every command: a direct call of its meaning.
-/
namespace Sys2Proof.Machine

/-- The effect of a command. -/
def exec (i : Instr) (s : State) : Host.Outcome State Fault Refusal :=
  match i with
  | .nop queue index record => Sys2Proof.Machine.execNop queue index record s
  | .pegSignal queue index record => Sys2Proof.Machine.execPegSignal queue index record s
  | .pegWait queue index record => Sys2Proof.Machine.execPegWait queue index record s
  | .pegSet queue index record => Sys2Proof.Machine.execPegSet queue index record s
  | .dmaCopy queue index record => Sys2Proof.Machine.execDmaCopy queue index record s
  | .dmaTranspose queue index record => Sys2Proof.Machine.execDmaTranspose queue index record s
  | .rucksackPush queue index record => Sys2Proof.Machine.execRucksackPush queue index record s
  | .rucksackPop queue index record => Sys2Proof.Machine.execRucksackPop queue index record s
  | .gemm queue index record => Sys2Proof.Machine.execGemm queue index record s
  | .rowRead queue index record => Sys2Proof.Machine.execRowRead queue index record s
  | .rowWrite queue index record => Sys2Proof.Machine.execRowWrite queue index record s
  | .rowFreeze queue index record => Sys2Proof.Machine.execRowFreeze queue index record s
  | .rowReset queue index record => Sys2Proof.Machine.execRowReset queue index record s
  | .rowengFwd queue index record => Sys2Proof.Machine.execRowengFwd queue index record s
  | .rowengBwd queue index record => Sys2Proof.Machine.execRowengBwd queue index record s
  | .gatherPool queue index record => Sys2Proof.Machine.execGatherPool queue index record s
  | .gradScatter queue index record => Sys2Proof.Machine.execGradScatter queue index record s
  | .denseReduce queue index record => Sys2Proof.Machine.execDenseReduce queue index record s
  | .sched queue index record => Sys2Proof.Machine.execSched queue index record s
  | .checkScan queue index record => Sys2Proof.Machine.execCheckScan queue index record s
  | .genSetup queue index record => Sys2Proof.Machine.execGenSetup queue index record s
  | .genCut queue index record => Sys2Proof.Machine.execGenCut queue index record s
  | .genExport queue index record => Sys2Proof.Machine.execGenExport queue index record s
  | .genRelease queue index record => Sys2Proof.Machine.execGenRelease queue index record s
  | .feedBind queue index record => Sys2Proof.Machine.execFeedBind queue index record s
  | .load queue index record => Sys2Proof.Machine.execLoad queue index record s
  | .unload queue index record => Sys2Proof.Machine.execUnload queue index record s
  | .commandFetch queue reply => Sys2Proof.Machine.execCommandFetch queue reply s
  | .descriptorRecheckExpiry queue reply => Sys2Proof.Machine.execDescriptorRecheckExpiry queue reply s
  | .commandStart queue index => Sys2Proof.Machine.execCommandStart queue index s
  | .commandComplete queue index => Sys2Proof.Machine.execCommandComplete queue index s
  | .completionFlushDone queue => Sys2Proof.Machine.execCompletionFlushDone queue s
  | .intCoalesceExpiry queue => Sys2Proof.Machine.execIntCoalesceExpiry queue s
  | .doorbellSqProducer queue index => Sys2Proof.Machine.execDoorbellSqProducer queue index s
  | .doorbellCqHead queue index => Sys2Proof.Machine.execDoorbellCqHead queue index s
  | .queueEnable queue => Sys2Proof.Machine.execQueueEnable queue s
  | .queueDisable queue => Sys2Proof.Machine.execQueueDisable queue s
  | .queueRestart queue => Sys2Proof.Machine.execQueueRestart queue s
  | .causeClear mask => Sys2Proof.Machine.execCauseClear mask s
  | .bar2Read offset length => Sys2Proof.Machine.execBar2Read offset length s
  | .bar2Write offset data poison => Sys2Proof.Machine.execBar2Write offset data poison s
  | .intakeWindowWrite requester offset data poison => Sys2Proof.Machine.execIntakeWindowWrite requester offset data poison s
  | .exportWindowRead offset length => Sys2Proof.Machine.execExportWindowRead offset length s
  | .intakeProducerWrite ring size value => Sys2Proof.Machine.execIntakeProducerWrite ring size value s
  | .consumedStepWrite ring value => Sys2Proof.Machine.execConsumedStepWrite ring value s
  | .ringEnable ring => Sys2Proof.Machine.execRingEnable ring s
  | .ringDisable ring => Sys2Proof.Machine.execRingDisable ring s
  | .feedExportPublish tableSet => Sys2Proof.Machine.execFeedExportPublish tableSet s
  | .mailboxGo => Sys2Proof.Machine.execMailboxGo s
  | .pcieLinkExitL0 => Sys2Proof.Machine.execPcieLinkExitL0 s
  | .pcieLinkReturnL0 => Sys2Proof.Machine.execPcieLinkReturnL0 s
  | .hostLossTimeout => Sys2Proof.Machine.execHostLossTimeout s
  | .perstAssert => Sys2Proof.Machine.execPerstAssert s
  | .perstDeassert => Sys2Proof.Machine.execPerstDeassert s
  | .functionLevelReset => Sys2Proof.Machine.execFunctionLevelReset s
  | .pcieHotReset => Sys2Proof.Machine.execPcieHotReset s
  | .d3hotEntry => Sys2Proof.Machine.execD3hotEntry s
  | .axisSignal packet => Sys2Proof.Machine.execAxisSignal packet s
  | .readyReport => Sys2Proof.Machine.execReadyReport s
  | .readySignal packet => Sys2Proof.Machine.execReadySignal packet s
  | .beatExpiry => Sys2Proof.Machine.execBeatExpiry s
  | .joinStepSignal packet => Sys2Proof.Machine.execJoinStepSignal packet s
  | .joinSignal packet => Sys2Proof.Machine.execJoinSignal packet s
  | .leaveSignal packet => Sys2Proof.Machine.execLeaveSignal packet s
  | .excludeSignal packet => Sys2Proof.Machine.execExcludeSignal packet s
  | .admitSignal packet => Sys2Proof.Machine.execAdmitSignal packet s
  | .standbyAdmit => Sys2Proof.Machine.execStandbyAdmit s
  | .ridgeSourceLoss => Sys2Proof.Machine.execRidgeSourceLoss s
  | .standbyTakeover => Sys2Proof.Machine.execStandbyTakeover s
  | .stepWatchdogExpiry => Sys2Proof.Machine.execStepWatchdogExpiry s
  | .boundDelayExpiry tag => Sys2Proof.Machine.execBoundDelayExpiry tag s
  | .pegWaitTimeout queue index => Sys2Proof.Machine.execPegWaitTimeout queue index s
  | .dataFlitReceive port flit code => Sys2Proof.Machine.execDataFlitReceive port flit code s
  | .controlFlitReceive port flit => Sys2Proof.Machine.execControlFlitReceive port flit s
  | .nakReceive port flit => Sys2Proof.Machine.execNakReceive port flit s
  | .trainFlitReceive port record => Sys2Proof.Machine.execTrainFlitReceive port record s
  | .heartbeatReceive port moduleNumber modState twinState axis runId => Sys2Proof.Machine.execHeartbeatReceive port moduleNumber modState twinState axis runId s
  | .controlFlitInterval port => Sys2Proof.Machine.execControlFlitInterval port s
  | .linkRetryExpiry port => Sys2Proof.Machine.execLinkRetryExpiry port s
  | .codewordLockLoss port => Sys2Proof.Machine.execCodewordLockLoss port s
  | .portTrainingDone port => Sys2Proof.Machine.execPortTrainingDone port s
  | .retrainTimeout port => Sys2Proof.Machine.execRetrainTimeout port s
  | .linkDownRetryExpiry port => Sys2Proof.Machine.execLinkDownRetryExpiry port s
  | .packetTransit port packet => Sys2Proof.Machine.execPacketTransit port packet s
  | .read packet upsets => Sys2Proof.Machine.execRead packet upsets s
  | .write packet => Sys2Proof.Machine.execWrite packet s
  | .atomicAdd packet => Sys2Proof.Machine.execAtomicAdd packet s
  | .fabricPegSignal packet => Sys2Proof.Machine.execFabricPegSignal packet s
  | .poisonedWrite packet => Sys2Proof.Machine.execPoisonedWrite packet s
  | .responseReceive reply => Sys2Proof.Machine.execResponseReceive reply s
  | .fabricRequestTimeout guyline die tag => Sys2Proof.Machine.execFabricRequestTimeout guyline die tag s
  | .retryBackoffExpiry retry => Sys2Proof.Machine.execRetryBackoffExpiry retry s
  | .messageFragmentReceive packet => Sys2Proof.Machine.execMessageFragmentReceive packet s
  | .indexRun msg => Sys2Proof.Machine.execIndexRun msg s
  | .bandPartial msg => Sys2Proof.Machine.execBandPartial msg s
  | .gradMsg msg => Sys2Proof.Machine.execGradMsg msg s
  | .gradConsume region => Sys2Proof.Machine.execGradConsume region s
  | .targetSliceApply region tableSet table row variant slice => Sys2Proof.Machine.execTargetSliceApply region tableSet table row variant slice s
  | .shardGrad msg => Sys2Proof.Machine.execShardGrad msg s
  | .ledgerUp msg => Sys2Proof.Machine.execLedgerUp msg s
  | .ledgerDown msg => Sys2Proof.Machine.execLedgerDown msg s
  | .shardMulticast msg => Sys2Proof.Machine.execShardMulticast msg s
  | .stepReport msg => Sys2Proof.Machine.execStepReport msg s
  | .stepVerdict msg => Sys2Proof.Machine.execStepVerdict msg s
  | .portEnableMaskWrite path value => Sys2Proof.Machine.execPortEnableMaskWrite path value s
  | .routeTableCommit path value => Sys2Proof.Machine.execRouteTableCommit path value s
  | .torusDimWrite path axis value => Sys2Proof.Machine.execTorusDimWrite path axis value s
  | .coordTableWrite path first data => Sys2Proof.Machine.execCoordTableWrite path first data s
  | .parityFlushExpiry page => Sys2Proof.Machine.execParityFlushExpiry page s
  | .burnisherPageCheck region tier upsets => Sys2Proof.Machine.execBurnisherPageCheck region tier upsets s
  | .burnisherLapAlarm region tier => Sys2Proof.Machine.execBurnisherLapAlarm region tier s
  | .repairRequest port packet => Sys2Proof.Machine.execRepairRequest port packet s
  | .twinRepairWrite port packet => Sys2Proof.Machine.execTwinRepairWrite port packet s
  | .checkScanRun die => Sys2Proof.Machine.execCheckScanRun die s
  | .proofRecompute region => Sys2Proof.Machine.execProofRecompute region s
  | .watchRingTailWrite path value => Sys2Proof.Machine.execWatchRingTailWrite path value s
  | .watchHistoryReset path value => Sys2Proof.Machine.execWatchHistoryReset path value s
  | .watchResume path value => Sys2Proof.Machine.execWatchResume path value s
  | .stepAgreeResume path value => Sys2Proof.Machine.execStepAgreeResume path value s
  | .tsetT path value => Sys2Proof.Machine.execTsetT path value s
  | .salvage path value => Sys2Proof.Machine.execSalvage path value s
  | .heartbeatSendExpiry => Sys2Proof.Machine.execHeartbeatSendExpiry s
  | .twinBeatLoss => Sys2Proof.Machine.execTwinBeatLoss s
  | .livenessDecision ok word => Sys2Proof.Machine.execLivenessDecision ok word s
  | .twinProbeExpiry member => Sys2Proof.Machine.execTwinProbeExpiry member s
  | .mirrorLog port packet => Sys2Proof.Machine.execMirrorLog port packet s
  | .stepOperands port packet => Sys2Proof.Machine.execStepOperands port packet s
  | .stepMark port packet => Sys2Proof.Machine.execStepMark port packet s
  | .copyPage port packet => Sys2Proof.Machine.execCopyPage port packet s
  | .occurrences port packet => Sys2Proof.Machine.execOccurrences port packet s
  | .contributions port packet => Sys2Proof.Machine.execContributions port packet s
  | .rowChange port packet => Sys2Proof.Machine.execRowChange port packet s
  | .inputPowerArrival feed => Sys2Proof.Machine.execInputPowerArrival feed s
  | .bringupStageComplete failedRails => Sys2Proof.Machine.execBringupStageComplete failedRails s
  | .bringupStageTimeout coord => Sys2Proof.Machine.execBringupStageTimeout coord s
  | .bringupRetryExpiry => Sys2Proof.Machine.execBringupRetryExpiry s
  | .feedUndervoltage feed => Sys2Proof.Machine.execFeedUndervoltage feed s
  | .feedLost feed => Sys2Proof.Machine.execFeedLost feed s
  | .feedOvervoltage feed => Sys2Proof.Machine.execFeedOvervoltage feed s
  | .feedReconnect feed => Sys2Proof.Machine.execFeedReconnect feed s
  | .powerFailWarning => Sys2Proof.Machine.execPowerFailWarning s
  | .bulkBusCollapse => Sys2Proof.Machine.execBulkBusCollapse s
  | .railFault rail => Sys2Proof.Machine.execRailFault rail s
  | .thermalThrottle hbm unit value => Sys2Proof.Machine.execThermalThrottle hbm unit value s
  | .thermalShutdown hbm unit value => Sys2Proof.Machine.execThermalShutdown hbm unit value s
  | .coolantFlowLow low => Sys2Proof.Machine.execCoolantFlowLow low s
  | .powerLimitInterval milliwatts => Sys2Proof.Machine.execPowerLimitInterval milliwatts s
  | .throttleRaiseInterval milliwatts => Sys2Proof.Machine.execThrottleRaiseInterval milliwatts s
  | .senseSample values => Sys2Proof.Machine.execSenseSample values s
  | .enterRetention path => Sys2Proof.Machine.execEnterRetention path s
  | .exitRetention path => Sys2Proof.Machine.execExitRetention path s
  | .moduleReset path => Sys2Proof.Machine.execModuleReset path s
  | .standbyRequest path => Sys2Proof.Machine.execStandbyRequest path s
  | .coldStart path => Sys2Proof.Machine.execColdStart path s
  | .resetReqAssert => Sys2Proof.Machine.execResetReqAssert s
  | .serviceButtonShort => Sys2Proof.Machine.execServiceButtonShort s
  | .serviceButtonHold => Sys2Proof.Machine.execServiceButtonHold s
  | .lanternFault => Sys2Proof.Machine.execLanternFault s
  | .lanternServing => Sys2Proof.Machine.execLanternServing s
  | .fwBegin path => Sys2Proof.Machine.execFwBegin path s
  | .fwUpdateData path offset data => Sys2Proof.Machine.execFwUpdateData path offset data s
  | .fwVerify path => Sys2Proof.Machine.execFwVerify path s
  | .fwVerifyDone => Sys2Proof.Machine.execFwVerifyDone s
  | .fwActivate path => Sys2Proof.Machine.execFwActivate path s
  | .fwAbort path => Sys2Proof.Machine.execFwAbort path s
  | .fwConfirm path value => Sys2Proof.Machine.execFwConfirm path value s
  | .odpRequest source data => Sys2Proof.Machine.execOdpRequest source data s
  | .odpRead path index sub => Sys2Proof.Machine.execOdpRead path index sub s
  | .odpWrite path index sub data => Sys2Proof.Machine.execOdpWrite path index sub data s
  | .describe path index sub => Sys2Proof.Machine.execDescribe path index sub s
  | .stage path index sub data => Sys2Proof.Machine.execStage path index sub data s
  | .registerWrite target => Sys2Proof.Machine.execRegisterWrite target s
  | .i3cPrivateWrite data => Sys2Proof.Machine.execI3cPrivateWrite data s
  | .i3cPrivateRead => Sys2Proof.Machine.execI3cPrivateRead s
  | .i3cAddressAssign address inBand => Sys2Proof.Machine.execI3cAddressAssign address inBand s
  | .uartConsoleCommand write index sub data => Sys2Proof.Machine.execUartConsoleCommand write index sub data s
  | .getVersion request => Sys2Proof.Machine.execGetVersion request s
  | .getCapabilities request => Sys2Proof.Machine.execGetCapabilities request s
  | .negotiateAlgorithms request => Sys2Proof.Machine.execNegotiateAlgorithms request s
  | .getDigests request => Sys2Proof.Machine.execGetDigests request s
  | .getCertificate request => Sys2Proof.Machine.execGetCertificate request s
  | .challenge request => Sys2Proof.Machine.execChallenge request s
  | .getMeasurements request => Sys2Proof.Machine.execGetMeasurements request s
  | .spdmUnsupported request => Sys2Proof.Machine.execSpdmUnsupported request s
  | .setCommit path value => Sys2Proof.Machine.execSetCommit path value s
  | .setRevert path value => Sys2Proof.Machine.execSetRevert path value s
  | .setConfirm path value => Sys2Proof.Machine.execSetConfirm path value s
  | .setClear path value => Sys2Proof.Machine.execSetClear path value s
  | .setConfirmTimeout => Sys2Proof.Machine.execSetConfirmTimeout s
  | .faultCodeClear path value => Sys2Proof.Machine.execFaultCodeClear path value s
  | .countersClearAll path value => Sys2Proof.Machine.execCountersClearAll path value s
  | .eventRateInterval => Sys2Proof.Machine.execEventRateInterval s
  | .eventLogFlashWrite => Sys2Proof.Machine.execEventLogFlashWrite s
  | .eventRecords path => Sys2Proof.Machine.execEventRecords path s
  | .ptpMessage message offsetNs locked => Sys2Proof.Machine.execPtpMessage message offsetNs locked s
  | .unitFault coord => Sys2Proof.Machine.execUnitFault coord s
  | .configurationWrite busMaster functionMask d3hot => Sys2Proof.Machine.execConfigurationWrite busMaster functionMask d3hot s
  | .pcieCompletionTimeout queue => Sys2Proof.Machine.execPcieCompletionTimeout queue s
  | .dupFilterEntryExpiry die src srcDie tag => Sys2Proof.Machine.execDupFilterEntryExpiry die src srcDie tag s
  | .hbm3RefreshDoubled stack hot => Sys2Proof.Machine.execHbm3RefreshDoubled stack hot s
  | .ptpUnlocked => Sys2Proof.Machine.execPtpUnlocked s

end Sys2Proof.Machine
end

