-- ==== Sys2Proof/Safety.lean ====
section
/-!
DEFINITION. What counts as a safe run of the module, in the terms that claims use: no step stops it.
-/
namespace Sys2Proof.Machine

/-- Whether an outcome is a next state. -/
def completes : Host.Outcome State Fault Refusal → Bool
  | .next _ => true
  | .fault _ => false
  | .refused _ => false

/-- The module takes `n` steps from a state without a stop. -/
def runsSafely : Nat → State → Bool
  | 0, _ => true
  | n + 1, s =>
    match step s with
    | .next t => runsSafely n t
    | .fault _ => false
    | .refused _ => false

/-- Nothing waits to take place by itself: no poisoned sector waits to be considered for repair, no setting set to be
applied, and a loaded run has no cause to be held or let go, no point at which pages or pairs are looked at, and no Ledger
to be sent.  An event in such a state has its own effect only. -/
abbrev still (s : State) : Prop :=
  s.mem.fresh = [] ∧ setBusy s = false ∧
  (s.loadState = .loaded →
    s.life.modState = .running ∧ s.holds.missingBatch = false ∧ s.holds.feedSlot = false ∧ curStation s ≠ 5 ∧
    (curStation s < 2 ∨ setting s E.NORM_MODE = 0))

/-- R476: Lantern serves and accepts a write of the bytes `b` at `off` of the entry with key `k`, by a path. -/
abbrev accepts (s : State) (p : Path) (k off : Nat) (b : Bytes) : Prop :=
  s.lantern.serving = true ∧ writeRefused (touchPath p s) p (k / 256) (k % 256) off b = 0

/-- What is left of an accepted write beside its effect: the events that follow by themselves, the counters of its path,
and the answer of status 0. -/
def answered (p : Path) (s : State) : State := emit (.dictAnswer p 0 []) (countRequest p false (settleRun s))

/-- What a request finds at its target: the packet has left the buffers of the port that delivered it, and is counted. -/
def taken (p : Packet) (s : State) : State := count E.PACKETS_DELIVERED (takeArrival p s)

/-- R306, R314, R338: a module performs a request: it serves, the request is addressed to it and arrives whole, and the
duplicate filter does not hold it and has room. -/
abbrev performs (p : Packet) (s : State) : Prop :=
  serves s = true ∧ gModule p.address = myNumber s ∧ endCheckGood p = true ∧
  findDup (taken p s) p (gDie p.address) = none ∧
  dupEntries (taken p s) (gDie p.address) < 16384

/-- The state in which a delivered message has been taken by the unit it is for. -/
def received (m : Msg) (s : State) : State := setFabric { s.fabric with delivered := s.fabric.delivered.erase m } s

/-- R433, R435, R338: a module performs a Guyline request: it is one, none of its class waits before it, the module serves, and the request arrives whole, is not held
by the duplicate filter and finds room in it. -/
abbrev gPerforms (p : GPacket) (s : State) : Prop :=
  precededBy s p = false ∧ gIsRequest p = true ∧ serves (takeGArrival p s) = true ∧ gGood p = true ∧
  findGDup (takeGArrival p s) p = none ∧ dupEntries (takeGArrival p s) p.die < 16384

/-- A command as its queue has fetched it, and as it runs. -/
def enqueued (q i : Nat) (r : Rec64) (s : State) : State :=
  updQueue q (fun v => { v with
    cmds := v.cmds ++ [{ index := i, record := r, phase := .fetched }], sqFetched := (i + 1) % 2 ^ 32 }) s
def begun (q i : Nat) (r : Rec64) (s : State) : State := setPhase q i .running (enqueued q i r s)

/-- R371 to R375: a command starts at once and does its work: its queue runs and has started all it holds, the command waits
neither for a peg nor behind a FENCE nor for LOAD, UNLOAD or a point, and it passes the start checks. -/
abbrev startable (q i : Nat) (r : Rec64) (s : State) : Prop :=
  serves s = true ∧ (queue s q).state = .running ∧ (queue s q).disabling = false ∧ unstarted (queue s q) = [] ∧
  findCmd s q i = none ∧ waitEn r = false ∧ fenceOf r = false ∧ heldBack (enqueued q i r s) q r = false ∧
  startCode (begun q i r s) r = 0

/-- Memory, the pegs and the Ridgeline, the loaded run with its placement, generations and watch, the row engines, the state of
the module and its power are the same. -/
abbrev sameRun (s t : State) : Prop :=
  t.mem = s.mem ∧ t.pegs = s.pegs ∧ t.ridge = s.ridge ∧ t.loadState = s.loadState ∧ t.plan = s.plan ∧ t.sets = s.sets ∧
  t.tensors = s.tensors ∧ t.programs = s.programs ∧ t.step = s.step ∧ t.holds = s.holds ∧ t.place = s.place ∧
  t.rowOps = s.rowOps ∧ t.gen = s.gen ∧ t.rowEng = s.rowEng ∧ t.watch = s.watch ∧ t.life = s.life

end Sys2Proof.Machine
end

