-- ==== Sys2Proof/Certificates/Slice0/Obligations.lean ====
section
/-!
DEFINITION. The statements about this module that are to be proved: what each command does to the state, that every command
completes, and what the module keeps.  Every clause of a statement is over all states and operands that meet its hypotheses.
-/
section
open Sys2Proof Sys2Proof.Machine

/-- What a step is: the command at the front of the queue is performed on the state with the rest of the queue. On an
empty queue the block idles, which is the model's choice (log entry 2). -/
def Obligations.StepRunsTheFront : Prop :=
  (∀ c cs s, s.pending = c :: cs → step s = exec c { s with pending := cs }) ∧
  (∀ s, s.pending = [] → step s = .next s)

/-- Every command completes, in every state, and leaves the waiting commands alone. A term with an operand outside the
field, bus or pin that carries it is no command: it changes nothing, which is the model's choice (log entry 249). -/
def Obligations.CommandsComplete : Prop :=
  (∀ c s, ∃ t, exec c s = .next t ∧ t.pending = s.pending) ∧
  (∀ c s, c.wf = false → exec c s = .next s)

/-- The queue of waiting commands is first in, first out, and every step keeps it one of well-formed commands: no command
puts one in, none but the first is taken out, and every queue is worked off without a stop, in as many steps as it
holds commands. -/
def Obligations.QueueIsWorkedOff : Prop :=
  (∀ s t, step s = .next t → t.pending = s.pending.tail) ∧
  (∀ s t d, (∀ c ∈ s.pending, c.wf = true) → step s = .next t → d ∈ t.pending → d.wf = true) ∧
  (∀ s n, runsSafely n s = true) ∧
  (∀ s, ∃ f : Nat → State, f 0 = s ∧ (∀ n, step (f n) = .next (f (n + 1))) ∧
    (∀ n, (f n).pending = s.pending.drop n) ∧ (f s.pending.length).pending = [])

/-- What holds at reset: no command waits, memory has its canonical form and lists nothing, the module is in state INIT
with no input power and Lantern does not serve, no run is loaded, every peg reads 0, and every entry of the dictionary
holds its reset value. Where the manual leaves a choice, the model's is in log entries 1, 99. -/
def Obligations.ResetState : Prop :=
  State.reset.pending = [] ∧ Memory.wf State.reset.mem = true ∧ State.reset.mem.cells = [] ∧
  State.reset.life.modState = .init ∧ State.reset.lantern.serving = false ∧ State.reset.life.conversion = false ∧
  anyFeed State.reset = false ∧ State.reset.loadState = .idle ∧ State.reset.outbox = [] ∧
  (∀ die peg, pegValue State.reset die peg = 0) ∧ (∀ k, reg State.reset k = dfltOf k) ∧
  (∀ q, (queue State.reset q).state = .disabled)

/-- R262: the light code. The syndrome of a sector is its stored code XOR the code computed from the bytes as read,
whatever they are and wherever the sector lies; the syndrome of a single-bit error in the 64 bytes locates its bit,
and the read corrects it; an error of two bits, or one confined to one byte, of more than one bit, has a non-zero
syndrome that locates no bit; and a sector with such a syndrome is uncorrectable. -/
def Obligations.LightCode : Prop :=
  (∀ sk w mask, w < 2 ^ 480 → mask < 2 ^ 512 →
    syndrome mask = lightCode sk (w ^^^ mask % 2 ^ 480) ^^^ (lightCode sk w ^^^ mask / 2 ^ 480)) ∧
  (∀ n, n < 512 → singleBit (syndrome (2 ^ n)) = some (2 ^ n)) ∧
  (∀ sk s n, n < 512 → damageOf s sk = 2 ^ n → secMark s sk < 2 ^ 32 →
    (checkSector sk s).1 = false ∧ damageOf (checkSector sk s).2 sk = 0 ∧
    secBytes (checkSector sk s).2 sk = secBytes s sk ∧ secMark (checkSector sk s).2 sk = secMark s sk) ∧
  (∀ i j, i < j → j < 512 → syndrome (2 ^ i ^^^ 2 ^ j) ≠ 0 ∧ singleBit (syndrome (2 ^ i ^^^ 2 ^ j)) = none) ∧
  (∀ k e, k < 64 → 0 < e → e < 256 → (∀ n, e ≠ 2 ^ n) →
    syndrome (e * 2 ^ (8 * k)) ≠ 0 ∧ singleBit (syndrome (e * 2 ^ (8 * k))) = none) ∧
  (∀ sk s, syndrome (damageOf s sk) ≠ 0 → singleBit (syndrome (damageOf s sk)) = none → checkSector sk s = (true, s))

/-- R266, R274: stores to undamaged memory. A write of a range changes no byte outside it, whatever the range; a range
within one flat portion of a die's map holds the written bytes afterwards, and reads back as it was written. -/
def Obligations.MemoryStores : Prop :=
  (∀ a b poison s x, s.mem.damage = [] → (x < a ∨ a + b.length ≤ x) →
    sget 0 (writeRange a b poison s).mem.cells x = sget 0 s.mem.cells x) ∧
  (∀ a b poison s sp i, s.mem.damage = [] → a < 2 ^ 43 → rangeSpot s (addrOff a) b.length = some sp →
    (isFlat sp.portion = true ∨ sp.portion = .sram) → i < b.length →
    sget 0 (writeRange a b poison s).mem.cells (a + i) = b.getD i 0) ∧
  (∀ a b poison s sp, s.mem.damage = [] → s.mem.sramBad = [] → s.place.cache = [] → a < 2 ^ 43 →
    rangeSpot s (addrOff a) b.length = some sp → (isFlat sp.portion = true ∨ sp.portion = .sram) →
    (readRange a b.length (writeRange a b poison s)).1.1 = b) ∧
  (∀ a n s sp, s.mem.damage = [] → s.mem.sramBad = [] → s.place.cache = [] → rangeSpot s (addrOff a) n = some sp →
    (isFlat sp.portion = true ∨ sp.portion = .sram) →
    (readRange a n s).1.1 = sgets 0 s.mem.cells a n ∧ (readRange a n s).2 = s)

/-- R363: a signal. It adds its increment to the peg's value modulo 2^64; peg signal commands, the header signals of other
commands and PEG_SIGNAL operations signal; a signal that wraps counts one PEG_WRAPS, and the first since module reset
raises error event 0x0A14, a later one none. -/
def Obligations.PegSignals : Prop :=
  (∀ die peg inc s, isRidgePeg die peg = false →
    (pegValue (signalPeg die peg inc s) die peg).toNat = ((pegValue s die peg).toNat + inc.toNat) % 2 ^ 64) ∧
  (∀ die peg inc s, (pegValue s die peg).toNat + inc.toNat < 2 ^ 64 →
    signalPeg die peg inc s = releaseWaits (count E.PEG_SIGNALS (setPegValue die peg (pegValue s die peg + inc) s))) ∧
  (∀ die peg inc s t, 2 ^ 64 ≤ (pegValue s die peg).toNat + inc.toNat →
    count E.PEG_WRAPS (count E.PEG_SIGNALS (setPegValue die peg (pegValue s die peg + inc) s)) = t →
    (s.lantern.events.once.contains 0x0A14 = true → signalPeg die peg inc s = releaseWaits t) ∧
    (s.lantern.events.once.contains 0x0A14 = false → signalPeg die peg inc s = releaseWaits
      (raise 0x0A14 (pegKey die peg) (setEvents { t.lantern.events with once := 0x0A14 :: t.lantern.events.once } t)))) ∧
  (∀ q i r s, Instr.wf (.pegSignal q i r) = true → startable q i r s →
    pegSignalRefusal (begun q i r s) (rf r 319 256) = 0 → gModule (rf r 319 256) = myNumber s →
    exec (.pegSignal q i r) s = .next (withQueue s.pending (settleRun (endPlain q i 0
      (signalPeg (gDie (rf r 319 256)) ((pegOfAddr (rf r 319 256)).getD 0) (BitVec.ofNat 64 (rf r 255 192))
        (begun q i r s)))))) ∧
  (∀ q i c d x y s, Instr.wf (.commandComplete q i) = true → findCmd s q i = some c → c.phase = .done 0 d x y →
    signalEn c.record = true →
    isRidgePeg (pegDie (signalPegOf c.record)) (pegNum (signalPegOf c.record)) = false →
    exec (.commandComplete q i) s = .next (withQueue s.pending (settleRun (settleDisable q (settleRecords q
      (count E.COMMANDS_COMPLETED (signalPeg (pegDie (signalPegOf c.record)) (pegNum (signalPegOf c.record)) 1
        (setPhase q i (.recorded (summaryOf c.record 0 d x y true)) s)))))))) ∧
  (∀ p s, Instr.wf (.fabricPegSignal p) = true → performs p s → pegOpRefusal (taken p s) p = 0 →
    isRidgePeg (gDie p.address) ((spotOf s (gOff p.address)).off / 64) = false →
    exec (.fabricPegSignal p) s = .next (withQueue s.pending (answerReq true p 0 [] false
      (signalPeg (gDie p.address) ((spotOf s (gOff p.address)).off / 64) (BitVec.ofNat 64 (leNat p.data)) (taken p s)))))

/-- R407: doorbells, at a module that serves them (R506: before READY they are ignored). KIND 0 is accepted exactly within
its bounds, and KIND 1 within its own; every other doorbell, and every one to a DISABLED or FENCED queue, is ignored:
it counts one DOORBELLS_IGNORED, and the first since module reset raises error event 0x0103. -/
def Obligations.Doorbells : Prop :=
  (∀ q i s, Instr.wf (.doorbellSqProducer q i) = true →
    (serves s = true → (queue s q).state ≠ .disabled → (queue s q).state ≠ .fenced →
      mod32 i (queue s q).sqProducer < 2 ^ 31 → mod32 i (queue s q).cqHead ≤ queueDepth (queue s q) →
      ((queue s q).state ≠ .stoppedTorn →
        exec (.doorbellSqProducer q i) s = .next (setQueue q { queue s q with sqProducer := i } s)) ∧
      ((queue s q).state = .stoppedTorn → exec (.doorbellSqProducer q i) s = .next (setQueue q { queue s q with
        sqProducer := i, state := .running, sqFetched := (queue s q).stopIndex } s))) ∧
    (serves s = false ∨ (queue s q).state = .disabled ∨ (queue s q).state = .fenced ∨
      2 ^ 31 ≤ mod32 i (queue s q).sqProducer ∨ queueDepth (queue s q) < mod32 i (queue s q).cqHead →
      exec (.doorbellSqProducer q i) s = .next (ignoreDoorbell q s))) ∧
  (∀ q i s, Instr.wf (.doorbellCqHead q i) = true →
    (serves s = true → (queue s q).state ≠ .disabled → (queue s q).state ≠ .fenced →
      mod32 i (queue s q).cqHead ≤ mod32 (queue s q).cqProducer (queue s q).cqHead →
      exec (.doorbellCqHead q i) s = .next (setQueue q { queue s q with cqHead := i } s)) ∧
    (serves s = false ∨ (queue s q).state = .disabled ∨ (queue s q).state = .fenced ∨
      mod32 (queue s q).cqProducer (queue s q).cqHead < mod32 i (queue s q).cqHead →
      exec (.doorbellCqHead q i) s = .next (ignoreDoorbell q s))) ∧
  (∀ q s, s.lantern.events.once.contains 0x0103 = true → ignoreDoorbell q s = count E.DOORBELLS_IGNORED s) ∧
  (∀ q s t, s.lantern.events.once.contains 0x0103 = false → count E.DOORBELLS_IGNORED s = t →
    ignoreDoorbell q s = raise 0x0103 q (setEvents { t.lantern.events with once := 0x0103 :: t.lantern.events.once } t))

/-- Every command of a run completes with its own effect, in every state and at every operand that is well formed: the
commands of the stream where they start at once (R371 to R375), the queue's own steps, the messages of the fabric, the
units that work on memory, the Ridgeline and the pair. The next state is what the operation named for the command
leaves, with the waiting commands as they were; what each such operation does is in the statements about its family.
Where the manual leaves a choice, the model's is in log entries 2, 249. -/
def Obligations.RunCommandsTakeEffect : Prop :=
  (∀ q i r s, Instr.wf (.nop q i r) = true → startable q i r s →
    exec (.nop q i r) s = .next (withQueue s.pending (settleRun (endPlain q i 0 (begun q i r s))))) ∧
  (∀ q i r s, Instr.wf (.pegSignal q i r) = true → startable q i r s →
    exec (.pegSignal q i r) s = .next (withQueue s.pending (settleRun (pegSignalWork q i r (begun q i r s))))) ∧
  (∀ q i r s, Instr.wf (.pegWait q i r) = true → startable q i r s →
    exec (.pegWait q i r) s = .next (withQueue s.pending (settleRun (pegWaitWork q i r (begun q i r s))))) ∧
  (∀ q i r s, Instr.wf (.pegSet q i r) = true → startable q i r s →
    exec (.pegSet q i r) s = .next (withQueue s.pending (settleRun (pegSetWork q i r (begun q i r s))))) ∧
  (∀ q i r s, Instr.wf (.dmaCopy q i r) = true → startable q i r s →
    exec (.dmaCopy q i r) s = .next (withQueue s.pending (settleRun (ended q i (copyWork r (begun q i r s)))))) ∧
  (∀ q i r s, Instr.wf (.dmaTranspose q i r) = true → startable q i r s →
    exec (.dmaTranspose q i r) s = .next (withQueue s.pending (settleRun (ended q i (transposeWork r (begun q i r s)))))) ∧
  (∀ q i r s, Instr.wf (.rucksackPush q i r) = true → startable q i r s →
    exec (.rucksackPush q i r) s = .next (withQueue s.pending (settleRun (ended q i (pushWork r (begun q i r s)))))) ∧
  (∀ q i r s, Instr.wf (.rucksackPop q i r) = true → startable q i r s →
    exec (.rucksackPop q i r) s = .next (withQueue s.pending (settleRun (ended q i (popWork r (begun q i r s)))))) ∧
  (∀ q i r s, Instr.wf (.gemm q i r) = true → startable q i r s →
    exec (.gemm q i r) s = .next (withQueue s.pending (settleRun (ended q i (gemmWork r (begun q i r s)))))) ∧
  (∀ q i r s, Instr.wf (.rowRead q i r) = true → startable q i r s →
    exec (.rowRead q i r) s = .next (withQueue s.pending (settleRun (ended q i (rowReadWork r (begun q i r s)))))) ∧
  (∀ q i r s, Instr.wf (.rowWrite q i r) = true → startable q i r s →
    exec (.rowWrite q i r) s = .next (withQueue s.pending (settleRun (rowWriteWork q i 0x19 r (begun q i r s))))) ∧
  (∀ q i r s, Instr.wf (.rowFreeze q i r) = true → startable q i r s →
    exec (.rowFreeze q i r) s = .next (withQueue s.pending (settleRun (rowWriteWork q i 0x1A r (begun q i r s))))) ∧
  (∀ q i r s, Instr.wf (.rowReset q i r) = true → startable q i r s →
    exec (.rowReset q i r) s = .next (withQueue s.pending (settleRun (rowWriteWork q i 0x1B r (begun q i r s))))) ∧
  (∀ q i r s, Instr.wf (.rowengFwd q i r) = true → startable q i r s →
    exec (.rowengFwd q i r) s = .next (withQueue s.pending (settleRun (ended q i (rowEngWork false r (begun q i r s)))))) ∧
  (∀ q i r s, Instr.wf (.rowengBwd q i r) = true → startable q i r s →
    exec (.rowengBwd q i r) s = .next (withQueue s.pending (settleRun (ended q i (rowEngWork true r (begun q i r s)))))) ∧
  (∀ q i r s, Instr.wf (.gatherPool q i r) = true → startable q i r s →
    exec (.gatherPool q i r) s = .next (withQueue s.pending (settleRun (ended q i (poolBindWork r (begun q i r s)))))) ∧
  (∀ q i r s, Instr.wf (.gradScatter q i r) = true → startable q i r s →
    exec (.gradScatter q i r) s = .next (withQueue s.pending (settleRun (scatterWork q i r (begun q i r s))))) ∧
  (∀ q i r s, Instr.wf (.denseReduce q i r) = true → startable q i r s →
    exec (.denseReduce q i r) s = .next (withQueue s.pending (settleRun (denseReduceWork q i r (begun q i r s))))) ∧
  (∀ q i r s, Instr.wf (.sched q i r) = true → startable q i r s →
    exec (.sched q i r) s = .next (withQueue s.pending (settleRun (ended q i (schedWork r (begun q i r s)))))) ∧
  (∀ q i r s, Instr.wf (.checkScan q i r) = true → startable q i r s →
    exec (.checkScan q i r) s = .next (withQueue s.pending (settleRun (checkScanWork q i r (begun q i r s))))) ∧
  (∀ q i r s, Instr.wf (.genSetup q i r) = true → startable q i r s →
    exec (.genSetup q i r) s = .next (withQueue s.pending (settleRun (ended q i (genSetupWork r (begun q i r s)))))) ∧
  (∀ q i r s, Instr.wf (.genCut q i r) = true → startable q i r s →
    exec (.genCut q i r) s = .next (withQueue s.pending (settleRun (genCutWork q i r (begun q i r s))))) ∧
  (∀ q i r s, Instr.wf (.genExport q i r) = true → startable q i r s →
    exec (.genExport q i r) s = .next (withQueue s.pending (settleRun (genExportWork q i r (begun q i r s))))) ∧
  (∀ q i r s, Instr.wf (.genRelease q i r) = true → startable q i r s →
    exec (.genRelease q i r) s = .next (withQueue s.pending (settleRun (ended q i (genReleaseWork r (begun q i r s)))))) ∧
  (∀ q i r s, Instr.wf (.feedBind q i r) = true → startable q i r s →
    exec (.feedBind q i r) s = .next (withQueue s.pending (settleRun (ended q i (feedBindWork r (begun q i r s)))))) ∧
  (∀ q i r s, Instr.wf (.load q i r) = true → startable q i r s →
    exec (.load q i r) s = .next (withQueue s.pending (settleRun (loadWork q i r (begun q i r s))))) ∧
  (∀ q i r s, Instr.wf (.unload q i r) = true → startable q i r s →
    exec (.unload q i r) s = .next (withQueue s.pending (settleRun (unloadWork q i r (begun q i r s))))) ∧
  (∀ page s, Instr.wf (.parityFlushExpiry page) = true →
    exec (.parityFlushExpiry page) s = .next (withQueue s.pending (settleRun (parityFlush page s)))) ∧
  (∀ region tier upsets s, Instr.wf (.burnisherPageCheck region tier upsets) = true →
    exec (.burnisherPageCheck region tier upsets) s =
      .next (withQueue s.pending (settleRun (burnisherPage region tier (withUpsets upsets s))))) ∧
  (∀ region tier s, Instr.wf (.burnisherLapAlarm region tier) = true →
    exec (.burnisherLapAlarm region tier) s = .next (withQueue s.pending (lapAlarm region tier s))) ∧
  (∀ die s, Instr.wf (.checkScanRun die) = true →
    exec (.checkScanRun die) s = .next (withQueue s.pending (settleRun (runScan die s)))) ∧
  (∀ region s, Instr.wf (.proofRecompute region) = true →
    exec (.proofRecompute region) s = .next (withQueue s.pending (settleRun (proofRecompute region s)))) ∧
  (∀ msg s, Instr.wf (.indexRun msg) = true →
    exec (.indexRun msg) s = .next (withQueue s.pending (indexRunRow msg s))) ∧
  (∀ msg s, Instr.wf (.bandPartial msg) = true →
    exec (.bandPartial msg) s = .next (withQueue s.pending (bandPartialRow msg s))) ∧
  (∀ msg s, Instr.wf (.gradMsg msg) = true → exec (.gradMsg msg) s = .next (withQueue s.pending (gradMsgRow msg s))) ∧
  (∀ region s, Instr.wf (.gradConsume region) = true →
    exec (.gradConsume region) s = .next (withQueue s.pending (settleRun (consume region s)))) ∧
  (∀ region tableSet table row variant slice s, Instr.wf (.targetSliceApply region tableSet table row variant slice) = true →
    exec (.targetSliceApply region tableSet table row variant slice) s =
      .next (withQueue s.pending (settleRun (applyTarget region tableSet table row variant slice s)))) ∧
  (∀ msg s, Instr.wf (.shardGrad msg) = true →
    exec (.shardGrad msg) s = .next (withQueue s.pending (shardGradRow msg s))) ∧
  (∀ msg s, Instr.wf (.ledgerUp msg) = true →
    exec (.ledgerUp msg) s = .next (withQueue s.pending (ledgerUpRow msg s))) ∧
  (∀ msg s, Instr.wf (.ledgerDown msg) = true →
    exec (.ledgerDown msg) s = .next (withQueue s.pending (ledgerDownRow msg s))) ∧
  (∀ msg s, Instr.wf (.shardMulticast msg) = true →
    exec (.shardMulticast msg) s = .next (withQueue s.pending (shardMulticastRow msg s))) ∧
  (∀ msg s, Instr.wf (.stepReport msg) = true →
    exec (.stepReport msg) s = .next (withQueue s.pending (stepReportRow msg s))) ∧
  (∀ msg s, Instr.wf (.stepVerdict msg) = true →
    exec (.stepVerdict msg) s = .next (withQueue s.pending (stepVerdictRow msg s))) ∧
  (∀ queue reply s, Instr.wf (.commandFetch queue reply) = true →
    exec (.commandFetch queue reply) s = .next (withQueue s.pending (settleRun (fetchCommand queue reply s)))) ∧
  (∀ queue reply s, Instr.wf (.descriptorRecheckExpiry queue reply) = true →
    exec (.descriptorRecheckExpiry queue reply) s = .next (withQueue s.pending (settleRun (recheckDescriptor queue reply s)))) ∧
  (∀ queue index s, Instr.wf (.commandStart queue index) = true →
    exec (.commandStart queue index) s = .next (withQueue s.pending (settleRun (startCommand queue index s)))) ∧
  (∀ queue index s, Instr.wf (.commandComplete queue index) = true →
    exec (.commandComplete queue index) s = .next (withQueue s.pending (settleRun (completeCommand queue index s)))) ∧
  (∀ queue s, Instr.wf (.completionFlushDone queue) = true →
    exec (.completionFlushDone queue) s = .next (withQueue s.pending (settleRun (flushDone queue s)))) ∧
  (∀ queue s, Instr.wf (.intCoalesceExpiry queue) = true →
    exec (.intCoalesceExpiry queue) s = .next (withQueue s.pending (coalesceExpiry queue s))) ∧
  (∀ queue index s, Instr.wf (.doorbellSqProducer queue index) = true →
    exec (.doorbellSqProducer queue index) s = .next (withQueue s.pending (doorbellSq queue index s))) ∧
  (∀ queue index s, Instr.wf (.doorbellCqHead queue index) = true →
    exec (.doorbellCqHead queue index) s = .next (withQueue s.pending (doorbellCq queue index s))) ∧
  (∀ queue s, Instr.wf (.queueEnable queue) = true →
    exec (.queueEnable queue) s = .next (withQueue s.pending (enableQueue queue s))) ∧
  (∀ queue s, Instr.wf (.queueDisable queue) = true →
    exec (.queueDisable queue) s = .next (withQueue s.pending (settleRun (disableQueue queue s)))) ∧
  (∀ queue s, Instr.wf (.queueRestart queue) = true →
    exec (.queueRestart queue) s = .next (withQueue s.pending (restartQueue queue s))) ∧
  (∀ queue s, Instr.wf (.pcieCompletionTimeout queue) = true →
    exec (.pcieCompletionTimeout queue) s = .next (withQueue s.pending (settleRun (completionTimeout queue s)))) ∧
  (∀ queue index s, Instr.wf (.pegWaitTimeout queue index) = true →
    exec (.pegWaitTimeout queue index) s = .next (withQueue s.pending (settleRun (waitTimeout queue index s)))) ∧
  (∀ packet s, Instr.wf (.axisSignal packet) = true →
    exec (.axisSignal packet) s = .next (withQueue s.pending (arrive packet (axisSignal packet) s))) ∧
  (∀ s, Instr.wf .readyReport = true → exec .readyReport s = .next (withQueue s.pending (settleRun (readyReport s)))) ∧
  (∀ packet s, Instr.wf (.readySignal packet) = true →
    exec (.readySignal packet) s = .next (withQueue s.pending (arrive packet (readySignal packet) s))) ∧
  (∀ s, Instr.wf .beatExpiry = true → exec .beatExpiry s = .next (withQueue s.pending (beat s))) ∧
  (∀ packet s, Instr.wf (.joinStepSignal packet) = true →
    exec (.joinStepSignal packet) s = .next (withQueue s.pending (arrive packet (joinStepSignal packet) s))) ∧
  (∀ packet s, Instr.wf (.joinSignal packet) = true →
    exec (.joinSignal packet) s = .next (withQueue s.pending (arrive packet (joinSignal packet) s))) ∧
  (∀ packet s, Instr.wf (.leaveSignal packet) = true →
    exec (.leaveSignal packet) s = .next (withQueue s.pending (arrive packet (leaveSignal packet) s))) ∧
  (∀ packet s, Instr.wf (.excludeSignal packet) = true →
    exec (.excludeSignal packet) s = .next (withQueue s.pending (arrive packet (excludeSignal packet) s))) ∧
  (∀ packet s, Instr.wf (.admitSignal packet) = true →
    exec (.admitSignal packet) s = .next (withQueue s.pending (arrive packet (admitSignal packet) s))) ∧
  (∀ s, Instr.wf .standbyAdmit = true → exec .standbyAdmit s = .next (withQueue s.pending (admitStandby s))) ∧
  (∀ s, Instr.wf .ridgeSourceLoss = true →
    exec .ridgeSourceLoss s = .next (withQueue s.pending (settleRun (sourceLoss s)))) ∧
  (∀ s, Instr.wf .standbyTakeover = true → exec .standbyTakeover s = .next (withQueue s.pending (takeover s))) ∧
  (∀ s, Instr.wf .stepWatchdogExpiry = true → exec .stepWatchdogExpiry s = .next (withQueue s.pending (watchdog s))) ∧
  (∀ tag s, Instr.wf (.boundDelayExpiry tag) = true →
    exec (.boundDelayExpiry tag) s = .next (withQueue s.pending (boundDelay tag s))) ∧
  (∀ port packet s, Instr.wf (.repairRequest port packet) = true →
    exec (.repairRequest port packet) s =
      .next (withQueue s.pending (settleRun (repairRequest { packet with path := port - 8 } s)))) ∧
  (∀ port packet s, Instr.wf (.twinRepairWrite port packet) = true →
    exec (.twinRepairWrite port packet) s =
      .next (withQueue s.pending (settleRun (guylineResponse { packet with path := port - 8 } s)))) ∧
  (∀ s, Instr.wf .heartbeatSendExpiry = true →
    exec .heartbeatSendExpiry s = .next (withQueue s.pending (heartbeatTick s))) ∧
  (∀ s, Instr.wf .twinBeatLoss = true → exec .twinBeatLoss s = .next (withQueue s.pending (settleRun (beatLoss s)))) ∧
  (∀ ok word s, Instr.wf (.livenessDecision ok word) = true →
    exec (.livenessDecision ok word) s = .next (withQueue s.pending (settleRun (livenessDecision ok word s)))) ∧
  (∀ member s, Instr.wf (.twinProbeExpiry member) = true →
    exec (.twinProbeExpiry member) s = .next (withQueue s.pending (settleRun (probeExpiry member s)))) ∧
  (∀ port packet s, Instr.wf (.mirrorLog port packet) = true →
    exec (.mirrorLog port packet) s = .next (withQueue s.pending (settleRun (mirrorLog { packet with path := port - 8 } s)))) ∧
  (∀ port packet s, Instr.wf (.stepOperands port packet) = true →
    exec (.stepOperands port packet) s =
      .next (withQueue s.pending (settleRun (takeOperands { packet with path := port - 8 } s)))) ∧
  (∀ port packet s, Instr.wf (.stepMark port packet) = true →
    exec (.stepMark port packet) s = .next (withQueue s.pending (settleRun (takeMark { packet with path := port - 8 } s)))) ∧
  (∀ port packet s, Instr.wf (.copyPage port packet) = true →
    exec (.copyPage port packet) s = .next (withQueue s.pending (settleRun (copyPage { packet with path := port - 8 } s)))) ∧
  (∀ port packet s, Instr.wf (.occurrences port packet) = true →
    exec (.occurrences port packet) s =
      .next (withQueue s.pending (settleRun (takeOccPacket { packet with path := port - 8 } s)))) ∧
  (∀ port packet s, Instr.wf (.contributions port packet) = true →
    exec (.contributions port packet) s =
      .next (withQueue s.pending (settleRun (takeContribPacket { packet with path := port - 8 } s)))) ∧
  (∀ port packet s, Instr.wf (.rowChange port packet) = true →
    exec (.rowChange port packet) s =
      .next (withQueue s.pending (settleRun (takeRowPacket { packet with path := port - 8 } s))))

/-- Every command of the module's interfaces completes with its own effect, in every state and at every operand that is
well formed: the object dictionary, the fabric and its links, the host interface, Lantern, and power and start. The
next state is what the operation named for the command leaves, with the waiting commands as they were; what each such
operation does is in the statements about its family. Where the manual leaves a choice, the model's is in log entries
2, 249. -/
def Obligations.InterfaceCommandsTakeEffect : Prop :=
  (∀ path value s, Instr.wf (.portEnableMaskWrite path value) = true →
    exec (.portEnableMaskWrite path value) s = .next (withQueue s.pending (requestNumber path E.PORT_ENABLE_MASK 1 value s))) ∧
  (∀ path value s, Instr.wf (.routeTableCommit path value) = true →
    exec (.routeTableCommit path value) s = .next (withQueue s.pending (requestNumber path E.ROUTE_TABLE_COMMIT 1 value s))) ∧
  (∀ path axis value s, Instr.wf (.torusDimWrite path axis value) = true →
    exec (.torusDimWrite path axis value) s =
      .next (withQueue s.pending (requestNumber path (E.TORUS_DIM_X + axis) 1 value s))) ∧
  (∀ path first data s, Instr.wf (.coordTableWrite path first data) = true →
    exec (.coordTableWrite path first data) s =
      .next (withQueue s.pending (requestWrite path (E.COORD_TABLE / 256) (E.COORD_TABLE % 256) (2 * first) data s))) ∧
  (∀ path value s, Instr.wf (.watchRingTailWrite path value) = true →
    exec (.watchRingTailWrite path value) s = .next (withQueue s.pending (requestNumber path E.WATCH_RING_TAIL 8 value s))) ∧
  (∀ path value s, Instr.wf (.watchHistoryReset path value) = true →
    exec (.watchHistoryReset path value) s = .next (withQueue s.pending (requestNumber path E.WATCH_HISTORY_RESET 2 value s))) ∧
  (∀ path value s, Instr.wf (.watchResume path value) = true →
    exec (.watchResume path value) s = .next (withQueue s.pending (requestNumber path E.WATCH_RESUME 1 value s))) ∧
  (∀ path value s, Instr.wf (.stepAgreeResume path value) = true →
    exec (.stepAgreeResume path value) s = .next (withQueue s.pending (requestNumber path E.STEP_AGREE_RESUME 1 value s))) ∧
  (∀ path value s, Instr.wf (.tsetT path value) = true →
    exec (.tsetT path value) s = .next (withQueue s.pending (requestNumber path E.TSET_T 8 value s))) ∧
  (∀ path value s, Instr.wf (.salvage path value) = true →
    exec (.salvage path value) s = .next (withQueue s.pending (requestNumber path E.SALVAGE 1 value s))) ∧
  (∀ source data s, Instr.wf (.odpRequest source data) = true →
    exec (.odpRequest source data) s = .next (withQueue s.pending (odpRequest source data s))) ∧
  (∀ path index sub s, Instr.wf (.odpRead path index sub) = true →
    exec (.odpRead path index sub) s = .next (withQueue s.pending (requestRead path index sub s))) ∧
  (∀ path index sub data s, Instr.wf (.odpWrite path index sub data) = true →
    exec (.odpWrite path index sub data) s = .next (withQueue s.pending (requestWrite path index sub 0 data s))) ∧
  (∀ path index sub s, Instr.wf (.describe path index sub) = true →
    exec (.describe path index sub) s = .next (withQueue s.pending (requestDescribe path index sub s))) ∧
  (∀ path index sub data s, Instr.wf (.stage path index sub data) = true →
    exec (.stage path index sub data) s = .next (withQueue s.pending (requestStage path index sub data s))) ∧
  (∀ target s, Instr.wf (.registerWrite target) = true →
    exec (.registerWrite target) s = .next (withQueue s.pending (registerWrite target s))) ∧
  (∀ data s, Instr.wf (.i3cPrivateWrite data) = true →
    exec (.i3cPrivateWrite data) s = .next (withQueue s.pending (i3cWrite data s))) ∧
  (∀ s, Instr.wf .i3cPrivateRead = true → exec .i3cPrivateRead s = .next (withQueue s.pending (i3cRead s))) ∧
  (∀ address inBand s, Instr.wf (.i3cAddressAssign address inBand) = true →
    exec (.i3cAddressAssign address inBand) s = .next (withQueue s.pending (i3cAssign address inBand s))) ∧
  (∀ write index sub data s, Instr.wf (.uartConsoleCommand write index sub data) = true →
    exec (.uartConsoleCommand write index sub data) s = .next (withQueue s.pending (uartCommand write index sub data s))) ∧
  (∀ path value s, Instr.wf (.setCommit path value) = true →
    exec (.setCommit path value) s = .next (withQueue s.pending (requestNumber path E.SET_COMMIT 8 value s))) ∧
  (∀ path value s, Instr.wf (.setRevert path value) = true →
    exec (.setRevert path value) s = .next (withQueue s.pending (requestNumber path E.SET_REVERT 4 value s))) ∧
  (∀ path value s, Instr.wf (.setConfirm path value) = true →
    exec (.setConfirm path value) s = .next (withQueue s.pending (requestNumber path E.SET_CONFIRM 4 value s))) ∧
  (∀ path value s, Instr.wf (.setClear path value) = true →
    exec (.setClear path value) s = .next (withQueue s.pending (requestNumber path E.SET_CLEAR 1 value s))) ∧
  (∀ s, Instr.wf .setConfirmTimeout = true →
    exec .setConfirmTimeout s = .next (withQueue s.pending (confirmTimeout s))) ∧
  (∀ path value s, Instr.wf (.faultCodeClear path value) = true →
    exec (.faultCodeClear path value) s = .next (withQueue s.pending (requestNumber path E.FAULT_CODE 2 value s))) ∧
  (∀ path value s, Instr.wf (.countersClearAll path value) = true →
    exec (.countersClearAll path value) s = .next (withQueue s.pending (requestNumber path E.COUNTERS_CLEAR_ALL 1 value s))) ∧
  (∀ port packet s, Instr.wf (.packetTransit port packet) = true →
    exec (.packetTransit port packet) s = .next (withQueue s.pending (transit port packet s))) ∧
  (∀ packet upsets s, Instr.wf (.read packet upsets) = true →
    exec (.read packet upsets) s = .next (withQueue s.pending (arrive packet (readRow packet upsets) s))) ∧
  (∀ packet s, Instr.wf (.write packet) = true →
    exec (.write packet) s = .next (withQueue s.pending (arrive packet (writeRow packet) s))) ∧
  (∀ packet s, Instr.wf (.atomicAdd packet) = true →
    exec (.atomicAdd packet) s = .next (withQueue s.pending (arrive packet (atomicAddRow packet) s))) ∧
  (∀ packet s, Instr.wf (.fabricPegSignal packet) = true →
    exec (.fabricPegSignal packet) s = .next (withQueue s.pending (arrive packet (fabricPegSignalRow packet) s))) ∧
  (∀ packet s, Instr.wf (.poisonedWrite packet) = true →
    exec (.poisonedWrite packet) s = .next (withQueue s.pending (arrive packet (poisonedWriteRow packet) s))) ∧
  (∀ reply s, Instr.wf (.responseReceive reply) = true →
    exec (.responseReceive reply) s = .next (withQueue s.pending (responseArrival reply s))) ∧
  (∀ guyline die tag s, Instr.wf (.fabricRequestTimeout guyline die tag) = true →
    exec (.fabricRequestTimeout guyline die tag) s = .next (withQueue s.pending (fabricTimeout guyline die tag s))) ∧
  (∀ retry s, Instr.wf (.retryBackoffExpiry retry) = true →
    exec (.retryBackoffExpiry retry) s = .next (withQueue s.pending (retryBackoff retry s))) ∧
  (∀ packet s, Instr.wf (.messageFragmentReceive packet) = true →
    exec (.messageFragmentReceive packet) s =
      .next (withQueue s.pending (settleRun (arrive packet (fragmentReceive hasRoom packet) s)))) ∧
  (∀ die src srcDie tag s, Instr.wf (.dupFilterEntryExpiry die src srcDie tag) = true →
    exec (.dupFilterEntryExpiry die src srcDie tag) s = .next (withQueue s.pending (dupExpiry die src srcDie tag s))) ∧
  (∀ mask s, Instr.wf (.causeClear mask) = true →
    exec (.causeClear mask) s = .next (withQueue s.pending (clearCauses mask s))) ∧
  (∀ offset length s, Instr.wf (.bar2Read offset length) = true →
    exec (.bar2Read offset length) s = .next (withQueue s.pending (settleRun (readBar2 offset length s)))) ∧
  (∀ offset data poison s, Instr.wf (.bar2Write offset data poison) = true →
    exec (.bar2Write offset data poison) s = .next (withQueue s.pending (settleRun (writeBar2 offset data poison s)))) ∧
  (∀ requester offset data poison s, Instr.wf (.intakeWindowWrite requester offset data poison) = true →
    exec (.intakeWindowWrite requester offset data poison) s =
      .next (withQueue s.pending (settleRun (intakeWrite requester offset data poison s)))) ∧
  (∀ offset length s, Instr.wf (.exportWindowRead offset length) = true →
    exec (.exportWindowRead offset length) s = .next (withQueue s.pending (settleRun (exportRead offset length s)))) ∧
  (∀ ring size value s, Instr.wf (.intakeProducerWrite ring size value) = true →
    exec (.intakeProducerWrite ring size value) s = .next (withQueue s.pending (settleRun (producerWrite ring size value s)))) ∧
  (∀ ring value s, Instr.wf (.consumedStepWrite ring value) = true →
    exec (.consumedStepWrite ring value) s = .next (withQueue s.pending (settleRun (consumedStepWrite ring value s)))) ∧
  (∀ ring s, Instr.wf (.ringEnable ring) = true →
    exec (.ringEnable ring) s = .next (withQueue s.pending (enableRing ring s))) ∧
  (∀ ring s, Instr.wf (.ringDisable ring) = true →
    exec (.ringDisable ring) s = .next (withQueue s.pending (ringDisable ring s))) ∧
  (∀ tableSet s, Instr.wf (.feedExportPublish tableSet) = true →
    exec (.feedExportPublish tableSet) s = .next (withQueue s.pending (settleRun (feedPublish tableSet s)))) ∧
  (∀ s, Instr.wf .mailboxGo = true → exec .mailboxGo s = .next (withQueue s.pending (settleRun (mailboxGo s)))) ∧
  (∀ s, Instr.wf .pcieLinkExitL0 = true → exec .pcieLinkExitL0 s = .next (withQueue s.pending (linkExit s))) ∧
  (∀ s, Instr.wf .pcieLinkReturnL0 = true →
    exec .pcieLinkReturnL0 s = .next (withQueue s.pending (settleRun (linkReturn s)))) ∧
  (∀ s, Instr.wf .hostLossTimeout = true →
    exec .hostLossTimeout s = .next (withQueue s.pending (settleRun (lossTimeout s)))) ∧
  (∀ s, Instr.wf .perstAssert = true → exec .perstAssert s = .next (withQueue s.pending (settleRun (perstOn s)))) ∧
  (∀ s, Instr.wf .perstDeassert = true → exec .perstDeassert s = .next (withQueue s.pending (settleRun (perstOff s)))) ∧
  (∀ s, Instr.wf .functionLevelReset = true →
    exec .functionLevelReset s = .next (withQueue s.pending (settleRun (functionReset s)))) ∧
  (∀ s, Instr.wf .pcieHotReset = true → exec .pcieHotReset s = .next (withQueue s.pending (settleRun (hotReset s)))) ∧
  (∀ s, Instr.wf .d3hotEntry = true → exec .d3hotEntry s = .next (withQueue s.pending (settleRun (enterD3hot s)))) ∧
  (∀ busMaster functionMask d3hot s, Instr.wf (.configurationWrite busMaster functionMask d3hot) = true →
    exec (.configurationWrite busMaster functionMask d3hot) s =
      .next (withQueue s.pending (settleRun (configWrite busMaster functionMask d3hot s)))) ∧
  (∀ s, Instr.wf .lanternFault = true → exec .lanternFault s = .next (withQueue s.pending (lanternFault s))) ∧
  (∀ s, Instr.wf .lanternServing = true → exec .lanternServing s = .next (withQueue s.pending (lanternServing s))) ∧
  (∀ path s, Instr.wf (.fwBegin path) = true →
    exec (.fwBegin path) s = .next (withQueue s.pending (requestNumber path E.FW_UPDATE_CONTROL 1 1 s))) ∧
  (∀ path offset data s, Instr.wf (.fwUpdateData path offset data) = true →
    exec (.fwUpdateData path offset data) s =
      .next (withQueue s.pending (requestWrite path (E.FW_UPDATE_DATA / 256) (E.FW_UPDATE_DATA % 256) offset data s))) ∧
  (∀ path s, Instr.wf (.fwVerify path) = true →
    exec (.fwVerify path) s = .next (withQueue s.pending (requestNumber path E.FW_UPDATE_CONTROL 1 2 s))) ∧
  (∀ s, Instr.wf .fwVerifyDone = true → exec .fwVerifyDone s = .next (withQueue s.pending (fwVerifyDone s))) ∧
  (∀ path s, Instr.wf (.fwActivate path) = true →
    exec (.fwActivate path) s = .next (withQueue s.pending (requestNumber path E.FW_UPDATE_CONTROL 1 3 s))) ∧
  (∀ path s, Instr.wf (.fwAbort path) = true →
    exec (.fwAbort path) s = .next (withQueue s.pending (requestNumber path E.FW_UPDATE_CONTROL 1 4 s))) ∧
  (∀ path value s, Instr.wf (.fwConfirm path value) = true →
    exec (.fwConfirm path value) s = .next (withQueue s.pending (requestNumber path E.FW_CONFIRM 1 value s))) ∧
  (∀ request s, Instr.wf (.getVersion request) = true →
    exec (.getVersion request) s = .next (withQueue s.pending (spdm 0 request s))) ∧
  (∀ request s, Instr.wf (.getCapabilities request) = true →
    exec (.getCapabilities request) s = .next (withQueue s.pending (spdm 1 request s))) ∧
  (∀ request s, Instr.wf (.negotiateAlgorithms request) = true →
    exec (.negotiateAlgorithms request) s = .next (withQueue s.pending (spdm 2 request s))) ∧
  (∀ request s, Instr.wf (.getDigests request) = true →
    exec (.getDigests request) s = .next (withQueue s.pending (spdm 3 request s))) ∧
  (∀ request s, Instr.wf (.getCertificate request) = true →
    exec (.getCertificate request) s = .next (withQueue s.pending (spdm 4 request s))) ∧
  (∀ request s, Instr.wf (.challenge request) = true →
    exec (.challenge request) s = .next (withQueue s.pending (spdm 5 request s))) ∧
  (∀ request s, Instr.wf (.getMeasurements request) = true →
    exec (.getMeasurements request) s = .next (withQueue s.pending (spdm 6 request s))) ∧
  (∀ request s, Instr.wf (.spdmUnsupported request) = true →
    exec (.spdmUnsupported request) s = .next (withQueue s.pending (spdm 7 request s))) ∧
  (∀ s, Instr.wf .eventRateInterval = true → exec .eventRateInterval s = .next (withQueue s.pending (rateInterval s))) ∧
  (∀ s, Instr.wf .eventLogFlashWrite = true →
    exec .eventLogFlashWrite s = .next (withQueue s.pending (flushEvents s))) ∧
  (∀ path s, Instr.wf (.eventRecords path) = true →
    exec (.eventRecords path) s = .next (withQueue s.pending (requestEvents path s))) ∧
  (∀ message offsetNs locked s, Instr.wf (.ptpMessage message offsetNs locked) = true →
    exec (.ptpMessage message offsetNs locked) s = .next (withQueue s.pending (ptpMessage message offsetNs locked s))) ∧
  (∀ s, Instr.wf .ptpUnlocked = true → exec .ptpUnlocked s = .next (withQueue s.pending (ptpLost s))) ∧
  (∀ port flit code s, Instr.wf (.dataFlitReceive port flit code) = true →
    exec (.dataFlitReceive port flit code) s = .next (withQueue s.pending (flitReceive port flit code s))) ∧
  (∀ port flit s, Instr.wf (.controlFlitReceive port flit) = true →
    exec (.controlFlitReceive port flit) s = .next (withQueue s.pending (controlReceive port flit s))) ∧
  (∀ port flit s, Instr.wf (.nakReceive port flit) = true →
    exec (.nakReceive port flit) s = .next (withQueue s.pending (nakReceive port flit s))) ∧
  (∀ port record s, Instr.wf (.trainFlitReceive port record) = true →
    exec (.trainFlitReceive port record) s = .next (withQueue s.pending (trainReceive port record s))) ∧
  (∀ port moduleNumber modState twinState axis runId s, Instr.wf (.heartbeatReceive port moduleNumber modState twinState axis runId) = true →
    exec (.heartbeatReceive port moduleNumber modState twinState axis runId) s =
      .next (withQueue s.pending (settleRun (heartbeat ⟨moduleNumber, modState, twinState, axis, runId⟩ s)))) ∧
  (∀ port s, Instr.wf (.controlFlitInterval port) = true →
    exec (.controlFlitInterval port) s = .next (withQueue s.pending (controlInterval port s))) ∧
  (∀ port s, Instr.wf (.linkRetryExpiry port) = true →
    exec (.linkRetryExpiry port) s = .next (withQueue s.pending (retryExpiry port s))) ∧
  (∀ port s, Instr.wf (.codewordLockLoss port) = true →
    exec (.codewordLockLoss port) s = .next (withQueue s.pending (retrain port s))) ∧
  (∀ port s, Instr.wf (.portTrainingDone port) = true →
    exec (.portTrainingDone port) s = .next (withQueue s.pending (settleRun (portTrained port s)))) ∧
  (∀ port s, Instr.wf (.retrainTimeout port) = true →
    exec (.retrainTimeout port) s = .next (withQueue s.pending (settleRun (retrainFailed port s)))) ∧
  (∀ port s, Instr.wf (.linkDownRetryExpiry port) = true →
    exec (.linkDownRetryExpiry port) s = .next (withQueue s.pending (trainAgain port s))) ∧
  (∀ feed s, Instr.wf (.inputPowerArrival feed) = true →
    exec (.inputPowerArrival feed) s = .next (withQueue s.pending (feedIn feed s))) ∧
  (∀ failedRails s, Instr.wf (.bringupStageComplete failedRails) = true →
    exec (.bringupStageComplete failedRails) s = .next (withQueue s.pending (stageDone failedRails s))) ∧
  (∀ unit s, Instr.wf (.bringupStageTimeout unit) = true →
    exec (.bringupStageTimeout unit) s = .next (withQueue s.pending (stageTimeout unit s))) ∧
  (∀ s, Instr.wf .bringupRetryExpiry = true → exec .bringupRetryExpiry s = .next (withQueue s.pending (retryStart s))) ∧
  (∀ feed s, Instr.wf (.feedUndervoltage feed) = true →
    exec (.feedUndervoltage feed) s = .next (withQueue s.pending (feedUnder feed s))) ∧
  (∀ feed s, Instr.wf (.feedLost feed) = true →
    exec (.feedLost feed) s = .next (withQueue s.pending (feedGone feed s))) ∧
  (∀ feed s, Instr.wf (.feedOvervoltage feed) = true →
    exec (.feedOvervoltage feed) s = .next (withQueue s.pending (feedOver feed s))) ∧
  (∀ feed s, Instr.wf (.feedReconnect feed) = true →
    exec (.feedReconnect feed) s = .next (withQueue s.pending (feedIn feed s))) ∧
  (∀ s, Instr.wf .powerFailWarning = true → exec .powerFailWarning s = .next (withQueue s.pending (powerFail s))) ∧
  (∀ s, Instr.wf .bulkBusCollapse = true → exec .bulkBusCollapse s = .next (withQueue s.pending (busCollapse s))) ∧
  (∀ rail s, Instr.wf (.railFault rail) = true →
    exec (.railFault rail) s = .next (withQueue s.pending (railFault rail s))) ∧
  (∀ hbm unit value s, Instr.wf (.thermalThrottle hbm unit value) = true →
    exec (.thermalThrottle hbm unit value) s = .next (withQueue s.pending (thermal hbm unit value s))) ∧
  (∀ hbm unit value s, Instr.wf (.thermalShutdown hbm unit value) = true →
    exec (.thermalShutdown hbm unit value) s = .next (withQueue s.pending (thermalTrip hbm unit value s))) ∧
  (∀ low s, Instr.wf (.coolantFlowLow low) = true →
    exec (.coolantFlowLow low) s = .next (withQueue s.pending (flowLow low s))) ∧
  (∀ milliwatts s, Instr.wf (.powerLimitInterval milliwatts) = true →
    exec (.powerLimitInterval milliwatts) s = .next (withQueue s.pending (powerInterval milliwatts s))) ∧
  (∀ milliwatts s, Instr.wf (.throttleRaiseInterval milliwatts) = true →
    exec (.throttleRaiseInterval milliwatts) s = .next (withQueue s.pending (throttleRaise milliwatts s))) ∧
  (∀ values s, Instr.wf (.senseSample values) = true →
    exec (.senseSample values) s = .next (withQueue s.pending (senseSample values s))) ∧
  (∀ path s, Instr.wf (.enterRetention path) = true →
    exec (.enterRetention path) s = .next (withQueue s.pending (requestNumber path E.POWER_STATE_REQUEST 1 1 s))) ∧
  (∀ path s, Instr.wf (.exitRetention path) = true →
    exec (.exitRetention path) s = .next (withQueue s.pending (requestNumber path E.POWER_STATE_REQUEST 1 2 s))) ∧
  (∀ path s, Instr.wf (.moduleReset path) = true →
    exec (.moduleReset path) s = .next (withQueue s.pending (requestNumber path E.POWER_STATE_REQUEST 1 3 s))) ∧
  (∀ path s, Instr.wf (.standbyRequest path) = true →
    exec (.standbyRequest path) s = .next (withQueue s.pending (requestNumber path E.POWER_STATE_REQUEST 1 4 s))) ∧
  (∀ path s, Instr.wf (.coldStart path) = true →
    exec (.coldStart path) s = .next (withQueue s.pending (requestNumber path E.POWER_STATE_REQUEST 1 5 s))) ∧
  (∀ s, Instr.wf .resetReqAssert = true → exec .resetReqAssert s = .next (withQueue s.pending (pinRequest 3 s))) ∧
  (∀ s, Instr.wf .serviceButtonShort = true →
    exec .serviceButtonShort s = .next (withQueue s.pending (buttonShort s))) ∧
  (∀ s, Instr.wf .serviceButtonHold = true → exec .serviceButtonHold s = .next (withQueue s.pending (buttonHold s))) ∧
  (∀ unit s, Instr.wf (.unitFault unit) = true →
    exec (.unitFault unit) s = .next (withQueue s.pending (unitFault unit s))) ∧
  (∀ stack hot s, Instr.wf (.hbm3RefreshDoubled stack hot) = true →
    exec (.hbm3RefreshDoubled stack hot) s = .next (withQueue s.pending (refreshDoubled stack hot s)))

/-- R502, R503, R508: how a start begins and goes on. Input power that reaches a module without its standby rail begins a
cold start at stage 1, with Lantern not yet serving, firmware and logged events kept and nothing in memory. Stage 1
leads to stage 2; at stage 2 Lantern boots the valid active image, serves and turns the main rails on; rails that hold
lead from stage 3 to stage 4; at stage 4 MODULE_PWRGD rises; stage 5 leads a cold start to stage 6 and another to
stage 7; stage 6 leaves memory filled; stage 7 makes the module READY. Where the manual leaves a choice, the model's
is in log entries 1, 4, 101, 203, 249. -/
def Obligations.StartStages : Prop :=
  (∀ f s, Instr.wf (.inputPowerArrival f) = true → s.life.standbyRail = false → s.life.pwrFailWarn = false →
    ∃ t, exec (.inputPowerArrival f) s = .next t ∧ inFeed t f = { connected := true } ∧ t.life.modState = .init ∧
      t.life.start = some .cold ∧ t.life.stage = 1 ∧ t.life.standbyRail = true ∧ t.lantern.serving = false ∧
      t.lantern.fw = s.lantern.fw ∧ t.lantern.events.records = s.lantern.events.records ∧ t.mem = {} ∧
      t.loadState = .idle ∧ t.pending = s.pending) ∧
  (∀ rails s k, Instr.wf (.bringupStageComplete rails) = true → s.life.start = some k → s.life.retryWait = false →
    s.life.startHalted = false →
    (s.life.stage = 1 → exec (.bringupStageComplete rails) s = .next (setLife { s.life with stage := 2 } s)) ∧
    (s.life.stage = 2 → s.lantern.fw.trialB = none → fwValid s.lantern.fw s.lantern.fw.activeB = true →
      s.lantern.events.buffered = [] →
      exec (.bringupStageComplete rails) s = .next { s with
        life := { s.life with
          stage := 3, conversion := true, powState := .active, retryWait := false, startHalted := false }
        lantern := { s.lantern with
          serving := true, events := { s.lantern.events with inInterval := 0 }
          fw := { s.lantern.fw with runningB := s.lantern.fw.activeB } } }) ∧
    (s.life.stage = 3 → rails = [] → exec (.bringupStageComplete rails) s = .next (setLife { s.life with stage := 4 } s)) ∧
    (s.life.stage = 4 → s.host.perst = true → s.life.pwrgd = false →
      exec (.bringupStageComplete rails) s =
        .next (setLife { s.life with stage := 5, pwrgd := true } (emit (.pin "MODULE_PWRGD" true) s))) ∧
    (s.life.stage = 5 → exec (.bringupStageComplete rails) s =
      .next (setLife { s.life with stage := if k = .cold then 6 else 7 } s)) ∧
    (s.life.stage = 6 → ∃ t, exec (.bringupStageComplete rails) s = .next t ∧ t.life = { s.life with stage := 7 } ∧
      t.mem.cells = [] ∧ t.mem.marks = [] ∧ t.mem.damage = [] ∧ t.mem.pend = [] ∧ t.mem.stale = [] ∧
      reg t E.FILL_TIME_MS = (Config.freeWord s.free).toNat % 2001 ∧ t.free = s.free + 1 ∧ t.lantern = s.lantern ∧
      t.power = s.power ∧ t.outbox = s.outbox ∧ t.pending = s.pending) ∧
    (s.life.stage = 7 → ∃ t, exec (.bringupStageComplete rails) s = .next t ∧ t.life.modState = .ready ∧
      t.life.start = none ∧ t.life.stage = 0 ∧ t.pending = s.pending))

/-- R504: a stage of a start that exceeds its limit. The first time the event is raised, every main rail turns off and the
start waits one second; when that second is over, it goes on at stage 3 with the rails on. The second time the module
leaves service, with the rails off and the unit in its fault record. Where the manual leaves a choice, the model's is
in log entries 200, 208, 216, 249. -/
def Obligations.StartOverruns : Prop :=
  (∀ c s k, Instr.wf (.bringupStageTimeout c) = true → s.life.start = some k → s.life.retryWait = false →
    s.life.startHalted = false → 4 ≤ s.life.stage →
    (s.life.overruns = 0 → ∃ t, exec (.bringupStageTimeout c) s = .next t ∧ t.life.retryWait = true ∧ t.life.overruns = 1 ∧
      t.life.start = some .cold ∧ t.life.conversion = false ∧ t.life.powState = .standby ∧ t.life.modState = s.life.modState ∧
      t.mem = {} ∧ t.power = s.power ∧ t.pending = s.pending) ∧
    (s.life.overruns ≠ 0 → s.life.fault.code = 0 → ∃ t, exec (.bringupStageTimeout c) s = .next t ∧
      t.life.modState = .outOfService ∧ t.life.fault.code = 0x0C31 ∧ t.life.fault.coord = ownUnit s c ∧ t.life.start = none ∧
      t.life.conversion = false ∧ t.mem = {} ∧ t.power = s.power ∧ t.pending = s.pending)) ∧
  (∀ s, s.life.retryWait = true → ∃ t, exec .bringupRetryExpiry s = .next t ∧ t.life.retryWait = false ∧ t.life.stage = 3 ∧
    t.life.conversion = true ∧ t.life.powState = .active ∧ t.life.start = s.life.start ∧ t.lantern = s.lantern ∧
    t.pending = s.pending)

/-- R515, R516, R518, R528: feeds, the bulk bus and the rails. A feed in range connects and clears its episode; an
undervoltage raises one event for its episode, and the feed conducts only while it is the higher one; the loss of a
feed is counted and logged; an overvoltage disconnects the feed, and that of the last one takes the module out of
service with everything off. The power-fail warning lowers its pin, is counted, takes a module whose cores run to
RETENTION by the drain, and writes the pending event records to the flash. The collapse of the bulk bus leaves the
module in INIT without power, and only event records that are in the flash survive. A rail out of its band is a trip:
the module is out of service, its rails are off and the fault is recorded. Where the manual leaves a choice, the
model's is in log entries 4, 203, 215, 249, 294. -/
def Obligations.FeedsAndRails : Prop :=
  (∀ f s, Instr.wf (.feedReconnect f) = true → s.life.standbyRail = true → s.life.awaitsFeed = false →
    s.life.pwrFailWarn = false → exec (.feedReconnect f) s = .next (settleFeeds (setFeed f { connected := true } s))) ∧
  (∀ f s, Instr.wf (.feedUndervoltage f) = true → (inFeed s f).connected = true → (inFeed s f).under = false →
    exec (.feedUndervoltage f) s = .next (raise 0x0B01 f (settleFeeds (setFeed f { inFeed s f with under := true } s)))) ∧
  (∀ f s, Instr.wf (.feedLost f) = true → (inFeed s f).connected = true → s.life.start = none →
    exec (.feedLost f) s = .next (raise 0x0B03 f (count E.FEED_LOSS_EVENTS
      (settleFeeds (setFeed f { inFeed s f with connected := false, under := false } s))))) ∧
  (∀ f s, Instr.wf (.feedOvervoltage f) = true → (inFeed s f).connected = true → (inFeed s (1 - f)).connected = true →
    exec (.feedOvervoltage f) s = .next (raise 0x0B02 f
      (settleFeeds (setFeed f { inFeed s f with connected := false, overV := true, under := false } s)))) ∧
  (∀ f s, Instr.wf (.feedOvervoltage f) = true → (inFeed s f).connected = true → (inFeed s (1 - f)).connected = false →
    (inFeed s (1 - f)).under = false → s.life.fault.code = 0 → ∃ t, exec (.feedOvervoltage f) s = .next t ∧ t.life.modState = .outOfService ∧
      t.life.fault.code = 0x0B02 ∧ t.life.conversion = false ∧ t.life.standbyRail = false ∧ t.lantern.serving = false ∧
      t.mem = {} ∧ anyFeed t = false ∧ (inFeed t f).overV = true ∧ t.pending = s.pending) ∧
  (∀ s, s.life.start = none → coresRun s = true → ∃ t, exec .powerFailWarning s = .next t ∧ t.life.modState = .retention ∧
    t.life.powState = .retention ∧ t.life.pwrFailWarn = true ∧ t.lantern.events.unflushed = 0 ∧ t.power = s.power ∧
    t.pending = s.pending) ∧
  (∀ s, ∃ t, exec .bulkBusCollapse s = .next t ∧ t.life.modState = .init ∧ t.loadState = .idle ∧ t.mem = {} ∧
    t.life.conversion = false ∧ t.life.standbyRail = false ∧ t.lantern.serving = false ∧ t.lantern.events.unflushed = 0 ∧
    t.lantern.events.records =
      s.lantern.events.records.take (s.lantern.events.records.length - s.lantern.events.unflushed) ∧
    t.dict = s.dict ∧ t.power = s.power ∧ t.lantern.fw = s.lantern.fw ∧ t.pending = s.pending) ∧
  (∀ r s, Instr.wf (.railFault r) = true → s.life.conversion = true → s.life.start = none → s.life.fault.code = 0 →
    ∃ t, exec (.railFault r) s = .next t ∧ t.life.modState = .outOfService ∧ t.life.fault.code = 0x0B04 ∧
      t.life.fault.coord = endpointCoord s ∧ t.life.conversion = false ∧ t.life.powState = .standby ∧ t.mem = {} ∧
      t.power = s.power ∧ t.pending = s.pending)

/-- R523 to R526: the throttle. A temperature that reaches its threshold makes the unit a throttle cause, lowers the level
by one, and raises the event of a new episode; the trip temperature takes the module out of service with its rails
off; low coolant flow begins its cause, counts and logs it, and its end ends the cause; an interval above the power
limit meters the energy, lowers the level and raises the episode's event; an interval without a cause below 95 % of
the limit raises the level by one, to 16 at the most. Where the manual leaves a choice, the model's is in log entries
206, 207, 249. -/
def Obligations.Throttle : Prop :=
  (∀ hbm u v s, Instr.wf (.thermalThrottle hbm u v) = true → (if hbm then 90 else 100) ≤ v → isHot s = false →
    4 < s.power.throttleN →
    exec (.thermalThrottle hbm u v) s = .next (raiseAt 0x0B06 (hotCoord s hbm u) v (count E.THERMAL_THROTTLE_STEPS
      (setPower { s.power with
        hotStacks := if hbm then [u] else [], hotDies := if hbm then [] else [u]
        throttleN := s.power.throttleN - 1 } s)))) ∧
  (∀ hbm u v s, Instr.wf (.thermalThrottle hbm u v) = true → v < (if hbm then 88 else 98) →
    exec (.thermalThrottle hbm u v) s = .next (setPower
      (if hbm then { s.power with hotStacks := s.power.hotStacks.filter fun x => x != u }
        else { s.power with hotDies := s.power.hotDies.filter fun x => x != u }) s)) ∧
  (∀ hbm u v s, Instr.wf (.thermalShutdown hbm u v) = true → (if hbm then 95 else 105) ≤ v → s.life.conversion = true →
    s.life.fault.code = 0 →
    ∃ t, exec (.thermalShutdown hbm u v) s = .next t ∧ t.life.modState = .outOfService ∧ t.life.fault.code = 0x0B07 ∧
      t.life.fault.coord = hotCoord s hbm u ∧ t.life.conversion = false ∧ t.mem = {} ∧ t.power = s.power ∧
      t.pending = s.pending) ∧
  (∀ s, s.power.causeFlow = false → exec (.coolantFlowLow true) s =
    .next (raise 0x0B08 0 (count E.FLOW_LOW_EVENTS (setPower { s.power with causeFlow := true } s)))) ∧
  (∀ s, exec (.coolantFlowLow false) s = .next (setPower { s.power with causeFlow := false } s)) ∧
  (∀ mw s, powerLimit s * 1000 < mw → s.power.causePower = false → s.power.throttleN = 16 →
    exec (.powerLimitInterval mw) s = .next (raise 0x0B09 (mw / 1000) (count E.POWER_LIMIT_STEPS (setPower { s.power with
      energyUj := (s.power.energyUj + 10 * mw) % 1000000000, causePower := true, throttleN := 15 }
      (countN E.ENERGY_KJ ((s.power.energyUj + 10 * mw) / 1000000000) s))))) ∧
  (∀ mw s, mw ≤ powerLimit s * 1000 → isHot s = false → s.power.throttleN = 16 →
    exec (.powerLimitInterval mw) s = .next (setPower { s.power with
      energyUj := (s.power.energyUj + 10 * mw) % 1000000000, causePower := false }
      (countN E.ENERGY_KJ ((s.power.energyUj + 10 * mw) / 1000000000) s))) ∧
  (∀ mw s, isHot s = false → s.power.causePower = false → s.power.causeFlow = false → mw < powerLimit s * 950 →
    exec (.throttleRaiseInterval mw) s = .next (setPower { s.power with throttleN := min 16 (s.power.throttleN + 1) } s))

/-- R29, R30, R257, R534: what the units report. A unit fault takes the module out of service: the first one is recorded
with the unit, the code and the point, a later one is logged as an event, and a port whose own unit has failed is
DOWN; a hot HBM3 stack refreshes at the doubled rate until it has cooled; a sense sample becomes the current value of
its point and, as the first, its extremes. Where the manual leaves a choice, the model's is in log entries 2, 208,
249, 284. -/
def Obligations.UnitReports : Prop :=
  (∀ c s, Instr.wf (.unitFault c) = true → (∀ i ∈ upto 12, portUnit i ≠ c ∧ portFaulty s i = false) →
    (s.life.fault.code = 0 → exec (.unitFault c) s = .next { s with
      life := { s.life with
        modState := .outOfService, start := none, stage := 0, retryWait := false, startHalted := false
        faultUnits := c :: s.life.faultUnits
        fault := { coord := ownUnit s c, code := 0x0C21, step := curStep s, station := curStation s } } }) ∧
    (s.life.fault.code ≠ 0 → exec (.unitFault c) s = .next (withQueue s.pending (setModState .outOfService
      (raiseAt 0x0C21 (ownUnit s c) 0 (setLife { s.life with
        start := none, stage := 0, retryWait := false, startHalted := false
        faultUnits := c :: s.life.faultUnits } s)))))) ∧
  (∀ i s, i < 12 → Instr.wf (.unitFault (portUnit i)) = true → ∃ t, exec (.unitFault (portUnit i)) s = .next t ∧
    (port t i).state = .down ∧ portFaulty t i = true ∧ t.life.modState = .outOfService ∧ t.pending = s.pending) ∧
  (∀ u s, Instr.wf (.hbm3RefreshDoubled u true) = true → exec (.hbm3RefreshDoubled u true) s = .next
    (setPower { s.power with refreshDoubled := (s.power.refreshDoubled.filter fun x => x != u) ++ [u] } s)) ∧
  (∀ u s, Instr.wf (.hbm3RefreshDoubled u false) = true → exec (.hbm3RefreshDoubled u false) s = .next
    (setPower { s.power with refreshDoubled := s.power.refreshDoubled.filter fun x => x != u } s)) ∧
  (∀ vs s, Instr.wf (.senseSample vs) = true → s.lantern.serving = true → ∃ t, exec (.senseSample vs) s = .next t ∧
    (∀ i v, vs[i]? = some v → sget 0 t.power.sense i = v ∧
      (s.power.sampled = false → sget 0 t.power.senseMax i = v ∧ sget 0 t.power.senseMin i = v)) ∧
    t.power.sampled = true ∧ t.power.throttleN = s.power.throttleN ∧
    t = setPower t.power s)

/-- R521, R533: power-state requests. An accepted write of POWER_STATE_REQUEST drains the module into RETENTION (1),
starts it again with DRAM kept (2, and 3 after a drain), turns its main rails off (4), or starts it cold from its
standby rail (5); the RESET_REQ# pin asks for 3 and the held service button for 4 where R521 admits it. The short
press toggles LOCATE. Where the manual leaves a choice, the model's is in log entries 161, 210, 249. -/
def Obligations.PowerRequests : Prop :=
  (∀ p s, Instr.wf (.enterRetention p) = true → accepts s p E.POWER_STATE_REQUEST 0 [1] →
    exec (.enterRetention p) s = .next (withQueue s.pending (answered p (drainToRetention (touchPath p s))))) ∧
  (∀ p s, Instr.wf (.exitRetention p) = true → accepts s p E.POWER_STATE_REQUEST 0 [2] →
    exec (.exitRetention p) s = .next (withQueue s.pending (answered p (warmStart .retentionExit (touchPath p s))))) ∧
  (∀ p s, Instr.wf (.moduleReset p) = true → accepts s p E.POWER_STATE_REQUEST 0 [3] →
    exec (.moduleReset p) s =
      .next (withQueue s.pending (answered p (warmStart .moduleReset (drainCores (touchPath p s)))))) ∧
  (∀ p s, Instr.wf (.standbyRequest p) = true → accepts s p E.POWER_STATE_REQUEST 0 [4] →
    exec (.standbyRequest p) s = .next (withQueue s.pending (answered p (toStandby (touchPath p s))))) ∧
  (∀ p s, Instr.wf (.coldStart p) = true → accepts s p E.POWER_STATE_REQUEST 0 [5] →
    exec (.coldStart p) s = .next (withQueue s.pending (answered p (coldFromRails (touchPath p s))))) ∧
  (∀ s, s.life.modState ≠ .init → s.life.powState ≠ .standby →
    exec .resetReqAssert s = .next (withQueue s.pending (warmStart .moduleReset (drainCores s)))) ∧
  (∀ s, isState s .ready || isState s .outOfService || isState s .retention →
    exec .serviceButtonHold s = .next (withQueue s.pending (toStandby s))) ∧
  (∀ s, exec .serviceButtonShort s = .next (setReg E.LOCATE (1 - reg s E.LOCATE) s)) ∧
  -- what these operations leave
  (∀ s, (drainToRetention s).life = { s.life with modState := .retention, powState := .retention } ∧
    (drainToRetention s).power = s.power ∧ (drainToRetention s).loadState = s.loadState) ∧
  (∀ k s, (warmStart k s).life.modState = .init ∧ (warmStart k s).life.start = some k ∧
    (warmStart k s).life.stage = firstStage k ∧ (warmStart k s).life.conversion = true ∧
    (warmStart k s).life.powState = .active ∧ (warmStart k s).loadState = .idle ∧
    (warmStart k s).mem.cells = s.mem.cells ∧ (warmStart k s).mem.marks = s.mem.marks ∧ (warmStart k s).pegs = {} ∧
    (warmStart k s).host.epoch = s.host.epoch ∧ (warmStart k s).lantern.serving = s.lantern.serving) ∧
  (∀ s, (toStandby s).mem = {} ∧ (toStandby s).life.conversion = false ∧ (toStandby s).life.powState = .standby ∧
    (toStandby s).life.modState = (if s.life.modState = .outOfService then .outOfService else .init)) ∧
  (∀ s, (coldFromRails s).mem = {} ∧ (coldFromRails s).life.modState = .init ∧ (coldFromRails s).life.start = some .cold ∧
    (coldFromRails s).life.stage = 3 ∧ (coldFromRails s).life.conversion = true ∧
    (coldFromRails s).lantern.fw = s.lantern.fw)

/-- R362, R468, R497: Lantern's own restart, its clock and its event log. A fault of Lantern outside a start leaves the
module running without it; when it serves again, on the image that the boot ROM chooses, it takes the events that the
dies buffered and logs its restart. The rate interval begins anew; a flash write leaves no record pending; a PTP
message of the module's domain sets the clock, and one that calls for it is answered by a delay request (log entry
293); one of another domain does nothing, and the loss of the lock raises one event. Where the manual leaves a choice,
the model's is in log entries 101, 204, 209, 249, 293. -/
def Obligations.LanternRestartAndClock : Prop :=
  (∀ s, s.lantern.serving = true → s.life.start = none → s.life.recovery = false → s.lantern.ptpLocked = false →
    exec .lanternFault s = .next (setLantern { s.lantern with serving := false, mbxBusy := false }
      (count E.LANTERN_RESTARTS s))) ∧
  (∀ s, s.lantern.serving = false → s.life.standbyRail = true → s.life.start = none → s.life.startHalted = false →
    s.lantern.fw.trialB = none → fwValid s.lantern.fw s.lantern.fw.activeB = true → s.lantern.events.buffered = [] →
    exec .lanternServing s = .next (raise 0x0C18 0 (setLantern { s.lantern with
      serving := true, events := { s.lantern.events with inInterval := 0 }
      fw := { s.lantern.fw with runningB := s.lantern.fw.activeB } } s))) ∧
  (∀ s, exec .eventRateInterval s = .next (setEvents { s.lantern.events with inInterval := 0 } s)) ∧
  (∀ s, s.lantern.events.records.length ≤ 262144 →
    exec .eventLogFlashWrite s = .next (setEvents { s.lantern.events with unflushed := 0 } s)) ∧
  (∀ m o s, Instr.wf (.ptpMessage m o true) = true → s.lantern.serving = true → m.domain = setting s E.PTP_DOMAIN →
    exec (.ptpMessage m o true) s = .next (setLantern { s.lantern with
      wallNs := m.wallNs % 2 ^ 64, ptpOffset := o, ptpLocked := true } (whenS m.sync (emit (.ptpDelayRequest m.domain)) s))) ∧
  (∀ m o s, Instr.wf (.ptpMessage m o false) = true → s.lantern.serving = true → m.domain = setting s E.PTP_DOMAIN →
    s.lantern.ptpLocked = false →
    exec (.ptpMessage m o false) s = .next (setLantern { s.lantern with
      wallNs := m.wallNs % 2 ^ 64, ptpOffset := o } (whenS m.sync (emit (.ptpDelayRequest m.domain)) s))) ∧
  (∀ m o k s, Instr.wf (.ptpMessage m o k) = true → m.domain ≠ setting s E.PTP_DOMAIN →
    exec (.ptpMessage m o k) s = .next s) ∧
  (∀ s, s.lantern.ptpLocked = true →
    exec .ptpUnlocked s = .next (raise 0x0A15 0 (setLantern { s.lantern with ptpLocked := false } s)))

/-- R470 to R473: the firmware update. BEGIN empties the slot that no running image came from and receives; a piece at the
offset received so far is stored there; VERIFY is taken on, and its end finds the image valid or not; ACTIVATE of a
verified image sets it on trial and starts the module cold; ABORT empties the slot again; FW_CONFIRM makes an image on
trial the active one and raises the security floor to its number. Where the manual leaves a choice, the model's is in
log entries 101, 103, 249. -/
def Obligations.FirmwareUpdate : Prop :=
  (∀ p s, Instr.wf (.fwBegin p) = true → accepts s p E.FW_UPDATE_CONTROL 0 [1] →
    exec (.fwBegin p) s = .next (withQueue s.pending (answered p (setFw
      { putSlot (spareSlot s) [] s.lantern.fw with update := .receiving, status := 0, received := 0, verifying := false }
      (touchPath p s))))) ∧
  (∀ p o b s, Instr.wf (.fwUpdateData p o b) = true → accepts s p E.FW_UPDATE_DATA o b →
    exec (.fwUpdateData p o b) s = .next (withQueue s.pending (answered p (setFw
      { putSlot (spareSlot s) (sputs 0 (fwSlot s.lantern.fw (spareSlot s)) s.lantern.fw.received b) s.lantern.fw with
        received := s.lantern.fw.received + b.length } (touchPath p s))))) ∧
  (∀ p s, Instr.wf (.fwVerify p) = true → accepts s p E.FW_UPDATE_CONTROL 0 [2] →
    exec (.fwVerify p) s =
      .next (withQueue s.pending (answered p (setFw { s.lantern.fw with verifying := true } (touchPath p s))))) ∧
  (∀ s, s.lantern.fw.verifying = true → fwValid s.lantern.fw (spareSlot s) = true →
    exec .fwVerifyDone s = .next (setFw { s.lantern.fw with verifying := false, update := .verified, status := 0 } s)) ∧
  (∀ s, s.lantern.fw.verifying = true → fwValid s.lantern.fw (spareSlot s) = false →
    exec .fwVerifyDone s = .next (setFw { s.lantern.fw with
      verifying := false, update := .failed
      status := if fwSound s.lantern.fw (spareSlot s) then 0x0C13 else 0x0C11 } s)) ∧
  (∀ p s, Instr.wf (.fwActivate p) = true → accepts s p E.FW_UPDATE_CONTROL 0 [3] → ∃ t,
    exec (.fwActivate p) s = .next t ∧ t.lantern.fw.trialB = some (spareSlot s) ∧ t.lantern.fw.trialBoots = 0 ∧
      t.lantern.fw.update = .idle ∧ t.life.start = some .cold ∧ t.life.stage = 1 ∧ t.lantern.serving = false ∧
      t.pending = s.pending) ∧
  (∀ p s, Instr.wf (.fwAbort p) = true → accepts s p E.FW_UPDATE_CONTROL 0 [4] → s.lantern.fw.update ≠ .idle →
    exec (.fwAbort p) s = .next (withQueue s.pending (answered p (setFw
      { putSlot (spareSlot s) [] s.lantern.fw with update := .idle, status := 0, received := 0, verifying := false }
      (touchPath p s))))) ∧
  (∀ p s b, Instr.wf (.fwConfirm p 1) = true → accepts s p E.FW_CONFIRM 0 [1] → s.lantern.fw.trialB = some b →
    s.lantern.fw.trialBoots = 1 → s.lantern.fw.runningB = b →
    exec (.fwConfirm p 1) s = .next (withQueue s.pending (answered p (setFw { s.lantern.fw with
      activeB := b, trialB := none, trialBoots := 0, svnFloor := max s.lantern.fw.svnFloor (fwSvn s.lantern.fw b) }
      (touchPath p s)))))

/-- R267, R276 to R278, R282 to R284, R249: units that work on memory by themselves. An entry of the parity cache whose
lines and parity sectors are undamaged is written back whole; the Burnisher checks the next page and ends a lap after
a tier's last, raises one alarm for a lap, and checks nothing where it does not run; the check-value unit of a die of
a module that serves runs its oldest scan, whose result is kept and whose command ends; and a sampled tile that can be
recomputed is binned by its largest deviation, one that cannot is counted as skipped. Where the manual leaves a
choice, the model's is in log entries 7, 8, 76, 105, 106, 249, 261, 262. -/
def Obligations.MemoryUnits : Prop :=
  (∀ pk d s, Instr.wf (.parityFlushExpiry pk) = true → sget none s.mem.pend pk = some d →
    damageOf s (secKey pk 62) = 0 → damageOf s (secKey pk 63) = 0 → (∀ l ∈ pendLines s pk, sget 0 s.mem.sramBad l = 0) →
    exec (.parityFlushExpiry pk) s = .next (withQueue s.pending (settleRun (count E.PARITY_WRITEBACKS
      (setMem { s.mem with pend := sput none s.mem.pend pk none } s))))) ∧
  (∀ pk s, Instr.wf (.parityFlushExpiry pk) = true → sget none s.mem.pend pk = none →
    exec (.parityFlushExpiry pk) s = .next (withQueue s.pending (settleRun s))) ∧
  (∀ g r us s t b, Instr.wf (.burnisherPageCheck g r us) = true → withUpsets us s = t → burnisherRuns t = true →
    b = { burnOf t g r with startNs := some ((burnOf t g r).startNs.getD t.lantern.wallNs) } →
    let u := setBurn g r b (checkPage g (pageKey (placeOf (g / 4) r (g % 4)) b.page) t)
    (tierPages r ≤ b.page + 1 → exec (.burnisherPageCheck g r us) s =
      .next (withQueue s.pending (settleRun (endLap g r u)))) ∧
    (b.page + 1 < tierPages r → exec (.burnisherPageCheck g r us) s =
      .next (withQueue s.pending (settleRun (setBurn g r { b with page := b.page + 1 } u))))) ∧
  (∀ g r s, Instr.wf (.burnisherPageCheck g r []) = true → burnisherRuns s = false →
    exec (.burnisherPageCheck g r []) s = .next (withQueue s.pending (settleRun s))) ∧
  (∀ g pk s, (s.mem.damage.any fun e => pageOfSec e.1 == pk) = false →
    (staleOf s pk = (0, 0) → checkPage g pk s = s) ∧
    (staleOf s pk ≠ (0, 0) → checkPage g pk s =
      raiseOnceAt 0x0704 (burnCoord s g) pk (count E.PARITY_REPAIRS (setStale pk (0, 0) s)))) ∧
  (∀ g r s, r < 2 → (burnOf (endLap g r s) g r).page = 0 ∧
    (burnOf (endLap g r s) g r).laps = min ((burnOf s g r).laps + 1) (2 ^ 32 - 1) ∧
    (burnOf (endLap g r s) g r).startNs = some s.lantern.wallNs ∧ (burnOf (endLap g r s) g r).alarmed = false) ∧
  (∀ g r s, Instr.wf (.burnisherLapAlarm g r) = true → setting s E.BURNISHER_LAP_LIMIT_S ≠ 0 →
    (burnOf s g r).alarmed = false → (burnOf s g r).startNs ≠ none →
    exec (.burnisherLapAlarm g r) s = .next (withQueue s.pending (raiseAt 0x0706 (burnCoord s g) (burnKey g r)
      (count E.BURNISHER_ALARMS (setBurn g r { burnOf s g r with alarmed := true } s))))) ∧
  (∀ g r s, Instr.wf (.burnisherLapAlarm g r) = true → (burnOf s g r).alarmed = true →
    exec (.burnisherLapAlarm g r) s = .next s) ∧
  (∀ d c v s t u, Instr.wf (.checkScanRun d) = true → serves s = true → (scansAt s d).head? = some c → c.resultAddr = 0 → c.compare = false →
    scanResult c (setMem { s.mem with scans := s.mem.scans.erase c } s) = ((v, 0), t) →
    setMem { t.mem with lastResult := sput 0 t.mem.lastResult d v, lastStatus := sput 0 t.mem.lastStatus d 0 }
      (count E.CHECK_SCANS t) = u →
    exec (.checkScanRun d) s = .next (withQueue s.pending (settleRun (endPlain c.queue c.index 0 u)))) ∧
  (∀ d s, Instr.wf (.checkScanRun d) = true → scansAt s d = [] ∨ serves s = false →
    exec (.checkScanRun d) s = .next (withQueue s.pending (settleRun s))) ∧
  (∀ g p s t, Instr.wf (.proofRecompute g) = true → serves s = true → (s.watch.proofs.find? fun p => p.region == g) = some p →
    gemmJob (gemmOf p.record) p.step (setWatch { s.watch with proofs := s.watch.proofs.erase p } s) = (none, t) →
    exec (.proofRecompute g) s = .next (withQueue s.pending (settleRun (count E.PROOF_TILES_SKIPPED t)))) ∧
  (∀ g p j rc u s t, Instr.wf (.proofRecompute g) = true → serves s = true → (s.watch.proofs.find? fun p => p.region == g) = some p →
    gemmJob (gemmOf p.record) p.step (setWatch { s.watch with proofs := s.watch.proofs.erase p } s) = (some j, t) →
    loadOperand j.c t = (rc, u) →
    let es := tileElems j p.tileI p.tileJ
    let fs := tallyAll (es.map fun e => proofRef j e.1 e.2)
    let ns := es.map fun e => proofNarrow j rc p.down e.1 e.2
    fs.1.any numNonfinite = false → ns.any numNonfinite = false → proofPoison j rc p.tileI p.tileJ es = false →
    exec (.proofRecompute g) s = .next (withQueue s.pending (settleRun
      (binProof p (proofBin (amaxList ((ns.zip fs.1).map fun x => numSub x.1 x.2)) (amaxList fs.1)) (countTally fs.2 u)))))

/-- R296, R298 to R300: flits on a port that is UP. A codeword of up to 15 symbol errors counts the symbols corrected, and
one of more is discarded with its flits and counted (the command of a flit carries what the decoder found of its
codeword, and whether that has been counted: log entry 246). A data flit of good CRC that carries the expected SEQ is
accepted, its ACK is taken, and its last flit hands the packet to the router or the Guyline unit; any other one is
discarded, one of bad CRC counted, and the first since an acceptance is answered with a NAK. IDLE and CREDIT flits
bring ACK and credits, a NAK a replay from its SEQ, the retry timer a replay from the oldest flit, and every 64 flit
times an IDLE flit goes out. Where the manual leaves a choice, the model's is in log entries 246, 249, 283. -/
def Obligations.Flits : Prop :=
  (∀ i f c s, Instr.wf (.dataFlitReceive i f c) = true → (port s i).state = .up → c.errors ≤ 15 → f.crc = flitCrc f →
    f.seq = (port s i).expect →
    exec (.dataFlitReceive i f c) s =
      .next (withQueue s.pending (pumpPort i (acceptFlit i f (takeAck i f.ack (countFec i c s)))))) ∧
  (∀ i f c s, (port s i).state = .up → c.errors ≤ 15 → f.crc = flitCrc f → f.seq ≠ (port s i).expect →
    Instr.wf (.dataFlitReceive i f c) = true →
    ((port s i).nakSent = false → exec (.dataFlitReceive i f c) s =
      .next (sendControl i 2 (updPort i (fun p => { p with nakSent := true }) (countFec i c s)))) ∧
    ((port s i).nakSent = true → exec (.dataFlitReceive i f c) s = .next (countFec i c s))) ∧
  (∀ i f c s t, (port s i).state = .up → c.errors ≤ 15 → f.crc ≠ flitCrc f → Instr.wf (.dataFlitReceive i f c) = true →
    updPort i (fun p => { p with crcErrors := min (p.crcErrors + 1) (2 ^ 32 - 1) }) (countFec i c s) = t →
    ((port s i).nakSent = false → exec (.dataFlitReceive i f c) s =
      .next (sendControl i 2 (updPort i (fun p => { p with nakSent := true }) t))) ∧
    ((port s i).nakSent = true → exec (.dataFlitReceive i f c) s = .next t)) ∧
  (∀ i f c s, (port s i).state = .up → 15 < c.errors → Instr.wf (.dataFlitReceive i f c) = true →
    exec (.dataFlitReceive i f c) s = .next (countFec i c s)) ∧
  (∀ i c s, Instr.wf (.controlFlitReceive i c) = true → (port s i).state = .up →
    (c.word.errors ≤ 15 → c.crcGood = true → exec (.controlFlitReceive i c) s =
      .next (withQueue s.pending (pumpPort i (takeCredits i c.credits (takeAck i c.ack (countFec i c.word s)))))) ∧
    (15 < c.word.errors ∨ c.crcGood = false → exec (.controlFlitReceive i c) s = .next (countFec i c.word s))) ∧
  (∀ i c s, Instr.wf (.nakReceive i c) = true → (port s i).state = .up →
    (c.word.errors ≤ 15 → c.crcGood = true → exec (.nakReceive i c) s = .next (withQueue s.pending
      (pumpPort i (replay i c.nakSeq (takeCredits i c.credits (takeAck i c.ack (countFec i c.word s))))))) ∧
    (15 < c.word.errors ∨ c.crcGood = false → exec (.nakReceive i c) s = .next (countFec i c.word s))) ∧
  (∀ i s, Instr.wf (.controlFlitInterval i) = true → (port s i).state = .up →
    exec (.controlFlitInterval i) s = .next (emit (.control i (controlOf s i 0)) s)) ∧
  (∀ i f fs s, Instr.wf (.linkRetryExpiry i) = true → (port s i).state = .up → (port s i).retry = f :: fs →
    exec (.linkRetryExpiry i) s = .next (withQueue s.pending (replay i f.seq s))) ∧
  -- acceptance and acknowledgement, and what a codeword counts
  (∀ i c s, port (countFec i c s) i =
    if c.counted then port s i
    else if c.errors ≤ 15 then
      { port s i with fecCorrected := min ((port s i).fecCorrected + c.errors) (2 ^ 64 - 1) }
    else { port s i with fecUncorrectable := min ((port s i).fecUncorrectable + 1) (2 ^ 32 - 1) }) ∧
  (∀ i f s, (port (acceptFlit i f s) i).expect = ((port s i).expect + 1) % 4096 ∧
    (port (acceptFlit i f s) i).nakSent = false ∧ (acceptFlit i f s).mem = s.mem ∧ (acceptFlit i f s).outbox = s.outbox) ∧
  (∀ i a s f, f ∈ (port (takeAck i a s) i).retry ↔
    f ∈ (port s i).retry ∧ (f.seq + 4096 - a - 1) % 4096 < 2048)

/-- R302 to R305, R436: training and loss of a port. A TRAIN record that passes every check agrees a level, and one that
fails a check leaves the port REFUSED with the check's code; lost codeword lock starts a retrain that keeps the retry
buffer, and takes the settings that a training puts in force; training that completes brings the port UP at the level
agreed; a retrain that lasts too long leaves it DOWN, with its flits and its input buffers discarded, and a second
later it tries again, from SEQ 0; trying again for too long leaves it DOWN once more. A heartbeat is kept as the
partner's last beat. Where the manual leaves a choice, the model's is in log entries 35, 86, 97, 162, 236, 237, 246,
249, 250, 279, 281, 282, 284. -/
def Obligations.PortTraining : Prop :=
  (∀ i r s t, Instr.wf (.trainFlitReceive i r) = true → (port s i).state = .training → r.word.errors ≤ 15 →
    countFec i r.word s = t →
    (trainRefusal t i r = 0 → r.selected ≠ 0 →
      exec (.trainFlitReceive i r) s = .next (updPort i (fun p => { p with
        peerModule := r.moduleNumber, peerPort := r.port, selected := commonLevel (trainRecord t i 0).levels r.levels
        resume := p.resume && (p.peerModule == r.moduleNumber && p.peerPort == r.port) }) t)) ∧
    (trainRefusal t i r ≠ 0 → (port t i).held = [] →
      exec (.trainFlitReceive i r) s = .next (withQueue s.pending (raiseAt (trainRefusal t i r) (portCoord t i) r.moduleNumber
        (updPort i (fun p => { p with state := .refused, refuse := trainRefusal t i r }) (dropPort i t)))))) ∧
  (∀ i r s, Instr.wf (.trainFlitReceive i r) = true → 15 < r.word.errors →
    exec (.trainFlitReceive i r) s = .next (countFec i r.word s)) ∧
  (∀ i s t, Instr.wf (.codewordLockLoss i) = true → (port s i).state = .up → trains s i = true →
    updPort i (fun p => { p with
      state := .training, retraining := true, resume := true, replays := 0, selected := 0
      retrains := min (p.retrains + 1) (2 ^ 32 - 1) }) (captureTraining i s) = t →
    exec (.codewordLockLoss i) s = .next (withQueue s.pending (emit (.train i (trainRecord t i 0)) t))) ∧
  (∀ i s, Instr.wf (.codewordLockLoss i) = true → (port s i).state = .up → trains s i = false →
    exec (.codewordLockLoss i) s = .next (withQueue s.pending (startTraining i s))) ∧
  (∀ i s, Instr.wf (.portTrainingDone i) = true → (port s i).state = .training → (port s i).selected ≠ 0 →
    exec (.portTrainingDone i) s = .next (withQueue s.pending (settleRun (formPair (trainingDone i s)))) ∧
      (port (trainingDone i s) i).state = .up ∧ (port (trainingDone i s) i).level = (port s i).selected ∧
      (trainingDone i s).mem = s.mem) ∧
  (∀ i s, Instr.wf (.retrainTimeout i) = true → i < 8 → (port s i).state = .training → (port s i).again = false →
    (port s i).retraining = true →
    exec (.retrainTimeout i) s = .next (withQueue s.pending (settleRun (raiseAt 0x0807 (portCoord s i) i
      (count E.LINK_DOWN_EVENTS (updPort i (fun p => { p with state := .down }) (dropPort i s))))))) ∧
  (∀ i s, i < 8 → port (dropPort i s) i = { cleared (port s i) with
      waiting := [], held := [], retraining := false, again := false, resume := false } ∧
    (dropPort i s).fabric.arrivals = s.fabric.arrivals.filter fun e => e.1 != i) ∧
  (∀ i s, Instr.wf (.retrainTimeout i) = true → (port s i).state = .training → (port s i).again = true →
    exec (.retrainTimeout i) s = .next (withQueue s.pending (settleRun
      (updPort i (fun p => { p with state := .down, again := false }) s)))) ∧
  (∀ i s, Instr.wf (.linkDownRetryExpiry i) = true → (port s i).state = .down → portFaulty s i = false → trains s i = true →
    exec (.linkDownRetryExpiry i) s =
      .next (withQueue s.pending (updPort i (fun p => { p with again := true }) (startTraining i s)))) ∧
  (∀ i s, trains s i = true → (port (startTraining i s) i).state = .training ∧
    (port (startTraining i s) i).nextSeq = 0 ∧ (port (startTraining i s) i).retry = [] ∧
    (port (startTraining i s) i).dims = [reg s E.TORUS_DIM_X, reg s E.TORUS_DIM_Y, reg s E.TORUS_DIM_Z] ∧
    (port (startTraining i s) i).coords = s.dict.coordTable) ∧
  (∀ i m a b x r s, Instr.wf (.heartbeatReceive i m a b x r) = true → gOpen s = true →
    exec (.heartbeatReceive i m a b x r) s =
      .next (withQueue s.pending (settleRun (formPair (setTwin { s.twin with beat := some ⟨m, a, b, x, r⟩ } s)))))

/-- R303, R306 to R312, R332: a packet in transit leaves the buffers of the port that delivered it. The module it is for
takes it in; another forwards it by the next hop with its hop count one higher, and counts its flits; a port that
trains holds it until its level is known; where the hop is refused, the packet comes back or is discarded as R312
says. Where the manual leaves a choice, the model's is in log entries 11, 234, 249, 280. -/
def Obligations.PacketTransit : Prop :=
  (∀ i p s q c t, Instr.wf (.packetTransit i p) = true → takeArrival p s = t → turned t p i = (q, c) →
    (nextHop t q c = .here → hopCode t (i / 2) .here q = 0 →
      exec (.packetTransit i p) s = .next (withQueue s.pending (emit (.packet insidePort q) t))) ∧
    (nextHop t q c = .here → hopCode t (i / 2) .here q ≠ 0 →
      exec (.packetTransit i p) s = .next (withQueue s.pending (returnPacket (i / 2) q (hopCode t (i / 2) .here q) t))) ∧
    (∀ j d u, nextHop t q c = .port j d → hopCode t (i / 2) (.port j d) q = 0 →
      countN E.TRANSIT_FLITS (flitsOf q).length t = u → hopCode u (i / 2) (.port j d) q = 0 →
      exec (.packetTransit i p) s = .next (withQueue s.pending (takeHop (.port j d) q u))) ∧
    (∀ j d, nextHop t q c = .port j d → hopCode t (i / 2) (.port j d) q ≠ 0 →
      exec (.packetTransit i p) s = .next (withQueue s.pending
        (returnPacket (i / 2) q (hopCode t (i / 2) (.port j d) q) t)))) ∧
  (∀ j d q s, ((port s j).state ≠ .training ∨ (port s j).retraining = true) →
    takeHop (.port j d) q s = putOnPort j { q with hops := q.hops + 1, dateline := d } s) ∧
  (∀ j d q s, (port s j).state = .training → (port s j).retraining = false →
    takeHop (.port j d) q s =
      updPort j (fun v => { v with held := v.held ++ [{ q with hops := q.hops + 1, dateline := d }] }) s)

/-- R306, R314, R316 to R318, R321, R338, R363: the one-sided operations at their target. A module that serves performs a
request of good END_CHECK that is addressed to it: READ answers the current bytes, WRITE and POISONED_WRITE store
theirs, ATOMIC_ADD adds to a U64 and answers the old value, PEG_SIGNAL adds to a peg; all but READ and WRITE pass the
duplicate filter first. Where the manual leaves a choice, the model's is in log entries 8, 77, 83, 193, 249. -/
def Obligations.OneSidedOperations : Prop :=
  ∀ p s, serves s = true → gModule p.address = myNumber s → endCheckGood p = true →
    let s₀ := count E.PACKETS_DELIVERED (takeArrival p s)
    let a := modAddr (gDie p.address) (gOff p.address)
    let n := p.data.length
    let fresh := findDup s₀ p (gDie p.address) = none ∧
      dupEntries s₀ (gDie p.address) < 16384
    (∀ us, Instr.wf (.read p us) = true → us = [] → n = 8 → 1 ≤ leNat p.data → leNat p.data ≤ 4096 →
      rangeRefusal s₀ (gOff p.address) (leNat p.data) 0x080E = 0 → readRefusal s₀ (gOff p.address) (leNat p.data) = 0 →
      exec (.read p us) s = .next (withQueue s.pending (settleRun (respond p 0 (accessRead a (leNat p.data) s₀).1.1
        (accessRead a (leNat p.data) s₀).1.2 (accessRead a (leNat p.data) s₀).2)))) ∧
    (Instr.wf (.write p) = true → 1 ≤ n → rangeRefusal s₀ (gOff p.address) n 0x080E = 0 →
      writeRefusal s₀ (gDie p.address) (gOff p.address) n = 0 →
      exec (.write p) s =
        .next (withQueue s.pending (settleRun (respond p 0 [] false (writeRange a p.data false s₀))))) ∧
    (Instr.wf (.poisonedWrite p) = true → fresh → 1 ≤ n → rangeRefusal s₀ (gOff p.address) n 0x080E = 0 →
      writeRefusal s₀ (gDie p.address) (gOff p.address) n = 0 →
      exec (.poisonedWrite p) s = .next (withQueue s.pending (settleRun (answerReq true p 0 [] false
        (writeRange a p.data true (countN E.POISON_PROPAGATED (touched a n).length s₀)))))) ∧
    (Instr.wf (.atomicAdd p) = true → fresh → n = 8 → gOff p.address % 8 = 0 →
      rangeRefusal s₀ (gOff p.address) 8 0x080E = 0 → writeRefusal s₀ (gDie p.address) (gOff p.address) 8 = 0 →
      exec (.atomicAdd p) s = .next (withQueue s.pending (settleRun (answerReq true p 0
        (readRange a 8 s₀).1.1 (readRange a 8 s₀).1.2
        (writeRange a (natLe 8 ((leNat (readRange a 8 s₀).1.1 + leNat p.data) % 2 ^ 64)) false (readRange a 8 s₀).2))))) ∧
    (Instr.wf (.fabricPegSignal p) = true → fresh → pegOpRefusal s₀ p = 0 →
      isRidgePeg (gDie p.address) ((spotOf s₀ (gOff p.address)).off / 64) = false →
      exec (.fabricPegSignal p) s = .next (withQueue s.pending (answerReq true p 0 [] false
        (signalPeg (gDie p.address) ((spotOf s₀ (gOff p.address)).off / 64) (BitVec.ofNat 64 (leNat p.data)) s₀))))

/-- R324, R334 to R339: the ends of requests. The first response to a request of a command frees its tag and tells the
command; a request whose timer elapses goes out again until FABRIC_RETRY_LIMIT, and then fails with 0x0810; a request
that was told RETRY_LATER goes out again when its delay ends; a duplicate-filter entry that has aged is gone; and a
message's only fragment, of good shape, delivers the message. Where the manual leaves a choice, the model's is in log
entries 249, 288. -/
def Obligations.RequestsAndFragments : Prop :=
  (∀ die p r q i s, Instr.wf (.responseReceive (.fabric die p)) = true → isRequest p = false → endCheckGood p = true →
    p.poison = false → p.status = 0 →
    findReq (takeArrival p s) die p.tag = some r → p.op = r.packet.op + 128 → r.origin = .command q i →
    exec (.responseReceive (.fabric die p)) s = .next (withQueue s.pending (settleRun (gIssueQueued (noteLoss (gModule r.packet.address) 0
      (cmdProgress q i 0 (issueQueued (dropReq die p.tag (count E.PACKETS_DELIVERED (takeArrival p s)))))))))) ∧
  (∀ die tag r q i s, Instr.wf (.fabricRequestTimeout false die tag) = true → findReq s die tag = some r →
    r.backoff = false → r.origin = .command q i →
    (r.resends < setting (count E.REQUEST_TIMEOUTS s) E.FABRIC_RETRY_LIMIT →
      exec (.fabricRequestTimeout false die tag) s = .next (withQueue s.pending (settleRun (gIssueQueued (sendRequest r.packet
        (updReq die tag (fun r => { r with resends := r.resends + 1 })
          (count E.REQUESTS_RESENT (count E.REQUEST_TIMEOUTS s)))))))) ∧
    (setting (count E.REQUEST_TIMEOUTS s) E.FABRIC_RETRY_LIMIT ≤ r.resends →
      exec (.fabricRequestTimeout false die tag) s = .next (withQueue s.pending (settleRun (gIssueQueued (noteLoss (gModule r.packet.address) 0x0810
        (cmdProgress q i 0x0810 (issueQueued (count E.REQUESTS_FAILED
          (dropReq die tag (count E.REQUEST_TIMEOUTS s))))))))))) ∧
  (∀ die tag r s, Instr.wf (.retryBackoffExpiry (.request die tag)) = true → findReq s die tag = some r →
    r.backoff = true → exec (.retryBackoffExpiry (.request die tag)) s = .next (withQueue s.pending
      (sendRequest r.packet (updReq die tag (fun r => { r with backoff := false }) s)))) ∧
  (∀ die src sd tag s, Instr.wf (.dupFilterEntryExpiry die src sd tag) = true →
    exec (.dupFilterEntryExpiry die src sd tag) s = .next { s with
      fabric := { s.fabric with
        dups := s.fabric.dups.filter fun e => !(e.die == die && e.src == src && e.srcDie == sd && e.tag == tag) }
      twin := { s.twin with
        dups := s.twin.dups.filter fun e =>
          !((src == forced s E.TWIN_PEER && sd == die) && e.1 == die && e.2.tag == tag) } }) ∧
  (∀ p s, Instr.wf (.messageFragmentReceive p) = true → serves s = true → gModule p.address = myNumber s →
    endCheckGood p = true →
    let s₀ := count E.PACKETS_DELIVERED (takeArrival p s)
    findDup s₀ p (gDie p.address) = none → dupEntries s₀ (gDie p.address) < 16384 →
    s.twin.state ≠ .copyTarget → fragOffset p = 0 → bitAt (preFlags p) 0 = true → bitAt (preFlags p) 1 = false →
    misdirected s₀ p = false → fragmentShape p = true → findAssembly s₀ p = none →
    ∃ t, exec (.messageFragmentReceive p) s = .next (withQueue s.pending (settleRun t)) ∧
      t = setFabric { s₀.fabric with
        assembling := s₀.fabric.assembling.filter fun a => !(isAssembly p a)
        delivered := s₀.fabric.delivered ++ [msgFrom p (fragBody p)] } s₀)

/-- R399, R400, R408, R416 to R418: CAUSE bits that are written 1 clear, the others stay; a configuration write that does
not enter D3hot sets Bus Master Enable and the function mask, and lets what was held for them go on; one that does is
a host loss. An access of BAR0 whose size is neither four nor eight bytes, or whose offset is not aligned to it, is
refused and counted: a write changes nothing else, and a read gives zeros. Where the manual leaves a choice, the
model's is in log entries 143, 146, 147, 148, 247, 249. -/
def Obligations.CausesAndConfiguration : Prop :=
  (∀ m s, Instr.wf (.causeClear m) = true →
    exec (.causeClear m) s = .next { s with host := { s.host with
      causeError := s.host.causeError && !(bitAt m 0), causeQueue := s.host.causeQueue && !(bitAt m 1)
      causeLoss := s.host.causeLoss && !(bitAt m 2) } }) ∧
  (∀ b m d s, (d = false ∨ s.host.d3hot = true) →
    exec (.configurationWrite b m d) s = .next (withQueue s.pending (settleRun (resumeHost { s with host := { s.host with
      bme := b, funcMask := m, msixEnable := b, d3hot := d } })))) ∧
  (∀ b m s, s.host.d3hot = false →
    exec (.configurationWrite b m true) s = .next (withQueue s.pending (settleRun (hostLoss { s with host := { s.host with
      bme := b, funcMask := m, msixEnable := b, d3hot := true } })))) ∧
  (∀ o n v s, Instr.wf (.registerWrite (.bar0 o n v)) = true → ((n ≠ 4 ∧ n ≠ 8) ∨ o % n ≠ 0) →
    exec (.registerWrite (.bar0 o n v)) s = .next (withQueue s.pending (settleRun (count E.BAR_ACCESS_REFUSED s)))) ∧
  (∀ o n s, ((n ≠ 4 ∧ n ≠ 8) ∨ o % n ≠ 0) → bar0Read o n s = (zeros n, count E.BAR_ACCESS_REFUSED s))

/-- R401, R402, R404: the movable window of BAR2 reads and writes module memory at the window's place and the offset,
within a terabyte of a die, at a module that serves; poisoned data is counted; a range that R92, R218, R260, R287 or
R392 refuses is answered as an unsupported request or dropped, and is counted. Where the manual leaves a choice, the
model's is in log entries 77, 249. -/
def Obligations.WindowAccesses : Prop :=
  (∀ o n a s, Instr.wf (.bar2Read o n) = true → serves s = true → windowAddr s o = a →
    (readRefusal s (addrOff a) n = 0 → ∀ v, accessRead a n s = v →
      exec (.bar2Read o n) s = .next (withQueue s.pending
        (settleRun (emit (.readData v.1.1 v.1.2) (whenS v.1.2 (count E.HOST_POISON_READS) v.2))))) ∧
    (readRefusal s (addrOff a) n ≠ 0 →
      exec (.bar2Read o n) s = .next (withQueue s.pending
        (settleRun (emit .unsupportedRequest (barRefused (readRefusal s (addrOff a) n) s)))))) ∧
  (∀ o b x a s, Instr.wf (.bar2Write o b x) = true → serves s = true → windowAddr s o = a →
    (writeRefusal s (addrDie a) (addrOff a) b.length = 0 →
      exec (.bar2Write o b x) s =
        .next (withQueue s.pending (settleRun (writeRange a b x (whenS x (count E.HOST_POISON_WRITES) s))))) ∧
    (writeRefusal s (addrDie a) (addrOff a) b.length ≠ 0 →
      exec (.bar2Write o b x) s = .next (withQueue s.pending
        (settleRun (barRefused (writeRefusal s (addrDie a) (addrOff a) b.length) s)))))

/-- R420 to R424, R428: intake rings. A ring of valid fields is enabled empty, one of others is refused with 0x0108; a
disabled ring is off. A write through BAR4 reaches the ring's backing memory when its requester may write the ring and
memory takes it, and is dropped and counted otherwise; the window of an OUTLET ring reads its backing memory, that of
another ring reads zero. A PRODUCER write that stays within the ring is taken and what it covers is handled; one that
is not so, or not of 8 bytes, stops the ring with 0x0106, and a module that does not serve drops it. CONSUMED_STEP
only rises. Where the manual leaves a choice, the model's is in log entries 15, 16, 77, 149, 249. -/
def Obligations.IntakeRings : Prop :=
  (∀ r s, Instr.wf (.ringEnable r) = true → serves s = true → (ring s r).enable = false →
    (ringConfigOk s r = true →
      exec (.ringEnable r) s = .next (setRing r { ring s r with
        enable := true, state := .active, producer := 0, consumer := 0, readyStep := 0, consumedStep := 0
        incomplete := false, parsed := 0, dropSeen := false, inFlight := [] } s)) ∧
    (ringConfigOk s r = false →
      exec (.ringEnable r) s = .next (withQueue s.pending (raise 0x0108 r
        (setRing r { ring s r with enable := false, state := .off, stopStatus := 0x0108 } s))))) ∧
  (∀ r s, Instr.wf (.ringDisable r) = true →
    exec (.ringDisable r) s = .next (setRing r { ring s r with enable := false, state := .off, inFlight := [] } s)) ∧
  (∀ q o b y r x g s, Instr.wf (.intakeWindowWrite q o b y) = true → serves s = true →
    windowRing s o b.length = some (r, x) → ring s r = g →
    (g.kind ≠ .outlet → (g.reqFilter = false ∨ q = g.requester) →
      writeRefusal s (addrDie (g.backing + x)) (addrOff (g.backing + x)) b.length = 0 →
      exec (.intakeWindowWrite q o b y) s = .next (withQueue s.pending (settleRun
        (writeRange (g.backing + x) b y (whenS y (count E.HOST_POISON_WRITES) s))))) ∧
    (g.kind ≠ .outlet → (g.reqFilter = false ∨ q = g.requester) →
      writeRefusal s (addrDie (g.backing + x)) (addrOff (g.backing + x)) b.length ≠ 0 →
      exec (.intakeWindowWrite q o b y) s = .next (withQueue s.pending (settleRun
        (barRefused (writeRefusal s (addrDie (g.backing + x)) (addrOff (g.backing + x)) b.length) s)))) ∧
    (g.kind = .outlet ∨ (g.reqFilter = true ∧ q ≠ g.requester) →
      exec (.intakeWindowWrite q o b y) s = .next (withQueue s.pending (settleRun (windowDrop r s))))) ∧
  (∀ q o b y s, Instr.wf (.intakeWindowWrite q o b y) = true → serves s = true → windowRing s o b.length = none →
    exec (.intakeWindowWrite q o b y) s = .next (withQueue s.pending (settleRun (count E.BAR_ACCESS_REFUSED s)))) ∧
  (∀ o n r x g s, Instr.wf (.exportWindowRead o n) = true → 0x100000 ≤ o → serves s = true →
    windowRing s o n = some (r, x) → ring s r = g →
    (g.kind = .outlet → readRefusal s (addrOff (g.backing + x)) n = 0 → ∀ v, readRange (g.backing + x) n s = v →
      exec (.exportWindowRead o n) s = .next (withQueue s.pending (settleRun
        (emit (.readData v.1.1 v.1.2) (whenS v.1.2 (count E.HOST_POISON_READS) v.2))))) ∧
    (g.kind ≠ .outlet → exec (.exportWindowRead o n) s =
      .next (withQueue s.pending (settleRun (emit (.readData (zeros n) false) s))))) ∧
  (∀ r v s, Instr.wf (.intakeProducerWrite r 8 v) = true → serves s = true → (ring s r).state = .active →
    ((ring s r).kind = .batch ∨ (ring s r).kind = .gradient) →
    (v % 64 = 0 → (ring s r).producer ≤ v → v ≤ (ring s r).consumer + (ring s r).apertureBytes →
      exec (.intakeProducerWrite r 8 v) s = .next (withQueue s.pending (settleRun
        (ringProgress r (setRing r { ring s r with producer := v } s))))) ∧
    (v % 64 ≠ 0 ∨ v < (ring s r).producer ∨ (ring s r).consumer + (ring s r).apertureBytes < v →
      exec (.intakeProducerWrite r 8 v) s = .next (withQueue s.pending (settleRun (ringStop r 0x0106 s))))) ∧
  (∀ r n v s, Instr.wf (.intakeProducerWrite r n v) = true → serves s = true → (ring s r).state = .active →
    ((ring s r).kind = .batch ∨ (ring s r).kind = .gradient) → n ≠ 8 →
    exec (.intakeProducerWrite r n v) s = .next (withQueue s.pending (settleRun (ringStop r 0x0106 s)))) ∧
  (∀ r n v s, Instr.wf (.intakeProducerWrite r n v) = true → serves s = false →
    exec (.intakeProducerWrite r n v) s = .next (withQueue s.pending (settleRun s))) ∧
  (∀ r v s, Instr.wf (.consumedStepWrite r v) = true → serves s = true → (ring s r).state = .active →
    (ring s r).kind = .outlet → (ring s r).consumedStep < v →
    exec (.consumedStepWrite r v) s =
      .next (withQueue s.pending (settleRun (setRing r { ring s r with consumedStep := v } s))))

/-- R427: the outputs of a step are published once they are complete, by the ring's READY_STEP where the output slot lies
in the ring's memory and the ring is active; otherwise the set's first such failure of the run is logged. Where the
manual leaves a choice, the model's is in log entries 23, 249. -/
def Obligations.FeedExport : Prop :=
  ∀ t bt f b s, Instr.wf (.feedExportPublish t) = true → serves s = true → batchOf s t (curStep s) = some bt → bt.home = true →
    feedBinding s t (curStep s) = some f → poolBinding s t (curStep s) = some b → f.exportEn = true →
    outputsDone s bt = true → (s.step.published.any fun p => p.1 == t && p.2.1 == curStep s) = false →
    let g := ring s f.exportRing
    let a := b.outAddr + curStep s % b.slots * b.slotBytes
    let t₁ (fit : Bool) : State := { s with step := { s.step with published := (t, curStep s, fit) :: s.step.published } }
    (g.backing ≤ a → a + b.slotBytes ≤ g.backing + g.apertureBytes → g.state = .active →
      exec (.feedExportPublish t) s = .next (withQueue s.pending (settleRun (setRing f.exportRing
        { g with readyStep := curStep s, incomplete := outputsMissing (t₁ true) bt } (t₁ true))))) ∧
    (a < g.backing ∨ g.backing + g.apertureBytes < a + b.slotBytes →
      exec (.feedExportPublish t) s = .next (withQueue s.pending (settleRun
        (raiseOnceRun 0x0113 t (count E.FEED_EXPORT_UNMAPPED (t₁ false))))))

/-- R483: GO in the mailbox, while Lantern serves it and it is not busy, counts the request and ends with the answer of
its bytes in the response buffer and DONE set, unless the request itself reset the module; otherwise GO is refused and
counted. Where the manual leaves a choice, the model's is in log entries 226, 227, 228, 249. -/
def Obligations.Mailbox : Prop :=
  ∀ s, s.lantern.serving = true → s.life.recovery = false →
    (s.lantern.mbxBusy = false →
      let r := mailboxAnswer (count E.MAILBOX_REQUESTS (setLantern { s.lantern with mbxBusy := true, mbxDone := false } s))
      (r.2.2.lantern.mbxBusy = true →
        exec .mailboxGo s = .next (withQueue s.pending (settleRun (setLantern { r.2.2.lantern with
          mbxBusy := false, mbxDone := true, mbxStatus := r.1, mbxResp := r.2.1 } r.2.2)))) ∧
      (r.2.2.lantern.mbxBusy = false →
        exec .mailboxGo s = .next (withQueue s.pending (settleRun r.2.2)))) ∧
    (s.lantern.mbxBusy = true →
      exec .mailboxGo s = .next (withQueue s.pending (settleRun (count E.BAR_ACCESS_REFUSED s))))

/-- R415 to R418, R506: the PCIe link and host loss. Leaving L0 starts the loss timer; a return to L0 before it elapses is
a recovery, and what was held goes out; the timer's end, PERST#, a hot reset, a function-level reset and D3hot are
host losses. A host loss counts, discards what was held, fences every enabled queue with a ring in host memory, and
gives the next epoch, 1 after 0xFFFF; queues with both rings in module memory stay as they are. Where the manual
leaves a choice, the model's is in log entries 143, 145, 146, 147, 249. -/
def Obligations.HostLoss : Prop :=
  (∀ s, s.host.linkL0 = true →
    exec .pcieLinkExitL0 s = .next { s with host := { s.host with lossTimer := true, linkL0 := false, speed := 0, width := 0 } }) ∧
  (∀ s, s.host.linkL0 = false → s.host.perst = false → s.host.lossTimer = true →
    exec .pcieLinkReturnL0 s = .next (withQueue s.pending (settleRun (linkUp (count E.HOST_LINK_RECOVERIES s))))) ∧
  (∀ s, s.host.lossTimer = true →
    exec .hostLossTimeout s = .next (withQueue s.pending (settleRun (hostLoss (resetConfig s))))) ∧
  (∀ s, endpointReady s = true →
    exec .perstAssert s = .next (withQueue s.pending (settleRun (hostLoss (resetConfig
      (linkDown { s with host := { s.host with perst := true } })))))) ∧
  (∀ s, endpointReady s = true → s.host.linkL0 = false →
    exec .perstDeassert s = .next (withQueue s.pending (settleRun (linkUp { s with host := { s.host with perst := false } })))) ∧
  (∀ s, exec .functionLevelReset s = .next (withQueue s.pending (settleRun (hostLoss (resetConfig s))))) ∧
  (∀ s, exec .pcieHotReset s = .next (withQueue s.pending (settleRun (hostLoss (resetConfig (linkDown s)))))) ∧
  (∀ s, exec .d3hotEntry s = .next (withQueue s.pending (settleRun
    (hostLoss { s with host := { s.host with d3hot := true } })))) ∧
  (∀ s, (hostLoss s).host.epoch = (if s.host.epoch = 0xFFFF then 1 else s.host.epoch + 1)) ∧
  (∀ s, (hostLoss s).host.rings = s.host.rings ∧ (hostLoss s).mem = s.mem ∧ (hostLoss s).pegs.values = s.pegs.values) ∧
  (∀ q s, q < 64 → (queue s q).state ≠ .disabled → hostRings (queue s q) = true → (queue s q).disabling = false →
    (queue (hostLoss s) q).state = .fenced) ∧
  (∀ q s, hostRings (queue s q) = false → queue (hostLoss s) q = queue s q)

/-- R408 to R410: fetching. A running queue whose next index the producer covers reads the record; a good one is fetched
and waits to start, one that is not good is read again when its recheck timer expires, and the fourth re-read that is
not good leaves the queue STOPPED_TORN with the error logged. The timer does not run while the link is out of L0. A
completion timeout of a descriptor read counts as a record that is not good. Where the manual leaves a choice, the
model's is in log entries 139, 140, 141, 249. -/
def Obligations.CommandFetching : Prop :=
  (∀ q r s, Instr.wf (.commandFetch q (.record r)) = true → fetchable s (queue s q) = true →
    (queue s q).recheck = none → (queue s q).sqInDevice = false →
    (descriptorGood r q (queue s q).sqFetched = true →
      exec (.commandFetch q (.record r)) s = .next (withQueue s.pending (settleRun (setQueue q { queue s q with
        cmds := (queue s q).cmds ++ [{ index := (queue s q).sqFetched, record := r, phase := .fetched }]
        sqFetched := ((queue s q).sqFetched + 1) % 2 ^ 32, recheck := none } s)))) ∧
    (descriptorGood r q (queue s q).sqFetched = false →
      exec (.commandFetch q (.record r)) s = .next (withQueue s.pending (settleRun (setQueue q { queue s q with
        recheck := some ((queue s q).sqFetched, 0) } s))))) ∧
  (∀ q i n r s, Instr.wf (.descriptorRecheckExpiry q (.record r)) = true → (queue s q).recheck = some (i, n) →
    s.host.linkL0 = true →
    mayRead s (queue s q) = true → (queue s q).sqInDevice = false →
    (descriptorGood r q i = true →
      exec (.descriptorRecheckExpiry q (.record r)) s = .next (withQueue s.pending (settleRun (setQueue q { queue s q with
        cmds := (queue s q).cmds ++ [{ index := i, record := r, phase := .fetched }]
        sqFetched := (i + 1) % 2 ^ 32, recheck := none } (count E.DESC_RECHECKS s))))) ∧
    (descriptorGood r q i = false → n + 1 < 4 →
      exec (.descriptorRecheckExpiry q (.record r)) s = .next (withQueue s.pending (settleRun (setQueue q { queue s q with
        recheck := some (i, n + 1) } (count E.DESC_RECHECKS s))))) ∧
    (descriptorGood r q i = false → 4 ≤ n + 1 →
      exec (.descriptorRecheckExpiry q (.record r)) s = .next (withQueue s.pending (settleRun (raise 0x0101 q
        (count E.TORN_DESCRIPTORS (causeQueueStopped (setQueue q { queue s q with
          state := .stoppedTorn, stopIndex := i, stopStatus := 0x0101, recheck := none }
          (count E.DESC_RECHECKS s))))))))) ∧
  (∀ q x s, Instr.wf (.descriptorRecheckExpiry q x) = true → s.host.linkL0 = false →
    exec (.descriptorRecheckExpiry q x) s = .next (withQueue s.pending (settleRun s))) ∧
  (∀ q s, Instr.wf (.pcieCompletionTimeout q) = true → s.host.linkL0 = true → (queue s q).flushing = false →
    (queue s q).recheck = none → fetchable s (queue s q) = true → (queue s q).sqInDevice = false →
    exec (.pcieCompletionTimeout q) s = .next (withQueue s.pending (settleRun (setQueue q { queue s q with
      recheck := some ((queue s q).sqFetched, 0) } s))))

/-- R372 to R375: a fetched command that is its queue's next, with no header wait and no FENCE, and held back by nothing,
starts: it meets the start checks and does its work, or ends with the code of the check it fails; one without work is
counted where its unit counts such commands. Where the manual leaves a choice, the model's is in log entries 110, 120,
128, 129, 130, 131, 132, 134, 135, 136, 212, 249, 265. -/
def Obligations.CommandStarts : Prop :=
  ∀ q i c cs s, Instr.wf (.commandStart q i) = true → unstarted (queue s q) = c :: cs → c.index = i → c.phase = .fetched →
    queueStarts s (queue s q) = true → fenced (queue s q) c = false → waitEn c.record = false →
    heldBack s q c.record = false →
    (startCode (setPhase q i .running s) c.record = 0 →
      exec (.commandStart q i) s =
        .next (withQueue s.pending (settleRun (commandWork q i c.record (setPhase q i .running s))))) ∧
    (startCode (setPhase q i .running s) c.record ≠ 0 → opcodeOf c.record ≠ 0x50 →
      exec (.commandStart q i) s = .next (withQueue s.pending (settleRun
        (endPlain q i (startCode (setPhase q i .running s) c.record)
          (whenS (startCode (setPhase q i .running s) c.record == 0x0201) (countZeroWork (opcodeOf c.record))
            (setPhase q i .running s))))))

/-- R376, R377, R412 to R414: completing. The end of a command that succeeded, without a header signal, counts it and
keeps its summary; once the flush of a queue has returned, the records of its leading complete commands are written; a
coalescing period that ends covers the records not yet signalled by a message, and otherwise ends. Where the manual
leaves a choice, the model's is in log entries 3, 137, 138, 141, 142, 144, 249, 274. -/
def Obligations.CommandCompletes : Prop :=
  (∀ q i c d s, Instr.wf (.commandComplete q i) = true → findCmd s q i = some c → c.phase = .done 0 d false false →
    signalEn c.record = false →
    exec (.commandComplete q i) s = .next (withQueue s.pending (settleRun (settleDisable q (settleRecords q
      (count E.COMMANDS_COMPLETED (setPhase q i (.recorded (rf c.record 31 16 * 2 ^ 16 + d * 2 ^ 40)) s))))))) ∧
  (∀ q i c st d s, Instr.wf (.commandComplete q i) = true → findCmd s q i = some c → c.phase = .done st d false false →
    succeeded st = false → signalEn c.record = false → continueOnError c.record = false →
    exec (.commandComplete q i) s = .next (withQueue s.pending (settleRun (settleDisable q (settleRecords q
      (stopQueue q i st (count E.COMMANDS_FAILED
        (setPhase q i (.recorded (st + rf c.record 31 16 * 2 ^ 16 + d * 2 ^ 40)) s)))))))) ∧
  (∀ q s, Instr.wf (.completionFlushDone q) = true → (queue s q).flushing = true → mayMaster s = true →
    exec (.completionFlushDone q) s = .next (withQueue s.pending (settleRun
      (settleDisable q (writeCompletions q (setQueue q { queue s q with flushing := false } s)))))) ∧
  (∀ q s, Instr.wf (.intCoalesceExpiry q) = true → (queue s q).coalescing = true → (queue s q).uncovered = true →
    exec (.intCoalesceExpiry q) s =
      .next (msix (queue s q).vector (setQueue q { queue s q with uncovered := false } s))) ∧
  (∀ q s, Instr.wf (.intCoalesceExpiry q) = true → (queue s q).coalescing = true → (queue s q).uncovered = false →
    exec (.intCoalesceExpiry q) s = .next (setQueue q { queue s q with coalescing := false } s))

/-- R406, R407, R411: the queue registers. ENABLE of a disabled queue with a valid configuration makes it RUNNING from
index 0 under the present epoch; with one that is not valid it leaves 0x0102 in the queue's stop status and logs the
error, and while the module does not serve it leaves 0x0105. DISABLE of a queue that runs no command drops what it had
fetched and disables it; a queue that still runs a command waits for it. RESTART lets a queue stopped by an error run
again and leaves any other alone. A doorbell that advances a producer or head index within its bounds is taken, any
other is ignored and counted. Where the manual leaves a choice, the model's is in log entries 137, 249, 274. -/
def Obligations.QueueRegisters : Prop :=
  (∀ q s, Instr.wf (.queueEnable q) = true → (queue s q).state = .disabled → serves s = true →
    queueConfigOk s (queue s q) = true →
    exec (.queueEnable q) s = .next (setQueue q { queue s q with
      state := .running, sqProducer := 0, sqFetched := 0, cqProducer := 0, cqHead := 0, stopIndex := 0
      epochAtEnable := s.host.epoch, cmds := [], recheck := none, flushing := false, disabling := false
      coalescing := false, uncovered := false } s)) ∧
  (∀ q s, Instr.wf (.queueEnable q) = true → (queue s q).state = .disabled → serves s = true →
    queueConfigOk s (queue s q) = false →
    exec (.queueEnable q) s = .next (raise 0x0102 q (setQueue q { queue s q with stopStatus := 0x0102 } s))) ∧
  (∀ q s, Instr.wf (.queueEnable q) = true → (queue s q).state = .disabled → serves s = false →
    exec (.queueEnable q) s = .next (setQueue q { queue s q with stopStatus := 0x0105 } s)) ∧
  (∀ q s, Instr.wf (.queueEnable q) = true → (queue s q).state ≠ .disabled → exec (.queueEnable q) s = .next s) ∧
  (∀ q t s, Instr.wf (.queueDisable q) = true → (queue s q).state ≠ .disabled →
    discardUnstarted q s = t → (queue t q).cmds.any isRunning = false →
    exec (.queueDisable q) s = .next (withQueue s.pending (settleRun (setQueue q { queue t q with
      state := .disabled, disabling := false, cmds := [], recheck := none, flushing := false
      coalescing := false, uncovered := false }
      (setQueue q { queue t q with disabling := true, recheck := none } t))))) ∧
  (∀ q t s, Instr.wf (.queueDisable q) = true → (queue s q).state ≠ .disabled →
    discardUnstarted q s = t → (queue t q).cmds.any isRunning = true →
    exec (.queueDisable q) s = .next (withQueue s.pending (settleRun
      (setQueue q { queue t q with disabling := true, recheck := none } t)))) ∧
  (∀ q s, (unstarted (queue (discardUnstarted q s) q)) = []) ∧
  (∀ q s, Instr.wf (.queueRestart q) = true → (queue s q).state = .stoppedError → (queue s q).disabling = false →
    exec (.queueRestart q) s = .next (setQueue q { queue s q with state := .running } s)) ∧
  (∀ q s, Instr.wf (.queueRestart q) = true → (queue s q).state ≠ .stoppedError →
    exec (.queueRestart q) s = .next (setQueue q (queue s q) s)) ∧
  (∀ q i s, Instr.wf (.doorbellSqProducer q i) = true → serves s = true → (queue s q).state = .running →
    mod32 i (queue s q).sqProducer < 2 ^ 31 → mod32 i (queue s q).cqHead ≤ queueDepth (queue s q) →
    exec (.doorbellSqProducer q i) s = .next (setQueue q { queue s q with sqProducer := i } s)) ∧
  (∀ q i s, Instr.wf (.doorbellSqProducer q i) = true →
    doorbellOpen s (queue s q) = false ∨ queueDepth (queue s q) < mod32 i (queue s q).cqHead →
    exec (.doorbellSqProducer q i) s = .next (raiseOnce 0x0103 q (count E.DOORBELLS_IGNORED s))) ∧
  (∀ q i s, Instr.wf (.doorbellCqHead q i) = true → doorbellOpen s (queue s q) = true →
    mod32 i (queue s q).cqHead ≤ mod32 (queue s q).cqProducer (queue s q).cqHead →
    exec (.doorbellCqHead q i) s = .next (setQueue q { queue s q with cqHead := i } s)) ∧
  (∀ q i s, Instr.wf (.doorbellCqHead q i) = true →
    doorbellOpen s (queue s q) = false ∨ mod32 (queue s q).cqProducer (queue s q).cqHead < mod32 i (queue s q).cqHead →
    exec (.doorbellCqHead q i) s = .next (raiseOnce 0x0103 q (count E.DOORBELLS_IGNORED s)))

/-- R363, R365 to R367, R378: NOP and the pegs. PEG_SIGNAL adds to the peg it names modulo 2^64, at once where the peg is
this module's and by a fabric request else, and ends with its code where the address is refused; PEG_WAIT ends at once
when its condition holds, waits when it does not, and is refused with 0x0A13 when the die already holds 256 waits;
PEG_SET stores its value where no wait waits on the peg, 0x0A11 otherwise, and Ridgeline pegs are neither signalled
nor set by commands. A signal changes no other peg, and leaves no wait waiting whose condition it has made true. Where
the manual leaves a choice, the model's is in log entries 128, 133, 249, 276, 290. -/
def Obligations.PegCommands : Prop :=
  (∀ q i r s, Instr.wf (.nop q i r) = true → startable q i r s →
    exec (.nop q i r) s = .next (withQueue s.pending (settleRun (endPlain q i 0 (begun q i r s))))) ∧
  (∀ q i r s, Instr.wf (.pegSignal q i r) = true → startable q i r s →
    pegSignalRefusal (begun q i r s) (rf r 319 256) = 0 →
    (gModule (rf r 319 256) = myNumber s →
      exec (.pegSignal q i r) s = .next (withQueue s.pending (settleRun (endPlain q i 0
        (signalPeg (gDie (rf r 319 256)) ((pegOfAddr (rf r 319 256)).getD 0) (BitVec.ofNat 64 (rf r 255 192))
          (begun q i r s)))))) ∧
    (gModule (rf r 319 256) ≠ myNumber s →
      exec (.pegSignal q i r) s = .next (withQueue s.pending (settleRun
        (issue 0 (rf r 319 256) 4 3 (natLe 8 (rf r 255 192)) false (.command q i)
          (updCmd q i (fun c => { c with outstanding := 1 }) (begun q i r s))))))) ∧
  (∀ q i r c s, Instr.wf (.pegSignal q i r) = true → startable q i r s →
    pegSignalRefusal (begun q i r s) (rf r 319 256) = c → c ≠ 0 →
    exec (.pegSignal q i r) s = .next (withQueue s.pending (settleRun (endPlain q i c
      (whenS (c == 0x0801 || c == 0x080C) (count E.REQUESTS_REFUSED) (begun q i r s)))))) ∧
  (∀ q i r w s, Instr.wf (.pegWait q i r) = true → startable q i r s →
    w = ({ die := pegDie (rf r 143 128), peg := pegNum (rf r 143 128), target := BitVec.ofNat 64 (rf r 255 192)
           cls := rf r 145 144, queue := q, index := i, header := false } : PegWaitRec) →
    (waitHolds (begun q i r s) w = true →
      exec (.pegWait q i r) s =
        .next (withQueue s.pending (settleRun (endPlain q i 0 (count E.PEG_WAITS (begun q i r s)))))) ∧
    (waitHolds (begun q i r s) w = false → (s.pegs.waits.filter fun x => x.die == w.die).length < 256 →
      exec (.pegWait q i r) s = .next (withQueue s.pending (settleRun (count E.PEG_WAITS
        { begun q i r s with pegs := { s.pegs with waits := s.pegs.waits ++ [w] } })))) ∧
    (waitHolds (begun q i r s) w = false → 256 ≤ (s.pegs.waits.filter fun x => x.die == w.die).length →
      exec (.pegWait q i r) s = .next (withQueue s.pending (settleRun (endPlain q i 0x0A13 (begun q i r s)))))) ∧
  (∀ q i r die peg s, Instr.wf (.pegSet q i r) = true → startable q i r s → pegDie (rf r 143 128) = die →
    pegNum (rf r 143 128) = peg →
    (isRidgePeg die peg = false → (s.pegs.waits.any fun w => w.die == die && w.peg == peg) = false →
      exec (.pegSet q i r) s = .next (withQueue s.pending (settleRun (endPlain q i 0
        (releaseWaits (setPegValue die peg (BitVec.ofNat 64 (rf r 255 192)) (begun q i r s))))))) ∧
    (isRidgePeg die peg = false → (s.pegs.waits.any fun w => w.die == die && w.peg == peg) = true →
      exec (.pegSet q i r) s = .next (withQueue s.pending (settleRun (endPlain q i 0x0A11
        (count E.PEG_SET_REFUSED (begun q i r s)))))) ∧
    (isRidgePeg die peg = true →
      exec (.pegSet q i r) s = .next (withQueue s.pending (settleRun (endPlain q i 0x0A12 (begun q i r s)))))) ∧
  (∀ die peg inc s, isRidgePeg die peg = false →
    pegValue (signalPeg die peg inc s) die peg = pegValue s die peg + inc) ∧
  (∀ die peg die' peg' inc s, peg < 4096 → peg' < 4096 → (die', peg') ≠ (die, peg) → isRidgePeg die peg = false →
    pegValue (signalPeg die peg inc s) die' peg' = pegValue s die' peg') ∧
  (∀ die peg inc s w, w ∈ (signalPeg die peg inc s).pegs.waits →
    waitHolds (signalPeg die peg inc s) w = false ∧ w ∈ s.pegs.waits)

/-- R212, R213, R219 to R221, R280, R379: commands that move bytes. DMA_COPY stores at its destination the bytes and the
poison of its source, which stays; DMA_TRANSPOSE stores the source transposed: code by code where the formats are one
scalar format, converted block by block else; RUCKSACK_PUSH puts a frame of the tensor's bytes above the region's last
one, and RUCKSACK_POP takes the last frame off, into a tensor of its size; CHECK_SCAN queues a good scan at the check-
value unit of its die, which ends the command when it has run. One that a check refuses ends with that check's code
and has moved nothing. Where the manual leaves a choice, the model's is in log entries 68, 69, 77, 128, 249, 264. -/
def Obligations.CopyCommands : Prop :=
  (∀ q i r c t s, Instr.wf (.dmaCopy q i r) = true → startable q i r s → copyOf r = c → begun q i r s = t →
    (copyRefusal t c = 0 → (accessRead c.src c.n t).1.2 = false →
      exec (.dmaCopy q i r) s = .next (withQueue s.pending (settleRun (endPlain q i 0
        (writeMarked c.dst (accessRead c.src c.n t).1.1 [] (accessRead c.src c.n t).2))))) ∧
    (copyRefusal t c = 0 → (accessRead c.src c.n t).1.2 = true →
      exec (.dmaCopy q i r) s = .next (withQueue s.pending (settleRun (endCmd q i 0 0 false true
        (writeMarked c.dst (accessRead c.src c.n t).1.1 (accessPoison (accessRead c.src c.n t).2 c.src c.n)
          (accessRead c.src c.n t).2))))) ∧
    (copyRefusal t c ≠ 0 →
      exec (.dmaCopy q i r) s = .next (withQueue s.pending (settleRun (endPlain q i (copyRefusal t c)
        (countRefusal (copyRefusal t c) t)))))) ∧
  (∀ q i r a d c t s, Instr.wf (.dmaTranspose q i r) = true → startable q i r s → transposeOf r = c → begun q i r s = t →
    (transposeRefusal t c ≠ 0 →
      exec (.dmaTranspose q i r) s = .next (withQueue s.pending (settleRun (endPlain q i (transposeRefusal t c)
        (countRefusal (transposeRefusal t c) t))))) ∧
    (transposeRefusal t c = 0 → tensorOf t c.src = some a → tensorOf t c.dst = some d → ∀ o p w, loadOperand a t = o →
      p = (if a.format = d.format && d.format != 4 then (transposeCodes c o.1 d, o.2)
        else ((sourceBlocks c).zip (upto (sourceBlocks c).length)).foldl (fun acc b =>
          transposeBlock c o.1 d (watchSlotOf t false 0 c.dst)
            (engineCoord t (nthD 0 (enginesOf c.mask) (b.2 % (enginesOf c.mask).length))) b.1.1 b.1.2 acc) ([], o.2)) →
      w = writePieces d p.1 (transposeMarks c o.1 d) p.2 →
      exec (.dmaTranspose q i r) s = .next (withQueue s.pending (settleRun (endCmd q i 0 0 false w.1
        (countN E.TRANSPOSE_BYTES (tensorBytes d) (count E.TRANSPOSE_COMMANDS w.2))))))) ∧
  (∀ q i r x t s, Instr.wf (.rucksackPush q i r) = true → startable q i r s → begun q i r s = t →
    tensorOf t (rf r 143 128) = some x →
    let g := rf r 163 160
    let pages := ceilDiv (56 + tensorBytes x) pageBytes
    (pagesUsed t g + pages ≤ s.plan.rucksack * 4096 →
      ∀ o u, loadOperand x t = o →
        u = writeMarked (ruckAddr t g (pagesUsed t g)) (frameHeader (rf r 159 144) x.number (curStep t) (tensorBytes x)
          (match (framesOf t g).getLast? with
            | some f => f.firstPage
            | none => 0xFFFFFFFF) ++ o.1.bytes ++ zeros (pages * pageBytes - 56 - tensorBytes x))
          (if o.1.poison.any id then List.replicate 56 false ++ o.1.poison
              ++ List.replicate (pages * pageBytes - 56 - tensorBytes x) false else []) o.2 →
        exec (.rucksackPush q i r) s = .next (withQueue s.pending (settleRun (endCmd q i 0 0 false (o.1.poison.any id)
          (count E.RUCKSACK_PUSHES (setRowEng { u.rowEng with
            frames := u.rowEng.frames ++
              [⟨g, rf r 159 144, x.number, curStep t % 2 ^ 32, tensorBytes x, pagesUsed t g, pages⟩]
            highWater := supd 0 u.rowEng.highWater g (max (pagesUsed t g + pages)) } u)))))) ∧
    (s.plan.rucksack * 4096 < pagesUsed t g + pages →
      exec (.rucksackPush q i r) s =
        .next (withQueue s.pending (settleRun (endPlain q i 0x0423 (count E.RUCKSACK_REFUSED t)))))) ∧
  (∀ q i r x f t s, Instr.wf (.rucksackPop q i r) = true → startable q i r s → begun q i r s = t →
    tensorOf t (rf r 143 128) = some x → (framesOf t (rf r 163 160)).getLast? = some f →
    (f.tag = rf r 159 144 → f.bytes = tensorBytes x → outputRefusal t x.addr f.bytes = 0 →
      ∀ v u, readRange (ruckAddr t (rf r 163 160) f.firstPage + 56) f.bytes t = v →
        u = writeMarked x.addr v.1.1
          (if v.1.2 then poisonMap v.2 (ruckAddr t (rf r 163 160) f.firstPage + 56) f.bytes else []) v.2 →
        exec (.rucksackPop q i r) s = .next (withQueue s.pending (settleRun (endCmd q i 0 0 false v.1.2
          (count E.RUCKSACK_POPS (setRowEng { u.rowEng with frames := u.rowEng.frames.filter fun x => x != f } u)))))) ∧
    (f.tag = rf r 159 144 → f.bytes = tensorBytes x → ∀ c, outputRefusal t x.addr f.bytes = c → c ≠ 0 →
      exec (.rucksackPop q i r) s =
        .next (withQueue s.pending (settleRun (endPlain q i c (count E.RUCKSACK_REFUSED (countRefusal c t)))))) ∧
    (f.tag ≠ rf r 159 144 ∨ f.bytes ≠ tensorBytes x →
      exec (.rucksackPop q i r) s =
        .next (withQueue s.pending (settleRun (endPlain q i 0x0424 (count E.RUCKSACK_REFUSED t)))))) ∧
  (∀ q i r x t s, Instr.wf (.rucksackPop q i r) = true → startable q i r s → begun q i r s = t →
    tensorOf t (rf r 143 128) = some x → framesOf t (rf r 163 160) = [] →
    exec (.rucksackPop q i r) s =
      .next (withQueue s.pending (settleRun (endPlain q i 0x0424 (count E.RUCKSACK_REFUSED t))))) ∧
  (∀ q i r t s, Instr.wf (.checkScan q i r) = true → startable q i r s → begun q i r s = t →
    (scanRefusal t (scanOf q i r) = 0 →
      exec (.checkScan q i r) s = .next (withQueue s.pending (settleRun
        { t with mem := { t.mem with scans := t.mem.scans ++ [scanOf q i r] } }))) ∧
    (scanRefusal t (scanOf q i r) ≠ 0 →
      exec (.checkScan q i r) s = .next (withQueue s.pending (settleRun (endPlain q i (scanRefusal t (scanOf q i r))
        (countRefusal (scanRefusal t (scanOf q i r)) t))))))

/-- R193 to R207, R224 to R230: the matrix and row commands. A GEMM that passes its checks computes its tiles in ascending
order, writes its output and, where it has one, its scale record, and completes with its saturation and poison flags;
one that fails a check ends with the check's code, nothing computed. ROWENG_FWD and ROWENG_BWD compute their rows in
ascending order and write their outputs, counting the rows. Where the manual leaves a choice, the model's is in log
entries 68, 69, 71, 80, 81, 128, 249, 258, 264. -/
def Obligations.MatrixCommands : Prop :=
  (∀ q i r g t s, Instr.wf (.gemm q i r) = true → startable q i r s → begun q i r s = t → gemmOf r = g →
    (gemmRefusal t g ≠ 0 →
      exec (.gemm q i r) s = .next (withQueue s.pending (settleRun (endPlain q i (gemmRefusal t g)
        (countRefusal (gemmRefusal t g) (count E.GEMM_REFUSED t)))))) ∧
    (gemmRefusal t g = 0 → ∀ j u acc w, gemmJob g (curStep t) t = (some j, u) →
      acc = ((gemmTiles g).zip (upto (gemmTiles g).length)).foldl (fun acc x =>
        gemmTile r j (watchSlotOf u false 0 g.c)
          (nthD 0 (arraysOf g.mask) (x.2 * g.split % (arraysOf g.mask).length)) x.1.1 x.1.2 acc) ({ state := u } : GemmAcc) →
      w = writePieces j.c acc.pieces [] acc.state →
      (scaledOut j = false →
        exec (.gemm q i r) s = .next (withQueue s.pending (settleRun
          (endCmd q i 0 0 acc.saturated w.1 (count E.GEMM_COMPLETED w.2))))) ∧
      (scaledOut j = true →
        exec (.gemm q i r) s = .next (withQueue s.pending (settleRun (endCmd q i 0 0 acc.saturated w.1
          (count E.GEMM_COMPLETED (writeMarked g.scale (acc.scales.flatMap fun e => natLe 1 e.1)
            (acc.scales.map Prod.snd) w.2)))))))) ∧
  (∀ g s, gemmRefusal s g = 0 → ∃ j, (gemmJob g (curStep s) s).1 = some j ∧ j.g = g) ∧
  (∀ q i r c tx ty t s, Instr.wf (.rowengFwd q i r) = true → startable q i r s → begun q i r s = t → rowCmdOf false r = c →
    rowCmdRefusal t c = 0 → tensorOf t c.x = some tx → tensorOf t c.y = some ty → ∀ x gm bt acc w,
    x = loadOperand tx t → gm = loadOpt (c.op != 2) c.gamma x.2 → bt = loadOpt (c.op != 2) c.beta gm.2 →
    acc = (upto c.rows).foldl (fun acc row => runRow ⟨c, x.1, none, gm.1, bt.1, ty, none⟩ row acc)
      ({ state := bt.2 } : RowAcc) →
    w = writePieces ty acc.y [] acc.state →
    exec (.rowengFwd q i r) s = .next (withQueue s.pending (settleRun (endCmd q i 0 0 false w.1
      (countN E.ROWENG_ROWS_FWD c.rows w.2))))) ∧
  (∀ q i r c tx ty t s, Instr.wf (.rowengBwd q i r) = true → startable q i r s → begun q i r s = t → rowCmdOf true r = c →
    rowCmdRefusal t c = 0 → tensorOf t c.x = some tx → tensorOf t c.y = some ty → (c.op = 2 ∨ c.p = 0xFFFF) →
    ∀ x dy gm acc w, x = loadOperand tx t → dy = loadOpt true c.dy x.2 → gm = loadOpt (c.op != 2) c.gamma dy.2 →
    acc = (upto c.rows).foldl (fun acc row => runRow ⟨c, x.1, dy.1, gm.1, none, ty, none⟩ row acc)
      ({ state := gm.2 } : RowAcc) →
    w = writePieces ty acc.y [] acc.state →
    exec (.rowengBwd q i r) s = .next (withQueue s.pending (settleRun (endCmd q i 0 0 false w.1
      (countN E.ROWENG_ROWS_BWD c.rows w.2))))) ∧
  (∀ q i r c tx ty tp t s, Instr.wf (.rowengBwd q i r) = true → startable q i r s → begun q i r s = t →
    rowCmdOf true r = c → rowCmdRefusal t c = 0 → tensorOf t c.x = some tx → tensorOf t c.y = some ty → c.op ≠ 2 →
    c.p ≠ 0xFFFF → tensorOf t c.p = some tp → ∀ x dy gm acc w w₂,
    x = loadOperand tx t → dy = loadOpt true c.dy x.2 → gm = loadOpt true c.gamma dy.2 →
    acc = (upto c.rows).foldl (fun acc row => runRow ⟨c, x.1, dy.1, gm.1, none, ty, some tp⟩ row acc)
      ({ state := gm.2 } : RowAcc) →
    w = writePieces ty acc.y [] acc.state → w₂ = writePieces tp acc.p [] w.2 →
    exec (.rowengBwd q i r) s = .next (withQueue s.pending (settleRun (endCmd q i 0 0 false (w.1 || w₂.1)
      (countN E.ROWENG_ROWS_BWD c.rows w₂.2)))))

/-- R194: the sum of a chunk does not depend on the order of its products, and where every product is finite and lies
within the window of the largest, nothing is dropped and the sum is exact. -/
def Obligations.ChunkSumExact : Prop :=
  (∀ ps qs : List ExactNum, ps.Perm qs → chunkSum ps = chunkSum qs) ∧
  (∀ ps : List ExactNum, (∀ p ∈ ps, numIsZero p = true) → chunkSum ps = (num0, false)) ∧
  (∀ (ps : List ExactNum) (top : Int), (ps.filterMap leadExp).max? = some top →
    (∀ p ∈ ps, ∃ s m e, p = .fin s m e ∧ top - 40 ≤ e) →
    (chunkSum ps).2 = false ∧ ∃ v : Int, (chunkSum ps).1 = .fin (decide (v < 0)) v.natAbs (top - 40) ∧
      v = (ps.map fun p => match p with
        | .fin s m e => numToInt s (m * 2 ^ (e - (top - 40)).toNat)
        | _ => 0).sum)

/-- R385 to R388: the row commands. ROW_READ stores the image of every record of its rows, of a row's local slices in
order; the writing commands stand among the pending row operations, and at a COMMIT point write every record they can:
ROW_WRITE stores the image's fields, ROW_FREEZE the frozen bit alone, ROW_RESET zero moments and a zero LAST_T; all
end at once with their code where their table is not declared or their rows or buffer are refused. Where the manual
leaves a choice, the model's is in log entries 107, 128, 249. -/
def Obligations.RowCommands : Prop :=
  (∀ q i r a td t s, Instr.wf (.rowRead q i r) = true → startable q i r s → begun q i r s = t → rowArgs r = a →
    rowDecl t a.set a.table = some td →
    (rowRefusal t a true true = 0 →
      exec (.rowRead q i r) s = .next (withQueue s.pending (settleRun
        (endCmd q i 0 0 false (readImages td.1 td.2 a (a.rows * localSlices t td.2) 0 (false, t)).1
          (readImages td.1 td.2 a (a.rows * localSlices t td.2) 0 (false, t)).2)))) ∧
    (rowRefusal t a true true ≠ 0 →
      exec (.rowRead q i r) s =
        .next (withQueue s.pending (settleRun (endPlain q i (rowRefusal t a true true) t))))) ∧
  (∀ q i r a (o : Nat → RowOp) t s, startable q i r s → begun q i r s = t → rowArgs r = a → (rowDecl t a.set a.table).isSome = true →
    (∀ op, o op = ({ queue := q, index := i, op := op, set := a.set, table := a.table, variant := a.variant
                     frozen := a.frozen, firstRow := a.first, rows := a.rows, buf := a.buf, nextRecord := 0, awaiting := 0
                     status := 0, detail := 0 } : RowOp)) →
    (Instr.wf (.rowWrite q i r) = true → rowRefusal t a true false = 0 →
      exec (.rowWrite q i r) s = .next (withQueue s.pending
        (settleRun (runRowOp (o 0x19) { t with rowOps := t.rowOps ++ [o 0x19] })))) ∧
    (Instr.wf (.rowFreeze q i r) = true → rowRefusal t a false false = 0 →
      exec (.rowFreeze q i r) s = .next (withQueue s.pending
        (settleRun (runRowOp (o 0x1A) { t with rowOps := t.rowOps ++ [o 0x1A] })))) ∧
    (Instr.wf (.rowReset q i r) = true → rowRefusal t a false false = 0 →
      exec (.rowReset q i r) s = .next (withQueue s.pending
        (settleRun (runRowOp (o 0x1B) { t with rowOps := t.rowOps ++ [o 0x1B] })))) ∧
    (Instr.wf (.rowWrite q i r) = true → rowRefusal t a true false ≠ 0 →
      exec (.rowWrite q i r) s =
        .next (withQueue s.pending (settleRun (endPlain q i (rowRefusal t a true false) t)))) ∧
    (Instr.wf (.rowFreeze q i r) = true → rowRefusal t a false false ≠ 0 →
      exec (.rowFreeze q i r) s =
        .next (withQueue s.pending (settleRun (endPlain q i (rowRefusal t a false false) t)))) ∧
    (Instr.wf (.rowReset q i r) = true → rowRefusal t a false false ≠ 0 →
      exec (.rowReset q i r) s =
        .next (withQueue s.pending (settleRun (endPlain q i (rowRefusal t a false false) t))))) ∧
  (∀ q i r t s, Instr.wf (.rowRead q i r) = true → startable q i r s → begun q i r s = t →
    rowDecl t (rowArgs r).set (rowArgs r).table = none →
    exec (.rowRead q i r) s = .next (withQueue s.pending (settleRun (endPlain q i 0x020E t)))) ∧
  (∀ q i r t s, startable q i r s → begun q i r s = t → rowDecl t (rowArgs r).set (rowArgs r).table = none →
    (Instr.wf (.rowWrite q i r) = true →
      exec (.rowWrite q i r) s = .next (withQueue s.pending (settleRun (endPlain q i 0x020E t)))) ∧
    (Instr.wf (.rowFreeze q i r) = true →
      exec (.rowFreeze q i r) s = .next (withQueue s.pending (settleRun (endPlain q i 0x020E t)))) ∧
    (Instr.wf (.rowReset q i r) = true →
      exec (.rowReset q i r) s = .next (withQueue s.pending (settleRun (endPlain q i 0x020E t))))) ∧
  (∀ o s, atCommit s = false → runRowOp o s = s) ∧
  (∀ o td s, atCommit s = true → rowDecl s o.set o.table = some td →
    runRowOp o s = finishRowOp (writeRest td.1 td.2 (rowOpTotal s o - o.nextRecord) (o, s)).1
      (writeRest td.1 td.2 (rowOpTotal s o - o.nextRecord) (o, s)).2) ∧
  (∀ mode on old, mode < 3 → old.length = recLen mode →
    bitAt (rowMetaOf mode (frozenBytes mode on old)) 1 = on ∧
    weightsOf mode (frozenBytes mode on old) = weightsOf mode old) ∧
  (∀ mode old, mode < 3 → old.length = recLen mode →
    weightsOf mode (resetBytes mode old) = weightsOf mode old ∧
    (isCompat mode = true → slice (resetBytes mode old) 72 128 = zeros 128) ∧
    (isCompat mode = false → slice (resetBytes mode old) 56 48 = zeros 48) ∧ lastT mode (resetBytes mode old) = 0)

/-- R168, R381, R389, R426: commands that bind. GATHER_POOL and FEED_BIND add their binding behind those of their set when
every check passes, and end with the check's code, nothing bound, when one fails; SCHED puts each good entry into its
set's schedule behind those executed before it, and names the first bad one. Where the manual leaves a choice, the
model's is in log entries 128, 249. -/
def Obligations.BindingCommands : Prop :=
  (∀ q i r t s, Instr.wf (.gatherPool q i r) = true → startable q i r s → begun q i r s = t →
    (poolRefusal t r = 0 →
      exec (.gatherPool q i r) s = .next (withQueue s.pending (settleRun (endPlain q i 0
        { t with step := { t.step with poolBindings := t.step.poolBindings ++ [poolOf r] } })))) ∧
    (poolRefusal t r ≠ 0 →
      exec (.gatherPool q i r) s = .next (withQueue s.pending (settleRun (endPlain q i (poolRefusal t r) t))))) ∧
  (∀ q i r t s, Instr.wf (.feedBind q i r) = true → startable q i r s → begun q i r s = t →
    (feedRefusal t (feedOf r) = 0 →
      exec (.feedBind q i r) s = .next (withQueue s.pending (settleRun (endPlain q i 0
        { t with step := { t.step with feedBindings := t.step.feedBindings ++ [feedOf r] } })))) ∧
    (feedRefusal t (feedOf r) ≠ 0 →
      exec (.feedBind q i r) s = .next (withQueue s.pending (settleRun (endPlain q i (feedRefusal t (feedOf r)) t))))) ∧
  (∀ q i r t s, Instr.wf (.sched q i r) = true → startable q i r s → begun q i r s = t →
    exec (.sched q i r) s = .next (withQueue s.pending (settleRun (endCmd q i
      (schedOne r (schedOne r (schedOne r {} 0 t).1 1 (schedOne r {} 0 t).2).1 2
        (schedOne r (schedOne r {} 0 t).1 1 (schedOne r {} 0 t).2).2).1.status
      (schedOne r (schedOne r (schedOne r {} 0 t).1 1 (schedOne r {} 0 t).2).1 2
        (schedOne r (schedOne r {} 0 t).1 1 (schedOne r {} 0 t).2).2).1.detail false false
      (schedOne r (schedOne r (schedOne r {} 0 t).1 1 (schedOne r {} 0 t).2).1 2
        (schedOne r (schedOne r {} 0 t).1 1 (schedOne r {} 0 t).2).2).2)))) ∧
  (∀ r d j e s, schedEntry r j = e → d.saturated = false → d.poison = false →
    (e.1 = false → schedOne r d j s = (d, s)) ∧
    (e.1 = true → schedRefusal s e.2.1 e.2.2 = 0 →
      schedOne r d j s = (d, count E.SCHED_APPLIED (updSet e.2.1 (fun t => { t with scheds := t.scheds ++ [e.2.2] }) s))) ∧
    (e.1 = true → schedRefusal s e.2.1 e.2.2 ≠ 0 → d.status = 0 →
      schedOne r d j s =
        ({ d with status := schedRefusal s e.2.1 e.2.2, detail := j }, count E.SCHED_REFUSED s)) ∧
    (e.1 = true → schedRefusal s e.2.1 e.2.2 ≠ 0 → d.status ≠ 0 → schedOne r d j s = (d, count E.SCHED_REFUSED s)))

/-- R383, R384: commands that send. GRAD_SCATTER of an accepted batch sends the gradients of its samples, in runs of one
variant and groups of slices, and ends with the last of its messages; a batch that does not hold the table sends
nothing and ends at once. DENSE_REDUCE sends a tensor's groups to the leads of its shards. Each ends at once with its
code, nothing sent, where a check fails. Where the manual leaves a choice, the model's is in log entries 119, 128,
243, 249. -/
def Obligations.SendingCommands : Prop :=
  (∀ q i r td bt t s, Instr.wf (.gradScatter q i r) = true → startable q i r s → begun q i r s = t →
    (scatterRefusal t r ≠ 0 →
      exec (.gradScatter q i r) s = .next (withQueue s.pending (settleRun
        (endPlain q i (scatterRefusal t r) (countRefusal (scatterRefusal t r) t))))) ∧
    (scatterRefusal t r = 0 → rowDecl t (rf r 199 192) (rf r 215 200) = some td →
      batchOf t (rf r 199 192) (rf r 191 128) = some bt → bt.segments.contains td.2.table = false →
      exec (.gradScatter q i r) s = .next (withQueue s.pending (settleRun (endPlain q i 0 t)))) ∧
    (scatterRefusal t r = 0 → rowDecl t (rf r 199 192) (rf r 215 200) = some td →
      batchOf t (rf r 199 192) (rf r 191 128) = some bt → bt.segments.contains td.2.table = true →
      0 < bt.samples * td.2.width → ∀ n v ms, n = bt.samples * td.2.width * (if rb r 216 then 2 else 4) →
      v = accessRead (rf r 319 256) n t →
      ms = scatterMsgs v.2 r td.1 td.2 bt v.1.1 (if v.1.2 then accessPoison v.2 (rf r 319 256) n else []) →
      exec (.gradScatter q i r) s = .next (withQueue s.pending (settleRun
        (forEach ms (fun m s => sendOwned q i 0x12 m.1 bt.step m.2 s) (awaitMsgs q i ms.length v.1.2 v.2)))))) ∧
  (∀ q i r x g t s, Instr.wf (.denseReduce q i r) = true → startable q i r s → begun q i r s = t →
    (denseRefusal t r ≠ 0 →
      exec (.denseReduce q i r) s = .next (withQueue s.pending (settleRun (endPlain q i (denseRefusal t r) t)))) ∧
    (denseRefusal t r = 0 → tensorOf t (rf r 215 200) = some x → tensorOf t (rf r 335 320) = some g → ∀ o ms,
      o = loadOperand g t → ms = denseMsgs o.2 (rf r 191 128) x o.1.bytes o.1.poison →
      exec (.denseReduce q i r) s = .next (withQueue s.pending (settleRun
        (forEach ms (fun m s => sendOwned q i 0x13 m.1 (rf r 191 128) m.2 s)
          (awaitMsgs q i ms.length (o.1.poison.any id) o.2)))))) ∧
  (∀ vs : List Nat, (∀ x ∈ variantRuns vs 0, x.2.1 ≤ 1024) ∧
    ((variantRuns vs 0).flatMap fun x => List.replicate x.2.1 x.2.2) = vs)

/-- R461 to R465: generations. GEN_SETUP takes a change map and a hold area that fit; GEN_CUT stands until the COMMIT of
its step, where it exchanges the planes and opens the generation, unless one is open; GEN_EXPORT writes the shards
that fit, and releases the generation when the last has been written; GEN_RELEASE releases the open generation it
names. Where the manual leaves a choice, the model's is in log entries 30, 128, 157, 211, 249. -/
def Obligations.GenerationCommands : Prop :=
  (∀ q i r c t s, Instr.wf (.genSetup q i r) = true → startable q i r s → begun q i r s = t →
    genSetupRefusal t (rf r 287 256) (rf r 319 288) (rf r 351 320) (rf r 383 352) = c →
    (c = 0 → exec (.genSetup q i r) s = .next (withQueue s.pending (settleRun (endPlain q i 0
      { t with gen := { t.gen with
        setup := true, mapOff := rf r 287 256, holdOff := rf r 319 288, mapKib := rf r 351 320, holdKib := rf r 383 352 } })))) ∧
    (c ≠ 0 → exec (.genSetup q i r) s = .next (withQueue s.pending (settleRun (endPlain q i c t))))) ∧
  (∀ q i r t s, Instr.wf (.genCut q i r) = true → startable q i r s → begun q i r s = t → s.holds.salvaged = false →
    (reached t (rf r 191 128) 5 = false →
      exec (.genCut q i r) s = .next (withQueue s.pending (settleRun { t with gen := { t.gen with
        cuts := t.gen.cuts ++ [(rf r 191 128, rf r 223 192, rb r 224, q, i)] } }))) ∧
    (reached t (rf r 191 128) 5 = true →
      exec (.genCut q i r) s = .next (withQueue s.pending (settleRun (endPlain q i 0x0204 t))))) ∧
  (∀ q i r t s, Instr.wf (.genCut q i r) = true → startable q i r s → begun q i r s = t → s.holds.salvaged = true →
    exec (.genCut q i r) s =
      .next (withQueue s.pending (settleRun (makeCut (lastCommitted t, rf r 223 192, true, q, i) t)))) ∧
  (∀ n g full q i s, s.gen.isOpen = false →
    makeCut (n, g, full, q, i) s = endPlain q i 0 (count E.GEN_CUTS { s with gen := { s.gen with
      current := s.gen.frozen, frozen := s.gen.current, isOpen := true, step := n, number := g, full := full
      salvage := s.holds.salvaged, exported := 0, hold := [], inexact := [] } })) ∧
  (∀ n g full q i s, s.gen.isOpen = true → makeCut (n, g, full, q, i) s = endPlain q i 0x0911 s) ∧
  (∀ q i r t s, Instr.wf (.genExport q i r) = true → startable q i r s → begun q i r s = t →
    (exportRefusal t r ≠ 0 →
      exec (.genExport q i r) s = .next (withQueue s.pending (settleRun (endPlain q i (exportRefusal t r)
        (whenS (exportRefusal t r == 0x0801 || exportRefusal t r == 0x080C) (count E.REQUESTS_REFUSED) t))))) ∧
    (exportRefusal t r = 0 → ∀ v c u, v = exportFrom q i (rf r 226 225 == 1) (rf r 319 256) (rf r 383 320)
        ((genShards t).drop t.gen.exported) t.gen.exported ⟨0, 0, false⟩ t →
      u = (if v.1.used + 64 ≤ rf r 383 320
        then exportWrite q i (rf r 226 225 == 1) (rf r 319 256 + v.1.used) (zeros 64) v.2 else v.2) →
      findCmd u q i = some c → c.outstanding = 0 →
      exec (.genExport q i r) s = .next (withQueue s.pending (settleRun
        (if v.1.full then endCmd q i 0x0913 v.1.shards false false u
        else endCmd q i 0 v.1.shards false false
          { u with gen := { u.gen with isOpen := false, frozen := [], hold := [], inexact := [], exported := 0 } }))))) ∧
  (∀ q i r t s, Instr.wf (.genRelease q i r) = true → startable q i r s → begun q i r s = t →
    (t.gen.isOpen = true → rf r 223 192 = t.gen.number →
      exec (.genRelease q i r) s = .next (withQueue s.pending (settleRun (endPlain q i 0
        { t with gen := { t.gen with isOpen := false, frozen := [], hold := [], inexact := [], exported := 0 } })))) ∧
    (t.gen.isOpen = false ∨ rf r 223 192 ≠ t.gen.number →
      exec (.genRelease q i r) s = .next (withQueue s.pending (settleRun (endPlain q i 0x0912 t)))))

/-- R391 to R393: LOAD and UNLOAD. LOAD checks the image it reads; on a refusal it ends with the code, LAST_LOAD_STATUS
set and counted; otherwise it asks the timekeeper to join the run, takes the run when that has been answered, and is
refused when it has been turned down or nothing answers. UNLOAD of another run is refused with 0x030C; at a COMMIT
point it leaves the run, FORCE ends the step in progress first. Where the manual leaves a choice, the model's is in
log entries 109, 111, 112, 113, 114, 117, 121, 122, 123, 125, 128, 249, 263, 275. -/
def Obligations.LoadAndUnload : Prop :=
  (∀ q i r b t u s, Instr.wf (.load q i r) = true → startable q i r s → begun q i r s = t →
    readImage (rf r 191 128) t = (b, u) →
    (isState u .ready = false ∨ u.loadState ≠ .idle →
      exec (.load q i r) s = .next (withQueue s.pending (settleRun (loadRefused q i 0x0301 u)))) ∧
    (isState u .ready = true → u.loadState = .idle → b = none →
      exec (.load q i r) s = .next (withQueue s.pending (settleRun (loadRefused q i 0x0308 u)))) ∧
    (∀ im, isState u .ready = true → u.loadState = .idle → b = some im → planRefusal u (rf r 191 128) im ≠ 0 →
      exec (.load q i r) s =
        .next (withQueue s.pending (settleRun (loadRefused q i (planRefusal u (rf r 191 128) im) u)))) ∧
    (∀ im p, isState u .ready = true → u.loadState = .idle → b = some im → planRefusal u (rf r 191 128) im = 0 →
      ridgeTargets u ≠ [] → coordValid u u.ridge.source = true → candidate (rf r 191 128) im (emptyRun u) = p →
      exec (.load q i r) s = .next (withQueue s.pending (settleRun
        (ridgeSendBoth 4092 (p.plan.runId + p.plan.members.length * 2 ^ 32) .join (ridgeSendBoth 4093 p.plan.s0 .joinStep
          (updCmd q i (fun c => { c with outstanding := 1 })
            { p with loadState := .loading, watch := { slots := (watchTargets p im).map newSlot } })))))) ∧
    (∀ im, isState u .ready = true → u.loadState = .idle → b = some im → planRefusal u (rf r 191 128) im = 0 →
      ridgeTargets u = [] →
      exec (.load q i r) s = .next (withQueue s.pending (settleRun (loadRefused q i 0x0A08 u))))) ∧
  (∀ q i c s, loadRefused q i c s = endPlain q i c (count E.LOADS_REFUSED (setReg E.LAST_LOAD_STATUS c s))) ∧
  (∀ q i s, s.loadState = .loading → runningCmd s 0x50 = some (q, i) →
    joinAnswered 0 s = endPlain q i 0 (setReg E.LAST_LOAD_STATUS 0 (loadRun s)) ∧
    (∀ c, c ≠ 0 → c ≠ 0x0A03 → joinAnswered c s = loadRefused q i 0x0A08 { emptyRun s with loadState := .idle }) ∧
    joinAnswered 0x0A03 s = loadRefused q i 0x0A03 { emptyRun s with loadState := .idle }) ∧
  (∀ s, (loadRun s).loadState = .loaded ∧ (loadRun s).life.modState = .running) ∧
  (∀ q i r t s, Instr.wf (.unload q i r) = true → startable q i r s → begun q i r s = t →
    (rf r 223 192 ≠ runId s →
      exec (.unload q i r) s = .next (withQueue s.pending (settleRun (endPlain q i 0x030C t)))) ∧
    (rf r 223 192 = runId s → unloadForced t r = false →
      exec (.unload q i r) s = .next (withQueue s.pending (settleRun (endPlain q i 0 (leaveRun true t))))) ∧
    (rf r 223 192 = runId s → unloadForced t r = true → ∀ u, abandonStep (failWaiting q i t) = u →
      exec (.unload q i r) s = .next (withQueue s.pending (settleRun (endPlain q i 0 (count E.FORCED_UNLOADS
        (leaveRun (u.ridge.state != .noKeeper && routeUp u u.ridge.source) u))))))) ∧
  (∀ b s, (leaveRun b s).loadState = .idle ∧ (leaveRun b s).plan = {} ∧ (leaveRun b s).sets = [] ∧
    (leaveRun b s).rowOps = [] ∧ (leaveRun b s).rowEng = {} ∧ (leaveRun b s).gen = {} ∧ (leaveRun b s).ridge.reported = none ∧ (leaveRun b s).life.modState ≠ .held ∧
    (leaveRun b s).life.modState ≠ .running)

/-- R120, R132, R325 to R331: messages of pooling and of gradients. A delivered message is taken by its unit and answered
with the status that gives: an index run of a step still to come retains its new occurrences; band partials of a step
that is past are dropped, others go to their combining regions when the staging area admits them, RETRY_LATER
otherwise; a gradient message gets the verdict of every region that retains an occurrence of its samples; each region
carries out its own, and the message is answered with RETRY_LATER while one has no room for it. A module out of
service answers every message with 0x0C21 and takes none. Where the manual leaves a choice, the model's is in log
entries 13, 17, 20, 25, 42, 43, 44, 249, 272. -/
def Obligations.PoolingMessages : Prop :=
  (∀ m s, Instr.wf (.indexRun m) = true → serves s = true → m ∈ s.fabric.delivered →
    exec (.indexRun m) s =
      .next (withQueue s.pending (settleRun (answerMsg m 0 (takeRun m (received m s)))))) ∧
  (∀ m s, curStep s + 1 < field m.body 0 8 →
    takeRun m s = { s with step := { s.step with occs := s.step.occs ++ (msgOccs s m.body).filter fun o =>
      !(s.step.occs.any fun x => !x.partner && x.step == o.step && x.set == o.set && x.bag == o.bag
        && x.position == o.position) } }) ∧
  (∀ m s, Instr.wf (.bandPartial m) = true → serves s = true → m ∈ s.fabric.delivered → ∀ r, takeBands m (received m s) = r →
    exec (.bandPartial m) s = .next (withQueue s.pending (settleRun (answerMsg m r.1 r.2)))) ∧
  (∀ m s, batchOf s (field m.body 8 1) (field m.body 0 8) = none → takeBands m s = (0, s)) ∧
  (∀ m s t, batchOf s (field m.body 8 1) (field m.body 0 8) = some t → pastGather s (field m.body 0 8) = false →
    admits s m.region m.body.length false = false →
    (∀ e es, bandEntries m.body = e :: es → nextPart s t e.1 (field m.body 12 2) (field m.body 14 1) = false) →
    takeBands m s = (0x0811, count E.STAGING_RETRIES s)) ∧
  (∀ m s, Instr.wf (.gradMsg m) = true → serves s = true → m ∈ s.fabric.delivered → ∀ r, takeGrad m (received m s) = r →
    exec (.gradMsg m) s = .next (withQueue s.pending (settleRun (answerMsg m r.1 r.2)))) ∧
  (∀ m g s, gradMsgOf m.body = g → s.twin.failStep ≠ some g.step →
    ((∃ r ∈ msgRegions s g m.region, verdict s r g = .later) →
      takeGrad m s = (0x0811, forEach (((msgRegions s g m.region).map fun r => (r, verdict s r g)).filter fun v =>
        !(msgRetained s g).isEmpty || v.2 != .accept) (applyVerdict g) (count E.STAGING_RETRIES s))) ∧
    (∀ x, msgRegions s g m.region = [x] → (msgRetained s g).isEmpty = false → verdict s x g = .accept →
      takeGrad m s = (0, { s with step := { s.step with
        coverage := s.step.coverage ++ [⟨x, g⟩], staged := s.step.staged ++ [⟨x, g⟩] } }))) ∧
  (∀ m s, isState s .outOfService = true → m ∈ s.fabric.delivered →
    (m.op = 0x10 → Instr.wf (.indexRun m) = true →
      exec (.indexRun m) s = .next (withQueue s.pending (respond (requestOf (received m s) m) 0x0C21 [] false (received m s)))) ∧
    (m.op = 0x11 → Instr.wf (.bandPartial m) = true →
      exec (.bandPartial m) s = .next (withQueue s.pending (respond (requestOf (received m s) m) 0x0C21 [] false (received m s)))) ∧
    (m.op = 0x12 → Instr.wf (.gradMsg m) = true →
      exec (.gradMsg m) s = .next (withQueue s.pending (respond (requestOf (received m s) m) 0x0C21 [] false (received m s))))) ∧
  (∀ s g m, malformed s m ((msgRetained s m).filter fun o => occRegion s o == g) = true →
    verdict s g m = .refuse 0x0602 false) ∧
  (∀ s g m, malformed s m ((msgRetained s m).filter fun o => occRegion s o == g) = false → ownSlices s m = false →
    verdict s g m = .refuse 0x0601 false)

/-- R139, R147, R153 to R158, R326 to R331: messages of dense gradients, of the Ledger and of step agreement. A shard
partial of a shard this module does not own is refused with 0x0601, and one of another step is dropped; so is a
subtree sum of another step, a total already known, and a report or a verdict that has come; the total of the Ledger
gives the step its norm and clip; and a verdict counts towards the disagreements in a row, which hold the module at
STEP_AGREE_LIMIT. Where the manual leaves a choice, the model's is in log entries 36, 46, 240, 249. -/
def Obligations.ReductionMessages : Prop :=
  (∀ m s, Instr.wf (.shardGrad m) = true → serves s = true → m ∈ s.fabric.delivered → ∀ r, takeShard m (received m s) = r →
    exec (.shardGrad m) s = .next (withQueue s.pending (settleRun (answerMsg m r.1 r.2)))) ∧
  (∀ m s, (ownsShard s (field m.body 8 4) = false ∨ shardRef s (field m.body 8 4) = none) →
    takeShard m s = (0x0601, raiseOnceRun 0x0601 (field m.body 8 4) (count E.NOT_OWNER_REFUSED s))) ∧
  (∀ m s, ownsShard s (field m.body 8 4) = true → (shardRef s (field m.body 8 4)).isSome = true →
    field m.body 0 8 ≠ curStep s → takeShard m s = (0, s)) ∧
  (∀ m s, Instr.wf (.shardMulticast m) = true → serves s = true → m ∈ s.fabric.delivered → ∀ r, takeCast m (received m s) = r →
    exec (.shardMulticast m) s = .next (withQueue s.pending (settleRun (answerMsg m r.1 r.2)))) ∧
  (∀ m s, shardRef s (field m.head 8 4) = none →
    takeCast m s = (0x0601, raiseOnceRun 0x0601 (field m.head 8 4) (count E.NOT_OWNER_REFUSED s))) ∧
  (∀ m s, Instr.wf (.ledgerUp m) = true → serves s = true → m ∈ s.fabric.delivered → ∀ r, takeLedgerUp m (received m s) = r →
    exec (.ledgerUp m) s = .next (withQueue s.pending (settleRun (answerMsg m r.1 r.2)))) ∧
  (∀ m s, field m.body 0 8 ≠ curStep s → takeLedgerUp m s = (0, s)) ∧
  (∀ m s, Instr.wf (.ledgerDown m) = true → serves s = true → m ∈ s.fabric.delivered → ∀ r, takeLedgerDown m (received m s) = r →
    exec (.ledgerDown m) s = .next (withQueue s.pending (settleRun (answerMsg m r.1 r.2)))) ∧
  (∀ m s, hasNorm s (field m.body 0 8) = true → takeLedgerDown m s = (0, s)) ∧
  (∀ n x s, ∃ t, recordTotal n x s = progressShards (curStep s) t ∧
    t.step.norms = (n, (normAndClip s n x (clipMaxOf s n)).1) :: s.step.norms ∧ t.mem = s.mem) ∧
  (∀ m s, Instr.wf (.stepReport m) = true → serves s = true → m ∈ s.fabric.delivered → ∀ r, takeReportMsg m (received m s) = r →
    exec (.stepReport m) s = .next (withQueue s.pending (settleRun (answerMsg m 0 r.2)))) ∧
  (∀ n k a ts s, (s.holds.reports.any fun r => r.1 == n && r.2.1 == k) = true → takeReport n k a ts s = s) ∧
  (∀ m s, Instr.wf (.stepVerdict m) = true → serves s = true → m ∈ s.fabric.delivered →
    exec (.stepVerdict m) s = .next (withQueue s.pending (settleRun (answerMsg m 0
      (takeVerdict (field m.body 0 8) (bitAt (field m.body 8 1) 0) (received m s)))))) ∧
  (∀ n d s, s.holds.verdictFor = some n → takeVerdict n d s = s) ∧
  (∀ n d s, s.holds.verdictFor ≠ some n → (takeVerdict n d s).holds = { s.holds with
    verdictFor := some n, disagreeing := if d then s.holds.disagreeing + 1 else 0
    disagree := s.holds.disagree || d && decide (setting s E.STEP_AGREE_LIMIT ≤ s.holds.disagreeing + 1) })

/-- R101, R142, R147, R149, R150: consuming and applying. The next staged message of a region leaves the staging area once
the gather of its step has been made, and is expanded into its target slices; a complete target slice is applied once
the step's norm is known, unless its overlay waits for that of a lower variant: it is then updated and mirrored to the
partner, or skipped; a frozen or a poisoned record is not updated, and counted. Where the manual leaves a choice, the
model's is in log entries 29, 38, 50, 55, 65, 249, 267, 268, 269, 270. -/
def Obligations.DrainGradients : Prop :=
  (∀ g x s, Instr.wf (.gradConsume g) = true → nextStaged s g = some x → pastGather s x.msg.step = true →
    exec (.gradConsume g) s = .next (withQueue s.pending (settleRun
      (expand g x.msg.step x.msg { s with step := { s.step with staged := s.step.staged.erase x } })))) ∧
  (∀ g s, Instr.wf (.gradConsume g) = true → nextStaged s g = none →
    exec (.gradConsume g) s = .next (withQueue s.pending (settleRun s))) ∧
  (∀ g k t r v c a td nc w s, Instr.wf (.targetSliceApply g k t r v c) = true →
    (s.step.accs.find? fun a => applies s a g k t r v c) = some a →
    ((tableSet s k).bind fun ts => (tableOf ts t).map fun d => (ts, d)) = some td → stepNorm s (curStep s) = some nc →
    resolveReads td.1 td.2 r v s = w →
    (awaitsLower w td.1 td.2 r v c = true →
      exec (.targetSliceApply g k t r v c) s = .next (withQueue s.pending (settleRun w))) ∧
    (awaitsLower w td.1 td.2 r v c = false → ∀ m u,
      m = (if w.plan.paired then mirrorRound (elemAt w td.1 td.2 (curStep s) r v c) a.values else (a.values, {})) →
      u = updateSlice (curStep s) td.1 td.2 r v c a.count m.1 nc.1 nc.2 (countTally m.2 (putAcc { a with applied := true } w)) →
      (u.1 = none → exec (.targetSliceApply g k t r v c) s = .next (withQueue s.pending (settleRun u.2))) ∧
      (∀ h, u.1 = some h → exec (.targetSliceApply g k t r v c) s = .next (withQueue s.pending (settleRun
        (mirrorTable (curStep s) h.1 { kind := 0, set := k, table := t, row := r, variant := v, slice := c }
          h.2.1 h.2.2 a.count m.1 (whenS (mirrors u.2) (sendOperands (curStep s) nc.1 nc.2) u.2))))))) ∧
  (∀ g k t r v c s, Instr.wf (.targetSliceApply g k t r v c) = true →
    (s.step.accs.find? fun a => applies s a g k t r v c) = none ∨ stepNorm s (curStep s) = none →
    exec (.targetSliceApply g k t r v c) s = .next (withQueue s.pending (settleRun s))) ∧
  (∀ n ts d r v c o g x y h b l s, locate s ts d r v c = .at h b →
    burinLane s (recordArea s (homeGroup s d r) d ts.mode b) h ts.mode d.table = l → (skips l ts.mode h s).1 = true →
    updateSlice n ts d r v c o g x y s = (none, (skips l ts.mode h s).2)) ∧
  (∀ n ts d r v c o g x y h b l s, locate s ts d r v c = .at h b →
    burinLane s (recordArea s (homeGroup s d r) d ts.mode b) h ts.mode d.table = l → (skips l ts.mode h s).1 = false →
    updateSlice n ts d r v c o g x y s =
      (some (h, b, false), updateHere n ts d r v c h o g x y (skips l ts.mode h s).2)) ∧
  (∀ l mode h s, (readRecord h 0 (recSectors mode) s).1.2.any markPoison = false →
    isFrozen mode (readRecord h 0 (recSectors mode) s).1.1 = true →
    skips l mode h s = (true, count E.FROZEN_SKIPS (readRecord h 0 (recSectors mode) s).2)) ∧
  (∀ l mode h s, (readRecord h 0 (recSectors mode) s).1.2.any markPoison = true →
    skips l mode h s =
      (true, raiseOnceRunAt 0x0609 l h (count E.POISON_SKIPS (readRecord h 0 (recSectors mode) s).2)))

/-- R345, R347 to R349, R361: the axis and readiness. An AXIS signal of the module's source raises the AXIS peg to a
larger value, brings the events of the point it reaches, and is answered with 0; one of another module is refused with
0x0A07. A module ready for the pending point reports it once to its timekeeper and standby; a timekeeper takes the
report, and when all its participants have reported the pending point it advances and signals the new point; it
signals its point at each beat. Where the manual leaves a choice, the model's is in log entries 59, 189, 191, 239,
249, 291. -/
def Obligations.AxisAndReadiness : Prop :=
  (∀ p s, Instr.wf (.axisSignal p) = true → performs p s → s.ridge.source = p.srcModule →
    let r := axisTake (leNat p.data) (if axis (taken p s) < leNat p.data then boundNow (taken p s) else taken p s)
    (r.1 = true → s.ridge.state ≠ .noKeeper →
      exec (.axisSignal p) s =
        .next (withQueue s.pending (settleRun (answerReq true p 0 [] false (stationEvents (leNat p.data) r.2))))) ∧
    (r.1 = false →
      exec (.axisSignal p) s = .next (withQueue s.pending (settleRun (answerReq true p 0 [] false r.2))))) ∧
  (∀ p s, Instr.wf (.axisSignal p) = true → performs p s → s.ridge.source ≠ p.srcModule →
    exec (.axisSignal p) s = .next (withQueue s.pending (settleRun
      (answerReq true p 0x0A07 [] false (count E.RIDGE_SOURCE_REFUSALS (taken p s)))))) ∧
  (∀ v s, (axisTake v s).1 = decide (axis s < v)) ∧
  (∀ v s, v < 2 ^ 64 → axis (axisTake v s).2 = max (axis s) v) ∧
  (∀ v s, nextPoint (axis s) = v → takesPart s = true → s.ridge.reported ≠ some v →
    readyFor v (beforeReport v s) = true →
    exec .readyReport s = .next (withQueue s.pending (settleRun (report v (beforeReport v s))))) ∧
  (∀ p s, Instr.wf (.readySignal p) = true → performs p s →
    exec (.readySignal p) s = .next (withQueue s.pending
      (answerReq true p 0 [] false (takeReady p.srcModule (leNat p.data) (taken p s))))) ∧
  (∀ m v s, keepsState s = true → nextPoint s.ridge.keeper.point = v →
    (s.ridge.keeper.participants.any fun p => p.moduleNumber == m) = true →
    takeReady m v s = releaseWaits (tryAdvance (updKeeper (fun k =>
      { k with reports := (s.ridge.keeper.reports.filter fun r => r.1 != m) ++ [(m, v)] }) s))) ∧
  (∀ v s, nextPoint s.ridge.keeper.point = v → isKeeper s = true → allReported s.ridge.keeper = true →
    runBlocks s.ridge.keeper v = false → tryAdvance s = axisRound v (updKeeper (pointReached v) s)) ∧
  (∀ s, isKeeper s = false ∨ allReported s.ridge.keeper = false → tryAdvance s = s) ∧
  (∀ s, isKeeper s = true → exec .beatExpiry s = .next (withQueue s.pending
    (axisRound s.ridge.keeper.point { s with ridge := { s.ridge with takeover := false } })))

/-- R351 to R353, R357, R360: joining and leaving. JOIN_STEP is kept, the latest of a module; a first JOIN of a run
registers it with its S0; a LEAVE or an EXCLUDE takes the module out of the participants; ADMIT puts one in at a new
standby, which the timekeeper takes, told of every participant, while there is one and no run is being registered;
each looks at the waits on the Ridgeline pegs. Where the manual leaves a choice, the model's is in log entries 173,
249, 290, 292. -/
def Obligations.JoiningAndLeaving : Prop :=
  (∀ p s, Instr.wf (.joinStepSignal p) = true → performs p s →
    exec (.joinStepSignal p) s = .next (withQueue s.pending
      (answerReq true p 0 [] false (takeJoinStep p.srcModule (leNat p.data) (taken p s))))) ∧
  (∀ m v s, keepsState s = true →
    takeJoinStep m v s = updKeeper (fun k => { k with
      joinSteps := (k.joinSteps.filter fun j => j.1 != m) ++ [(m, v)] }) s) ∧
  (∀ p s, Instr.wf (.joinSignal p) = true → performs p s →
    let r := takeJoin p.srcModule (leNat p.data % 2 ^ 32) (leNat p.data / 2 ^ 32) (taken p s)
    exec (.joinSignal p) s = .next (withQueue s.pending (answerReq true p r.1 [] false r.2))) ∧
  (∀ m i n j s, keepsState s = true → (s.ridge.keeper.participants.any fun p => p.runId == i) = false →
    (s.ridge.keeper.joinSteps.find? fun j => j.1 == m) = some j →
    (s.ridge.keeper.runs.find? fun r => r.runId == i) = none → s.ridge.keeper.participants ≠ [] →
    (axisOf (j.2 - 1) 5 ≤ s.ridge.keeper.point → takeJoin m i n s = (0x0A03, releaseWaits s)) ∧
    (s.ridge.keeper.point < axisOf (j.2 - 1) 5 → 1 < n →
      takeJoin m i n s = (0, releaseWaits (updKeeper (fun k => { k with runs := k.runs ++ [⟨i, j.2, n, [m]⟩] }) s)))) ∧
  (∀ m i n s, keepsState s = true → (s.ridge.keeper.participants.any fun p => p.runId == i) = false →
    (s.ridge.keeper.joinSteps.find? fun j => j.1 == m) = none → takeJoin m i n s = (0x0A08, releaseWaits s)) ∧
  (∀ p s, Instr.wf (.leaveSignal p) = true → performs p s →
    exec (.leaveSignal p) s = .next (withQueue s.pending
      (answerReq true p 0 [] false (takeLeave p.srcModule (taken p s))))) ∧
  (∀ m s, keepsState s = true → isKeeper s = false →
    ∃ k, takeLeave m s = releaseWaits { s with ridge := { s.ridge with keeper := k } } ∧
      k.participants = (s.ridge.keeper.participants.filter fun p => p.moduleNumber != m) ∧
      (k.runs.any fun r => r.joined.contains m) = false ∧ k.point = s.ridge.keeper.point) ∧
  (∀ p s, Instr.wf (.excludeSignal p) = true → performs p s → p.srcModule = s.ridge.source →
    exec (.excludeSignal p) s = .next (withQueue s.pending
      (answerReq true p 0 [] false (releaseWaits (updKeeper (removeParticipant (leNat p.data)) (taken p s)))))) ∧
  (∀ p s, Instr.wf (.admitSignal p) = true → performs p s → p.srcModule = s.ridge.source →
    exec (.admitSignal p) s = .next (withQueue s.pending
      (answerReq true p 0 [] false (releaseWaits (updKeeper (admitOne (leNat p.data)) (taken p s)))))) ∧
  (∀ p s, Instr.wf (.admitSignal p) = true → performs p s → p.srcModule ≠ s.ridge.source →
    exec (.admitSignal p) s = .next (withQueue s.pending
      (answerReq true p 0x0A07 [] false (count E.RIDGE_SOURCE_REFUSALS (taken p s))))) ∧
  (∀ m k, ((removeParticipant m k).participants.any fun p => p.moduleNumber == m) = false) ∧
  (∀ b t s, s.ridge.keeper.newStandby = some b → isKeeper s = true → s.ridge.keeper.runs = [] → s.ridge.keeper.participants ≠ [] →
    b ≠ myNumber s →
    forEach s.ridge.keeper.participants (fun p => ridgeSend b 4089 (p.moduleNumber + p.runId * 2 ^ 32) .admitted) s = t →
    exec .standbyAdmit s = .next (withQueue s.pending (setRidge { t.ridge with
      standby := some b, keeper := { t.ridge.keeper with newStandby := none } } t)))

/-- R356, R358, R359, R361, R365: losses and timers of the Ridgeline. A module that follows, stands by or was deposed and
hears nothing of its timekeeper turns to the standby and logs 0x0A01, and one with none left stops following and logs
0x0A02; the standby that has so turned to itself takes over, with its round and the advance that is due; a step that
stands too long is logged with the lowest late participant; an event bound to a point by a delay takes place once; and
a wait that times out ends its command with 0x0A10, unless its condition holds. Where the manual leaves a choice, the
model's is in log entries 249, 291. -/
def Obligations.RidgelineLosses : Prop :=
  (∀ b s, s.ridge.state = .waiting ∨ s.ridge.state = .following ∨ s.ridge.state = .standby ∨ s.ridge.state = .deposed →
    s.ridge.source = reg s E.RIDGE_KEEPER → s.ridge.source ≠ 0xFFFF → s.ridge.switched = false →
    s.ridge.standby = some b →
    exec .ridgeSourceLoss s = .next (withQueue s.pending (settleRun (raise 0x0A01 s.ridge.source
      { s with ridge := { s.ridge with source := b, switched := true } })))) ∧
  (∀ s, s.ridge.state = .waiting ∨ s.ridge.state = .following ∨ s.ridge.state = .standby ∨ s.ridge.state = .deposed →
    s.ridge.source ≠ 0xFFFF → s.ridge.switched = true ∨ s.ridge.standby = none →
    exec .ridgeSourceLoss s = .next (withQueue s.pending (settleRun (raise 0x0A02 s.ridge.source
      { s with ridge := { s.ridge with state := .noKeeper } })))) ∧
  (∀ s, s.ridge.state = .standby → s.ridge.switched = true → s.ridge.source = myNumber s →
    exec .standbyTakeover s = .next (withQueue s.pending (releaseWaits (tryAdvance (axisRound s.ridge.keeper.point
      (count E.RIDGE_TAKEOVERS { s with ridge := { s.ridge with state := .keeper, takeover := true } })))))) ∧
  (∀ s, isKeeper s = true → setting s E.STEP_WATCHDOG_S ≠ 0 →
    (s.ridge.keeper.reports.any fun r => r.2 % 8 == 7) = false →
    s.ridge.keeper.participants ≠ [] ∨ s.ridge.keeper.runs ≠ [] →
    let late := (awaited s.ridge.keeper (nextPoint s.ridge.keeper.point)).filter fun p =>
      !(s.ridge.keeper.reports.contains (p.moduleNumber, nextPoint s.ridge.keeper.point))
    let low := late.foldl (fun n p => min n p.moduleNumber) 0xFFFF
    exec .stepWatchdogExpiry s = .next (withQueue s.pending (raise 0x0A04 low (count E.STEP_WATCHDOG_EVENTS
      (updKeeper (fun k => { k with lateModule := low
                                    lateCount := late.length
                                      + (s.ridge.keeper.runs.map fun r => r.members - r.joined.length).sum }) s))))) ∧
  (∀ v s, Instr.wf (.boundDelayExpiry v) = true → v ∈ s.ridge.bound →
    exec (.boundDelayExpiry v) s = .next (withQueue s.pending (settleRun (stationEvents v
      { s with ridge := { s.ridge with bound := s.ridge.bound.filter fun w => w != v } })))) ∧
  (∀ q i w s, Instr.wf (.pegWaitTimeout q i) = true →
    (s.pegs.waits.find? fun w => w.queue == q && w.index == i && w.cls != 0) = some w → waitHolds s w = false →
    exec (.pegWaitTimeout q i) s = .next (withQueue s.pending (settleRun (endPlain q i 0x0A10 (count E.PEG_WAIT_TIMEOUTS
      { s with pegs := { s.pegs with waits := s.pegs.waits.erase w } })))))

/-- R441, R442, R443, R445: the mirror log at a follower. The step's operands are kept; the mark of a path is answered
once nothing precedes it there; a packet of entries that comes in its step is replayed entry by entry and answered
with 0, one that comes outside it is asked for again, and one that names no record takes the module out of service. An
entry on a record that is neither poisoned nor still to be copied is applied to it as the lead applied it; on a
poisoned one it is skipped. Where the manual leaves a choice, the model's is in log entries 4, 90, 91, 249, 286, 297. -/
def Obligations.MirrorLog : Prop :=
  (∀ i p q s t, Instr.wf (.stepOperands i p) = true → { p with path := i - 8 } = q → gPerforms q s → takeGArrival q s = t →
    exec (.stepOperands i p) s = .next (withQueue s.pending (settleRun (gAnswer q 0 [] false (setTwin { t.twin with
      opStep := some (field p.data 0 8), opNorm := BitVec.ofNat 32 (field p.data 8 4)
      opClip := BitVec.ofNat 32 (field p.data 12 4) } t))))) ∧
  (∀ i p q s t, Instr.wf (.stepMark i p) = true → { p with path := i - 8 } = q → gPerforms q s → takeGArrival q s = t →
    exec (.stepMark i p) s = .next (withQueue s.pending (settleRun (gAnswer q 0 [] false (setTwin { t.twin with
      partnerMarks := t.twin.partnerMarks ++ [(p.die, field p.data 0 8)] } t))))) ∧
  (∀ i p q s, Instr.wf (.stepMark i p) = true → { p with path := i - 8 } = q → precededBy s q = true →
    exec (.stepMark i p) s = .next (withQueue s.pending (settleRun s))) ∧
  (∀ i p q nc s t u, Instr.wf (.mirrorLog i p) = true → { p with path := i - 8 } = q → gPerforms q s → takeGArrival q s = t → mirrorOpen t (nearStep t p.stepLo) = true → gOpen t = true →
    replayOperands t (nearStep t p.stepLo) = some nc →
    (replayAll (nearStep t p.stepLo) p.die nc none ((pieces 40 p.data).map entry40) t = (false, u) →
      exec (.mirrorLog i p) s = .next (withQueue s.pending (settleRun (gAnswer q 0 [] false u)))) ∧
    (replayAll (nearStep t p.stepLo) p.die nc none ((pieces 40 p.data).map entry40) t = (true, u) →
      exec (.mirrorLog i p) s = .next (withQueue s.pending (settleRun (leaveService 0x0906 (unitCoord u p.die 4 2 2)
        (raiseAt 0x0906 (unitCoord u p.die 4 2 2) (nearStep t p.stepLo) u)))))) ∧
  (∀ i p q s t, Instr.wf (.mirrorLog i p) = true → { p with path := i - 8 } = q → gPerforms q s → takeGArrival q s = t → mirrorOpen t (nearStep t p.stepLo) = false →
    exec (.mirrorLog i p) s = .next (withQueue s.pending (settleRun (gAnswer q 0x0811 [] false t)))) ∧
  (∀ n k ts d home occ g nc s u, pageHere s home = true → recordPoisoned home ts.mode s = (false, u) →
    replayTable n k ts d home occ g nc s =
      (.done, noteReplay k (updateAt n ts d k.row k.variant k.slice home occ g nc.1 nc.2 u).2)) ∧
  (∀ n k ts d home occ g nc s u, pageHere s home = true → recordPoisoned home ts.mode s = (true, u) →
    replayTable n k ts d home occ g nc s = (.skipped, u))

/-- R454, R455, R152, R388: what else a twin takes from its partner. A page copied to a copy target is written and
answered, and outside a run the last one makes the target PAIRED; a page at any other module is asked for again. The
partner's occurrences and contributions join the step, and a changed row is written here as it was there. Where the
manual leaves a choice, the model's is in log entries 39, 48, 86, 89, 96, 104, 249, 286. -/
def Obligations.TwinCopies : Prop :=
  (∀ i p q l die k s t u, Instr.wf (.copyPage i p) = true → { p with path := i - 8 } = q → gPerforms q s → takeGArrival q s = t → t.twin.state = .copyTarget → field p.data 0 8 = l → l % 4 = die →
    l / 32 * 8 + l / 8 % 4 * 2 + l / 4 % 2 = k → writeCopied (pageAt die k) (p.data.drop 8) t = u →
    ∀ v, gAnswer q 0 [] false (setTwin { u.twin with
      copyGot := sput 0 u.twin.copyGot die (max (sget 0 u.twin.copyGot die) (k + 1)) } u) = v →
    (v.loadState ≠ .idle → exec (.copyPage i p) s = .next (withQueue s.pending (settleRun v))) ∧
    (v.loadState = .idle → (four.all fun d => (nextCopy v d (sget 0 v.twin.copyGot d)).isNone) = true →
      exec (.copyPage i p) s = .next (withQueue s.pending (settleRun (setTwinState .paired (noCopy v)))))) ∧
  (∀ i p q s t, Instr.wf (.copyPage i p) = true → { p with path := i - 8 } = q → gPerforms q s → takeGArrival q s = t → t.twin.state ≠ .copyTarget →
    exec (.copyPage i p) s = .next (withQueue s.pending (settleRun (gAnswer q 0x0811 [] false t)))) ∧
  (∀ i p q s t, Instr.wf (.occurrences i p) = true → { p with path := i - 8 } = q → gPerforms q s → takeGArrival q s = t →
    exec (.occurrences i p) s = .next (withQueue s.pending (settleRun (gAnswer q 0 [] false (takeOccurrences q t))))) ∧
  (∀ i p q s t, Instr.wf (.contributions i p) = true → { p with path := i - 8 } = q → gPerforms q s → takeGArrival q s = t →
    exec (.contributions i p) s = .next (withQueue s.pending (settleRun
      (gAnswer q (takeContributions q t).1 [] false (takeContributions q t).2)))) ∧
  (∀ p s, ((pieces 96 p.data).all fun e => (rowRegion s (field e 7 1) (field e 8 2) (field e 0 5)).isSome) = true →
    (takeContributions p s).1 = 0) ∧
  (∀ p s, ((pieces 96 p.data).all fun e => (rowRegion s (field e 7 1) (field e 8 2) (field e 0 5)).isSome) = false →
    (takeContributions p s).1 = 0x0601) ∧
  (∀ i p q s t, Instr.wf (.rowChange i p) = true → { p with path := i - 8 } = q → gPerforms q s → takeGArrival q s = t →
    exec (.rowChange i p) s = .next (withQueue s.pending (settleRun
      (gAnswer q (takeRowChange q t).1 [] false (takeRowChange q t).2)))) ∧
  (∀ p s, atCommit s = false → takeRowChange p s = (0x0811, s)) ∧
  (∀ p ts d s t, atCommit s = true → rowDecl s (keyOf p.data).set (keyOf p.data).table = some (ts, d) →
    resolveReads ts d (keyOf p.data).row (keyOf p.data).variant s = t →
    (∀ home, rowTarget t ts d (keyOf p.data).row (keyOf p.data).variant (keyOf p.data).slice = some home →
      takeRowChange p s = (0, storeRecord home (imagePayload (p.data.drop 12)) (imageMarks (p.data.drop 12))
        (beforeRecordWrite home ts.mode false t))) ∧
    (rowTarget t ts d (keyOf p.data).row (keyOf p.data).variant (keyOf p.data).slice = none →
      takeRowChange p s = (0x0209, t)))

/-- R279, R436, R447, R448, R450: twin repair and the life of the pair. A repair request is answered with the record, or
with its poison; the answer is written whole in the window of its COMMIT point. Heartbeats go out on the ports that
are UP; with the partner's beat lost its liveness word is read, and outside a run the pair is given up; a liveness
word that shows the partner at work makes side 1 leave service and side 0 read again, any other makes this twin carry
the position alone. A member that owes a message is probed, and every read of a liveness word counts. Where the manual
leaves a choice, the model's is in log entries 38, 39, 85, 86, 88, 92, 93, 94, 95, 96, 249, 276, 286, 287, 290, 297. -/
def Obligations.TwinRepairAndLoss : Prop :=
  (∀ i p q h m s t b l u, Instr.wf (.repairRequest i p) = true → { p with path := i - 8 } = q → gPerforms q s →
    keyRead (keyOf p.data) (takeGArrival q s) = t → s.loadState = .loaded → keyHome t (keyOf p.data) = some (h, m) →
    readRecord h 0 (recSectors m) t = ((b, l), u) →
    (l.any markPoison = true →
      exec (.repairRequest i p) s = .next (withQueue s.pending (settleRun (gAnswer q 0x0702 [] false u)))) ∧
    (l.any markPoison = false → curStation u = 5 →
      exec (.repairRequest i p) s = .next (withQueue s.pending (settleRun (gAnswer q 0 (imageOf b l) false u))))) ∧
  (∀ i p q r s t, Instr.wf (.twinRepairWrite i p) = true → { p with path := i - 8 } = q → precededBy s q = false →
    gIsRequest q = false → gGood q = true → takeGArrival q s = t → findGReq t p.die p.tag = some r → p.gop = r.packet.gop + 128 →
    p.status ≠ 0x0811 → r.origin = .repair →
    exec (.twinRepairWrite i p) s = .next (withQueue s.pending (settleRun (formPair
      (repairAnswered (keyOf r.packet.data) p.status p.data
        (issueWaiting (whenS (failingStatus p.status) gFailed (dropGReq p.die p.tag t)))))))) ∧
  (∀ k b w s r h, keyRead k w = s → s.mem.repairs.find? (repairIs k) = some r → keyHome s k = some h → curStation s = 5 →
    b.length = imageLen h.2 → ∀ u, storeRecord h.1 (imagePayload b) (imageMarks b) (beforeRecordWrite h.1 h.2 (k.kind == 1) s) = u →
    repairAnswered k 0 b w =
      count E.TWIN_REPAIRS (setRepairs (u.mem.repairs.filter fun x => !(repairIs k x)) u)) ∧
  (∀ s, Instr.wf .heartbeatSendExpiry = true → s.twin.reading = false →
    exec .heartbeatSendExpiry s = .next (withQueue s.pending (sendHeartbeats s))) ∧
  (∀ s, (four.all fun d => (port s (8 + d)).state != .up) = true → sendHeartbeats s = s) ∧
  (∀ s t, gOpen s = true → s.twin.state ≠ .unpaired → s.twin.state ≠ .severed →
    readLiveness (forced s E.TWIN_PEER) .liveness (setTwin { s.twin with beat := none } s) = t →
    (inTwinRun t = true → exec .twinBeatLoss s = .next (withQueue s.pending (settleRun t))) ∧
    (inTwinRun t = false → exec .twinBeatLoss s = .next (withQueue s.pending (settleRun (backToTraining t))))) ∧
  (∀ ok w s, Instr.wf (.livenessDecision ok w) = true →
    s.twin.state = .paired ∨ s.twin.state = .copySource ∨ s.twin.state = .copyTarget → inTwinRun s = true →
    (ok = true → liveIn s w = true → mySide s = 1 →
      exec (.livenessDecision ok w) s = .next (withQueue s.pending (settleRun (sever s)))) ∧
    (ok = true → liveIn s w = true → mySide s ≠ 1 → exec (.livenessDecision ok w) s =
      .next (withQueue s.pending (settleRun (setTwin { s.twin with reading := true } s)))) ∧
    (ok = false ∨ liveIn s w = false → s.twin.state ≠ .copyTarget →
      exec (.livenessDecision ok w) s = .next (withQueue s.pending (settleRun (failOver s))))) ∧
  (∀ s, (sever s).twin.state = .severed) ∧
  (∀ k s, Instr.wf (.twinProbeExpiry k) = true → s.loadState = .loaded → k ≠ myOrder s → k < memberCount s →
    ((myOrders s).any fun o => o != myOrder s && ((ledgerChildren s o).contains k
      || (o == pitchFirst s && (pitchMembers s).contains k))) = false → s.plan.paired = false ∨ isLost s k = false →
    exec (.twinProbeExpiry k) s = .next (withQueue s.pending (settleRun
      (readLiveness (memberModule s k) (.probe k) s)))) ∧
  (∀ m o s, readLiveness m o s = issue 0 (memGlobal m 0 controlBase) 1 1 (natLe 8 8) false o (count E.PROBES s))

/-- R154, R254, R289, R311, R320, R476: settings whose writes do more. An accepted write of PORT_ENABLE_MASK trains the
ports it adds and disables those it takes away; ROUTE_TABLE_COMMIT brings the written table into force at once, and on
a member of a run at the next COMMIT point; a torus dimension fills the coordinate table anew; COORD_TABLE stores its
entries; WATCH_RING_TAIL frees the ring up to its value; TSET_T sets the step counter of the selected set. Where the
manual leaves a choice, the model's is in log entries 113, 167, 183, 249. -/
def Obligations.SettingWrites : Prop :=
  (∀ p v u s, Instr.wf (.portEnableMaskWrite p v) = true → accepts s p E.PORT_ENABLE_MASK 0 (natLe 1 v) →
    touchPath p s = u →
    exec (.portEnableMaskWrite p v) s = .next (withQueue s.pending (answered p
      (letTrain (portMaskWritten (reg u E.PORT_ENABLE_MASK) v (setReg E.PORT_ENABLE_MASK v u)))))) ∧
  (∀ p u s, Instr.wf (.routeTableCommit p 1) = true → accepts s p E.ROUTE_TABLE_COMMIT 0 [1] → touchPath p s = u →
    (isMember s = false →
      exec (.routeTableCommit p 1) s = .next (withQueue s.pending (answered p
        { u with fabric := { u.fabric with route := u.dict.routeTable } }))) ∧
    (isMember s = true →
      exec (.routeTableCommit p 1) s = .next (withQueue s.pending (answered p
        { u with fabric := { u.fabric with routePending := some u.dict.routeTable } })))) ∧
  (∀ p a v s, Instr.wf (.torusDimWrite p a v) = true → accepts s p (E.TORUS_DIM_X + a) 0 (natLe 1 v) →
    exec (.torusDimWrite p a v) s = .next (withQueue s.pending (answered p
      (letTrain (refillCoords (setReg (E.TORUS_DIM_X + a) v (touchPath p s))))))) ∧
  (∀ s, (refillCoords s).dict.coordTable =
    (upto (reg s E.TORUS_DIM_X * reg s E.TORUS_DIM_Y * reg s E.TORUS_DIM_Z)).map fun i =>
      (i, i % reg s E.TORUS_DIM_X + i / reg s E.TORUS_DIM_X % reg s E.TORUS_DIM_Y * 2 ^ 5
        + i / (reg s E.TORUS_DIM_X * reg s E.TORUS_DIM_Y) * 2 ^ 9 + 2 ^ 15)) ∧
  (∀ p i b u s, Instr.wf (.coordTableWrite p i b) = true → accepts s p E.COORD_TABLE (2 * i) b → touchPath p s = u →
    exec (.coordTableWrite p i b) s = .next (withQueue s.pending (answered p
      (letTrain { u with dict := { u.dict with coordTable := coordTableAfter u (2 * i) b } })))) ∧
  (∀ p v u s, Instr.wf (.watchRingTailWrite p v) = true → accepts s p E.WATCH_RING_TAIL 0 (natLe 8 v) →
    touchPath p s = u → u.watch.tail ≤ v → v ≤ u.watch.head →
    exec (.watchRingTailWrite p v) s = .next (withQueue s.pending (answered p
      { u with watch := { u.watch with tail := v } }))) ∧
  (∀ p v u s, Instr.wf (.tsetT p v) = true → accepts s p E.TSET_T 0 (natLe 8 v) → touchPath p s = u →
    exec (.tsetT p v) s = .next (withQueue s.pending (answered p
      { u with sets := u.sets.map fun t => if t.number == sel u p E.TSET_SELECT then { t with t := v } else t })))

/-- R154, R241, R245, R459, R487, R499: writes that act. WATCH_HISTORY_RESET asks for a reset of the histories it names;
WATCH_RESUME and STEP_AGREE_RESUME let the module go on; SALVAGE takes a lost module's memory over; the fault record
is cleared; every counter is zeroed. FALSE written where TRUE acts has no effect, and each write is answered. Where
the manual leaves a choice, the model's is in log entries 61, 181, 211, 249. -/
def Obligations.ActingWrites : Prop :=
  (∀ p v s, Instr.wf (.watchHistoryReset p v) = true → accepts s p E.WATCH_HISTORY_RESET 0 (natLe 2 v) →
    exec (.watchHistoryReset p v) s = .next (withQueue s.pending (answered p (askHistoryReset v (touchPath p s))))) ∧
  (∀ p v s, Instr.wf (.watchResume p v) = true → accepts s p E.WATCH_RESUME 0 (natLe 1 v) →
    (v = 1 → exec (.watchResume p v) s = .next (withQueue s.pending (answered p (resumeStreaks (touchPath p s))))) ∧
    (v = 0 → exec (.watchResume p v) s = .next (withQueue s.pending (answered p (touchPath p s))))) ∧
  (∀ p v u s, Instr.wf (.stepAgreeResume p v) = true → accepts s p E.STEP_AGREE_RESUME 0 (natLe 1 v) → touchPath p s = u →
    (v = 1 → exec (.stepAgreeResume p v) s = .next (withQueue s.pending (answered p
      { u with holds := { u.holds with disagree := false, disagreeing := 0 } }))) ∧
    (v = 0 → exec (.stepAgreeResume p v) s = .next (withQueue s.pending (answered p u)))) ∧
  (∀ p v s, Instr.wf (.salvage p v) = true → accepts s p E.SALVAGE 0 (natLe 1 v) →
    (v = 1 → exec (.salvage p v) s = .next (withQueue s.pending (answered p (salvage (touchPath p s))))) ∧
    (v = 0 → exec (.salvage p v) s = .next (withQueue s.pending (answered p (touchPath p s))))) ∧
  (∀ p u s, Instr.wf (.faultCodeClear p 0) = true → accepts s p E.FAULT_CODE 0 [0, 0] → touchPath p s = u →
    exec (.faultCodeClear p 0) s = .next (withQueue s.pending (answered p { u with life := { u.life with fault := {} } }))) ∧
  (∀ p v s, Instr.wf (.countersClearAll p v) = true → accepts s p E.COUNTERS_CLEAR_ALL 0 (natLe 1 v) →
    (v = 1 → exec (.countersClearAll p v) s = .next (withQueue s.pending (answered p (clearCounters (touchPath p s))))) ∧
    (v = 0 → exec (.countersClearAll p v) s = .next (withQueue s.pending (answered p (touchPath p s))))) ∧
  (∀ s k, reg (clearCounters s) k = (if entryTable.any fun e => e.counter && e.key == k then 0 else reg s k))

/-- R476 to R486: requests to the dictionary. While Lantern serves, a read is answered with the status and the bytes of
its entry, a write, a description and a staging with theirs, whichever path brings the request; a write that is
refused changes nothing but the path's counters. An ODP request that parses and carries a good tag, or needs none, is
answered and the answer kept; one already kept is answered alike without being performed; a malformed one has none of
its operations performed. Over I3C a write of three bytes selects the entry that the next read gives; the UART console
prints its answer. Where the manual leaves a choice, the model's is in log entries 148, 165, 169, 170, 175, 218, 219,
220, 221, 222, 223, 224, 225, 230, 249, 277. -/
def Obligations.DictionaryRequests : Prop :=
  (∀ p i j s, Instr.wf (.odpRead p i j) = true → s.lantern.serving = true → pathRefusal s p false ≠ 0x0C0B →
    exec (.odpRead p i j) s = .next (withQueue s.pending
      (emit (.dictAnswer p (readEntry (touchPath p s) p i j 0 none).1 (readEntry (touchPath p s) p i j 0 none).2)
        (countRequest p false { touchPath p s with free := s.free + 1 })))) ∧
  (∀ p i j b e s, Instr.wf (.odpWrite p i j b) = true → s.lantern.serving = true → pathRefusal s p true ≠ 0x0C0B →
    (writeRefused (touchPath p s) p i j 0 b = 0 → entryOf (i * 256 + j) = some e →
      exec (.odpWrite p i j b) s = .next (withQueue s.pending (answered p (writeEffect p e 0 b (touchPath p s))))) ∧
    (writeRefused (touchPath p s) p i j 0 b ≠ 0 →
      exec (.odpWrite p i j b) s = .next (withQueue s.pending
        (emit (.dictAnswer p (writeRefused (touchPath p s) p i j 0 b) []) (countRequest p false (touchPath p s)))))) ∧
  (∀ p i j s, Instr.wf (.describe p i j) = true → s.lantern.serving = true → pathRefusal s p false ≠ 0x0C0B →
    exec (.describe p i j) s = .next (withQueue s.pending
      (emit (.dictAnswer p (describeEntry (touchPath p s) p i j).1 (describeEntry (touchPath p s) p i j).2)
        (countRequest p false { touchPath p s with free := s.free + 1 })))) ∧
  (∀ p i j b u s, Instr.wf (.stage p i j b) = true → s.lantern.serving = true → pathRefusal s p true ≠ 0x0C0B →
    touchPath p s = u →
    (stageRefusal u p i j b = 0 →
      exec (.stage p i j b) s = .next (withQueue s.pending (emit (.dictAnswer p 0 []) (countRequest p false
        (setSets { u.lantern.sets with staged := slotPut u.lantern.sets.staged (i * 256 + j) b } u))))) ∧
    (stageRefusal u p i j b ≠ 0 →
      exec (.stage p i j b) s = .next (withQueue s.pending
        (emit (.dictAnswer p (stageRefusal u p i j b) []) (countRequest p false u))))) ∧
  (∀ o n v s, Instr.wf (.registerWrite (.bar0 o n v)) = true →
    exec (.registerWrite (.bar0 o n v)) s = .next (withQueue s.pending (settleRun (bar0Write o n v s)))) ∧
  (∀ p i j b s, Instr.wf (.registerWrite (.dict p i j b)) = true → Instr.wf (.odpWrite p i j b) = true →
    exec (.registerWrite (.dict p i j b)) s = exec (.odpWrite p i j b) s) ∧
  (∀ src b ops u s, Instr.wf (.odpRequest src b) = true → s.lantern.serving = true → b.length ≤ 1472 →
    touchSource src s = u → odpLookup u src b = none → odpParse b false 1472 = some ops → field b 2 1 = 0 →
    (odpNeedsAuth u ops = false → ∀ r, odpAnswer (.odp src false) b ops u = r →
      exec (.odpRequest src b) s = .next (withQueue s.pending (odpKeep src b r.1
        (emit (.odpResponse src r.1) (count E.ODP_REQUESTS r.2))))) ∧
    (odpNeedsAuth u ops = true →
      exec (.odpRequest src b) s = .next (withQueue s.pending (odpKeep src b (odpHeader b 0 0x0C0B)
        (emit (.odpResponse src (odpHeader b 0 0x0C0B)) (count E.ODP_REQUESTS (count E.ODP_REFUSED u))))))) ∧
  (∀ src b ops u s, Instr.wf (.odpRequest src b) = true → s.lantern.serving = true → b.length ≤ 1472 →
    touchSource src s = u → odpLookup u src b = none → odpParse b true 1472 = some ops → field b 2 1 = 1 →
    odpTagGood u b = true → u.lantern.odpLastSeq < field b 8 8 → ∀ r,
    odpAnswer (.odp src true) b ops { u with lantern := { u.lantern with odpLastSeq := field b 8 8 } } = r →
      exec (.odpRequest src b) s = .next (withQueue s.pending (odpKeep src b r.1
        (emit (.odpResponse src r.1) (count E.ODP_REQUESTS r.2))))) ∧
  (∀ src b ops e u s, Instr.wf (.odpRequest src b) = true → s.lantern.serving = true → b.length ≤ 1472 →
    touchSource src s = u → odpLookup u src b = some e → odpParse b false 1472 = some ops → field b 2 1 = 0 →
    exec (.odpRequest src b) s = .next (withQueue s.pending
      (emit (.odpResponse src e.response) (count E.ODP_REQUESTS u)))) ∧
  (∀ p ops s, odpAll p ops true s = ((ops.flatMap fun _ => odpResult 0x0C0F []), s)) ∧
  (∀ b s, Instr.wf (.i3cPrivateWrite b) = true → s.lantern.serving = true → s.life.recovery = false →
    s.lantern.i3cAddr.isSome = true →
    (b.length = 3 → exec (.i3cPrivateWrite b) s = .next { s with lantern := { s.lantern with
      i3cSelect := some (field b 0 2 * 256 + field b 2 1), i3cRefused := false } }) ∧
    (b.length ≠ 3 → exec (.i3cPrivateWrite b) s =
      .next { s with lantern := { s.lantern with i3cRefused := true } })) ∧
  (∀ s, s.lantern.serving = true → s.life.recovery = false → s.lantern.i3cAddr.isSome = true →
    exec .i3cPrivateRead s = .next (emit (.i3cData (natLe 2 (i3cValue s).1 ++ (i3cValue s).2))
      (setLantern { s.lantern with i3cRefused := false } (count E.I3C_READS { s with free := s.free + 1 })))) ∧
  (∀ a i s, Instr.wf (.i3cAddressAssign a i) = true → s.lantern.serving = true →
    exec (.i3cAddressAssign a i) s = .next { s with lantern := { s.lantern with i3cAddr := some a, i3cIbi := i } }) ∧
  (∀ i j b s, Instr.wf (.uartConsoleCommand true i j b) = true → s.lantern.serving = true →
    exec (.uartConsoleCommand true i j b) s = .next (withQueue s.pending
      (emit (.uart (natLe 2 (writeEntry .uart i j 0 b s).1)) (writeEntry .uart i j 0 b s).2))) ∧
  (∀ i j b s, Instr.wf (.uartConsoleCommand false i j b) = true → s.lantern.serving = true →
    exec (.uartConsoleCommand false i j b) s = .next (withQueue s.pending
      (emit (.uart (natLe 2 (readEntry s .uart i j 0 none).1 ++ (readEntry s .uart i j 0 none).2))
        { s with free := s.free + 1 })))

/-- R488 to R493: setting sets. A commit of the staged set by its number is pending until it may be applied, and so is a
revert of the active one; SET_CONFIRM ends the wait for a confirmation and SET_CLEAR empties the staged set; a
confirmation that does not come in time reverts. A set is applied as a whole or, where one of its writes would be
refused, not at all. Where the manual leaves a choice, the model's is in log entries 192, 249. -/
def Obligations.SettingSets : Prop :=
  (∀ p v u s, Instr.wf (.setCommit p v) = true → accepts s p E.SET_COMMIT 0 (natLe 8 v) → touchPath p s = u →
    exec (.setCommit p v) s = .next (withQueue s.pending (answered p (settleSets
      (setSets { u.lantern.sets with pending := .commit (bitAt v 32) } u))))) ∧
  (∀ p v u s, Instr.wf (.setRevert p v) = true → accepts s p E.SET_REVERT 0 (natLe 4 v) → touchPath p s = u →
    exec (.setRevert p v) s = .next (withQueue s.pending (answered p (settleSets
      (setSets { u.lantern.sets with pending := .revert } u))))) ∧
  (∀ p v u s, Instr.wf (.setConfirm p v) = true → accepts s p E.SET_CONFIRM 0 (natLe 4 v) → touchPath p s = u →
    (u.lantern.sets.pending = .awaiting →
      exec (.setConfirm p v) s = .next (withQueue s.pending (answered p
        (setSets { u.lantern.sets with pending := .none } u)))) ∧
    (u.lantern.sets.pending ≠ .awaiting →
      exec (.setConfirm p v) s = .next (withQueue s.pending (answered p u)))) ∧
  (∀ p u s, Instr.wf (.setClear p 1) = true → accepts s p E.SET_CLEAR 0 [1] → touchPath p s = u →
    exec (.setClear p 1) s = .next (withQueue s.pending (answered p
      (setSets { u.lantern.sets with staged := {} } u)))) ∧
  (∀ s, s.lantern.sets.pending = .awaiting →
    exec .setConfirmTimeout s = .next (withQueue s.pending (revertSet (raise 0x0C0A s.lantern.sets.active.number s)))) ∧
  (∀ s, s.lantern.sets.pending ≠ .awaiting → exec .setConfirmTimeout s = .next s) ∧
  (∀ x y w s, (setWrites x y).find? (fun w => setWriteRefusal s w != 0) = some w →
    applyWrites x y s = (false, raise 0x0C0E w.1
      (setSets { s.lantern.sets with lastStatus := setWriteRefusal s w, lastDetail := w.1 } s))) ∧
  (∀ x y s, (∀ w ∈ setWrites x y, setWriteRefusal s w = 0) →
    applyWrites x y s = (true, setSets { (forEach (setWrites x y) setWriteOne s).lantern.sets with
      lastStatus := 0, lastDetail := 0 } (forEach (setWrites x y) setWriteOne s))) ∧
  (∀ s, setsDue s = false → settleSets s = s)

/-- R474, R498: attestation and the event log. Every SPDM request is answered while Lantern serves and is not in recovery:
the answer carries the certificate digests, the chain or the measurement blocks where that is what is asked; a
challenge and the measurements are signed over the exchange since GET_VERSION. EVENT_RECORDS is read as any entry is.
Where the manual leaves a choice, the model's is in log entries 169, 220, 229, 233, 249. -/
def Obligations.AttestationAndEvents : Prop :=
  (∀ b s, s.lantern.serving = true → s.life.recovery = false →
    let u : State := { s with free := s.free + 1 }
    let say (k : Nat) : Bytes := Config.spdmAnswer s.free (natLe 1 k ++ b)
    (Instr.wf (.getVersion b) = true → exec (.getVersion b) s = .next (emit (.spdm (say 0 ++ []))
      (setLantern { u.lantern with spdmLog := b ++ (say 0 ++ []) } u))) ∧
    (Instr.wf (.getCapabilities b) = true → exec (.getCapabilities b) s = .next (emit (.spdm (say 1 ++ []))
      (setLantern { u.lantern with spdmLog := u.lantern.spdmLog ++ b ++ (say 1 ++ []) } u))) ∧
    (Instr.wf (.negotiateAlgorithms b) = true → exec (.negotiateAlgorithms b) s = .next (emit (.spdm (say 2 ++ []))
      (setLantern { u.lantern with spdmLog := u.lantern.spdmLog ++ b ++ (say 2 ++ []) } u))) ∧
    (Instr.wf (.getDigests b) = true → exec (.getDigests b) s = .next (emit (.spdm (say 3 ++ sha384 Config.attestChain))
      (setLantern { u.lantern with spdmLog := u.lantern.spdmLog ++ b ++ (say 3 ++ sha384 Config.attestChain) } u))) ∧
    (Instr.wf (.getCertificate b) = true → exec (.getCertificate b) s = .next (emit (.spdm (say 4 ++ Config.attestChain))
      (setLantern { u.lantern with spdmLog := u.lantern.spdmLog ++ b ++ (say 4 ++ Config.attestChain) } u))) ∧
    (Instr.wf (.challenge b) = true → exec (.challenge b) s = .next (emit
      (.spdm (say 5 ++ [] ++ Config.signature (u.lantern.spdmLog ++ b ++ (say 5 ++ []))))
      (setLantern { u.lantern with spdmLog := u.lantern.spdmLog ++ b ++ (say 5 ++ []) } u))) ∧
    (Instr.wf (.getMeasurements b) = true → ∀ x, x = say 6 ++ (measurements u).flatten →
      exec (.getMeasurements b) s = .next (emit (.spdm (x ++ Config.signature (u.lantern.spdmLog ++ b ++ x)))
        (setLantern { u.lantern with spdmLog := u.lantern.spdmLog ++ b ++ x } u))) ∧
    (Instr.wf (.spdmUnsupported b) = true → exec (.spdmUnsupported b) s = .next (emit (.spdm (say 7 ++ []))
      (setLantern { u.lantern with spdmLog := u.lantern.spdmLog ++ b ++ (say 7 ++ []) } u)))) ∧
  (∀ p s, Instr.wf (.eventRecords p) = true → s.lantern.serving = true → pathRefusal s p false ≠ 0x0C0B →
    ∀ r, readEntry (touchPath p s) p (E.EVENT_RECORDS / 256) (E.EVENT_RECORDS % 256) 0 none = r →
    exec (.eventRecords p) s = .next (withQueue s.pending (emit (.dictAnswer p r.1 r.2)
      (countRequest p false { touchPath p s with free := s.free + 1 }))))

/-- R298 to R304, R307, R337, R338, R436: what the links leave alone. Flits, their acknowledgement and replay, training
records, retries, transit, back-off, the age of a filter entry and heartbeats change no memory, no peg, nothing of the
run and not the state of the module; flits, a lost lock and a port that tries again change nothing of Lantern or the
host interface either, and of the dictionary only which of its settings are in force, where the port trains anew. -/
def Obligations.LinkFrame : Prop :=
  (∀ a b c s t, exec (.dataFlitReceive a b c) s = .next t → sameRun s t ∧ t.power = s.power ∧ t.lantern = s.lantern ∧ t.dict = s.dict ∧ t.host = s.host) ∧
  (∀ a b s t, exec (.controlFlitReceive a b) s = .next t → sameRun s t ∧ t.power = s.power ∧ t.lantern = s.lantern ∧ t.dict = s.dict ∧ t.host = s.host) ∧
  (∀ a b s t, exec (.nakReceive a b) s = .next t →
    sameRun s t ∧ t.power = s.power ∧ t.lantern = s.lantern ∧ t.dict = { s.dict with force := t.dict.force } ∧ t.host = s.host) ∧
  (∀ a s t, exec (.linkRetryExpiry a) s = .next t →
    sameRun s t ∧ t.power = s.power ∧ t.lantern = s.lantern ∧ t.dict = { s.dict with force := t.dict.force } ∧ t.host = s.host) ∧
  (∀ a s t, exec (.codewordLockLoss a) s = .next t →
    sameRun s t ∧ t.power = s.power ∧ t.lantern = s.lantern ∧ t.dict = { s.dict with force := t.dict.force } ∧ t.host = s.host) ∧
  (∀ a s t, exec (.controlFlitInterval a) s = .next t → t = { s with outbox := t.outbox }) ∧
  (∀ a b c d s t, exec (.dupFilterEntryExpiry a b c d) s = .next t →
    t = { s with fabric := { s.fabric with dups := t.fabric.dups }, twin := { s.twin with dups := t.twin.dups } }) ∧
  (∀ a b s t, exec (.trainFlitReceive a b) s = .next t → sameRun s t ∧ t.power = s.power) ∧
  (∀ a s t, exec (.linkDownRetryExpiry a) s = .next t →
    sameRun s t ∧ t.power = s.power ∧ t.lantern = s.lantern ∧ t.dict = { s.dict with force := t.dict.force } ∧ t.host = s.host) ∧
  (∀ a b s t, exec (.packetTransit a b) s = .next t → sameRun s t ∧ t.power = s.power) ∧
  (∀ a s t, exec (.retryBackoffExpiry a) s = .next t → sameRun s t ∧ t.power = s.power) ∧
  (∀ s t, exec .heartbeatSendExpiry s = .next t → sameRun s t ∧ t.power = s.power)

/-- R400, R406, R407, R411, R414, R415, R420: what the host's registers leave alone. A doorbell, an enabled queue or ring
changes the host interface, and where it is refused the counters, the event log and what goes out; RESTART, a disabled
ring, cleared CAUSE bits and a link that leaves L0 change the host interface only. -/
def Obligations.HostFrame : Prop :=
  (∀ a s t, exec (.queueRestart a) s = .next t → t = { s with host := t.host }) ∧
  (∀ a s t, exec (.ringDisable a) s = .next t → t = { s with host := t.host }) ∧
  (∀ a s t, exec (.causeClear a) s = .next t → t = { s with host := t.host }) ∧
  (∀ s t, exec .pcieLinkExitL0 s = .next t → t = { s with host := t.host }) ∧
  (∀ a s t, exec (.intCoalesceExpiry a) s = .next t → t = { s with host := t.host, outbox := t.outbox }) ∧
  (∀ a b s t, exec (.doorbellSqProducer a b) s = .next t → sameRun s t ∧ t.power = s.power ∧ t.fabric = s.fabric ∧ t.twin = s.twin) ∧
  (∀ a b s t, exec (.doorbellCqHead a b) s = .next t → sameRun s t ∧ t.power = s.power ∧ t.fabric = s.fabric ∧ t.twin = s.twin) ∧
  (∀ a s t, exec (.queueEnable a) s = .next t → sameRun s t ∧ t.power = s.power ∧ t.fabric = s.fabric ∧ t.twin = s.twin) ∧
  (∀ a s t, exec (.ringEnable a) s = .next t → sameRun s t ∧ t.power = s.power ∧ t.fabric = s.fabric ∧ t.twin = s.twin)

/-- R468, R471, R474, R478, R480, R484, R497, R515 to R526: what Lantern's own work and the sensors leave alone.
Attestation, the end of a verification, the event log and the I3C controller change Lantern and what goes out; reads
and descriptions change no memory, no peg, nothing of the run and not the state of the module, and neither do the
clock and the sensors, of which only these change the power state. -/
def Obligations.LanternAndSensorFrame : Prop :=
  (∀ a s t, exec (.getVersion a) s = .next t → t = { s with lantern := t.lantern, outbox := t.outbox, free := t.free }) ∧
  (∀ a s t, exec (.getCapabilities a) s = .next t → t = { s with lantern := t.lantern, outbox := t.outbox, free := t.free }) ∧
  (∀ a s t, exec (.negotiateAlgorithms a) s = .next t → t = { s with lantern := t.lantern, outbox := t.outbox, free := t.free }) ∧
  (∀ a s t, exec (.getDigests a) s = .next t → t = { s with lantern := t.lantern, outbox := t.outbox, free := t.free }) ∧
  (∀ a s t, exec (.getCertificate a) s = .next t → t = { s with lantern := t.lantern, outbox := t.outbox, free := t.free }) ∧
  (∀ a s t, exec (.challenge a) s = .next t → t = { s with lantern := t.lantern, outbox := t.outbox, free := t.free }) ∧
  (∀ a s t, exec (.getMeasurements a) s = .next t → t = { s with lantern := t.lantern, outbox := t.outbox, free := t.free }) ∧
  (∀ a s t, exec (.spdmUnsupported a) s = .next t → t = { s with lantern := t.lantern, outbox := t.outbox, free := t.free }) ∧
  (∀ s t, exec .fwVerifyDone s = .next t → t = { s with lantern := t.lantern }) ∧
  (∀ s t, exec .eventRateInterval s = .next t → t = { s with lantern := t.lantern }) ∧
  (∀ s t, exec .eventLogFlashWrite s = .next t → t = { s with lantern := t.lantern }) ∧
  (∀ a s t, exec (.i3cPrivateWrite a) s = .next t → t = { s with lantern := t.lantern }) ∧
  (∀ a b s t, exec (.i3cAddressAssign a b) s = .next t → t = { s with lantern := t.lantern }) ∧
  (∀ a b c s t, exec (.describe a b c) s = .next t → sameRun s t ∧ t.power = s.power ∧ t.fabric = s.fabric ∧ t.host = s.host ∧ t.twin = s.twin) ∧
  (∀ a b c s t, exec (.odpRead a b c) s = .next t → sameRun s t ∧ t.power = s.power ∧ t.fabric = s.fabric ∧ t.host = s.host ∧ t.twin = s.twin) ∧
  (∀ a s t, exec (.eventRecords a) s = .next t → sameRun s t ∧ t.power = s.power ∧ t.fabric = s.fabric ∧ t.host = s.host ∧ t.twin = s.twin) ∧
  (∀ s t, exec .i3cPrivateRead s = .next t → sameRun s t ∧ t.power = s.power ∧ t.fabric = s.fabric ∧ t.host = s.host ∧ t.twin = s.twin) ∧
  (∀ a b c s t, exec (.ptpMessage a b c) s = .next t → sameRun s t ∧ t.power = s.power ∧ t.fabric = s.fabric ∧ t.twin = s.twin) ∧
  (∀ s t, exec .ptpUnlocked s = .next t → sameRun s t ∧ t.power = s.power ∧ t.fabric = s.fabric ∧ t.twin = s.twin) ∧
  (∀ a s t, exec (.feedUndervoltage a) s = .next t → sameRun s t ∧ t.fabric = s.fabric ∧ t.twin = s.twin) ∧
  (∀ a b c s t, exec (.thermalThrottle a b c) s = .next t → sameRun s t ∧ t.fabric = s.fabric ∧ t.twin = s.twin) ∧
  (∀ a s t, exec (.coolantFlowLow a) s = .next t → sameRun s t ∧ t.fabric = s.fabric ∧ t.twin = s.twin) ∧
  (∀ a s t, exec (.powerLimitInterval a) s = .next t → sameRun s t ∧ t.fabric = s.fabric ∧ t.twin = s.twin) ∧
  (∀ a s t, exec (.throttleRaiseInterval a) s = .next t → t = { s with power := t.power }) ∧
  (∀ a s t, exec (.senseSample a) s = .next t → t = { s with power := t.power }) ∧
  (∀ a b s t, exec (.hbm3RefreshDoubled a b) s = .next t → t = { s with power := t.power }) ∧
  (∀ s t, exec .serviceButtonShort s = .next t → t = { s with dict := t.dict })

end
end

