-- ==== Sys2Proof/Laws/Sparse.lean ====
section
/-!
SUPPORT. Laws of the sparse maps: a key reads as what was last stored there, a store leaves every other key alone, and
every store keeps the canonical form.
-/
namespace Sys2Proof.Machine

@[simp] theorem sget_nil {α : Type} (d : α) (k : Nat) : sget d [] k = d := rfl

theorem sget_cons {α : Type} (d : α) (j : Nat) (v : α) (m : Sparse α) (k : Nat) :
    sget d ((j, v) :: m) k = if j = k then v else sget d m k := rfl

theorem sget_sdel {α : Type} (d : α) (m : Sparse α) (k j : Nat) :
    sget d (sdel m k) j = if j = k then d else sget d m j := by
  induction m with
  | nil => simp [sdel, sget]
  | cons e m ih =>
    obtain ⟨i, v⟩ := e
    unfold sdel at ih ⊢
    rw [List.filter_cons]
    by_cases hik : i = k
    · subst hik
      simp only [bne_self_eq_false, Bool.false_eq_true, if_false]
      rw [ih]
      by_cases hj : j = i
      · simp [hj]
      · simp [hj, sget_cons, Ne.symm hj]
    · have hne : (i != k) = true := by simp [hik]
      simp only [hne, if_true, sget_cons]
      rw [ih]
      by_cases hij : i = j
      · subst hij; simp [hik]
      · simp [hij]

theorem sget_sins {α : Type} (d v : α) (m : Sparse α) (k j : Nat) (h : ∀ e ∈ m, e.1 ≠ k) :
    sget d (sins k v m) j = if j = k then v else sget d m j := by
  induction m with
  | nil =>
    simp only [sins, sget_cons, sget_nil]
    by_cases hj : k = j
    · simp [hj]
    · simp [hj, Ne.symm hj]
  | cons e m ih =>
    obtain ⟨i, w⟩ := e
    have hi : i ≠ k := h (i, w) (by simp)
    have ih := ih (fun e he => h e (by simp [he]))
    unfold sins
    split
    · simp only [sget_cons]
      by_cases hj : k = j
      · simp [hj]
      · simp [hj, Ne.symm hj]
    · simp only [sget_cons]
      rw [ih]
      by_cases hij : i = j
      · subst hij; simp [hi]
      · simp [hij]

theorem mem_sdel_ne {α : Type} (m : Sparse α) (k : Nat) : ∀ e ∈ sdel m k, e.1 ≠ k := by
  intro e he
  simp [sdel] at he
  exact he.2

/-- What a key reads as after a store. -/
theorem sget_sput {α : Type} [DecidableEq α] (d v : α) (m : Sparse α) (k j : Nat) :
    sget d (sput d m k v) j = if j = k then v else sget d m j := by
  unfold sput
  split
  · rename_i hv
    rw [sget_sdel]
    split <;> simp_all
  · rw [sget_sins d v _ k j (mem_sdel_ne m k), sget_sdel]
    split <;> rfl

@[simp] theorem sget_sput_same {α : Type} [DecidableEq α] (d v : α) (m : Sparse α) (k : Nat) :
    sget d (sput d m k v) k = v := by simp [sget_sput]

theorem sget_sput_other {α : Type} [DecidableEq α] (d v : α) (m : Sparse α) (k j : Nat) (h : j ≠ k) :
    sget d (sput d m k v) j = sget d m j := by simp [sget_sput, h]

/-- A run of stores, read at one key. -/
theorem sget_sputs {α : Type} [DecidableEq α] (d : α) (vs : List α) : ∀ (m : Sparse α) (k j : Nat),
    sget d (sputs d m k vs) j = if k ≤ j ∧ j < k + vs.length then vs.getD (j - k) d else sget d m j := by
  induction vs with
  | nil => intro m k j; simp [sputs] <;> omega
  | cons v vs ih =>
    intro m k j
    simp only [sputs, List.length_cons]
    rw [ih]
    by_cases h1 : k + 1 ≤ j ∧ j < k + 1 + vs.length
    · have h2 : k ≤ j ∧ j < k + (vs.length + 1) := by omega
      have h3 : j - k = (j - (k + 1)) + 1 := by omega
      simp [h1, h2, h3]
    · rw [if_neg h1, sget_sput]
      by_cases hj : j = k
      · subst hj; simp
      · have h2 : ¬(k ≤ j ∧ j < k + (vs.length + 1)) := by omega
        simp [hj, h2]

/-- Stores leave every key outside their range alone. -/
theorem sget_sputs_outside {α : Type} [DecidableEq α] (d : α) (vs : List α) (m : Sparse α) (k j : Nat)
    (h : j < k ∨ k + vs.length ≤ j) : sget d (sputs d m k vs) j = sget d m j := by
  rw [sget_sputs]
  have : ¬(k ≤ j ∧ j < k + vs.length) := by omega
  simp [this]

@[simp] theorem sgets_length {α : Type} (d : α) (m : Sparse α) (n : Nat) : ∀ k, (sgets d m k n).length = n := by
  induction n with
  | zero => intro k; rfl
  | succ n ih => intro k; simp [sgets, ih]

/-! ## The canonical form -/

theorem srising_mem {α : Type} (m : Sparse α) : ∀ b, srising (some b) m = true → ∀ e ∈ m, b < e.1 := by
  induction m with
  | nil => intro b _ e he; simp at he
  | cons x m ih =>
    obtain ⟨k, v⟩ := x
    intro b h e he
    simp [srising] at h
    simp at he
    rcases he with rfl | he
    · exact h.1
    · have := ih k h.2 e he
      omega

theorem srising_weaken {α : Type} (m : Sparse α) (b c : Nat) (hbc : b ≤ c) (h : srising (some c) m = true) :
    srising (some b) m = true := by
  cases m with
  | nil => rfl
  | cons x m =>
    obtain ⟨k, v⟩ := x
    simp [srising] at h ⊢
    exact ⟨by omega, h.2⟩

theorem srising_none {α : Type} (m : Sparse α) (c : Nat) (h : srising (some c) m = true) : srising none m = true := by
  cases m with
  | nil => rfl
  | cons x m =>
    obtain ⟨k, v⟩ := x
    simp [srising] at h ⊢
    exact h.2

theorem srising_filter_some {α : Type} (p : Nat × α → Bool) (m : Sparse α) :
    ∀ b, srising (some b) m = true → srising (some b) (m.filter p) = true := by
  induction m with
  | nil => intro b h; rfl
  | cons x m ih =>
    obtain ⟨k, v⟩ := x
    intro b h
    simp [srising] at h
    rw [List.filter_cons]
    split
    · simp [srising, h.1, ih k h.2]
    · exact srising_weaken _ b k (by omega) (ih k h.2)

theorem srising_filter {α : Type} (p : Nat × α → Bool) (m : Sparse α) (h : srising none m = true) :
    srising none (m.filter p) = true := by
  cases m with
  | nil => rfl
  | cons x m =>
    obtain ⟨k, v⟩ := x
    simp [srising] at h
    rw [List.filter_cons]
    split
    · simp [srising, srising_filter_some p m k h]
    · exact srising_none _ k (srising_filter_some p m k h)

theorem srising_sins_some {α : Type} (k : Nat) (v : α) (m : Sparse α) (hk : ∀ e ∈ m, e.1 ≠ k) :
    ∀ b, b < k → srising (some b) m = true → srising (some b) (sins k v m) = true := by
  induction m with
  | nil => intro b hb _; simp [sins, srising, hb]
  | cons x m ih =>
    obtain ⟨j, w⟩ := x
    intro b hb h
    simp [srising] at h
    have hj : j ≠ k := hk (j, w) (by simp)
    unfold sins
    split
    · rename_i hlt
      simp [srising, hb, hlt, h.2]
    · simp [srising, h.1]
      exact ih (fun e he => hk e (by simp [he])) j (by omega) h.2

theorem srising_sins {α : Type} (k : Nat) (v : α) (m : Sparse α) (hk : ∀ e ∈ m, e.1 ≠ k) (h : srising none m = true) :
    srising none (sins k v m) = true := by
  cases m with
  | nil => rfl
  | cons x m =>
    obtain ⟨j, w⟩ := x
    simp [srising] at h
    have hj : j ≠ k := hk (j, w) (by simp)
    unfold sins
    split
    · rename_i hlt
      simp [srising, hlt, h]
    · simp only [srising]
      exact srising_sins_some k v m (fun e he => hk e (by simp [he])) j (by omega) h

theorem all_sins {α : Type} (p : Nat × α → Bool) (k : Nat) (v : α) (m : Sparse α) (hv : p (k, v) = true)
    (h : m.all p = true) : (sins k v m).all p = true := by
  induction m with
  | nil => simp [sins, hv]
  | cons x m ih =>
    obtain ⟨j, w⟩ := x
    simp only [List.all_cons, Bool.and_eq_true] at h
    unfold sins
    split
    · simp only [List.all_cons, Bool.and_eq_true]; exact ⟨hv, h.1, h.2⟩
    · simp only [List.all_cons, Bool.and_eq_true]; exact ⟨h.1, ih h.2⟩

theorem all_filter {α : Type} (p q : Nat × α → Bool) (m : Sparse α) (h : m.all p = true) : (m.filter q).all p = true := by
  rw [List.all_eq_true] at h ⊢
  intro e he
  exact h e (List.mem_filter.mp he).1

@[simp] theorem swf_nil {α : Type} [DecidableEq α] (d : α) : swf d ([] : Sparse α) = true := rfl

theorem swf_sdel {α : Type} [DecidableEq α] (d : α) (m : Sparse α) (k : Nat) (h : swf d m = true) :
    swf d (sdel m k) = true := by
  simp only [swf, Bool.and_eq_true] at h ⊢
  exact ⟨srising_filter _ m h.1, all_filter _ _ m h.2⟩

/-- A store keeps the canonical form. -/
theorem swf_sput {α : Type} [DecidableEq α] (d v : α) (m : Sparse α) (k : Nat) (h : swf d m = true) :
    swf d (sput d m k v) = true := by
  unfold sput
  split
  · exact swf_sdel d m k h
  · rename_i hv
    have h' := swf_sdel d m k h
    simp only [swf, Bool.and_eq_true] at h' ⊢
    exact ⟨srising_sins k v _ (mem_sdel_ne m k) h'.1, all_sins _ k v _ (by simpa using hv) h'.2⟩

theorem swf_supd {α : Type} [DecidableEq α] (d : α) (m : Sparse α) (k : Nat) (f : α → α) (h : swf d m = true) :
    swf d (supd d m k f) = true := swf_sput d _ m k h

theorem swf_sputs {α : Type} [DecidableEq α] (d : α) (vs : List α) : ∀ (m : Sparse α) (k : Nat),
    swf d m = true → swf d (sputs d m k vs) = true := by
  induction vs with
  | nil => intro m k h; exact h
  | cons v vs ih => intro m k h; exact ih _ _ (swf_sput d v m k h)

end Sys2Proof.Machine
end

