-- ==== Sys2Proof/Laws/State.lean ====
section
/-!
SUPPORT. What each update of the state leaves of each field: one lemma per field and update, true by unfolding the
update once, so that no proof unfolds a record update.
-/
namespace Sys2Proof.Machine

/-! ## setReg -/

@[simp] theorem setReg_dict (k v : Nat) (s : State) : (setReg k v s).dict = { s.dict with regs := sput (dfltOf k) s.dict.regs k v } := rfl
@[simp] theorem setReg_life (k v : Nat) (s : State) : (setReg k v s).life = s.life := rfl
@[simp] theorem setReg_power (k v : Nat) (s : State) : (setReg k v s).power = s.power := rfl
@[simp] theorem setReg_lantern (k v : Nat) (s : State) : (setReg k v s).lantern = s.lantern := rfl
@[simp] theorem setReg_mem (k v : Nat) (s : State) : (setReg k v s).mem = s.mem := rfl
@[simp] theorem setReg_pegs (k v : Nat) (s : State) : (setReg k v s).pegs = s.pegs := rfl
@[simp] theorem setReg_ridge (k v : Nat) (s : State) : (setReg k v s).ridge = s.ridge := rfl
@[simp] theorem setReg_fabric (k v : Nat) (s : State) : (setReg k v s).fabric = s.fabric := rfl
@[simp] theorem setReg_host (k v : Nat) (s : State) : (setReg k v s).host = s.host := rfl
@[simp] theorem setReg_loadState (k v : Nat) (s : State) : (setReg k v s).loadState = s.loadState := rfl
@[simp] theorem setReg_plan (k v : Nat) (s : State) : (setReg k v s).plan = s.plan := rfl
@[simp] theorem setReg_sets (k v : Nat) (s : State) : (setReg k v s).sets = s.sets := rfl
@[simp] theorem setReg_tensors (k v : Nat) (s : State) : (setReg k v s).tensors = s.tensors := rfl
@[simp] theorem setReg_programs (k v : Nat) (s : State) : (setReg k v s).programs = s.programs := rfl
@[simp] theorem setReg_step (k v : Nat) (s : State) : (setReg k v s).step = s.step := rfl
@[simp] theorem setReg_holds (k v : Nat) (s : State) : (setReg k v s).holds = s.holds := rfl
@[simp] theorem setReg_place (k v : Nat) (s : State) : (setReg k v s).place = s.place := rfl
@[simp] theorem setReg_rowOps (k v : Nat) (s : State) : (setReg k v s).rowOps = s.rowOps := rfl
@[simp] theorem setReg_twin (k v : Nat) (s : State) : (setReg k v s).twin = s.twin := rfl
@[simp] theorem setReg_gen (k v : Nat) (s : State) : (setReg k v s).gen = s.gen := rfl
@[simp] theorem setReg_rowEng (k v : Nat) (s : State) : (setReg k v s).rowEng = s.rowEng := rfl
@[simp] theorem setReg_watch (k v : Nat) (s : State) : (setReg k v s).watch = s.watch := rfl
@[simp] theorem setReg_outbox (k v : Nat) (s : State) : (setReg k v s).outbox = s.outbox := rfl
@[simp] theorem setReg_free (k v : Nat) (s : State) : (setReg k v s).free = s.free := rfl
@[simp] theorem setReg_pending (k v : Nat) (s : State) : (setReg k v s).pending = s.pending := rfl

/-! ## countN -/

@[simp] theorem countN_life (k n : Nat) (s : State) : (countN k n s).life = s.life := rfl
@[simp] theorem countN_power (k n : Nat) (s : State) : (countN k n s).power = s.power := rfl
@[simp] theorem countN_lantern (k n : Nat) (s : State) : (countN k n s).lantern = s.lantern := rfl
@[simp] theorem countN_mem (k n : Nat) (s : State) : (countN k n s).mem = s.mem := rfl
@[simp] theorem countN_pegs (k n : Nat) (s : State) : (countN k n s).pegs = s.pegs := rfl
@[simp] theorem countN_ridge (k n : Nat) (s : State) : (countN k n s).ridge = s.ridge := rfl
@[simp] theorem countN_fabric (k n : Nat) (s : State) : (countN k n s).fabric = s.fabric := rfl
@[simp] theorem countN_host (k n : Nat) (s : State) : (countN k n s).host = s.host := rfl
@[simp] theorem countN_loadState (k n : Nat) (s : State) : (countN k n s).loadState = s.loadState := rfl
@[simp] theorem countN_plan (k n : Nat) (s : State) : (countN k n s).plan = s.plan := rfl
@[simp] theorem countN_sets (k n : Nat) (s : State) : (countN k n s).sets = s.sets := rfl
@[simp] theorem countN_tensors (k n : Nat) (s : State) : (countN k n s).tensors = s.tensors := rfl
@[simp] theorem countN_programs (k n : Nat) (s : State) : (countN k n s).programs = s.programs := rfl
@[simp] theorem countN_step (k n : Nat) (s : State) : (countN k n s).step = s.step := rfl
@[simp] theorem countN_holds (k n : Nat) (s : State) : (countN k n s).holds = s.holds := rfl
@[simp] theorem countN_place (k n : Nat) (s : State) : (countN k n s).place = s.place := rfl
@[simp] theorem countN_rowOps (k n : Nat) (s : State) : (countN k n s).rowOps = s.rowOps := rfl
@[simp] theorem countN_twin (k n : Nat) (s : State) : (countN k n s).twin = s.twin := rfl
@[simp] theorem countN_gen (k n : Nat) (s : State) : (countN k n s).gen = s.gen := rfl
@[simp] theorem countN_rowEng (k n : Nat) (s : State) : (countN k n s).rowEng = s.rowEng := rfl
@[simp] theorem countN_watch (k n : Nat) (s : State) : (countN k n s).watch = s.watch := rfl
@[simp] theorem countN_outbox (k n : Nat) (s : State) : (countN k n s).outbox = s.outbox := rfl
@[simp] theorem countN_free (k n : Nat) (s : State) : (countN k n s).free = s.free := rfl
@[simp] theorem countN_pending (k n : Nat) (s : State) : (countN k n s).pending = s.pending := rfl

/-! ## count -/

@[simp] theorem count_life (k : Nat) (s : State) : (count k s).life = s.life := rfl
@[simp] theorem count_power (k : Nat) (s : State) : (count k s).power = s.power := rfl
@[simp] theorem count_lantern (k : Nat) (s : State) : (count k s).lantern = s.lantern := rfl
@[simp] theorem count_mem (k : Nat) (s : State) : (count k s).mem = s.mem := rfl
@[simp] theorem count_pegs (k : Nat) (s : State) : (count k s).pegs = s.pegs := rfl
@[simp] theorem count_ridge (k : Nat) (s : State) : (count k s).ridge = s.ridge := rfl
@[simp] theorem count_fabric (k : Nat) (s : State) : (count k s).fabric = s.fabric := rfl
@[simp] theorem count_host (k : Nat) (s : State) : (count k s).host = s.host := rfl
@[simp] theorem count_loadState (k : Nat) (s : State) : (count k s).loadState = s.loadState := rfl
@[simp] theorem count_plan (k : Nat) (s : State) : (count k s).plan = s.plan := rfl
@[simp] theorem count_sets (k : Nat) (s : State) : (count k s).sets = s.sets := rfl
@[simp] theorem count_tensors (k : Nat) (s : State) : (count k s).tensors = s.tensors := rfl
@[simp] theorem count_programs (k : Nat) (s : State) : (count k s).programs = s.programs := rfl
@[simp] theorem count_step (k : Nat) (s : State) : (count k s).step = s.step := rfl
@[simp] theorem count_holds (k : Nat) (s : State) : (count k s).holds = s.holds := rfl
@[simp] theorem count_place (k : Nat) (s : State) : (count k s).place = s.place := rfl
@[simp] theorem count_rowOps (k : Nat) (s : State) : (count k s).rowOps = s.rowOps := rfl
@[simp] theorem count_twin (k : Nat) (s : State) : (count k s).twin = s.twin := rfl
@[simp] theorem count_gen (k : Nat) (s : State) : (count k s).gen = s.gen := rfl
@[simp] theorem count_rowEng (k : Nat) (s : State) : (count k s).rowEng = s.rowEng := rfl
@[simp] theorem count_watch (k : Nat) (s : State) : (count k s).watch = s.watch := rfl
@[simp] theorem count_outbox (k : Nat) (s : State) : (count k s).outbox = s.outbox := rfl
@[simp] theorem count_free (k : Nat) (s : State) : (count k s).free = s.free := rfl
@[simp] theorem count_pending (k : Nat) (s : State) : (count k s).pending = s.pending := rfl

/-! ## capture -/

@[simp] theorem capture_life (p : Entry → Bool) (s : State) : (capture p s).life = s.life := rfl
@[simp] theorem capture_power (p : Entry → Bool) (s : State) : (capture p s).power = s.power := rfl
@[simp] theorem capture_lantern (p : Entry → Bool) (s : State) : (capture p s).lantern = s.lantern := rfl
@[simp] theorem capture_mem (p : Entry → Bool) (s : State) : (capture p s).mem = s.mem := rfl
@[simp] theorem capture_pegs (p : Entry → Bool) (s : State) : (capture p s).pegs = s.pegs := rfl
@[simp] theorem capture_ridge (p : Entry → Bool) (s : State) : (capture p s).ridge = s.ridge := rfl
@[simp] theorem capture_fabric (p : Entry → Bool) (s : State) : (capture p s).fabric = s.fabric := rfl
@[simp] theorem capture_host (p : Entry → Bool) (s : State) : (capture p s).host = s.host := rfl
@[simp] theorem capture_loadState (p : Entry → Bool) (s : State) : (capture p s).loadState = s.loadState := rfl
@[simp] theorem capture_plan (p : Entry → Bool) (s : State) : (capture p s).plan = s.plan := rfl
@[simp] theorem capture_sets (p : Entry → Bool) (s : State) : (capture p s).sets = s.sets := rfl
@[simp] theorem capture_tensors (p : Entry → Bool) (s : State) : (capture p s).tensors = s.tensors := rfl
@[simp] theorem capture_programs (p : Entry → Bool) (s : State) : (capture p s).programs = s.programs := rfl
@[simp] theorem capture_step (p : Entry → Bool) (s : State) : (capture p s).step = s.step := rfl
@[simp] theorem capture_holds (p : Entry → Bool) (s : State) : (capture p s).holds = s.holds := rfl
@[simp] theorem capture_place (p : Entry → Bool) (s : State) : (capture p s).place = s.place := rfl
@[simp] theorem capture_rowOps (p : Entry → Bool) (s : State) : (capture p s).rowOps = s.rowOps := rfl
@[simp] theorem capture_twin (p : Entry → Bool) (s : State) : (capture p s).twin = s.twin := rfl
@[simp] theorem capture_gen (p : Entry → Bool) (s : State) : (capture p s).gen = s.gen := rfl
@[simp] theorem capture_rowEng (p : Entry → Bool) (s : State) : (capture p s).rowEng = s.rowEng := rfl
@[simp] theorem capture_watch (p : Entry → Bool) (s : State) : (capture p s).watch = s.watch := rfl
@[simp] theorem capture_outbox (p : Entry → Bool) (s : State) : (capture p s).outbox = s.outbox := rfl
@[simp] theorem capture_free (p : Entry → Bool) (s : State) : (capture p s).free = s.free := rfl
@[simp] theorem capture_pending (p : Entry → Bool) (s : State) : (capture p s).pending = s.pending := rfl

/-! ## setModState -/

@[simp] theorem setModState_dict (m : ModState) (s : State) : (setModState m s).dict = s.dict := rfl
@[simp] theorem setModState_life (m : ModState) (s : State) : (setModState m s).life = { s.life with modState := m } := rfl
@[simp] theorem setModState_power (m : ModState) (s : State) : (setModState m s).power = s.power := rfl
@[simp] theorem setModState_lantern (m : ModState) (s : State) : (setModState m s).lantern = s.lantern := rfl
@[simp] theorem setModState_mem (m : ModState) (s : State) : (setModState m s).mem = s.mem := rfl
@[simp] theorem setModState_pegs (m : ModState) (s : State) : (setModState m s).pegs = s.pegs := rfl
@[simp] theorem setModState_ridge (m : ModState) (s : State) : (setModState m s).ridge = s.ridge := rfl
@[simp] theorem setModState_fabric (m : ModState) (s : State) : (setModState m s).fabric = s.fabric := rfl
@[simp] theorem setModState_host (m : ModState) (s : State) : (setModState m s).host = s.host := rfl
@[simp] theorem setModState_loadState (m : ModState) (s : State) : (setModState m s).loadState = s.loadState := rfl
@[simp] theorem setModState_plan (m : ModState) (s : State) : (setModState m s).plan = s.plan := rfl
@[simp] theorem setModState_sets (m : ModState) (s : State) : (setModState m s).sets = s.sets := rfl
@[simp] theorem setModState_tensors (m : ModState) (s : State) : (setModState m s).tensors = s.tensors := rfl
@[simp] theorem setModState_programs (m : ModState) (s : State) : (setModState m s).programs = s.programs := rfl
@[simp] theorem setModState_step (m : ModState) (s : State) : (setModState m s).step = s.step := rfl
@[simp] theorem setModState_holds (m : ModState) (s : State) : (setModState m s).holds = s.holds := rfl
@[simp] theorem setModState_place (m : ModState) (s : State) : (setModState m s).place = s.place := rfl
@[simp] theorem setModState_rowOps (m : ModState) (s : State) : (setModState m s).rowOps = s.rowOps := rfl
@[simp] theorem setModState_twin (m : ModState) (s : State) : (setModState m s).twin = s.twin := rfl
@[simp] theorem setModState_gen (m : ModState) (s : State) : (setModState m s).gen = s.gen := rfl
@[simp] theorem setModState_rowEng (m : ModState) (s : State) : (setModState m s).rowEng = s.rowEng := rfl
@[simp] theorem setModState_watch (m : ModState) (s : State) : (setModState m s).watch = s.watch := rfl
@[simp] theorem setModState_outbox (m : ModState) (s : State) : (setModState m s).outbox = s.outbox := rfl
@[simp] theorem setModState_free (m : ModState) (s : State) : (setModState m s).free = s.free := rfl
@[simp] theorem setModState_pending (m : ModState) (s : State) : (setModState m s).pending = s.pending := rfl

/-! ## emit -/

@[simp] theorem emit_dict (o : Out) (s : State) : (emit o s).dict = s.dict := rfl
@[simp] theorem emit_life (o : Out) (s : State) : (emit o s).life = s.life := rfl
@[simp] theorem emit_power (o : Out) (s : State) : (emit o s).power = s.power := rfl
@[simp] theorem emit_lantern (o : Out) (s : State) : (emit o s).lantern = s.lantern := rfl
@[simp] theorem emit_mem (o : Out) (s : State) : (emit o s).mem = s.mem := rfl
@[simp] theorem emit_pegs (o : Out) (s : State) : (emit o s).pegs = s.pegs := rfl
@[simp] theorem emit_ridge (o : Out) (s : State) : (emit o s).ridge = s.ridge := rfl
@[simp] theorem emit_fabric (o : Out) (s : State) : (emit o s).fabric = s.fabric := rfl
@[simp] theorem emit_host (o : Out) (s : State) : (emit o s).host = s.host := rfl
@[simp] theorem emit_loadState (o : Out) (s : State) : (emit o s).loadState = s.loadState := rfl
@[simp] theorem emit_plan (o : Out) (s : State) : (emit o s).plan = s.plan := rfl
@[simp] theorem emit_sets (o : Out) (s : State) : (emit o s).sets = s.sets := rfl
@[simp] theorem emit_tensors (o : Out) (s : State) : (emit o s).tensors = s.tensors := rfl
@[simp] theorem emit_programs (o : Out) (s : State) : (emit o s).programs = s.programs := rfl
@[simp] theorem emit_step (o : Out) (s : State) : (emit o s).step = s.step := rfl
@[simp] theorem emit_holds (o : Out) (s : State) : (emit o s).holds = s.holds := rfl
@[simp] theorem emit_place (o : Out) (s : State) : (emit o s).place = s.place := rfl
@[simp] theorem emit_rowOps (o : Out) (s : State) : (emit o s).rowOps = s.rowOps := rfl
@[simp] theorem emit_twin (o : Out) (s : State) : (emit o s).twin = s.twin := rfl
@[simp] theorem emit_gen (o : Out) (s : State) : (emit o s).gen = s.gen := rfl
@[simp] theorem emit_rowEng (o : Out) (s : State) : (emit o s).rowEng = s.rowEng := rfl
@[simp] theorem emit_watch (o : Out) (s : State) : (emit o s).watch = s.watch := rfl
@[simp] theorem emit_outbox (o : Out) (s : State) : (emit o s).outbox = s.outbox ++ [o] := rfl
@[simp] theorem emit_free (o : Out) (s : State) : (emit o s).free = s.free := rfl
@[simp] theorem emit_pending (o : Out) (s : State) : (emit o s).pending = s.pending := rfl

/-! ## setLantern -/

@[simp] theorem setLantern_dict (l : Lantern) (s : State) : (setLantern l s).dict = s.dict := rfl
@[simp] theorem setLantern_life (l : Lantern) (s : State) : (setLantern l s).life = s.life := rfl
@[simp] theorem setLantern_power (l : Lantern) (s : State) : (setLantern l s).power = s.power := rfl
@[simp] theorem setLantern_lantern (l : Lantern) (s : State) : (setLantern l s).lantern = l := rfl
@[simp] theorem setLantern_mem (l : Lantern) (s : State) : (setLantern l s).mem = s.mem := rfl
@[simp] theorem setLantern_pegs (l : Lantern) (s : State) : (setLantern l s).pegs = s.pegs := rfl
@[simp] theorem setLantern_ridge (l : Lantern) (s : State) : (setLantern l s).ridge = s.ridge := rfl
@[simp] theorem setLantern_fabric (l : Lantern) (s : State) : (setLantern l s).fabric = s.fabric := rfl
@[simp] theorem setLantern_host (l : Lantern) (s : State) : (setLantern l s).host = s.host := rfl
@[simp] theorem setLantern_loadState (l : Lantern) (s : State) : (setLantern l s).loadState = s.loadState := rfl
@[simp] theorem setLantern_plan (l : Lantern) (s : State) : (setLantern l s).plan = s.plan := rfl
@[simp] theorem setLantern_sets (l : Lantern) (s : State) : (setLantern l s).sets = s.sets := rfl
@[simp] theorem setLantern_tensors (l : Lantern) (s : State) : (setLantern l s).tensors = s.tensors := rfl
@[simp] theorem setLantern_programs (l : Lantern) (s : State) : (setLantern l s).programs = s.programs := rfl
@[simp] theorem setLantern_step (l : Lantern) (s : State) : (setLantern l s).step = s.step := rfl
@[simp] theorem setLantern_holds (l : Lantern) (s : State) : (setLantern l s).holds = s.holds := rfl
@[simp] theorem setLantern_place (l : Lantern) (s : State) : (setLantern l s).place = s.place := rfl
@[simp] theorem setLantern_rowOps (l : Lantern) (s : State) : (setLantern l s).rowOps = s.rowOps := rfl
@[simp] theorem setLantern_twin (l : Lantern) (s : State) : (setLantern l s).twin = s.twin := rfl
@[simp] theorem setLantern_gen (l : Lantern) (s : State) : (setLantern l s).gen = s.gen := rfl
@[simp] theorem setLantern_rowEng (l : Lantern) (s : State) : (setLantern l s).rowEng = s.rowEng := rfl
@[simp] theorem setLantern_watch (l : Lantern) (s : State) : (setLantern l s).watch = s.watch := rfl
@[simp] theorem setLantern_outbox (l : Lantern) (s : State) : (setLantern l s).outbox = s.outbox := rfl
@[simp] theorem setLantern_free (l : Lantern) (s : State) : (setLantern l s).free = s.free := rfl
@[simp] theorem setLantern_pending (l : Lantern) (s : State) : (setLantern l s).pending = s.pending := rfl

/-! ## setEvents -/

@[simp] theorem setEvents_dict (e : EventLog) (s : State) : (setEvents e s).dict = s.dict := rfl
@[simp] theorem setEvents_life (e : EventLog) (s : State) : (setEvents e s).life = s.life := rfl
@[simp] theorem setEvents_power (e : EventLog) (s : State) : (setEvents e s).power = s.power := rfl
@[simp] theorem setEvents_lantern (e : EventLog) (s : State) : (setEvents e s).lantern = { s.lantern with events := e } := rfl
@[simp] theorem setEvents_mem (e : EventLog) (s : State) : (setEvents e s).mem = s.mem := rfl
@[simp] theorem setEvents_pegs (e : EventLog) (s : State) : (setEvents e s).pegs = s.pegs := rfl
@[simp] theorem setEvents_ridge (e : EventLog) (s : State) : (setEvents e s).ridge = s.ridge := rfl
@[simp] theorem setEvents_fabric (e : EventLog) (s : State) : (setEvents e s).fabric = s.fabric := rfl
@[simp] theorem setEvents_host (e : EventLog) (s : State) : (setEvents e s).host = s.host := rfl
@[simp] theorem setEvents_loadState (e : EventLog) (s : State) : (setEvents e s).loadState = s.loadState := rfl
@[simp] theorem setEvents_plan (e : EventLog) (s : State) : (setEvents e s).plan = s.plan := rfl
@[simp] theorem setEvents_sets (e : EventLog) (s : State) : (setEvents e s).sets = s.sets := rfl
@[simp] theorem setEvents_tensors (e : EventLog) (s : State) : (setEvents e s).tensors = s.tensors := rfl
@[simp] theorem setEvents_programs (e : EventLog) (s : State) : (setEvents e s).programs = s.programs := rfl
@[simp] theorem setEvents_step (e : EventLog) (s : State) : (setEvents e s).step = s.step := rfl
@[simp] theorem setEvents_holds (e : EventLog) (s : State) : (setEvents e s).holds = s.holds := rfl
@[simp] theorem setEvents_place (e : EventLog) (s : State) : (setEvents e s).place = s.place := rfl
@[simp] theorem setEvents_rowOps (e : EventLog) (s : State) : (setEvents e s).rowOps = s.rowOps := rfl
@[simp] theorem setEvents_twin (e : EventLog) (s : State) : (setEvents e s).twin = s.twin := rfl
@[simp] theorem setEvents_gen (e : EventLog) (s : State) : (setEvents e s).gen = s.gen := rfl
@[simp] theorem setEvents_rowEng (e : EventLog) (s : State) : (setEvents e s).rowEng = s.rowEng := rfl
@[simp] theorem setEvents_watch (e : EventLog) (s : State) : (setEvents e s).watch = s.watch := rfl
@[simp] theorem setEvents_outbox (e : EventLog) (s : State) : (setEvents e s).outbox = s.outbox := rfl
@[simp] theorem setEvents_free (e : EventLog) (s : State) : (setEvents e s).free = s.free := rfl
@[simp] theorem setEvents_pending (e : EventLog) (s : State) : (setEvents e s).pending = s.pending := rfl

/-! ## setMem -/

@[simp] theorem setMem_dict (m : Mem) (s : State) : (setMem m s).dict = s.dict := rfl
@[simp] theorem setMem_life (m : Mem) (s : State) : (setMem m s).life = s.life := rfl
@[simp] theorem setMem_power (m : Mem) (s : State) : (setMem m s).power = s.power := rfl
@[simp] theorem setMem_lantern (m : Mem) (s : State) : (setMem m s).lantern = s.lantern := rfl
@[simp] theorem setMem_mem (m : Mem) (s : State) : (setMem m s).mem = m := rfl
@[simp] theorem setMem_pegs (m : Mem) (s : State) : (setMem m s).pegs = s.pegs := rfl
@[simp] theorem setMem_ridge (m : Mem) (s : State) : (setMem m s).ridge = s.ridge := rfl
@[simp] theorem setMem_fabric (m : Mem) (s : State) : (setMem m s).fabric = s.fabric := rfl
@[simp] theorem setMem_host (m : Mem) (s : State) : (setMem m s).host = s.host := rfl
@[simp] theorem setMem_loadState (m : Mem) (s : State) : (setMem m s).loadState = s.loadState := rfl
@[simp] theorem setMem_plan (m : Mem) (s : State) : (setMem m s).plan = s.plan := rfl
@[simp] theorem setMem_sets (m : Mem) (s : State) : (setMem m s).sets = s.sets := rfl
@[simp] theorem setMem_tensors (m : Mem) (s : State) : (setMem m s).tensors = s.tensors := rfl
@[simp] theorem setMem_programs (m : Mem) (s : State) : (setMem m s).programs = s.programs := rfl
@[simp] theorem setMem_step (m : Mem) (s : State) : (setMem m s).step = s.step := rfl
@[simp] theorem setMem_holds (m : Mem) (s : State) : (setMem m s).holds = s.holds := rfl
@[simp] theorem setMem_place (m : Mem) (s : State) : (setMem m s).place = s.place := rfl
@[simp] theorem setMem_rowOps (m : Mem) (s : State) : (setMem m s).rowOps = s.rowOps := rfl
@[simp] theorem setMem_twin (m : Mem) (s : State) : (setMem m s).twin = s.twin := rfl
@[simp] theorem setMem_gen (m : Mem) (s : State) : (setMem m s).gen = s.gen := rfl
@[simp] theorem setMem_rowEng (m : Mem) (s : State) : (setMem m s).rowEng = s.rowEng := rfl
@[simp] theorem setMem_watch (m : Mem) (s : State) : (setMem m s).watch = s.watch := rfl
@[simp] theorem setMem_outbox (m : Mem) (s : State) : (setMem m s).outbox = s.outbox := rfl
@[simp] theorem setMem_free (m : Mem) (s : State) : (setMem m s).free = s.free := rfl
@[simp] theorem setMem_pending (m : Mem) (s : State) : (setMem m s).pending = s.pending := rfl

/-! ## setFabric -/

@[simp] theorem setFabric_dict (f : Fabric) (s : State) : (setFabric f s).dict = s.dict := rfl
@[simp] theorem setFabric_life (f : Fabric) (s : State) : (setFabric f s).life = s.life := rfl
@[simp] theorem setFabric_power (f : Fabric) (s : State) : (setFabric f s).power = s.power := rfl
@[simp] theorem setFabric_lantern (f : Fabric) (s : State) : (setFabric f s).lantern = s.lantern := rfl
@[simp] theorem setFabric_mem (f : Fabric) (s : State) : (setFabric f s).mem = s.mem := rfl
@[simp] theorem setFabric_pegs (f : Fabric) (s : State) : (setFabric f s).pegs = s.pegs := rfl
@[simp] theorem setFabric_ridge (f : Fabric) (s : State) : (setFabric f s).ridge = s.ridge := rfl
@[simp] theorem setFabric_fabric (f : Fabric) (s : State) : (setFabric f s).fabric = f := rfl
@[simp] theorem setFabric_host (f : Fabric) (s : State) : (setFabric f s).host = s.host := rfl
@[simp] theorem setFabric_loadState (f : Fabric) (s : State) : (setFabric f s).loadState = s.loadState := rfl
@[simp] theorem setFabric_plan (f : Fabric) (s : State) : (setFabric f s).plan = s.plan := rfl
@[simp] theorem setFabric_sets (f : Fabric) (s : State) : (setFabric f s).sets = s.sets := rfl
@[simp] theorem setFabric_tensors (f : Fabric) (s : State) : (setFabric f s).tensors = s.tensors := rfl
@[simp] theorem setFabric_programs (f : Fabric) (s : State) : (setFabric f s).programs = s.programs := rfl
@[simp] theorem setFabric_step (f : Fabric) (s : State) : (setFabric f s).step = s.step := rfl
@[simp] theorem setFabric_holds (f : Fabric) (s : State) : (setFabric f s).holds = s.holds := rfl
@[simp] theorem setFabric_place (f : Fabric) (s : State) : (setFabric f s).place = s.place := rfl
@[simp] theorem setFabric_rowOps (f : Fabric) (s : State) : (setFabric f s).rowOps = s.rowOps := rfl
@[simp] theorem setFabric_twin (f : Fabric) (s : State) : (setFabric f s).twin = s.twin := rfl
@[simp] theorem setFabric_gen (f : Fabric) (s : State) : (setFabric f s).gen = s.gen := rfl
@[simp] theorem setFabric_rowEng (f : Fabric) (s : State) : (setFabric f s).rowEng = s.rowEng := rfl
@[simp] theorem setFabric_watch (f : Fabric) (s : State) : (setFabric f s).watch = s.watch := rfl
@[simp] theorem setFabric_outbox (f : Fabric) (s : State) : (setFabric f s).outbox = s.outbox := rfl
@[simp] theorem setFabric_free (f : Fabric) (s : State) : (setFabric f s).free = s.free := rfl
@[simp] theorem setFabric_pending (f : Fabric) (s : State) : (setFabric f s).pending = s.pending := rfl

/-! ## setPort -/

@[simp] theorem setPort_dict (i : Nat) (p : Port) (s : State) : (setPort i p s).dict = s.dict := rfl
@[simp] theorem setPort_life (i : Nat) (p : Port) (s : State) : (setPort i p s).life = s.life := rfl
@[simp] theorem setPort_power (i : Nat) (p : Port) (s : State) : (setPort i p s).power = s.power := rfl
@[simp] theorem setPort_lantern (i : Nat) (p : Port) (s : State) : (setPort i p s).lantern = s.lantern := rfl
@[simp] theorem setPort_mem (i : Nat) (p : Port) (s : State) : (setPort i p s).mem = s.mem := rfl
@[simp] theorem setPort_pegs (i : Nat) (p : Port) (s : State) : (setPort i p s).pegs = s.pegs := rfl
@[simp] theorem setPort_ridge (i : Nat) (p : Port) (s : State) : (setPort i p s).ridge = s.ridge := rfl
@[simp] theorem setPort_host (i : Nat) (p : Port) (s : State) : (setPort i p s).host = s.host := rfl
@[simp] theorem setPort_loadState (i : Nat) (p : Port) (s : State) : (setPort i p s).loadState = s.loadState := rfl
@[simp] theorem setPort_plan (i : Nat) (p : Port) (s : State) : (setPort i p s).plan = s.plan := rfl
@[simp] theorem setPort_sets (i : Nat) (p : Port) (s : State) : (setPort i p s).sets = s.sets := rfl
@[simp] theorem setPort_tensors (i : Nat) (p : Port) (s : State) : (setPort i p s).tensors = s.tensors := rfl
@[simp] theorem setPort_programs (i : Nat) (p : Port) (s : State) : (setPort i p s).programs = s.programs := rfl
@[simp] theorem setPort_step (i : Nat) (p : Port) (s : State) : (setPort i p s).step = s.step := rfl
@[simp] theorem setPort_holds (i : Nat) (p : Port) (s : State) : (setPort i p s).holds = s.holds := rfl
@[simp] theorem setPort_place (i : Nat) (p : Port) (s : State) : (setPort i p s).place = s.place := rfl
@[simp] theorem setPort_rowOps (i : Nat) (p : Port) (s : State) : (setPort i p s).rowOps = s.rowOps := rfl
@[simp] theorem setPort_twin (i : Nat) (p : Port) (s : State) : (setPort i p s).twin = s.twin := rfl
@[simp] theorem setPort_gen (i : Nat) (p : Port) (s : State) : (setPort i p s).gen = s.gen := rfl
@[simp] theorem setPort_rowEng (i : Nat) (p : Port) (s : State) : (setPort i p s).rowEng = s.rowEng := rfl
@[simp] theorem setPort_watch (i : Nat) (p : Port) (s : State) : (setPort i p s).watch = s.watch := rfl
@[simp] theorem setPort_outbox (i : Nat) (p : Port) (s : State) : (setPort i p s).outbox = s.outbox := rfl
@[simp] theorem setPort_free (i : Nat) (p : Port) (s : State) : (setPort i p s).free = s.free := rfl
@[simp] theorem setPort_pending (i : Nat) (p : Port) (s : State) : (setPort i p s).pending = s.pending := rfl

/-! ## setTwin -/

@[simp] theorem setTwin_dict (t : Twin) (s : State) : (setTwin t s).dict = s.dict := rfl
@[simp] theorem setTwin_life (t : Twin) (s : State) : (setTwin t s).life = s.life := rfl
@[simp] theorem setTwin_power (t : Twin) (s : State) : (setTwin t s).power = s.power := rfl
@[simp] theorem setTwin_lantern (t : Twin) (s : State) : (setTwin t s).lantern = s.lantern := rfl
@[simp] theorem setTwin_mem (t : Twin) (s : State) : (setTwin t s).mem = s.mem := rfl
@[simp] theorem setTwin_pegs (t : Twin) (s : State) : (setTwin t s).pegs = s.pegs := rfl
@[simp] theorem setTwin_ridge (t : Twin) (s : State) : (setTwin t s).ridge = s.ridge := rfl
@[simp] theorem setTwin_fabric (t : Twin) (s : State) : (setTwin t s).fabric = s.fabric := rfl
@[simp] theorem setTwin_host (t : Twin) (s : State) : (setTwin t s).host = s.host := rfl
@[simp] theorem setTwin_loadState (t : Twin) (s : State) : (setTwin t s).loadState = s.loadState := rfl
@[simp] theorem setTwin_plan (t : Twin) (s : State) : (setTwin t s).plan = s.plan := rfl
@[simp] theorem setTwin_sets (t : Twin) (s : State) : (setTwin t s).sets = s.sets := rfl
@[simp] theorem setTwin_tensors (t : Twin) (s : State) : (setTwin t s).tensors = s.tensors := rfl
@[simp] theorem setTwin_programs (t : Twin) (s : State) : (setTwin t s).programs = s.programs := rfl
@[simp] theorem setTwin_step (t : Twin) (s : State) : (setTwin t s).step = s.step := rfl
@[simp] theorem setTwin_holds (t : Twin) (s : State) : (setTwin t s).holds = s.holds := rfl
@[simp] theorem setTwin_place (t : Twin) (s : State) : (setTwin t s).place = s.place := rfl
@[simp] theorem setTwin_rowOps (t : Twin) (s : State) : (setTwin t s).rowOps = s.rowOps := rfl
@[simp] theorem setTwin_twin (t : Twin) (s : State) : (setTwin t s).twin = t := rfl
@[simp] theorem setTwin_gen (t : Twin) (s : State) : (setTwin t s).gen = s.gen := rfl
@[simp] theorem setTwin_rowEng (t : Twin) (s : State) : (setTwin t s).rowEng = s.rowEng := rfl
@[simp] theorem setTwin_watch (t : Twin) (s : State) : (setTwin t s).watch = s.watch := rfl
@[simp] theorem setTwin_outbox (t : Twin) (s : State) : (setTwin t s).outbox = s.outbox := rfl
@[simp] theorem setTwin_free (t : Twin) (s : State) : (setTwin t s).free = s.free := rfl
@[simp] theorem setTwin_pending (t : Twin) (s : State) : (setTwin t s).pending = s.pending := rfl

/-! ## setHostIf -/

@[simp] theorem setHostIf_dict (h : HostIf) (s : State) : (setHostIf h s).dict = s.dict := rfl
@[simp] theorem setHostIf_life (h : HostIf) (s : State) : (setHostIf h s).life = s.life := rfl
@[simp] theorem setHostIf_power (h : HostIf) (s : State) : (setHostIf h s).power = s.power := rfl
@[simp] theorem setHostIf_lantern (h : HostIf) (s : State) : (setHostIf h s).lantern = s.lantern := rfl
@[simp] theorem setHostIf_mem (h : HostIf) (s : State) : (setHostIf h s).mem = s.mem := rfl
@[simp] theorem setHostIf_pegs (h : HostIf) (s : State) : (setHostIf h s).pegs = s.pegs := rfl
@[simp] theorem setHostIf_ridge (h : HostIf) (s : State) : (setHostIf h s).ridge = s.ridge := rfl
@[simp] theorem setHostIf_fabric (h : HostIf) (s : State) : (setHostIf h s).fabric = s.fabric := rfl
@[simp] theorem setHostIf_host (h : HostIf) (s : State) : (setHostIf h s).host = h := rfl
@[simp] theorem setHostIf_loadState (h : HostIf) (s : State) : (setHostIf h s).loadState = s.loadState := rfl
@[simp] theorem setHostIf_plan (h : HostIf) (s : State) : (setHostIf h s).plan = s.plan := rfl
@[simp] theorem setHostIf_sets (h : HostIf) (s : State) : (setHostIf h s).sets = s.sets := rfl
@[simp] theorem setHostIf_tensors (h : HostIf) (s : State) : (setHostIf h s).tensors = s.tensors := rfl
@[simp] theorem setHostIf_programs (h : HostIf) (s : State) : (setHostIf h s).programs = s.programs := rfl
@[simp] theorem setHostIf_step (h : HostIf) (s : State) : (setHostIf h s).step = s.step := rfl
@[simp] theorem setHostIf_holds (h : HostIf) (s : State) : (setHostIf h s).holds = s.holds := rfl
@[simp] theorem setHostIf_place (h : HostIf) (s : State) : (setHostIf h s).place = s.place := rfl
@[simp] theorem setHostIf_rowOps (h : HostIf) (s : State) : (setHostIf h s).rowOps = s.rowOps := rfl
@[simp] theorem setHostIf_twin (h : HostIf) (s : State) : (setHostIf h s).twin = s.twin := rfl
@[simp] theorem setHostIf_gen (h : HostIf) (s : State) : (setHostIf h s).gen = s.gen := rfl
@[simp] theorem setHostIf_rowEng (h : HostIf) (s : State) : (setHostIf h s).rowEng = s.rowEng := rfl
@[simp] theorem setHostIf_watch (h : HostIf) (s : State) : (setHostIf h s).watch = s.watch := rfl
@[simp] theorem setHostIf_outbox (h : HostIf) (s : State) : (setHostIf h s).outbox = s.outbox := rfl
@[simp] theorem setHostIf_free (h : HostIf) (s : State) : (setHostIf h s).free = s.free := rfl
@[simp] theorem setHostIf_pending (h : HostIf) (s : State) : (setHostIf h s).pending = s.pending := rfl

/-! ## setQueue -/

@[simp] theorem setQueue_dict (q : Nat) (v : Queue) (s : State) : (setQueue q v s).dict = s.dict := rfl
@[simp] theorem setQueue_life (q : Nat) (v : Queue) (s : State) : (setQueue q v s).life = s.life := rfl
@[simp] theorem setQueue_power (q : Nat) (v : Queue) (s : State) : (setQueue q v s).power = s.power := rfl
@[simp] theorem setQueue_lantern (q : Nat) (v : Queue) (s : State) : (setQueue q v s).lantern = s.lantern := rfl
@[simp] theorem setQueue_mem (q : Nat) (v : Queue) (s : State) : (setQueue q v s).mem = s.mem := rfl
@[simp] theorem setQueue_pegs (q : Nat) (v : Queue) (s : State) : (setQueue q v s).pegs = s.pegs := rfl
@[simp] theorem setQueue_ridge (q : Nat) (v : Queue) (s : State) : (setQueue q v s).ridge = s.ridge := rfl
@[simp] theorem setQueue_fabric (q : Nat) (v : Queue) (s : State) : (setQueue q v s).fabric = s.fabric := rfl
@[simp] theorem setQueue_loadState (q : Nat) (v : Queue) (s : State) : (setQueue q v s).loadState = s.loadState := rfl
@[simp] theorem setQueue_plan (q : Nat) (v : Queue) (s : State) : (setQueue q v s).plan = s.plan := rfl
@[simp] theorem setQueue_sets (q : Nat) (v : Queue) (s : State) : (setQueue q v s).sets = s.sets := rfl
@[simp] theorem setQueue_tensors (q : Nat) (v : Queue) (s : State) : (setQueue q v s).tensors = s.tensors := rfl
@[simp] theorem setQueue_programs (q : Nat) (v : Queue) (s : State) : (setQueue q v s).programs = s.programs := rfl
@[simp] theorem setQueue_step (q : Nat) (v : Queue) (s : State) : (setQueue q v s).step = s.step := rfl
@[simp] theorem setQueue_holds (q : Nat) (v : Queue) (s : State) : (setQueue q v s).holds = s.holds := rfl
@[simp] theorem setQueue_place (q : Nat) (v : Queue) (s : State) : (setQueue q v s).place = s.place := rfl
@[simp] theorem setQueue_rowOps (q : Nat) (v : Queue) (s : State) : (setQueue q v s).rowOps = s.rowOps := rfl
@[simp] theorem setQueue_twin (q : Nat) (v : Queue) (s : State) : (setQueue q v s).twin = s.twin := rfl
@[simp] theorem setQueue_gen (q : Nat) (v : Queue) (s : State) : (setQueue q v s).gen = s.gen := rfl
@[simp] theorem setQueue_rowEng (q : Nat) (v : Queue) (s : State) : (setQueue q v s).rowEng = s.rowEng := rfl
@[simp] theorem setQueue_watch (q : Nat) (v : Queue) (s : State) : (setQueue q v s).watch = s.watch := rfl
@[simp] theorem setQueue_outbox (q : Nat) (v : Queue) (s : State) : (setQueue q v s).outbox = s.outbox := rfl
@[simp] theorem setQueue_free (q : Nat) (v : Queue) (s : State) : (setQueue q v s).free = s.free := rfl
@[simp] theorem setQueue_pending (q : Nat) (v : Queue) (s : State) : (setQueue q v s).pending = s.pending := rfl

/-! ## setRing -/

@[simp] theorem setRing_dict (r : Nat) (g : Ring) (s : State) : (setRing r g s).dict = s.dict := rfl
@[simp] theorem setRing_life (r : Nat) (g : Ring) (s : State) : (setRing r g s).life = s.life := rfl
@[simp] theorem setRing_power (r : Nat) (g : Ring) (s : State) : (setRing r g s).power = s.power := rfl
@[simp] theorem setRing_lantern (r : Nat) (g : Ring) (s : State) : (setRing r g s).lantern = s.lantern := rfl
@[simp] theorem setRing_mem (r : Nat) (g : Ring) (s : State) : (setRing r g s).mem = s.mem := rfl
@[simp] theorem setRing_pegs (r : Nat) (g : Ring) (s : State) : (setRing r g s).pegs = s.pegs := rfl
@[simp] theorem setRing_ridge (r : Nat) (g : Ring) (s : State) : (setRing r g s).ridge = s.ridge := rfl
@[simp] theorem setRing_fabric (r : Nat) (g : Ring) (s : State) : (setRing r g s).fabric = s.fabric := rfl
@[simp] theorem setRing_loadState (r : Nat) (g : Ring) (s : State) : (setRing r g s).loadState = s.loadState := rfl
@[simp] theorem setRing_plan (r : Nat) (g : Ring) (s : State) : (setRing r g s).plan = s.plan := rfl
@[simp] theorem setRing_sets (r : Nat) (g : Ring) (s : State) : (setRing r g s).sets = s.sets := rfl
@[simp] theorem setRing_tensors (r : Nat) (g : Ring) (s : State) : (setRing r g s).tensors = s.tensors := rfl
@[simp] theorem setRing_programs (r : Nat) (g : Ring) (s : State) : (setRing r g s).programs = s.programs := rfl
@[simp] theorem setRing_step (r : Nat) (g : Ring) (s : State) : (setRing r g s).step = s.step := rfl
@[simp] theorem setRing_holds (r : Nat) (g : Ring) (s : State) : (setRing r g s).holds = s.holds := rfl
@[simp] theorem setRing_place (r : Nat) (g : Ring) (s : State) : (setRing r g s).place = s.place := rfl
@[simp] theorem setRing_rowOps (r : Nat) (g : Ring) (s : State) : (setRing r g s).rowOps = s.rowOps := rfl
@[simp] theorem setRing_twin (r : Nat) (g : Ring) (s : State) : (setRing r g s).twin = s.twin := rfl
@[simp] theorem setRing_gen (r : Nat) (g : Ring) (s : State) : (setRing r g s).gen = s.gen := rfl
@[simp] theorem setRing_rowEng (r : Nat) (g : Ring) (s : State) : (setRing r g s).rowEng = s.rowEng := rfl
@[simp] theorem setRing_watch (r : Nat) (g : Ring) (s : State) : (setRing r g s).watch = s.watch := rfl
@[simp] theorem setRing_outbox (r : Nat) (g : Ring) (s : State) : (setRing r g s).outbox = s.outbox := rfl
@[simp] theorem setRing_free (r : Nat) (g : Ring) (s : State) : (setRing r g s).free = s.free := rfl
@[simp] theorem setRing_pending (r : Nat) (g : Ring) (s : State) : (setRing r g s).pending = s.pending := rfl

/-! ## setPegValue -/

@[simp] theorem setPegValue_dict (die peg : Nat) (v : W64) (s : State) : (setPegValue die peg v s).dict = s.dict := rfl
@[simp] theorem setPegValue_life (die peg : Nat) (v : W64) (s : State) : (setPegValue die peg v s).life = s.life := rfl
@[simp] theorem setPegValue_power (die peg : Nat) (v : W64) (s : State) : (setPegValue die peg v s).power = s.power := rfl
@[simp] theorem setPegValue_lantern (die peg : Nat) (v : W64) (s : State) : (setPegValue die peg v s).lantern = s.lantern := rfl
@[simp] theorem setPegValue_mem (die peg : Nat) (v : W64) (s : State) : (setPegValue die peg v s).mem = s.mem := rfl
@[simp] theorem setPegValue_ridge (die peg : Nat) (v : W64) (s : State) : (setPegValue die peg v s).ridge = s.ridge := rfl
@[simp] theorem setPegValue_fabric (die peg : Nat) (v : W64) (s : State) : (setPegValue die peg v s).fabric = s.fabric := rfl
@[simp] theorem setPegValue_host (die peg : Nat) (v : W64) (s : State) : (setPegValue die peg v s).host = s.host := rfl
@[simp] theorem setPegValue_loadState (die peg : Nat) (v : W64) (s : State) : (setPegValue die peg v s).loadState = s.loadState := rfl
@[simp] theorem setPegValue_plan (die peg : Nat) (v : W64) (s : State) : (setPegValue die peg v s).plan = s.plan := rfl
@[simp] theorem setPegValue_sets (die peg : Nat) (v : W64) (s : State) : (setPegValue die peg v s).sets = s.sets := rfl
@[simp] theorem setPegValue_tensors (die peg : Nat) (v : W64) (s : State) : (setPegValue die peg v s).tensors = s.tensors := rfl
@[simp] theorem setPegValue_programs (die peg : Nat) (v : W64) (s : State) : (setPegValue die peg v s).programs = s.programs := rfl
@[simp] theorem setPegValue_step (die peg : Nat) (v : W64) (s : State) : (setPegValue die peg v s).step = s.step := rfl
@[simp] theorem setPegValue_holds (die peg : Nat) (v : W64) (s : State) : (setPegValue die peg v s).holds = s.holds := rfl
@[simp] theorem setPegValue_place (die peg : Nat) (v : W64) (s : State) : (setPegValue die peg v s).place = s.place := rfl
@[simp] theorem setPegValue_rowOps (die peg : Nat) (v : W64) (s : State) : (setPegValue die peg v s).rowOps = s.rowOps := rfl
@[simp] theorem setPegValue_twin (die peg : Nat) (v : W64) (s : State) : (setPegValue die peg v s).twin = s.twin := rfl
@[simp] theorem setPegValue_gen (die peg : Nat) (v : W64) (s : State) : (setPegValue die peg v s).gen = s.gen := rfl
@[simp] theorem setPegValue_rowEng (die peg : Nat) (v : W64) (s : State) : (setPegValue die peg v s).rowEng = s.rowEng := rfl
@[simp] theorem setPegValue_watch (die peg : Nat) (v : W64) (s : State) : (setPegValue die peg v s).watch = s.watch := rfl
@[simp] theorem setPegValue_outbox (die peg : Nat) (v : W64) (s : State) : (setPegValue die peg v s).outbox = s.outbox := rfl
@[simp] theorem setPegValue_free (die peg : Nat) (v : W64) (s : State) : (setPegValue die peg v s).free = s.free := rfl
@[simp] theorem setPegValue_pending (die peg : Nat) (v : W64) (s : State) : (setPegValue die peg v s).pending = s.pending := rfl

/-! ## setRidge -/

@[simp] theorem setRidge_dict (r : Ridge) (s : State) : (setRidge r s).dict = s.dict := rfl
@[simp] theorem setRidge_life (r : Ridge) (s : State) : (setRidge r s).life = s.life := rfl
@[simp] theorem setRidge_power (r : Ridge) (s : State) : (setRidge r s).power = s.power := rfl
@[simp] theorem setRidge_lantern (r : Ridge) (s : State) : (setRidge r s).lantern = s.lantern := rfl
@[simp] theorem setRidge_mem (r : Ridge) (s : State) : (setRidge r s).mem = s.mem := rfl
@[simp] theorem setRidge_pegs (r : Ridge) (s : State) : (setRidge r s).pegs = s.pegs := rfl
@[simp] theorem setRidge_ridge (r : Ridge) (s : State) : (setRidge r s).ridge = r := rfl
@[simp] theorem setRidge_fabric (r : Ridge) (s : State) : (setRidge r s).fabric = s.fabric := rfl
@[simp] theorem setRidge_host (r : Ridge) (s : State) : (setRidge r s).host = s.host := rfl
@[simp] theorem setRidge_loadState (r : Ridge) (s : State) : (setRidge r s).loadState = s.loadState := rfl
@[simp] theorem setRidge_plan (r : Ridge) (s : State) : (setRidge r s).plan = s.plan := rfl
@[simp] theorem setRidge_sets (r : Ridge) (s : State) : (setRidge r s).sets = s.sets := rfl
@[simp] theorem setRidge_tensors (r : Ridge) (s : State) : (setRidge r s).tensors = s.tensors := rfl
@[simp] theorem setRidge_programs (r : Ridge) (s : State) : (setRidge r s).programs = s.programs := rfl
@[simp] theorem setRidge_step (r : Ridge) (s : State) : (setRidge r s).step = s.step := rfl
@[simp] theorem setRidge_holds (r : Ridge) (s : State) : (setRidge r s).holds = s.holds := rfl
@[simp] theorem setRidge_place (r : Ridge) (s : State) : (setRidge r s).place = s.place := rfl
@[simp] theorem setRidge_rowOps (r : Ridge) (s : State) : (setRidge r s).rowOps = s.rowOps := rfl
@[simp] theorem setRidge_twin (r : Ridge) (s : State) : (setRidge r s).twin = s.twin := rfl
@[simp] theorem setRidge_gen (r : Ridge) (s : State) : (setRidge r s).gen = s.gen := rfl
@[simp] theorem setRidge_rowEng (r : Ridge) (s : State) : (setRidge r s).rowEng = s.rowEng := rfl
@[simp] theorem setRidge_watch (r : Ridge) (s : State) : (setRidge r s).watch = s.watch := rfl
@[simp] theorem setRidge_outbox (r : Ridge) (s : State) : (setRidge r s).outbox = s.outbox := rfl
@[simp] theorem setRidge_free (r : Ridge) (s : State) : (setRidge r s).free = s.free := rfl
@[simp] theorem setRidge_pending (r : Ridge) (s : State) : (setRidge r s).pending = s.pending := rfl

/-! ## setLife -/

@[simp] theorem setLife_dict (l : Life) (s : State) : (setLife l s).dict = s.dict := rfl
@[simp] theorem setLife_life (l : Life) (s : State) : (setLife l s).life = l := rfl
@[simp] theorem setLife_power (l : Life) (s : State) : (setLife l s).power = s.power := rfl
@[simp] theorem setLife_lantern (l : Life) (s : State) : (setLife l s).lantern = s.lantern := rfl
@[simp] theorem setLife_mem (l : Life) (s : State) : (setLife l s).mem = s.mem := rfl
@[simp] theorem setLife_pegs (l : Life) (s : State) : (setLife l s).pegs = s.pegs := rfl
@[simp] theorem setLife_ridge (l : Life) (s : State) : (setLife l s).ridge = s.ridge := rfl
@[simp] theorem setLife_fabric (l : Life) (s : State) : (setLife l s).fabric = s.fabric := rfl
@[simp] theorem setLife_host (l : Life) (s : State) : (setLife l s).host = s.host := rfl
@[simp] theorem setLife_loadState (l : Life) (s : State) : (setLife l s).loadState = s.loadState := rfl
@[simp] theorem setLife_plan (l : Life) (s : State) : (setLife l s).plan = s.plan := rfl
@[simp] theorem setLife_sets (l : Life) (s : State) : (setLife l s).sets = s.sets := rfl
@[simp] theorem setLife_tensors (l : Life) (s : State) : (setLife l s).tensors = s.tensors := rfl
@[simp] theorem setLife_programs (l : Life) (s : State) : (setLife l s).programs = s.programs := rfl
@[simp] theorem setLife_step (l : Life) (s : State) : (setLife l s).step = s.step := rfl
@[simp] theorem setLife_holds (l : Life) (s : State) : (setLife l s).holds = s.holds := rfl
@[simp] theorem setLife_place (l : Life) (s : State) : (setLife l s).place = s.place := rfl
@[simp] theorem setLife_rowOps (l : Life) (s : State) : (setLife l s).rowOps = s.rowOps := rfl
@[simp] theorem setLife_twin (l : Life) (s : State) : (setLife l s).twin = s.twin := rfl
@[simp] theorem setLife_gen (l : Life) (s : State) : (setLife l s).gen = s.gen := rfl
@[simp] theorem setLife_rowEng (l : Life) (s : State) : (setLife l s).rowEng = s.rowEng := rfl
@[simp] theorem setLife_watch (l : Life) (s : State) : (setLife l s).watch = s.watch := rfl
@[simp] theorem setLife_outbox (l : Life) (s : State) : (setLife l s).outbox = s.outbox := rfl
@[simp] theorem setLife_free (l : Life) (s : State) : (setLife l s).free = s.free := rfl
@[simp] theorem setLife_pending (l : Life) (s : State) : (setLife l s).pending = s.pending := rfl

/-! ## setPower -/

@[simp] theorem setPower_dict (p : Power) (s : State) : (setPower p s).dict = s.dict := rfl
@[simp] theorem setPower_life (p : Power) (s : State) : (setPower p s).life = s.life := rfl
@[simp] theorem setPower_power (p : Power) (s : State) : (setPower p s).power = p := rfl
@[simp] theorem setPower_lantern (p : Power) (s : State) : (setPower p s).lantern = s.lantern := rfl
@[simp] theorem setPower_mem (p : Power) (s : State) : (setPower p s).mem = s.mem := rfl
@[simp] theorem setPower_pegs (p : Power) (s : State) : (setPower p s).pegs = s.pegs := rfl
@[simp] theorem setPower_ridge (p : Power) (s : State) : (setPower p s).ridge = s.ridge := rfl
@[simp] theorem setPower_fabric (p : Power) (s : State) : (setPower p s).fabric = s.fabric := rfl
@[simp] theorem setPower_host (p : Power) (s : State) : (setPower p s).host = s.host := rfl
@[simp] theorem setPower_loadState (p : Power) (s : State) : (setPower p s).loadState = s.loadState := rfl
@[simp] theorem setPower_plan (p : Power) (s : State) : (setPower p s).plan = s.plan := rfl
@[simp] theorem setPower_sets (p : Power) (s : State) : (setPower p s).sets = s.sets := rfl
@[simp] theorem setPower_tensors (p : Power) (s : State) : (setPower p s).tensors = s.tensors := rfl
@[simp] theorem setPower_programs (p : Power) (s : State) : (setPower p s).programs = s.programs := rfl
@[simp] theorem setPower_step (p : Power) (s : State) : (setPower p s).step = s.step := rfl
@[simp] theorem setPower_holds (p : Power) (s : State) : (setPower p s).holds = s.holds := rfl
@[simp] theorem setPower_place (p : Power) (s : State) : (setPower p s).place = s.place := rfl
@[simp] theorem setPower_rowOps (p : Power) (s : State) : (setPower p s).rowOps = s.rowOps := rfl
@[simp] theorem setPower_twin (p : Power) (s : State) : (setPower p s).twin = s.twin := rfl
@[simp] theorem setPower_gen (p : Power) (s : State) : (setPower p s).gen = s.gen := rfl
@[simp] theorem setPower_rowEng (p : Power) (s : State) : (setPower p s).rowEng = s.rowEng := rfl
@[simp] theorem setPower_watch (p : Power) (s : State) : (setPower p s).watch = s.watch := rfl
@[simp] theorem setPower_outbox (p : Power) (s : State) : (setPower p s).outbox = s.outbox := rfl
@[simp] theorem setPower_free (p : Power) (s : State) : (setPower p s).free = s.free := rfl
@[simp] theorem setPower_pending (p : Power) (s : State) : (setPower p s).pending = s.pending := rfl

/-! ## setHolds -/

@[simp] theorem setHolds_dict (h : Holds) (s : State) : (setHolds h s).dict = s.dict := rfl
@[simp] theorem setHolds_life (h : Holds) (s : State) : (setHolds h s).life = s.life := rfl
@[simp] theorem setHolds_power (h : Holds) (s : State) : (setHolds h s).power = s.power := rfl
@[simp] theorem setHolds_lantern (h : Holds) (s : State) : (setHolds h s).lantern = s.lantern := rfl
@[simp] theorem setHolds_mem (h : Holds) (s : State) : (setHolds h s).mem = s.mem := rfl
@[simp] theorem setHolds_pegs (h : Holds) (s : State) : (setHolds h s).pegs = s.pegs := rfl
@[simp] theorem setHolds_ridge (h : Holds) (s : State) : (setHolds h s).ridge = s.ridge := rfl
@[simp] theorem setHolds_fabric (h : Holds) (s : State) : (setHolds h s).fabric = s.fabric := rfl
@[simp] theorem setHolds_host (h : Holds) (s : State) : (setHolds h s).host = s.host := rfl
@[simp] theorem setHolds_loadState (h : Holds) (s : State) : (setHolds h s).loadState = s.loadState := rfl
@[simp] theorem setHolds_plan (h : Holds) (s : State) : (setHolds h s).plan = s.plan := rfl
@[simp] theorem setHolds_sets (h : Holds) (s : State) : (setHolds h s).sets = s.sets := rfl
@[simp] theorem setHolds_tensors (h : Holds) (s : State) : (setHolds h s).tensors = s.tensors := rfl
@[simp] theorem setHolds_programs (h : Holds) (s : State) : (setHolds h s).programs = s.programs := rfl
@[simp] theorem setHolds_step (h : Holds) (s : State) : (setHolds h s).step = s.step := rfl
@[simp] theorem setHolds_holds (h : Holds) (s : State) : (setHolds h s).holds = h := rfl
@[simp] theorem setHolds_place (h : Holds) (s : State) : (setHolds h s).place = s.place := rfl
@[simp] theorem setHolds_rowOps (h : Holds) (s : State) : (setHolds h s).rowOps = s.rowOps := rfl
@[simp] theorem setHolds_twin (h : Holds) (s : State) : (setHolds h s).twin = s.twin := rfl
@[simp] theorem setHolds_gen (h : Holds) (s : State) : (setHolds h s).gen = s.gen := rfl
@[simp] theorem setHolds_rowEng (h : Holds) (s : State) : (setHolds h s).rowEng = s.rowEng := rfl
@[simp] theorem setHolds_watch (h : Holds) (s : State) : (setHolds h s).watch = s.watch := rfl
@[simp] theorem setHolds_outbox (h : Holds) (s : State) : (setHolds h s).outbox = s.outbox := rfl
@[simp] theorem setHolds_free (h : Holds) (s : State) : (setHolds h s).free = s.free := rfl
@[simp] theorem setHolds_pending (h : Holds) (s : State) : (setHolds h s).pending = s.pending := rfl

/-! ## setRowEng -/

@[simp] theorem setRowEng_dict (e : RowEng) (s : State) : (setRowEng e s).dict = s.dict := rfl
@[simp] theorem setRowEng_life (e : RowEng) (s : State) : (setRowEng e s).life = s.life := rfl
@[simp] theorem setRowEng_power (e : RowEng) (s : State) : (setRowEng e s).power = s.power := rfl
@[simp] theorem setRowEng_lantern (e : RowEng) (s : State) : (setRowEng e s).lantern = s.lantern := rfl
@[simp] theorem setRowEng_mem (e : RowEng) (s : State) : (setRowEng e s).mem = s.mem := rfl
@[simp] theorem setRowEng_pegs (e : RowEng) (s : State) : (setRowEng e s).pegs = s.pegs := rfl
@[simp] theorem setRowEng_ridge (e : RowEng) (s : State) : (setRowEng e s).ridge = s.ridge := rfl
@[simp] theorem setRowEng_fabric (e : RowEng) (s : State) : (setRowEng e s).fabric = s.fabric := rfl
@[simp] theorem setRowEng_host (e : RowEng) (s : State) : (setRowEng e s).host = s.host := rfl
@[simp] theorem setRowEng_loadState (e : RowEng) (s : State) : (setRowEng e s).loadState = s.loadState := rfl
@[simp] theorem setRowEng_plan (e : RowEng) (s : State) : (setRowEng e s).plan = s.plan := rfl
@[simp] theorem setRowEng_sets (e : RowEng) (s : State) : (setRowEng e s).sets = s.sets := rfl
@[simp] theorem setRowEng_tensors (e : RowEng) (s : State) : (setRowEng e s).tensors = s.tensors := rfl
@[simp] theorem setRowEng_programs (e : RowEng) (s : State) : (setRowEng e s).programs = s.programs := rfl
@[simp] theorem setRowEng_step (e : RowEng) (s : State) : (setRowEng e s).step = s.step := rfl
@[simp] theorem setRowEng_holds (e : RowEng) (s : State) : (setRowEng e s).holds = s.holds := rfl
@[simp] theorem setRowEng_place (e : RowEng) (s : State) : (setRowEng e s).place = s.place := rfl
@[simp] theorem setRowEng_rowOps (e : RowEng) (s : State) : (setRowEng e s).rowOps = s.rowOps := rfl
@[simp] theorem setRowEng_twin (e : RowEng) (s : State) : (setRowEng e s).twin = s.twin := rfl
@[simp] theorem setRowEng_gen (e : RowEng) (s : State) : (setRowEng e s).gen = s.gen := rfl
@[simp] theorem setRowEng_rowEng (e : RowEng) (s : State) : (setRowEng e s).rowEng = e := rfl
@[simp] theorem setRowEng_watch (e : RowEng) (s : State) : (setRowEng e s).watch = s.watch := rfl
@[simp] theorem setRowEng_outbox (e : RowEng) (s : State) : (setRowEng e s).outbox = s.outbox := rfl
@[simp] theorem setRowEng_free (e : RowEng) (s : State) : (setRowEng e s).free = s.free := rfl
@[simp] theorem setRowEng_pending (e : RowEng) (s : State) : (setRowEng e s).pending = s.pending := rfl

/-! ## setWatch -/

@[simp] theorem setWatch_dict (w : Watch) (s : State) : (setWatch w s).dict = s.dict := rfl
@[simp] theorem setWatch_life (w : Watch) (s : State) : (setWatch w s).life = s.life := rfl
@[simp] theorem setWatch_power (w : Watch) (s : State) : (setWatch w s).power = s.power := rfl
@[simp] theorem setWatch_lantern (w : Watch) (s : State) : (setWatch w s).lantern = s.lantern := rfl
@[simp] theorem setWatch_mem (w : Watch) (s : State) : (setWatch w s).mem = s.mem := rfl
@[simp] theorem setWatch_pegs (w : Watch) (s : State) : (setWatch w s).pegs = s.pegs := rfl
@[simp] theorem setWatch_ridge (w : Watch) (s : State) : (setWatch w s).ridge = s.ridge := rfl
@[simp] theorem setWatch_fabric (w : Watch) (s : State) : (setWatch w s).fabric = s.fabric := rfl
@[simp] theorem setWatch_host (w : Watch) (s : State) : (setWatch w s).host = s.host := rfl
@[simp] theorem setWatch_loadState (w : Watch) (s : State) : (setWatch w s).loadState = s.loadState := rfl
@[simp] theorem setWatch_plan (w : Watch) (s : State) : (setWatch w s).plan = s.plan := rfl
@[simp] theorem setWatch_sets (w : Watch) (s : State) : (setWatch w s).sets = s.sets := rfl
@[simp] theorem setWatch_tensors (w : Watch) (s : State) : (setWatch w s).tensors = s.tensors := rfl
@[simp] theorem setWatch_programs (w : Watch) (s : State) : (setWatch w s).programs = s.programs := rfl
@[simp] theorem setWatch_step (w : Watch) (s : State) : (setWatch w s).step = s.step := rfl
@[simp] theorem setWatch_holds (w : Watch) (s : State) : (setWatch w s).holds = s.holds := rfl
@[simp] theorem setWatch_place (w : Watch) (s : State) : (setWatch w s).place = s.place := rfl
@[simp] theorem setWatch_rowOps (w : Watch) (s : State) : (setWatch w s).rowOps = s.rowOps := rfl
@[simp] theorem setWatch_twin (w : Watch) (s : State) : (setWatch w s).twin = s.twin := rfl
@[simp] theorem setWatch_gen (w : Watch) (s : State) : (setWatch w s).gen = s.gen := rfl
@[simp] theorem setWatch_rowEng (w : Watch) (s : State) : (setWatch w s).rowEng = s.rowEng := rfl
@[simp] theorem setWatch_watch (w : Watch) (s : State) : (setWatch w s).watch = w := rfl
@[simp] theorem setWatch_outbox (w : Watch) (s : State) : (setWatch w s).outbox = s.outbox := rfl
@[simp] theorem setWatch_free (w : Watch) (s : State) : (setWatch w s).free = s.free := rfl
@[simp] theorem setWatch_pending (w : Watch) (s : State) : (setWatch w s).pending = s.pending := rfl

/-! ## setGen -/

@[simp] theorem setGen_dict (g : Gen) (s : State) : (setGen g s).dict = s.dict := rfl
@[simp] theorem setGen_life (g : Gen) (s : State) : (setGen g s).life = s.life := rfl
@[simp] theorem setGen_power (g : Gen) (s : State) : (setGen g s).power = s.power := rfl
@[simp] theorem setGen_lantern (g : Gen) (s : State) : (setGen g s).lantern = s.lantern := rfl
@[simp] theorem setGen_mem (g : Gen) (s : State) : (setGen g s).mem = s.mem := rfl
@[simp] theorem setGen_pegs (g : Gen) (s : State) : (setGen g s).pegs = s.pegs := rfl
@[simp] theorem setGen_ridge (g : Gen) (s : State) : (setGen g s).ridge = s.ridge := rfl
@[simp] theorem setGen_fabric (g : Gen) (s : State) : (setGen g s).fabric = s.fabric := rfl
@[simp] theorem setGen_host (g : Gen) (s : State) : (setGen g s).host = s.host := rfl
@[simp] theorem setGen_loadState (g : Gen) (s : State) : (setGen g s).loadState = s.loadState := rfl
@[simp] theorem setGen_plan (g : Gen) (s : State) : (setGen g s).plan = s.plan := rfl
@[simp] theorem setGen_sets (g : Gen) (s : State) : (setGen g s).sets = s.sets := rfl
@[simp] theorem setGen_tensors (g : Gen) (s : State) : (setGen g s).tensors = s.tensors := rfl
@[simp] theorem setGen_programs (g : Gen) (s : State) : (setGen g s).programs = s.programs := rfl
@[simp] theorem setGen_step (g : Gen) (s : State) : (setGen g s).step = s.step := rfl
@[simp] theorem setGen_holds (g : Gen) (s : State) : (setGen g s).holds = s.holds := rfl
@[simp] theorem setGen_place (g : Gen) (s : State) : (setGen g s).place = s.place := rfl
@[simp] theorem setGen_rowOps (g : Gen) (s : State) : (setGen g s).rowOps = s.rowOps := rfl
@[simp] theorem setGen_twin (g : Gen) (s : State) : (setGen g s).twin = s.twin := rfl
@[simp] theorem setGen_gen (g : Gen) (s : State) : (setGen g s).gen = g := rfl
@[simp] theorem setGen_rowEng (g : Gen) (s : State) : (setGen g s).rowEng = s.rowEng := rfl
@[simp] theorem setGen_watch (g : Gen) (s : State) : (setGen g s).watch = s.watch := rfl
@[simp] theorem setGen_outbox (g : Gen) (s : State) : (setGen g s).outbox = s.outbox := rfl
@[simp] theorem setGen_free (g : Gen) (s : State) : (setGen g s).free = s.free := rfl
@[simp] theorem setGen_pending (g : Gen) (s : State) : (setGen g s).pending = s.pending := rfl

/-! ## setLoad -/

@[simp] theorem setLoad_dict (l : LoadState) (s : State) : (setLoad l s).dict = s.dict := rfl
@[simp] theorem setLoad_life (l : LoadState) (s : State) : (setLoad l s).life = s.life := rfl
@[simp] theorem setLoad_power (l : LoadState) (s : State) : (setLoad l s).power = s.power := rfl
@[simp] theorem setLoad_lantern (l : LoadState) (s : State) : (setLoad l s).lantern = s.lantern := rfl
@[simp] theorem setLoad_mem (l : LoadState) (s : State) : (setLoad l s).mem = s.mem := rfl
@[simp] theorem setLoad_pegs (l : LoadState) (s : State) : (setLoad l s).pegs = s.pegs := rfl
@[simp] theorem setLoad_ridge (l : LoadState) (s : State) : (setLoad l s).ridge = s.ridge := rfl
@[simp] theorem setLoad_fabric (l : LoadState) (s : State) : (setLoad l s).fabric = s.fabric := rfl
@[simp] theorem setLoad_host (l : LoadState) (s : State) : (setLoad l s).host = s.host := rfl
@[simp] theorem setLoad_loadState (l : LoadState) (s : State) : (setLoad l s).loadState = l := rfl
@[simp] theorem setLoad_plan (l : LoadState) (s : State) : (setLoad l s).plan = s.plan := rfl
@[simp] theorem setLoad_sets (l : LoadState) (s : State) : (setLoad l s).sets = s.sets := rfl
@[simp] theorem setLoad_tensors (l : LoadState) (s : State) : (setLoad l s).tensors = s.tensors := rfl
@[simp] theorem setLoad_programs (l : LoadState) (s : State) : (setLoad l s).programs = s.programs := rfl
@[simp] theorem setLoad_step (l : LoadState) (s : State) : (setLoad l s).step = s.step := rfl
@[simp] theorem setLoad_holds (l : LoadState) (s : State) : (setLoad l s).holds = s.holds := rfl
@[simp] theorem setLoad_place (l : LoadState) (s : State) : (setLoad l s).place = s.place := rfl
@[simp] theorem setLoad_rowOps (l : LoadState) (s : State) : (setLoad l s).rowOps = s.rowOps := rfl
@[simp] theorem setLoad_twin (l : LoadState) (s : State) : (setLoad l s).twin = s.twin := rfl
@[simp] theorem setLoad_gen (l : LoadState) (s : State) : (setLoad l s).gen = s.gen := rfl
@[simp] theorem setLoad_rowEng (l : LoadState) (s : State) : (setLoad l s).rowEng = s.rowEng := rfl
@[simp] theorem setLoad_watch (l : LoadState) (s : State) : (setLoad l s).watch = s.watch := rfl
@[simp] theorem setLoad_outbox (l : LoadState) (s : State) : (setLoad l s).outbox = s.outbox := rfl
@[simp] theorem setLoad_free (l : LoadState) (s : State) : (setLoad l s).free = s.free := rfl
@[simp] theorem setLoad_pending (l : LoadState) (s : State) : (setLoad l s).pending = s.pending := rfl

/-! ## updSet -/

@[simp] theorem updSet_dict (n : Nat) (f : TableSet → TableSet) (s : State) : (updSet n f s).dict = s.dict := rfl
@[simp] theorem updSet_life (n : Nat) (f : TableSet → TableSet) (s : State) : (updSet n f s).life = s.life := rfl
@[simp] theorem updSet_power (n : Nat) (f : TableSet → TableSet) (s : State) : (updSet n f s).power = s.power := rfl
@[simp] theorem updSet_lantern (n : Nat) (f : TableSet → TableSet) (s : State) : (updSet n f s).lantern = s.lantern := rfl
@[simp] theorem updSet_mem (n : Nat) (f : TableSet → TableSet) (s : State) : (updSet n f s).mem = s.mem := rfl
@[simp] theorem updSet_pegs (n : Nat) (f : TableSet → TableSet) (s : State) : (updSet n f s).pegs = s.pegs := rfl
@[simp] theorem updSet_ridge (n : Nat) (f : TableSet → TableSet) (s : State) : (updSet n f s).ridge = s.ridge := rfl
@[simp] theorem updSet_fabric (n : Nat) (f : TableSet → TableSet) (s : State) : (updSet n f s).fabric = s.fabric := rfl
@[simp] theorem updSet_host (n : Nat) (f : TableSet → TableSet) (s : State) : (updSet n f s).host = s.host := rfl
@[simp] theorem updSet_loadState (n : Nat) (f : TableSet → TableSet) (s : State) : (updSet n f s).loadState = s.loadState := rfl
@[simp] theorem updSet_plan (n : Nat) (f : TableSet → TableSet) (s : State) : (updSet n f s).plan = s.plan := rfl
@[simp] theorem updSet_tensors (n : Nat) (f : TableSet → TableSet) (s : State) : (updSet n f s).tensors = s.tensors := rfl
@[simp] theorem updSet_programs (n : Nat) (f : TableSet → TableSet) (s : State) : (updSet n f s).programs = s.programs := rfl
@[simp] theorem updSet_step (n : Nat) (f : TableSet → TableSet) (s : State) : (updSet n f s).step = s.step := rfl
@[simp] theorem updSet_holds (n : Nat) (f : TableSet → TableSet) (s : State) : (updSet n f s).holds = s.holds := rfl
@[simp] theorem updSet_place (n : Nat) (f : TableSet → TableSet) (s : State) : (updSet n f s).place = s.place := rfl
@[simp] theorem updSet_rowOps (n : Nat) (f : TableSet → TableSet) (s : State) : (updSet n f s).rowOps = s.rowOps := rfl
@[simp] theorem updSet_twin (n : Nat) (f : TableSet → TableSet) (s : State) : (updSet n f s).twin = s.twin := rfl
@[simp] theorem updSet_gen (n : Nat) (f : TableSet → TableSet) (s : State) : (updSet n f s).gen = s.gen := rfl
@[simp] theorem updSet_rowEng (n : Nat) (f : TableSet → TableSet) (s : State) : (updSet n f s).rowEng = s.rowEng := rfl
@[simp] theorem updSet_watch (n : Nat) (f : TableSet → TableSet) (s : State) : (updSet n f s).watch = s.watch := rfl
@[simp] theorem updSet_outbox (n : Nat) (f : TableSet → TableSet) (s : State) : (updSet n f s).outbox = s.outbox := rfl
@[simp] theorem updSet_free (n : Nat) (f : TableSet → TableSet) (s : State) : (updSet n f s).free = s.free := rfl
@[simp] theorem updSet_pending (n : Nat) (f : TableSet → TableSet) (s : State) : (updSet n f s).pending = s.pending := rfl

/-! ## putWord -/

@[simp] theorem putWord_dict (sk w : Nat) (s : State) : (putWord sk w s).dict = s.dict := (rfl)
@[simp] theorem putWord_life (sk w : Nat) (s : State) : (putWord sk w s).life = s.life := (rfl)
@[simp] theorem putWord_power (sk w : Nat) (s : State) : (putWord sk w s).power = s.power := (rfl)
@[simp] theorem putWord_lantern (sk w : Nat) (s : State) : (putWord sk w s).lantern = s.lantern := (rfl)
@[simp] theorem putWord_pegs (sk w : Nat) (s : State) : (putWord sk w s).pegs = s.pegs := (rfl)
@[simp] theorem putWord_ridge (sk w : Nat) (s : State) : (putWord sk w s).ridge = s.ridge := (rfl)
@[simp] theorem putWord_fabric (sk w : Nat) (s : State) : (putWord sk w s).fabric = s.fabric := (rfl)
@[simp] theorem putWord_host (sk w : Nat) (s : State) : (putWord sk w s).host = s.host := (rfl)
@[simp] theorem putWord_loadState (sk w : Nat) (s : State) : (putWord sk w s).loadState = s.loadState := (rfl)
@[simp] theorem putWord_plan (sk w : Nat) (s : State) : (putWord sk w s).plan = s.plan := (rfl)
@[simp] theorem putWord_sets (sk w : Nat) (s : State) : (putWord sk w s).sets = s.sets := (rfl)
@[simp] theorem putWord_tensors (sk w : Nat) (s : State) : (putWord sk w s).tensors = s.tensors := (rfl)
@[simp] theorem putWord_programs (sk w : Nat) (s : State) : (putWord sk w s).programs = s.programs := (rfl)
@[simp] theorem putWord_step (sk w : Nat) (s : State) : (putWord sk w s).step = s.step := (rfl)
@[simp] theorem putWord_holds (sk w : Nat) (s : State) : (putWord sk w s).holds = s.holds := (rfl)
@[simp] theorem putWord_place (sk w : Nat) (s : State) : (putWord sk w s).place = s.place := (rfl)
@[simp] theorem putWord_rowOps (sk w : Nat) (s : State) : (putWord sk w s).rowOps = s.rowOps := (rfl)
@[simp] theorem putWord_twin (sk w : Nat) (s : State) : (putWord sk w s).twin = s.twin := (rfl)
@[simp] theorem putWord_gen (sk w : Nat) (s : State) : (putWord sk w s).gen = s.gen := (rfl)
@[simp] theorem putWord_rowEng (sk w : Nat) (s : State) : (putWord sk w s).rowEng = s.rowEng := (rfl)
@[simp] theorem putWord_watch (sk w : Nat) (s : State) : (putWord sk w s).watch = s.watch := (rfl)
@[simp] theorem putWord_outbox (sk w : Nat) (s : State) : (putWord sk w s).outbox = s.outbox := (rfl)
@[simp] theorem putWord_free (sk w : Nat) (s : State) : (putWord sk w s).free = s.free := (rfl)
@[simp] theorem putWord_pending (sk w : Nat) (s : State) : (putWord sk w s).pending = s.pending := (rfl)

/-! ## setDamage -/

@[simp] theorem setDamage_dict (sk v : Nat) (s : State) : (setDamage sk v s).dict = s.dict := (rfl)
@[simp] theorem setDamage_life (sk v : Nat) (s : State) : (setDamage sk v s).life = s.life := (rfl)
@[simp] theorem setDamage_power (sk v : Nat) (s : State) : (setDamage sk v s).power = s.power := (rfl)
@[simp] theorem setDamage_lantern (sk v : Nat) (s : State) : (setDamage sk v s).lantern = s.lantern := (rfl)
@[simp] theorem setDamage_pegs (sk v : Nat) (s : State) : (setDamage sk v s).pegs = s.pegs := (rfl)
@[simp] theorem setDamage_ridge (sk v : Nat) (s : State) : (setDamage sk v s).ridge = s.ridge := (rfl)
@[simp] theorem setDamage_fabric (sk v : Nat) (s : State) : (setDamage sk v s).fabric = s.fabric := (rfl)
@[simp] theorem setDamage_host (sk v : Nat) (s : State) : (setDamage sk v s).host = s.host := (rfl)
@[simp] theorem setDamage_loadState (sk v : Nat) (s : State) : (setDamage sk v s).loadState = s.loadState := (rfl)
@[simp] theorem setDamage_plan (sk v : Nat) (s : State) : (setDamage sk v s).plan = s.plan := (rfl)
@[simp] theorem setDamage_sets (sk v : Nat) (s : State) : (setDamage sk v s).sets = s.sets := (rfl)
@[simp] theorem setDamage_tensors (sk v : Nat) (s : State) : (setDamage sk v s).tensors = s.tensors := (rfl)
@[simp] theorem setDamage_programs (sk v : Nat) (s : State) : (setDamage sk v s).programs = s.programs := (rfl)
@[simp] theorem setDamage_step (sk v : Nat) (s : State) : (setDamage sk v s).step = s.step := (rfl)
@[simp] theorem setDamage_holds (sk v : Nat) (s : State) : (setDamage sk v s).holds = s.holds := (rfl)
@[simp] theorem setDamage_place (sk v : Nat) (s : State) : (setDamage sk v s).place = s.place := (rfl)
@[simp] theorem setDamage_rowOps (sk v : Nat) (s : State) : (setDamage sk v s).rowOps = s.rowOps := (rfl)
@[simp] theorem setDamage_twin (sk v : Nat) (s : State) : (setDamage sk v s).twin = s.twin := (rfl)
@[simp] theorem setDamage_gen (sk v : Nat) (s : State) : (setDamage sk v s).gen = s.gen := (rfl)
@[simp] theorem setDamage_rowEng (sk v : Nat) (s : State) : (setDamage sk v s).rowEng = s.rowEng := (rfl)
@[simp] theorem setDamage_watch (sk v : Nat) (s : State) : (setDamage sk v s).watch = s.watch := (rfl)
@[simp] theorem setDamage_outbox (sk v : Nat) (s : State) : (setDamage sk v s).outbox = s.outbox := (rfl)
@[simp] theorem setDamage_free (sk v : Nat) (s : State) : (setDamage sk v s).free = s.free := (rfl)
@[simp] theorem setDamage_pending (sk v : Nat) (s : State) : (setDamage sk v s).pending = s.pending := (rfl)

/-! ## setStale -/

@[simp] theorem setStale_dict (pk : Nat) (v : Nat × Nat) (s : State) : (setStale pk v s).dict = s.dict := (rfl)
@[simp] theorem setStale_life (pk : Nat) (v : Nat × Nat) (s : State) : (setStale pk v s).life = s.life := (rfl)
@[simp] theorem setStale_power (pk : Nat) (v : Nat × Nat) (s : State) : (setStale pk v s).power = s.power := (rfl)
@[simp] theorem setStale_lantern (pk : Nat) (v : Nat × Nat) (s : State) : (setStale pk v s).lantern = s.lantern := (rfl)
@[simp] theorem setStale_pegs (pk : Nat) (v : Nat × Nat) (s : State) : (setStale pk v s).pegs = s.pegs := (rfl)
@[simp] theorem setStale_ridge (pk : Nat) (v : Nat × Nat) (s : State) : (setStale pk v s).ridge = s.ridge := (rfl)
@[simp] theorem setStale_fabric (pk : Nat) (v : Nat × Nat) (s : State) : (setStale pk v s).fabric = s.fabric := (rfl)
@[simp] theorem setStale_host (pk : Nat) (v : Nat × Nat) (s : State) : (setStale pk v s).host = s.host := (rfl)
@[simp] theorem setStale_loadState (pk : Nat) (v : Nat × Nat) (s : State) : (setStale pk v s).loadState = s.loadState := (rfl)
@[simp] theorem setStale_plan (pk : Nat) (v : Nat × Nat) (s : State) : (setStale pk v s).plan = s.plan := (rfl)
@[simp] theorem setStale_sets (pk : Nat) (v : Nat × Nat) (s : State) : (setStale pk v s).sets = s.sets := (rfl)
@[simp] theorem setStale_tensors (pk : Nat) (v : Nat × Nat) (s : State) : (setStale pk v s).tensors = s.tensors := (rfl)
@[simp] theorem setStale_programs (pk : Nat) (v : Nat × Nat) (s : State) : (setStale pk v s).programs = s.programs := (rfl)
@[simp] theorem setStale_step (pk : Nat) (v : Nat × Nat) (s : State) : (setStale pk v s).step = s.step := (rfl)
@[simp] theorem setStale_holds (pk : Nat) (v : Nat × Nat) (s : State) : (setStale pk v s).holds = s.holds := (rfl)
@[simp] theorem setStale_place (pk : Nat) (v : Nat × Nat) (s : State) : (setStale pk v s).place = s.place := (rfl)
@[simp] theorem setStale_rowOps (pk : Nat) (v : Nat × Nat) (s : State) : (setStale pk v s).rowOps = s.rowOps := (rfl)
@[simp] theorem setStale_twin (pk : Nat) (v : Nat × Nat) (s : State) : (setStale pk v s).twin = s.twin := (rfl)
@[simp] theorem setStale_gen (pk : Nat) (v : Nat × Nat) (s : State) : (setStale pk v s).gen = s.gen := (rfl)
@[simp] theorem setStale_rowEng (pk : Nat) (v : Nat × Nat) (s : State) : (setStale pk v s).rowEng = s.rowEng := (rfl)
@[simp] theorem setStale_watch (pk : Nat) (v : Nat × Nat) (s : State) : (setStale pk v s).watch = s.watch := (rfl)
@[simp] theorem setStale_outbox (pk : Nat) (v : Nat × Nat) (s : State) : (setStale pk v s).outbox = s.outbox := (rfl)
@[simp] theorem setStale_free (pk : Nat) (v : Nat × Nat) (s : State) : (setStale pk v s).free = s.free := (rfl)
@[simp] theorem setStale_pending (pk : Nat) (v : Nat × Nat) (s : State) : (setStale pk v s).pending = s.pending := (rfl)

end Sys2Proof.Machine
end

