-- ==== Sys2Proof/Laws/Step.lean ====
section
/-!
SUPPORT. What a guarded command, a step and what settles after an event can do.
-/
namespace Sys2Proof.Machine

/-! ## Guarded commands -/

@[simp] theorem withQueue_self (s : State) : withQueue s.pending s = s := rfl
@[simp] theorem withQueue_pending (cs : List Instr) (t : State) : (withQueue cs t).pending = cs := rfl
@[simp] theorem withQueue_twice (cs ds : List Instr) (t : State) : withQueue cs (withQueue ds t) = withQueue cs t := rfl

/-- A state whose queue is already the given one. -/
theorem withQueue_same {cs : List Instr} {t : State} (h : t.pending = cs) : withQueue cs t = t := by
  subst h
  rfl

/-- A guarded command always answers a next state. -/
theorem guarded_answers (i : Instr) (f : State → State) (s : State) :
    guarded i f s = .next (if i.wf then withQueue s.pending (f s) else s) := rfl

/-- A well-formed command answers its effect, with the queue of waiting commands as it was. -/
theorem guarded_next {i : Instr} (h : i.wf = true) (f : State → State) (s : State) :
    guarded i f s = .next (withQueue s.pending (f s)) := by
  rw [guarded_answers, if_pos h]

/-- A term that no sender can send changes nothing. -/
theorem guarded_ill {i : Instr} (h : i.wf = false) (f : State → State) (s : State) : guarded i f s = .next s := by
  rw [guarded_answers, if_neg (by simp [h])]

/-- What a guarded command answers is its effect, or for an ill-formed term the state as it was. -/
theorem guarded_cases {i : Instr} {f : State → State} {s t : State} (h : guarded i f s = .next t) :
    (i.wf = true ∧ t = withQueue s.pending (f s)) ∨ (i.wf = false ∧ t = s) := by
  cases w : i.wf
  · rw [guarded_ill w] at h
    exact .inr ⟨rfl, by injection h with h; exact h.symm⟩
  · rw [guarded_next w] at h
    exact .inl ⟨rfl, by injection h with h; exact h.symm⟩

/-! ## Conditional and repeated changes -/

@[simp] theorem whenS_true (f : State → State) (s : State) : whenS true f s = f s := rfl
@[simp] theorem whenS_false (f : State → State) (s : State) : whenS false f s = s := rfl
@[simp] theorem forEach_nil {α : Type} (f : α → State → State) (s : State) : forEach [] f s = s := rfl
@[simp] theorem forEach_cons {α : Type} (a : α) (l : List α) (f : α → State → State) (s : State) :
    forEach (a :: l) f s = forEach l f (f a s) := rfl

/-- What a change keeps, repeating it keeps. -/
theorem forEach_inv {α : Type} (P : State → Prop) (l : List α) (f : α → State → State)
    (h : ∀ a s, P s → P (f a s)) : ∀ s, P s → P (forEach l f s) := by
  induction l with
  | nil => intro s p; exact p
  | cons a l ih => intro s p; exact ih _ (h a s p)

/-! ## Settling -/

theorem takeFresh_nil {s : State} (h : s.mem.fresh = []) : takeFresh s = s := by
  unfold takeFresh
  simp [h]

theorem nextStep_none {s : State} (h : takesPart s = false ∨ atCommit s = false) : nextStep s = none := by
  unfold nextStep
  rcases h with h | h <;> simp [h]

theorem settleHome_none {s : State} (h : nextStep s = none) : settleHome s = s := by
  unfold settleHome
  simp [h]

theorem settleSets_still {s : State} (h : setBusy s = false) : settleSets s = s := by
  unfold settleSets applyPending
  unfold setBusy at h
  cases e : s.lantern.sets.pending <;> simp_all

theorem ledgerUp_still {s : State} (h : curStation s < 2 ∨ setting s E.NORM_MODE = 0) : ledgerUp s = s := by
  unfold ledgerUp
  rcases h with h | h <;> simp [h]

theorem setHolds_same (s : State) : setHolds s.holds s = s := rfl

theorem endCauses_still {s : State} (a : s.holds.missingBatch = false) (b : s.holds.feedSlot = false) :
    endCauses s = s := by
  unfold endCauses
  split
  · have e : ∀ (h : Holds) (x y : Bool), h.missingBatch = false → h.feedSlot = false →
        ({ h with missingBatch := h.missingBatch && x, feedSlot := h.feedSlot && y } : Holds) = h := by
      intro h x y p q
      cases h
      simp_all
    rw [e s.holds _ _ a b]
    rfl
  · rfl

/-- An event that leaves nothing waiting has its own effect only. -/
theorem still_settleRun {s : State} (h : still s) : settleRun s = s := by
  obtain ⟨hf, hb, hl⟩ := h
  unfold settleRun
  dsimp only
  rw [takeFresh_nil hf]
  by_cases e : s.loadState = .loaded
  · obtain ⟨hr, hm, hs, hc, hn⟩ := hl e
    have ac : atCommit s = false := by
      unfold atCommit
      simpa using hc
    have h1 : whenS (isOpened s (curStep s) && takesPart s && !(isCopyTarget s)) ledgerUp s = s := by
      unfold whenS
      split
      · exact ledgerUp_still hn
      · rfl
    have ns : nextStep s = none := nextStep_none (.inr ac)
    have h2 : settleHeld s = s := by
      unfold settleHeld
      simp [e, endCauses_still hm hs, ns, isState, hr]
    rw [h1, settleHome_none ns, h2]
    simp only [ac, Bool.and_false, whenS_false]
    exact settleSets_still hb
  · have tp : takesPart s = false := by
      unfold takesPart
      simp [e]
    have h2 : settleHeld s = s := by
      unfold settleHeld
      simp [e]
    simp only [tp, Bool.and_false, Bool.false_and, whenS_false, settleHome_none (nextStep_none (.inl tp)), h2]
    exact settleSets_still hb

end Sys2Proof.Machine
end

