-- ==== Sys2Proof/Laws/Commands.lean ====
section
/-!
SUPPORT. How a command starts (R375), and what its opcode makes of it.
-/
namespace Sys2Proof.Machine

@[simp] theorem queue_setQueue (q : Nat) (v : Queue) (s : State) : queue (setQueue q v s) q = v := by
  simp [queue, setQueue]

theorem queue_setQueue_other {q r : Nat} (h : r ≠ q) (v : Queue) (s : State) : queue (setQueue q v s) r = queue s r := by
  simp [queue, setQueue, sget_sput_other _ _ _ _ _ h]

/-- A well-formed command's index has 32 bits, and its record the row's opcode. -/
theorem wfCommand_parts {op q i : Nat} {r : Rec64} (h : wfCommand op q i r = true) : i < 2 ^ 32 ∧ opcodeOf r = op := by
  simp [wfCommand, fits] at h
  refine ⟨h.1.2, ?_⟩
  simp [opcodeOf, rf, bits, h.2]

/-- A command that can start at once does its work. -/
theorem commandRow_starts {q i : Nat} {r : Rec64} {s : State} (h : startable q i r s) (hi : i < 2 ^ 32) :
    commandRow q i r s = commandWork q i r (begun q i r s) := by
  obtain ⟨a, b, c, d, e, f, g, k, l⟩ := h
  have hi' : i % 2 ^ 32 = i := Nat.mod_eq_of_lt hi
  have u : unstarted (queue (enqueued q i r s) q) = [{ index := i, record := r, phase := .fetched }] := by
    unfold unstarted at d ⊢
    simp only [enqueued, updQueue, queue_setQueue, List.filter_append, d]
    rfl
  have fen : fenced (queue (enqueued q i r s) q) { index := i, record := r, phase := .fetched } = false := by
    simp [fenced, g]
  have st : queueStarts (enqueued q i r s) (queue (enqueued q i r s) q) = true := by
    have h1 : serves (enqueued q i r s) = true := a
    have h2 : (queue (enqueued q i r s) q).state = .running := by simp [enqueued, updQueue, b]
    have h3 : (queue (enqueued q i r s) q).disabling = false := by simp [enqueued, updQueue, c]
    simp [queueStarts, h1, h2, h3]
  unfold commandRow
  simp only [hi', e, b]
  show startCommand q i (enqueued q i r s) = _
  unfold startCommand
  simp only [u, fen, st, f, k]
  have l' : startCode (setPhase q i .running (enqueued q i r s)) r = 0 := l
  simp only [bne_self_eq_false, Bool.not_true, Bool.false_or, Bool.or_false, Bool.false_and, Bool.false_eq_true, ↓reduceIte,
    startNow, l']
  rfl

/-- A well-formed command of an opcode that can start at once does the opcode's work. -/
theorem commandRow_work {op q i : Nat} {r : Rec64} {s : State} (w : wfCommand op q i r = true) (h : startable q i r s) :
    commandRow q i r s = commandWork q i r (begun q i r s) ∧ opcodeOf r = op :=
  ⟨commandRow_starts h (wfCommand_parts w).1, (wfCommand_parts w).2⟩

end Sys2Proof.Machine
end

