-- ==== Sys2Proof/Laws/Dict.lean ====
section
/-!
SUPPORT. What a request of one operation does once Lantern accepts it, and the table rows of the entries that act.
-/
namespace Sys2Proof.Machine

/-- A path whose requests are refused as a whole accepts no write. -/
theorem pathRefusal_of_accepts {s : State} {p : Path} {i j off : Nat} {b : Bytes} (h : writeRefused s p i j off b = 0) :
    pathRefusal s p true = 0 := by
  unfold writeRefused writeChecks at h
  by_cases e : pathRefusal s p true = 0
  · exact e
  · exfalso
    simp [e] at h

theorem pathRefusal_touch (s : State) (p q : Path) (w : Bool) : pathRefusal (touchPath q s) p w = pathRefusal s p w := by
  cases q <;> rfl

/-- An accepted write: the effect of R476's step 6, what follows by itself, the counters and the answer. -/
theorem requestWrite_accepted {s : State} {p : Path} {k off : Nat} {b : Bytes} {e : Entry} (h : accepts s p k off b)
    (he : entryOf k = some e) :
    requestWrite p (k / 256) (k % 256) off b s = answered p (writeEffect p e off b (touchPath p s)) := by
  obtain ⟨hs, hw⟩ := h
  have hp := pathRefusal_of_accepts hw
  rw [pathRefusal_touch] at hp
  have hk : k / 256 * 256 + k % 256 = k := by omega
  unfold requestWrite requested writeEntry answered
  simp [hs, hp, hw, hk, he]

theorem requestNumber_accepted {s : State} {p : Path} {k n v : Nat} {e : Entry} (h : accepts s p k 0 (natLe n v))
    (he : entryOf k = some e) :
    requestNumber p k n v s = answered p (writeEffect p e 0 (natLe n v) (touchPath p s)) :=
  requestWrite_accepted h he

/-- An entry of the table stands under its key. -/
theorem entryOf_key {k : Nat} {e : Entry} (h : entryOf k = some e) : e.key = k := by
  have := List.find?_some h
  simpa using this

theorem exists_entry {k : Nat} (h : (entryOf k).isSome = true) : ∃ e, entryOf k = some e ∧ e.key = k := by
  obtain ⟨e, he⟩ := Option.isSome_iff_exists.mp h
  exact ⟨e, he, entryOf_key he⟩

/-! ## The entries that act -/

theorem writeEffect_SALVAGE {p : Path} {e : Entry} (h : e.key = E.SALVAGE) (off : Nat) (b : Bytes) (s : State) :
    writeEffect p e off b s = whenS (leNat b == 1) salvage s := by
  unfold writeEffect
  rw [h]
  rfl

theorem entry_SALVAGE : ∃ e, entryOf E.SALVAGE = some e ∧ e.key = E.SALVAGE := exists_entry (by decide +kernel)

theorem writeEffect_POWER_STATE_REQUEST {p : Path} {e : Entry} (h : e.key = E.POWER_STATE_REQUEST) (off : Nat) (b : Bytes) (s : State) :
    writeEffect p e off b s = powerRequest (leNat b) s := by
  unfold writeEffect
  rw [h]
  rfl

theorem entry_POWER_STATE_REQUEST : ∃ e, entryOf E.POWER_STATE_REQUEST = some e ∧ e.key = E.POWER_STATE_REQUEST := exists_entry (by decide +kernel)

theorem writeEffect_FW_UPDATE_CONTROL {p : Path} {e : Entry} (h : e.key = E.FW_UPDATE_CONTROL) (off : Nat) (b : Bytes) (s : State) :
    writeEffect p e off b s = fwControl (leNat b) s := by
  unfold writeEffect
  rw [h]
  rfl

theorem entry_FW_UPDATE_CONTROL : ∃ e, entryOf E.FW_UPDATE_CONTROL = some e ∧ e.key = E.FW_UPDATE_CONTROL := exists_entry (by decide +kernel)

theorem writeEffect_FW_UPDATE_DATA {p : Path} {e : Entry} (h : e.key = E.FW_UPDATE_DATA) (off : Nat) (b : Bytes) (s : State) :
    writeEffect p e off b s = fwPiece b s := by
  unfold writeEffect
  rw [h]
  rfl

theorem entry_FW_UPDATE_DATA : ∃ e, entryOf E.FW_UPDATE_DATA = some e ∧ e.key = E.FW_UPDATE_DATA := exists_entry (by decide +kernel)

theorem writeEffect_FW_CONFIRM {p : Path} {e : Entry} (h : e.key = E.FW_CONFIRM) (off : Nat) (b : Bytes) (s : State) :
    writeEffect p e off b s = whenS (leNat b == 1) confirmTrial s := by
  unfold writeEffect
  rw [h]
  rfl

theorem entry_FW_CONFIRM : ∃ e, entryOf E.FW_CONFIRM = some e ∧ e.key = E.FW_CONFIRM := exists_entry (by decide +kernel)

theorem writeEffect_SET_COMMIT {p : Path} {e : Entry} (h : e.key = E.SET_COMMIT) (off : Nat) (b : Bytes) (s : State) :
    writeEffect p e off b s = commitSet (leNat b) s := by
  unfold writeEffect
  rw [h]
  rfl

theorem entry_SET_COMMIT : ∃ e, entryOf E.SET_COMMIT = some e ∧ e.key = E.SET_COMMIT := exists_entry (by decide +kernel)

theorem writeEffect_SET_REVERT {p : Path} {e : Entry} (h : e.key = E.SET_REVERT) (off : Nat) (b : Bytes) (s : State) :
    writeEffect p e off b s = revertSet s := by
  unfold writeEffect
  rw [h]
  rfl

theorem entry_SET_REVERT : ∃ e, entryOf E.SET_REVERT = some e ∧ e.key = E.SET_REVERT := exists_entry (by decide +kernel)

theorem writeEffect_SET_CONFIRM {p : Path} {e : Entry} (h : e.key = E.SET_CONFIRM) (off : Nat) (b : Bytes) (s : State) :
    writeEffect p e off b s = confirmSet s := by
  unfold writeEffect
  rw [h]
  rfl

theorem entry_SET_CONFIRM : ∃ e, entryOf E.SET_CONFIRM = some e ∧ e.key = E.SET_CONFIRM := exists_entry (by decide +kernel)

theorem writeEffect_SET_CLEAR {p : Path} {e : Entry} (h : e.key = E.SET_CLEAR) (off : Nat) (b : Bytes) (s : State) :
    writeEffect p e off b s = whenS (leNat b == 1) clearSet s := by
  unfold writeEffect
  rw [h]
  rfl

theorem entry_SET_CLEAR : ∃ e, entryOf E.SET_CLEAR = some e ∧ e.key = E.SET_CLEAR := exists_entry (by decide +kernel)

theorem writeEffect_FAULT_CODE {p : Path} {e : Entry} (h : e.key = E.FAULT_CODE) (off : Nat) (b : Bytes) (s : State) :
    writeEffect p e off b s = clearFault s := by
  unfold writeEffect
  rw [h]
  rfl

theorem entry_FAULT_CODE : ∃ e, entryOf E.FAULT_CODE = some e ∧ e.key = E.FAULT_CODE := exists_entry (by decide +kernel)

theorem writeEffect_COUNTERS_CLEAR_ALL {p : Path} {e : Entry} (h : e.key = E.COUNTERS_CLEAR_ALL) (off : Nat) (b : Bytes) (s : State) :
    writeEffect p e off b s = whenS (leNat b == 1) clearCounters s := by
  unfold writeEffect
  rw [h]
  rfl

theorem entry_COUNTERS_CLEAR_ALL : ∃ e, entryOf E.COUNTERS_CLEAR_ALL = some e ∧ e.key = E.COUNTERS_CLEAR_ALL := exists_entry (by decide +kernel)

theorem writeEffect_STEP_AGREE_RESUME {p : Path} {e : Entry} (h : e.key = E.STEP_AGREE_RESUME) (off : Nat) (b : Bytes) (s : State) :
    writeEffect p e off b s = whenS (leNat b == 1) resumeAgree s := by
  unfold writeEffect
  rw [h]
  rfl

theorem entry_STEP_AGREE_RESUME : ∃ e, entryOf E.STEP_AGREE_RESUME = some e ∧ e.key = E.STEP_AGREE_RESUME := exists_entry (by decide +kernel)

theorem writeEffect_WATCH_RESUME {p : Path} {e : Entry} (h : e.key = E.WATCH_RESUME) (off : Nat) (b : Bytes) (s : State) :
    writeEffect p e off b s = whenS (leNat b == 1) resumeStreaks s := by
  unfold writeEffect
  rw [h]
  rfl

theorem entry_WATCH_RESUME : ∃ e, entryOf E.WATCH_RESUME = some e ∧ e.key = E.WATCH_RESUME := exists_entry (by decide +kernel)

theorem writeEffect_WATCH_HISTORY_RESET {p : Path} {e : Entry} (h : e.key = E.WATCH_HISTORY_RESET) (off : Nat) (b : Bytes) (s : State) :
    writeEffect p e off b s = askHistoryReset (leNat b) s := by
  unfold writeEffect
  rw [h]
  rfl

theorem entry_WATCH_HISTORY_RESET : ∃ e, entryOf E.WATCH_HISTORY_RESET = some e ∧ e.key = E.WATCH_HISTORY_RESET := exists_entry (by decide +kernel)

theorem writeEffect_ROUTE_TABLE_COMMIT {p : Path} {e : Entry} (h : e.key = E.ROUTE_TABLE_COMMIT) (off : Nat) (b : Bytes) (s : State) :
    writeEffect p e off b s = whenS (leNat b == 1) commitRoutes s := by
  unfold writeEffect
  rw [h]
  rfl

theorem entry_ROUTE_TABLE_COMMIT : ∃ e, entryOf E.ROUTE_TABLE_COMMIT = some e ∧ e.key = E.ROUTE_TABLE_COMMIT := exists_entry (by decide +kernel)

/-! ## Entries that are stored -/

theorem writeEffect_PORT_ENABLE_MASK {p : Path} {e : Entry} (h : e.key = E.PORT_ENABLE_MASK) (off : Nat) (b : Bytes) (s : State) :
    writeEffect p e off b s = storeEntry (some p) e off b s := by
  unfold writeEffect
  rw [h]
  rfl

theorem entry_PORT_ENABLE_MASK : ∃ e, entryOf E.PORT_ENABLE_MASK = some e ∧ e.key = E.PORT_ENABLE_MASK := exists_entry (by decide +kernel)

theorem writeEffect_TORUS_DIM_X {p : Path} {e : Entry} (h : e.key = E.TORUS_DIM_X) (off : Nat) (b : Bytes) (s : State) :
    writeEffect p e off b s = storeEntry (some p) e off b s := by
  unfold writeEffect
  rw [h]
  rfl

theorem entry_TORUS_DIM_X : ∃ e, entryOf E.TORUS_DIM_X = some e ∧ e.key = E.TORUS_DIM_X := exists_entry (by decide +kernel)

theorem writeEffect_TORUS_DIM_Y {p : Path} {e : Entry} (h : e.key = E.TORUS_DIM_Y) (off : Nat) (b : Bytes) (s : State) :
    writeEffect p e off b s = storeEntry (some p) e off b s := by
  unfold writeEffect
  rw [h]
  rfl

theorem entry_TORUS_DIM_Y : ∃ e, entryOf E.TORUS_DIM_Y = some e ∧ e.key = E.TORUS_DIM_Y := exists_entry (by decide +kernel)

theorem writeEffect_TORUS_DIM_Z {p : Path} {e : Entry} (h : e.key = E.TORUS_DIM_Z) (off : Nat) (b : Bytes) (s : State) :
    writeEffect p e off b s = storeEntry (some p) e off b s := by
  unfold writeEffect
  rw [h]
  rfl

theorem entry_TORUS_DIM_Z : ∃ e, entryOf E.TORUS_DIM_Z = some e ∧ e.key = E.TORUS_DIM_Z := exists_entry (by decide +kernel)

theorem writeEffect_COORD_TABLE {p : Path} {e : Entry} (h : e.key = E.COORD_TABLE) (off : Nat) (b : Bytes) (s : State) :
    writeEffect p e off b s = storeEntry (some p) e off b s := by
  unfold writeEffect
  rw [h]
  rfl

theorem entry_COORD_TABLE : ∃ e, entryOf E.COORD_TABLE = some e ∧ e.key = E.COORD_TABLE := exists_entry (by decide +kernel)

theorem writeEffect_WATCH_RING_TAIL {p : Path} {e : Entry} (h : e.key = E.WATCH_RING_TAIL) (off : Nat) (b : Bytes) (s : State) :
    writeEffect p e off b s = storeEntry (some p) e off b s := by
  unfold writeEffect
  rw [h]
  rfl

theorem entry_WATCH_RING_TAIL : ∃ e, entryOf E.WATCH_RING_TAIL = some e ∧ e.key = E.WATCH_RING_TAIL := exists_entry (by decide +kernel)

theorem writeEffect_TSET_T {p : Path} {e : Entry} (h : e.key = E.TSET_T) (off : Nat) (b : Bytes) (s : State) :
    writeEffect p e off b s = storeEntry (some p) e off b s := by
  unfold writeEffect
  rw [h]
  rfl

theorem entry_TSET_T : ∃ e, entryOf E.TSET_T = some e ∧ e.key = E.TSET_T := exists_entry (by decide +kernel)

end Sys2Proof.Machine
end

