-- ==== Sys2Proof/Laws/Events.lean ====
section
/-!
SUPPORT. What raising an event, sending a TLP and counting can do: each law says once everything the operation changes.
-/
namespace Sys2Proof.Machine

theorem sendHost_frame (o : Out) (s : State) : ∃ h b, sendHost o s = { s with host := h, outbox := b } := by
  unfold sendHost
  split
  · exact ⟨s.host, s.outbox, rfl⟩
  · split
    · exact ⟨s.host, _, rfl⟩
    · exact ⟨_, s.outbox, rfl⟩

theorem msix_frame (v : Nat) (s : State) : ∃ h b, msix v s = { s with host := h, outbox := b } := by
  unfold msix
  split
  · exact sendHost_frame _ s
  · exact ⟨_, s.outbox, rfl⟩

theorem causeErrorEvent_frame (s : State) : ∃ h b, causeErrorEvent s = { s with host := h, outbox := b } := by
  unfold causeErrorEvent
  split
  · exact ⟨s.host, s.outbox, rfl⟩
  · obtain ⟨h, b, e⟩ := msix_frame 64 { s with host := { s.host with causeError := true } }
    exact ⟨h, b, by rw [e]⟩

theorem causeQueueStopped_frame (s : State) : ∃ h b, causeQueueStopped s = { s with host := h, outbox := b } := by
  unfold causeQueueStopped
  split
  · exact ⟨s.host, s.outbox, rfl⟩
  · obtain ⟨h, b, e⟩ := msix_frame 64 { s with host := { s.host with causeQueue := true } }
    exact ⟨h, b, by rw [e]⟩

theorem causeHostLoss_frame (s : State) : ∃ h b, causeHostLoss s = { s with host := h, outbox := b } := by
  unfold causeHostLoss
  split
  · exact ⟨s.host, s.outbox, rfl⟩
  · obtain ⟨h, b, e⟩ := msix_frame 64 { s with host := { s.host with causeLoss := true } }
    exact ⟨h, b, by rw [e]⟩

theorem countN_frame (k n : Nat) (s : State) : ∃ d, countN k n s = { s with dict := d } := ⟨_, rfl⟩
theorem count_frame (k : Nat) (s : State) : ∃ d, count k s = { s with dict := d } := ⟨_, rfl⟩

/-- R497: taking an event changes at most a counter, the log, the causes, and what leaves the module. -/
theorem takeEvent_frame (r : EventRec) (s : State) :
    ∃ d l h b, takeEvent r s = { s with dict := d, lantern := l, host := h, outbox := b } := by
  unfold takeEvent
  dsimp only
  split
  · exact ⟨_, s.lantern, s.host, s.outbox, rfl⟩
  · obtain ⟨h, b, e⟩ := causeErrorEvent_frame (setEvents { s.lantern.events with
      records := s.lantern.events.records ++ [{ r with seq := s.lantern.events.lastSeq + 1 }]
      lastSeq := s.lantern.events.lastSeq + 1, inInterval := s.lantern.events.inInterval + 1
      unflushed := s.lantern.events.unflushed + 1 } s)
    rw [e]
    split
    · exact ⟨s.dict, _, h, _, rfl⟩
    · exact ⟨s.dict, _, h, b, rfl⟩

theorem bufferEvent_frame (r : EventRec) (s : State) :
    ∃ d l, bufferEvent r s = { s with dict := d, lantern := l } := by
  unfold bufferEvent
  dsimp only
  split
  · exact ⟨s.dict, _, rfl⟩
  · exact ⟨_, s.lantern, rfl⟩

/-- Raising an event changes at most a counter, the log, the causes, and what leaves the module. -/
theorem raiseAt_frame (c x n : Nat) (s : State) :
    ∃ d l h b, raiseAt c x n s = { s with dict := d, lantern := l, host := h, outbox := b } := by
  unfold raiseAt
  dsimp only
  split
  · exact takeEvent_frame _ s
  · obtain ⟨d, l, e⟩ := bufferEvent_frame (eventNow c x n s) s
    exact ⟨d, l, s.host, s.outbox, e⟩

theorem raise_frame (c n : Nat) (s : State) :
    ∃ d l h b, raise c n s = { s with dict := d, lantern := l, host := h, outbox := b } := raiseAt_frame c _ n s

theorem raiseOnceAt_frame (c x n : Nat) (s : State) :
    ∃ d l h b, raiseOnceAt c x n s = { s with dict := d, lantern := l, host := h, outbox := b } := by
  unfold raiseOnceAt
  split
  · exact ⟨s.dict, s.lantern, s.host, s.outbox, rfl⟩
  · obtain ⟨d, l, h, b, e⟩ := raiseAt_frame c x n
      (setEvents { s.lantern.events with once := c :: s.lantern.events.once } s)
    exact ⟨d, l, h, b, by rw [e]; rfl⟩

theorem raiseOnce_frame (c n : Nat) (s : State) :
    ∃ d l h b, raiseOnce c n s = { s with dict := d, lantern := l, host := h, outbox := b } := raiseOnceAt_frame c _ n s

theorem raiseOnceRunAt_frame (c x n : Nat) (s : State) :
    ∃ d l h b, raiseOnceRunAt c x n s = { s with dict := d, lantern := l, host := h, outbox := b } := by
  unfold raiseOnceRunAt
  split
  · exact ⟨s.dict, s.lantern, s.host, s.outbox, rfl⟩
  · obtain ⟨d, l, h, b, e⟩ := raiseAt_frame c x n
      (setEvents { s.lantern.events with onceRun := c :: s.lantern.events.onceRun } s)
    exact ⟨d, l, h, b, by rw [e]; rfl⟩

theorem raiseOnceRun_frame (c n : Nat) (s : State) :
    ∃ d l h b, raiseOnceRun c n s = { s with dict := d, lantern := l, host := h, outbox := b } :=
  raiseOnceRunAt_frame c _ n s

@[simp] theorem raiseAt_mem (c x n : Nat) (s : State) : (raiseAt c x n s).mem = s.mem := by
  obtain ⟨d, l, h, b, e⟩ := raiseAt_frame c x n s
  rw [e]

@[simp] theorem raise_mem (c n : Nat) (s : State) : (raise c n s).mem = s.mem := raiseAt_mem _ _ _ s

@[simp] theorem raiseOnce_mem (c n : Nat) (s : State) : (raiseOnce c n s).mem = s.mem := by
  obtain ⟨d, l, h, b, e⟩ := raiseOnce_frame c n s
  rw [e]

@[simp] theorem raiseAt_pending (c x n : Nat) (s : State) : (raiseAt c x n s).pending = s.pending := by
  obtain ⟨d, l, h, b, e⟩ := raiseAt_frame c x n s
  rw [e]

@[simp] theorem raise_pending (c n : Nat) (s : State) : (raise c n s).pending = s.pending := raiseAt_pending _ _ _ s

end Sys2Proof.Machine
end

