-- ==== Sys2Proof/Laws/Exec.lean ====
section
/-!
SUPPORT. What each row does when its command is well formed: one law for each constructor of Instr.
-/
namespace Sys2Proof.Machine

/-! ## CommandRows -/

theorem exec_nop (queue : Nat) (index : Nat) (record : Rec64) (s : State) (h : Instr.wf (.nop queue index record) = true) :
    exec (.nop queue index record) s = .next (withQueue s.pending (settleRun (commandRow queue index record s))) :=
  guarded_next h (fun s => settleRun (commandRow queue index record s)) s

theorem exec_pegSignal (queue : Nat) (index : Nat) (record : Rec64) (s : State) (h : Instr.wf (.pegSignal queue index record) = true) :
    exec (.pegSignal queue index record) s = .next (withQueue s.pending (settleRun (commandRow queue index record s))) :=
  guarded_next h (fun s => settleRun (commandRow queue index record s)) s

theorem exec_pegWait (queue : Nat) (index : Nat) (record : Rec64) (s : State) (h : Instr.wf (.pegWait queue index record) = true) :
    exec (.pegWait queue index record) s = .next (withQueue s.pending (settleRun (commandRow queue index record s))) :=
  guarded_next h (fun s => settleRun (commandRow queue index record s)) s

theorem exec_pegSet (queue : Nat) (index : Nat) (record : Rec64) (s : State) (h : Instr.wf (.pegSet queue index record) = true) :
    exec (.pegSet queue index record) s = .next (withQueue s.pending (settleRun (commandRow queue index record s))) :=
  guarded_next h (fun s => settleRun (commandRow queue index record s)) s

theorem exec_dmaCopy (queue : Nat) (index : Nat) (record : Rec64) (s : State) (h : Instr.wf (.dmaCopy queue index record) = true) :
    exec (.dmaCopy queue index record) s = .next (withQueue s.pending (settleRun (commandRow queue index record s))) :=
  guarded_next h (fun s => settleRun (commandRow queue index record s)) s

theorem exec_dmaTranspose (queue : Nat) (index : Nat) (record : Rec64) (s : State) (h : Instr.wf (.dmaTranspose queue index record) = true) :
    exec (.dmaTranspose queue index record) s = .next (withQueue s.pending (settleRun (commandRow queue index record s))) :=
  guarded_next h
    (fun s => settleRun (commandRow queue index record s)) s

theorem exec_rucksackPush (queue : Nat) (index : Nat) (record : Rec64) (s : State) (h : Instr.wf (.rucksackPush queue index record) = true) :
    exec (.rucksackPush queue index record) s = .next (withQueue s.pending (settleRun (commandRow queue index record s))) :=
  guarded_next h
    (fun s => settleRun (commandRow queue index record s)) s

theorem exec_rucksackPop (queue : Nat) (index : Nat) (record : Rec64) (s : State) (h : Instr.wf (.rucksackPop queue index record) = true) :
    exec (.rucksackPop queue index record) s = .next (withQueue s.pending (settleRun (commandRow queue index record s))) :=
  guarded_next h
    (fun s => settleRun (commandRow queue index record s)) s

theorem exec_gemm (queue : Nat) (index : Nat) (record : Rec64) (s : State) (h : Instr.wf (.gemm queue index record) = true) :
    exec (.gemm queue index record) s = .next (withQueue s.pending (settleRun (commandRow queue index record s))) :=
  guarded_next h (fun s => settleRun (commandRow queue index record s)) s

theorem exec_rowRead (queue : Nat) (index : Nat) (record : Rec64) (s : State) (h : Instr.wf (.rowRead queue index record) = true) :
    exec (.rowRead queue index record) s = .next (withQueue s.pending (settleRun (commandRow queue index record s))) :=
  guarded_next h (fun s => settleRun (commandRow queue index record s)) s

theorem exec_rowWrite (queue : Nat) (index : Nat) (record : Rec64) (s : State) (h : Instr.wf (.rowWrite queue index record) = true) :
    exec (.rowWrite queue index record) s = .next (withQueue s.pending (settleRun (commandRow queue index record s))) :=
  guarded_next h (fun s => settleRun (commandRow queue index record s)) s

theorem exec_rowFreeze (queue : Nat) (index : Nat) (record : Rec64) (s : State) (h : Instr.wf (.rowFreeze queue index record) = true) :
    exec (.rowFreeze queue index record) s = .next (withQueue s.pending (settleRun (commandRow queue index record s))) :=
  guarded_next h (fun s => settleRun (commandRow queue index record s)) s

theorem exec_rowReset (queue : Nat) (index : Nat) (record : Rec64) (s : State) (h : Instr.wf (.rowReset queue index record) = true) :
    exec (.rowReset queue index record) s = .next (withQueue s.pending (settleRun (commandRow queue index record s))) :=
  guarded_next h (fun s => settleRun (commandRow queue index record s)) s

theorem exec_rowengFwd (queue : Nat) (index : Nat) (record : Rec64) (s : State) (h : Instr.wf (.rowengFwd queue index record) = true) :
    exec (.rowengFwd queue index record) s = .next (withQueue s.pending (settleRun (commandRow queue index record s))) :=
  guarded_next h (fun s => settleRun (commandRow queue index record s)) s

theorem exec_rowengBwd (queue : Nat) (index : Nat) (record : Rec64) (s : State) (h : Instr.wf (.rowengBwd queue index record) = true) :
    exec (.rowengBwd queue index record) s = .next (withQueue s.pending (settleRun (commandRow queue index record s))) :=
  guarded_next h (fun s => settleRun (commandRow queue index record s)) s

theorem exec_gatherPool (queue : Nat) (index : Nat) (record : Rec64) (s : State) (h : Instr.wf (.gatherPool queue index record) = true) :
    exec (.gatherPool queue index record) s = .next (withQueue s.pending (settleRun (commandRow queue index record s))) :=
  guarded_next h
    (fun s => settleRun (commandRow queue index record s)) s

theorem exec_gradScatter (queue : Nat) (index : Nat) (record : Rec64) (s : State) (h : Instr.wf (.gradScatter queue index record) = true) :
    exec (.gradScatter queue index record) s = .next (withQueue s.pending (settleRun (commandRow queue index record s))) :=
  guarded_next h
    (fun s => settleRun (commandRow queue index record s)) s

theorem exec_denseReduce (queue : Nat) (index : Nat) (record : Rec64) (s : State) (h : Instr.wf (.denseReduce queue index record) = true) :
    exec (.denseReduce queue index record) s = .next (withQueue s.pending (settleRun (commandRow queue index record s))) :=
  guarded_next h
    (fun s => settleRun (commandRow queue index record s)) s

theorem exec_sched (queue : Nat) (index : Nat) (record : Rec64) (s : State) (h : Instr.wf (.sched queue index record) = true) :
    exec (.sched queue index record) s = .next (withQueue s.pending (settleRun (commandRow queue index record s))) :=
  guarded_next h (fun s => settleRun (commandRow queue index record s)) s

theorem exec_checkScan (queue : Nat) (index : Nat) (record : Rec64) (s : State) (h : Instr.wf (.checkScan queue index record) = true) :
    exec (.checkScan queue index record) s = .next (withQueue s.pending (settleRun (commandRow queue index record s))) :=
  guarded_next h (fun s => settleRun (commandRow queue index record s)) s

theorem exec_genSetup (queue : Nat) (index : Nat) (record : Rec64) (s : State) (h : Instr.wf (.genSetup queue index record) = true) :
    exec (.genSetup queue index record) s = .next (withQueue s.pending (settleRun (commandRow queue index record s))) :=
  guarded_next h (fun s => settleRun (commandRow queue index record s)) s

theorem exec_genCut (queue : Nat) (index : Nat) (record : Rec64) (s : State) (h : Instr.wf (.genCut queue index record) = true) :
    exec (.genCut queue index record) s = .next (withQueue s.pending (settleRun (commandRow queue index record s))) :=
  guarded_next h (fun s => settleRun (commandRow queue index record s)) s

theorem exec_genExport (queue : Nat) (index : Nat) (record : Rec64) (s : State) (h : Instr.wf (.genExport queue index record) = true) :
    exec (.genExport queue index record) s = .next (withQueue s.pending (settleRun (commandRow queue index record s))) :=
  guarded_next h (fun s => settleRun (commandRow queue index record s)) s

theorem exec_genRelease (queue : Nat) (index : Nat) (record : Rec64) (s : State) (h : Instr.wf (.genRelease queue index record) = true) :
    exec (.genRelease queue index record) s = .next (withQueue s.pending (settleRun (commandRow queue index record s))) :=
  guarded_next h
    (fun s => settleRun (commandRow queue index record s)) s

theorem exec_feedBind (queue : Nat) (index : Nat) (record : Rec64) (s : State) (h : Instr.wf (.feedBind queue index record) = true) :
    exec (.feedBind queue index record) s = .next (withQueue s.pending (settleRun (commandRow queue index record s))) :=
  guarded_next h (fun s => settleRun (commandRow queue index record s)) s

theorem exec_load (queue : Nat) (index : Nat) (record : Rec64) (s : State) (h : Instr.wf (.load queue index record) = true) :
    exec (.load queue index record) s = .next (withQueue s.pending (settleRun (commandRow queue index record s))) :=
  guarded_next h (fun s => settleRun (commandRow queue index record s)) s

theorem exec_unload (queue : Nat) (index : Nat) (record : Rec64) (s : State) (h : Instr.wf (.unload queue index record) = true) :
    exec (.unload queue index record) s = .next (withQueue s.pending (settleRun (commandRow queue index record s))) :=
  guarded_next h (fun s => settleRun (commandRow queue index record s)) s

/-! ## DictRows -/

theorem exec_portEnableMaskWrite (path : Path) (value : Nat) (s : State) (h : Instr.wf (.portEnableMaskWrite path value) = true) :
    exec (.portEnableMaskWrite path value) s = .next (withQueue s.pending (requestNumber path E.PORT_ENABLE_MASK 1 value s)) :=
  guarded_next h (fun s => requestNumber path E.PORT_ENABLE_MASK 1 value s) s

theorem exec_routeTableCommit (path : Path) (value : Nat) (s : State) (h : Instr.wf (.routeTableCommit path value) = true) :
    exec (.routeTableCommit path value) s = .next (withQueue s.pending (requestNumber path E.ROUTE_TABLE_COMMIT 1 value s)) :=
  guarded_next h (fun s => requestNumber path E.ROUTE_TABLE_COMMIT 1 value s) s

theorem exec_torusDimWrite (path : Path) (axis : Nat) (value : Nat) (s : State) (h : Instr.wf (.torusDimWrite path axis value) = true) :
    exec (.torusDimWrite path axis value) s = .next (withQueue s.pending (requestNumber path (E.TORUS_DIM_X + axis) 1 value s)) :=
  guarded_next h
    (fun s => requestNumber path (E.TORUS_DIM_X + axis) 1 value s) s

theorem exec_coordTableWrite (path : Path) (first : Nat) (data : Bytes) (s : State) (h : Instr.wf (.coordTableWrite path first data) = true) :
    exec (.coordTableWrite path first data) s =
      .next (withQueue s.pending (requestWrite path (E.COORD_TABLE / 256) (E.COORD_TABLE % 256) (2 * first) data s)) :=
  guarded_next h
    (fun s => requestWrite path (E.COORD_TABLE / 256) (E.COORD_TABLE % 256) (2 * first) data s) s

theorem exec_watchRingTailWrite (path : Path) (value : Nat) (s : State) (h : Instr.wf (.watchRingTailWrite path value) = true) :
    exec (.watchRingTailWrite path value) s = .next (withQueue s.pending (requestNumber path E.WATCH_RING_TAIL 8 value s)) :=
  guarded_next h (fun s => requestNumber path E.WATCH_RING_TAIL 8 value s) s

theorem exec_watchHistoryReset (path : Path) (value : Nat) (s : State) (h : Instr.wf (.watchHistoryReset path value) = true) :
    exec (.watchHistoryReset path value) s = .next (withQueue s.pending (requestNumber path E.WATCH_HISTORY_RESET 2 value s)) :=
  guarded_next h (fun s => requestNumber path E.WATCH_HISTORY_RESET 2 value s) s

theorem exec_watchResume (path : Path) (value : Nat) (s : State) (h : Instr.wf (.watchResume path value) = true) :
    exec (.watchResume path value) s = .next (withQueue s.pending (requestNumber path E.WATCH_RESUME 1 value s)) :=
  guarded_next h (fun s => requestNumber path E.WATCH_RESUME 1 value s) s

theorem exec_stepAgreeResume (path : Path) (value : Nat) (s : State) (h : Instr.wf (.stepAgreeResume path value) = true) :
    exec (.stepAgreeResume path value) s = .next (withQueue s.pending (requestNumber path E.STEP_AGREE_RESUME 1 value s)) :=
  guarded_next h (fun s => requestNumber path E.STEP_AGREE_RESUME 1 value s) s

theorem exec_tsetT (path : Path) (value : Nat) (s : State) (h : Instr.wf (.tsetT path value) = true) :
    exec (.tsetT path value) s = .next (withQueue s.pending (requestNumber path E.TSET_T 8 value s)) :=
  guarded_next h (fun s => requestNumber path E.TSET_T 8 value s) s

theorem exec_salvage (path : Path) (value : Nat) (s : State) (h : Instr.wf (.salvage path value) = true) :
    exec (.salvage path value) s = .next (withQueue s.pending (requestNumber path E.SALVAGE 1 value s)) :=
  guarded_next h (fun s => requestNumber path E.SALVAGE 1 value s) s

theorem exec_odpRequest (source : Nat) (data : Bytes) (s : State) (h : Instr.wf (.odpRequest source data) = true) :
    exec (.odpRequest source data) s = .next (withQueue s.pending (odpRequest source data s)) :=
  guarded_next h (fun s => odpRequest source data s) s

theorem exec_odpRead (path : Path) (index : Nat) (sub : Nat) (s : State) (h : Instr.wf (.odpRead path index sub) = true) :
    exec (.odpRead path index sub) s = .next (withQueue s.pending (requestRead path index sub s)) :=
  guarded_next h (fun s => requestRead path index sub s) s

theorem exec_odpWrite (path : Path) (index : Nat) (sub : Nat) (data : Bytes) (s : State) (h : Instr.wf (.odpWrite path index sub data) = true) :
    exec (.odpWrite path index sub data) s = .next (withQueue s.pending (requestWrite path index sub 0 data s)) :=
  guarded_next h
    (fun s => requestWrite path index sub 0 data s) s

theorem exec_describe (path : Path) (index : Nat) (sub : Nat) (s : State) (h : Instr.wf (.describe path index sub) = true) :
    exec (.describe path index sub) s = .next (withQueue s.pending (requestDescribe path index sub s)) :=
  guarded_next h (fun s => requestDescribe path index sub s) s

theorem exec_stage (path : Path) (index : Nat) (sub : Nat) (data : Bytes) (s : State) (h : Instr.wf (.stage path index sub data) = true) :
    exec (.stage path index sub data) s = .next (withQueue s.pending (requestStage path index sub data s)) :=
  guarded_next h
    (fun s => requestStage path index sub data s) s

theorem exec_registerWrite (target : RegTarget) (s : State) (h : Instr.wf (.registerWrite target) = true) :
    exec (.registerWrite target) s = .next (withQueue s.pending (registerWrite target s)) :=
  guarded_next h (fun s => registerWrite target s) s

theorem exec_i3cPrivateWrite (data : Bytes) (s : State) (h : Instr.wf (.i3cPrivateWrite data) = true) :
    exec (.i3cPrivateWrite data) s = .next (withQueue s.pending (i3cWrite data s)) :=
  guarded_next h (fun s => i3cWrite data s) s

theorem exec_i3cPrivateRead (s : State) (h : Instr.wf .i3cPrivateRead = true) :
    exec .i3cPrivateRead s = .next (withQueue s.pending (i3cRead s)) :=
  guarded_next h (fun s => i3cRead s) s

theorem exec_i3cAddressAssign (address : Nat) (inBand : Bool) (s : State) (h : Instr.wf (.i3cAddressAssign address inBand) = true) :
    exec (.i3cAddressAssign address inBand) s = .next (withQueue s.pending (i3cAssign address inBand s)) :=
  guarded_next h (fun s => i3cAssign address inBand s) s

theorem exec_uartConsoleCommand (write : Bool) (index : Nat) (sub : Nat) (data : Bytes) (s : State) (h : Instr.wf (.uartConsoleCommand write index sub data) = true) :
    exec (.uartConsoleCommand write index sub data) s = .next (withQueue s.pending (uartCommand write index sub data s)) :=
  guarded_next h
    (fun s => uartCommand write index sub data s) s

theorem exec_setCommit (path : Path) (value : Nat) (s : State) (h : Instr.wf (.setCommit path value) = true) :
    exec (.setCommit path value) s = .next (withQueue s.pending (requestNumber path E.SET_COMMIT 8 value s)) :=
  guarded_next h (fun s => requestNumber path E.SET_COMMIT 8 value s) s

theorem exec_setRevert (path : Path) (value : Nat) (s : State) (h : Instr.wf (.setRevert path value) = true) :
    exec (.setRevert path value) s = .next (withQueue s.pending (requestNumber path E.SET_REVERT 4 value s)) :=
  guarded_next h (fun s => requestNumber path E.SET_REVERT 4 value s) s

theorem exec_setConfirm (path : Path) (value : Nat) (s : State) (h : Instr.wf (.setConfirm path value) = true) :
    exec (.setConfirm path value) s = .next (withQueue s.pending (requestNumber path E.SET_CONFIRM 4 value s)) :=
  guarded_next h (fun s => requestNumber path E.SET_CONFIRM 4 value s) s

theorem exec_setClear (path : Path) (value : Nat) (s : State) (h : Instr.wf (.setClear path value) = true) :
    exec (.setClear path value) s = .next (withQueue s.pending (requestNumber path E.SET_CLEAR 1 value s)) :=
  guarded_next h (fun s => requestNumber path E.SET_CLEAR 1 value s) s

theorem exec_setConfirmTimeout (s : State) (h : Instr.wf .setConfirmTimeout = true) :
    exec .setConfirmTimeout s = .next (withQueue s.pending (confirmTimeout s)) :=
  guarded_next h (fun s => confirmTimeout s) s

theorem exec_faultCodeClear (path : Path) (value : Nat) (s : State) (h : Instr.wf (.faultCodeClear path value) = true) :
    exec (.faultCodeClear path value) s = .next (withQueue s.pending (requestNumber path E.FAULT_CODE 2 value s)) :=
  guarded_next h (fun s => requestNumber path E.FAULT_CODE 2 value s) s

theorem exec_countersClearAll (path : Path) (value : Nat) (s : State) (h : Instr.wf (.countersClearAll path value) = true) :
    exec (.countersClearAll path value) s = .next (withQueue s.pending (requestNumber path E.COUNTERS_CLEAR_ALL 1 value s)) :=
  guarded_next h (fun s => requestNumber path E.COUNTERS_CLEAR_ALL 1 value s) s

/-! ## FabricRows -/

theorem exec_packetTransit (port : Nat) (packet : Packet) (s : State) (h : Instr.wf (.packetTransit port packet) = true) :
    exec (.packetTransit port packet) s = .next (withQueue s.pending (transit port packet s)) :=
  guarded_next h (fun s => transit port packet s) s

theorem exec_read (packet : Packet) (upsets : List Upset) (s : State) (h : Instr.wf (.read packet upsets) = true) :
    exec (.read packet upsets) s = .next (withQueue s.pending (arrive packet (readRow packet upsets) s)) :=
  guarded_next h (fun s => arrive packet (readRow packet upsets) s) s

theorem exec_write (packet : Packet) (s : State) (h : Instr.wf (.write packet) = true) :
    exec (.write packet) s = .next (withQueue s.pending (arrive packet (writeRow packet) s)) :=
  guarded_next h (fun s => arrive packet (writeRow packet) s) s

theorem exec_atomicAdd (packet : Packet) (s : State) (h : Instr.wf (.atomicAdd packet) = true) :
    exec (.atomicAdd packet) s = .next (withQueue s.pending (arrive packet (atomicAddRow packet) s)) :=
  guarded_next h (fun s => arrive packet (atomicAddRow packet) s) s

theorem exec_fabricPegSignal (packet : Packet) (s : State) (h : Instr.wf (.fabricPegSignal packet) = true) :
    exec (.fabricPegSignal packet) s = .next (withQueue s.pending (arrive packet (fabricPegSignalRow packet) s)) :=
  guarded_next h (fun s => arrive packet (fabricPegSignalRow packet) s) s

theorem exec_poisonedWrite (packet : Packet) (s : State) (h : Instr.wf (.poisonedWrite packet) = true) :
    exec (.poisonedWrite packet) s = .next (withQueue s.pending (arrive packet (poisonedWriteRow packet) s)) :=
  guarded_next h (fun s => arrive packet (poisonedWriteRow packet) s) s

theorem exec_responseReceive (reply : Reply) (s : State) (h : Instr.wf (.responseReceive reply) = true) :
    exec (.responseReceive reply) s = .next (withQueue s.pending (responseArrival reply s)) :=
  guarded_next h (fun s => responseArrival reply s) s

theorem exec_fabricRequestTimeout (guyline : Bool) (die : Nat) (tag : Nat) (s : State) (h : Instr.wf (.fabricRequestTimeout guyline die tag) = true) :
    exec (.fabricRequestTimeout guyline die tag) s = .next (withQueue s.pending (fabricTimeout guyline die tag s)) :=
  guarded_next h
    (fun s => fabricTimeout guyline die tag s) s

theorem exec_retryBackoffExpiry (retry : Retry) (s : State) (h : Instr.wf (.retryBackoffExpiry retry) = true) :
    exec (.retryBackoffExpiry retry) s = .next (withQueue s.pending (retryBackoff retry s)) :=
  guarded_next h (fun s => retryBackoff retry s) s

theorem exec_messageFragmentReceive (packet : Packet) (s : State) (h : Instr.wf (.messageFragmentReceive packet) = true) :
    exec (.messageFragmentReceive packet) s = .next (withQueue s.pending (settleRun (arrive packet (fragmentReceive hasRoom packet) s))) :=
  guarded_next h
    (fun s => settleRun (arrive packet (fragmentReceive hasRoom packet) s)) s

theorem exec_dupFilterEntryExpiry (die : Nat) (src : Nat) (srcDie : Nat) (tag : Nat) (s : State) (h : Instr.wf (.dupFilterEntryExpiry die src srcDie tag) = true) :
    exec (.dupFilterEntryExpiry die src srcDie tag) s = .next (withQueue s.pending (dupExpiry die src srcDie tag s)) :=
  guarded_next h
    (fun s => dupExpiry die src srcDie tag s) s

/-! ## HostRows -/

theorem exec_causeClear (mask : Nat) (s : State) (h : Instr.wf (.causeClear mask) = true) :
    exec (.causeClear mask) s = .next (withQueue s.pending (clearCauses mask s)) :=
  guarded_next h (fun s => clearCauses mask s) s

theorem exec_bar2Read (offset : Nat) (length : Nat) (s : State) (h : Instr.wf (.bar2Read offset length) = true) :
    exec (.bar2Read offset length) s = .next (withQueue s.pending (settleRun (readBar2 offset length s))) :=
  guarded_next h (fun s => settleRun (readBar2 offset length s)) s

theorem exec_bar2Write (offset : Nat) (data : Bytes) (poison : Bool) (s : State) (h : Instr.wf (.bar2Write offset data poison) = true) :
    exec (.bar2Write offset data poison) s = .next (withQueue s.pending (settleRun (writeBar2 offset data poison s))) :=
  guarded_next h
    (fun s => settleRun (writeBar2 offset data poison s)) s

theorem exec_intakeWindowWrite (requester : Nat) (offset : Nat) (data : Bytes) (poison : Bool) (s : State) (h : Instr.wf (.intakeWindowWrite requester offset data poison) = true) :
    exec (.intakeWindowWrite requester offset data poison) s =
      .next (withQueue s.pending (settleRun (intakeWrite requester offset data poison s))) :=
  guarded_next h
    (fun s => settleRun (intakeWrite requester offset data poison s)) s

theorem exec_exportWindowRead (offset : Nat) (length : Nat) (s : State) (h : Instr.wf (.exportWindowRead offset length) = true) :
    exec (.exportWindowRead offset length) s = .next (withQueue s.pending (settleRun (exportRead offset length s))) :=
  guarded_next h (fun s => settleRun (exportRead offset length s)) s

theorem exec_intakeProducerWrite (ring : Nat) (size : Nat) (value : Nat) (s : State) (h : Instr.wf (.intakeProducerWrite ring size value) = true) :
    exec (.intakeProducerWrite ring size value) s = .next (withQueue s.pending (settleRun (producerWrite ring size value s))) :=
  guarded_next h
    (fun s => settleRun (producerWrite ring size value s)) s

theorem exec_consumedStepWrite (ring : Nat) (value : Nat) (s : State) (h : Instr.wf (.consumedStepWrite ring value) = true) :
    exec (.consumedStepWrite ring value) s = .next (withQueue s.pending (settleRun (consumedStepWrite ring value s))) :=
  guarded_next h (fun s => settleRun (consumedStepWrite ring value s)) s

theorem exec_ringEnable (ring : Nat) (s : State) (h : Instr.wf (.ringEnable ring) = true) :
    exec (.ringEnable ring) s = .next (withQueue s.pending (enableRing ring s)) :=
  guarded_next h (fun s => enableRing ring s) s

theorem exec_ringDisable (ring : Nat) (s : State) (h : Instr.wf (.ringDisable ring) = true) :
    exec (.ringDisable ring) s = .next (withQueue s.pending (ringDisable ring s)) :=
  guarded_next h (fun s => ringDisable ring s) s

theorem exec_feedExportPublish (tableSet : Nat) (s : State) (h : Instr.wf (.feedExportPublish tableSet) = true) :
    exec (.feedExportPublish tableSet) s = .next (withQueue s.pending (settleRun (feedPublish tableSet s))) :=
  guarded_next h (fun s => settleRun (feedPublish tableSet s)) s

theorem exec_mailboxGo (s : State) (h : Instr.wf .mailboxGo = true) :
    exec .mailboxGo s = .next (withQueue s.pending (settleRun (mailboxGo s))) :=
  guarded_next h (fun s => settleRun (mailboxGo s)) s

theorem exec_pcieLinkExitL0 (s : State) (h : Instr.wf .pcieLinkExitL0 = true) :
    exec .pcieLinkExitL0 s = .next (withQueue s.pending (linkExit s)) :=
  guarded_next h (fun s => linkExit s) s

theorem exec_pcieLinkReturnL0 (s : State) (h : Instr.wf .pcieLinkReturnL0 = true) :
    exec .pcieLinkReturnL0 s = .next (withQueue s.pending (settleRun (linkReturn s))) :=
  guarded_next h (fun s => settleRun (linkReturn s)) s

theorem exec_hostLossTimeout (s : State) (h : Instr.wf .hostLossTimeout = true) :
    exec .hostLossTimeout s = .next (withQueue s.pending (settleRun (lossTimeout s))) :=
  guarded_next h (fun s => settleRun (lossTimeout s)) s

theorem exec_perstAssert (s : State) (h : Instr.wf .perstAssert = true) :
    exec .perstAssert s = .next (withQueue s.pending (settleRun (perstOn s))) :=
  guarded_next h (fun s => settleRun (perstOn s)) s

theorem exec_perstDeassert (s : State) (h : Instr.wf .perstDeassert = true) :
    exec .perstDeassert s = .next (withQueue s.pending (settleRun (perstOff s))) :=
  guarded_next h (fun s => settleRun (perstOff s)) s

theorem exec_functionLevelReset (s : State) (h : Instr.wf .functionLevelReset = true) :
    exec .functionLevelReset s = .next (withQueue s.pending (settleRun (functionReset s))) :=
  guarded_next h (fun s => settleRun (functionReset s)) s

theorem exec_pcieHotReset (s : State) (h : Instr.wf .pcieHotReset = true) :
    exec .pcieHotReset s = .next (withQueue s.pending (settleRun (hotReset s))) :=
  guarded_next h (fun s => settleRun (hotReset s)) s

theorem exec_d3hotEntry (s : State) (h : Instr.wf .d3hotEntry = true) :
    exec .d3hotEntry s = .next (withQueue s.pending (settleRun (enterD3hot s))) :=
  guarded_next h (fun s => settleRun (enterD3hot s)) s

theorem exec_configurationWrite (busMaster : Bool) (functionMask : Bool) (d3hot : Bool) (s : State) (h : Instr.wf (.configurationWrite busMaster functionMask d3hot) = true) :
    exec (.configurationWrite busMaster functionMask d3hot) s =
      .next (withQueue s.pending (settleRun (configWrite busMaster functionMask d3hot s))) :=
  guarded_next h
    (fun s => settleRun (configWrite busMaster functionMask d3hot s)) s

/-! ## LanternRows -/

theorem exec_lanternFault (s : State) (h : Instr.wf .lanternFault = true) :
    exec .lanternFault s = .next (withQueue s.pending (lanternFault s)) :=
  guarded_next h (fun s => lanternFault s) s

theorem exec_lanternServing (s : State) (h : Instr.wf .lanternServing = true) :
    exec .lanternServing s = .next (withQueue s.pending (lanternServing s)) :=
  guarded_next h (fun s => lanternServing s) s

theorem exec_fwBegin (path : Path) (s : State) (h : Instr.wf (.fwBegin path) = true) :
    exec (.fwBegin path) s = .next (withQueue s.pending (requestNumber path E.FW_UPDATE_CONTROL 1 1 s)) :=
  guarded_next h (fun s => requestNumber path E.FW_UPDATE_CONTROL 1 1 s) s

theorem exec_fwUpdateData (path : Path) (offset : Nat) (data : Bytes) (s : State) (h : Instr.wf (.fwUpdateData path offset data) = true) :
    exec (.fwUpdateData path offset data) s =
      .next (withQueue s.pending (requestWrite path (E.FW_UPDATE_DATA / 256) (E.FW_UPDATE_DATA % 256) offset data s)) :=
  guarded_next h
    (fun s => requestWrite path (E.FW_UPDATE_DATA / 256) (E.FW_UPDATE_DATA % 256) offset data s) s

theorem exec_fwVerify (path : Path) (s : State) (h : Instr.wf (.fwVerify path) = true) :
    exec (.fwVerify path) s = .next (withQueue s.pending (requestNumber path E.FW_UPDATE_CONTROL 1 2 s)) :=
  guarded_next h (fun s => requestNumber path E.FW_UPDATE_CONTROL 1 2 s) s

theorem exec_fwVerifyDone (s : State) (h : Instr.wf .fwVerifyDone = true) :
    exec .fwVerifyDone s = .next (withQueue s.pending (fwVerifyDone s)) :=
  guarded_next h (fun s => fwVerifyDone s) s

theorem exec_fwActivate (path : Path) (s : State) (h : Instr.wf (.fwActivate path) = true) :
    exec (.fwActivate path) s = .next (withQueue s.pending (requestNumber path E.FW_UPDATE_CONTROL 1 3 s)) :=
  guarded_next h (fun s => requestNumber path E.FW_UPDATE_CONTROL 1 3 s) s

theorem exec_fwAbort (path : Path) (s : State) (h : Instr.wf (.fwAbort path) = true) :
    exec (.fwAbort path) s = .next (withQueue s.pending (requestNumber path E.FW_UPDATE_CONTROL 1 4 s)) :=
  guarded_next h (fun s => requestNumber path E.FW_UPDATE_CONTROL 1 4 s) s

theorem exec_fwConfirm (path : Path) (value : Nat) (s : State) (h : Instr.wf (.fwConfirm path value) = true) :
    exec (.fwConfirm path value) s = .next (withQueue s.pending (requestNumber path E.FW_CONFIRM 1 value s)) :=
  guarded_next h (fun s => requestNumber path E.FW_CONFIRM 1 value s) s

theorem exec_getVersion (request : Bytes) (s : State) (h : Instr.wf (.getVersion request) = true) :
    exec (.getVersion request) s = .next (withQueue s.pending (spdm 0 request s)) :=
  guarded_next h (fun s => spdm 0 request s) s

theorem exec_getCapabilities (request : Bytes) (s : State) (h : Instr.wf (.getCapabilities request) = true) :
    exec (.getCapabilities request) s = .next (withQueue s.pending (spdm 1 request s)) :=
  guarded_next h (fun s => spdm 1 request s) s

theorem exec_negotiateAlgorithms (request : Bytes) (s : State) (h : Instr.wf (.negotiateAlgorithms request) = true) :
    exec (.negotiateAlgorithms request) s = .next (withQueue s.pending (spdm 2 request s)) :=
  guarded_next h (fun s => spdm 2 request s) s

theorem exec_getDigests (request : Bytes) (s : State) (h : Instr.wf (.getDigests request) = true) :
    exec (.getDigests request) s = .next (withQueue s.pending (spdm 3 request s)) :=
  guarded_next h (fun s => spdm 3 request s) s

theorem exec_getCertificate (request : Bytes) (s : State) (h : Instr.wf (.getCertificate request) = true) :
    exec (.getCertificate request) s = .next (withQueue s.pending (spdm 4 request s)) :=
  guarded_next h (fun s => spdm 4 request s) s

theorem exec_challenge (request : Bytes) (s : State) (h : Instr.wf (.challenge request) = true) :
    exec (.challenge request) s = .next (withQueue s.pending (spdm 5 request s)) :=
  guarded_next h (fun s => spdm 5 request s) s

theorem exec_getMeasurements (request : Bytes) (s : State) (h : Instr.wf (.getMeasurements request) = true) :
    exec (.getMeasurements request) s = .next (withQueue s.pending (spdm 6 request s)) :=
  guarded_next h (fun s => spdm 6 request s) s

theorem exec_spdmUnsupported (request : Bytes) (s : State) (h : Instr.wf (.spdmUnsupported request) = true) :
    exec (.spdmUnsupported request) s = .next (withQueue s.pending (spdm 7 request s)) :=
  guarded_next h (fun s => spdm 7 request s) s

theorem exec_eventRateInterval (s : State) (h : Instr.wf .eventRateInterval = true) :
    exec .eventRateInterval s = .next (withQueue s.pending (rateInterval s)) :=
  guarded_next h (fun s => rateInterval s) s

theorem exec_eventLogFlashWrite (s : State) (h : Instr.wf .eventLogFlashWrite = true) :
    exec .eventLogFlashWrite s = .next (withQueue s.pending (flushEvents s)) :=
  guarded_next h (fun s => flushEvents s) s

theorem exec_eventRecords (path : Path) (s : State) (h : Instr.wf (.eventRecords path) = true) :
    exec (.eventRecords path) s = .next (withQueue s.pending (requestEvents path s)) :=
  guarded_next h (fun s => requestEvents path s) s

theorem exec_ptpMessage (message : PtpMsg) (offsetNs : Int) (locked : Bool) (s : State) (h : Instr.wf (.ptpMessage message offsetNs locked) = true) :
    exec (.ptpMessage message offsetNs locked) s = .next (withQueue s.pending (ptpMessage message offsetNs locked s)) :=
  guarded_next h
    (fun s => ptpMessage message offsetNs locked s) s

theorem exec_ptpUnlocked (s : State) (h : Instr.wf .ptpUnlocked = true) :
    exec .ptpUnlocked s = .next (withQueue s.pending (ptpLost s)) :=
  guarded_next h (fun s => ptpLost s) s

/-! ## LinkRows -/

theorem exec_dataFlitReceive (port : Nat) (flit : Flit) (code : Codeword) (s : State) (h : Instr.wf (.dataFlitReceive port flit code) = true) :
    exec (.dataFlitReceive port flit code) s = .next (withQueue s.pending (flitReceive port flit code s)) :=
  guarded_next h
    (fun s => flitReceive port flit code s) s

theorem exec_controlFlitReceive (port : Nat) (flit : Control) (s : State) (h : Instr.wf (.controlFlitReceive port flit) = true) :
    exec (.controlFlitReceive port flit) s = .next (withQueue s.pending (controlReceive port flit s)) :=
  guarded_next h (fun s => controlReceive port flit s) s

theorem exec_nakReceive (port : Nat) (flit : Control) (s : State) (h : Instr.wf (.nakReceive port flit) = true) :
    exec (.nakReceive port flit) s = .next (withQueue s.pending (nakReceive port flit s)) :=
  guarded_next h (fun s => nakReceive port flit s) s

theorem exec_trainFlitReceive (port : Nat) (record : TrainRec) (s : State) (h : Instr.wf (.trainFlitReceive port record) = true) :
    exec (.trainFlitReceive port record) s = .next (withQueue s.pending (trainReceive port record s)) :=
  guarded_next h (fun s => trainReceive port record s) s

theorem exec_heartbeatReceive (port : Nat) (moduleNumber : Nat) (modState : Nat) (twinState : Nat) (axis : W64) (runId : Nat) (s : State) (h : Instr.wf (.heartbeatReceive port moduleNumber modState twinState axis runId) = true) :
    exec (.heartbeatReceive port moduleNumber modState twinState axis runId) s =
      .next (withQueue s.pending (settleRun (heartbeat ⟨moduleNumber, modState, twinState, axis, runId⟩ s))) :=
  guarded_next h
    (fun s => settleRun (heartbeat ⟨moduleNumber, modState, twinState, axis, runId⟩ s)) s

theorem exec_controlFlitInterval (port : Nat) (s : State) (h : Instr.wf (.controlFlitInterval port) = true) :
    exec (.controlFlitInterval port) s = .next (withQueue s.pending (controlInterval port s)) :=
  guarded_next h (fun s => controlInterval port s) s

theorem exec_linkRetryExpiry (port : Nat) (s : State) (h : Instr.wf (.linkRetryExpiry port) = true) :
    exec (.linkRetryExpiry port) s = .next (withQueue s.pending (retryExpiry port s)) :=
  guarded_next h (fun s => retryExpiry port s) s

theorem exec_codewordLockLoss (port : Nat) (s : State) (h : Instr.wf (.codewordLockLoss port) = true) :
    exec (.codewordLockLoss port) s = .next (withQueue s.pending (retrain port s)) :=
  guarded_next h (fun s => retrain port s) s

theorem exec_portTrainingDone (port : Nat) (s : State) (h : Instr.wf (.portTrainingDone port) = true) :
    exec (.portTrainingDone port) s = .next (withQueue s.pending (settleRun (portTrained port s))) :=
  guarded_next h (fun s => settleRun (portTrained port s)) s

theorem exec_retrainTimeout (port : Nat) (s : State) (h : Instr.wf (.retrainTimeout port) = true) :
    exec (.retrainTimeout port) s = .next (withQueue s.pending (settleRun (retrainFailed port s))) :=
  guarded_next h (fun s => settleRun (retrainFailed port s)) s

theorem exec_linkDownRetryExpiry (port : Nat) (s : State) (h : Instr.wf (.linkDownRetryExpiry port) = true) :
    exec (.linkDownRetryExpiry port) s = .next (withQueue s.pending (trainAgain port s)) :=
  guarded_next h (fun s => trainAgain port s) s

/-! ## MemoryRows -/

theorem exec_parityFlushExpiry (page : Nat) (s : State) (h : Instr.wf (.parityFlushExpiry page) = true) :
    exec (.parityFlushExpiry page) s = .next (withQueue s.pending (settleRun (parityFlush page s))) :=
  guarded_next h (fun s => settleRun (parityFlush page s)) s

theorem exec_burnisherPageCheck (region : Nat) (tier : Nat) (upsets : List Upset) (s : State) (h : Instr.wf (.burnisherPageCheck region tier upsets) = true) :
    exec (.burnisherPageCheck region tier upsets) s =
      .next (withQueue s.pending (settleRun (burnisherPage region tier (withUpsets upsets s)))) :=
  guarded_next h
    (fun s => settleRun (burnisherPage region tier (withUpsets upsets s))) s

theorem exec_burnisherLapAlarm (region : Nat) (tier : Nat) (s : State) (h : Instr.wf (.burnisherLapAlarm region tier) = true) :
    exec (.burnisherLapAlarm region tier) s = .next (withQueue s.pending (lapAlarm region tier s)) :=
  guarded_next h (fun s => lapAlarm region tier s) s

theorem exec_checkScanRun (die : Nat) (s : State) (h : Instr.wf (.checkScanRun die) = true) :
    exec (.checkScanRun die) s = .next (withQueue s.pending (settleRun (runScan die s))) :=
  guarded_next h (fun s => settleRun (runScan die s)) s

theorem exec_proofRecompute (region : Nat) (s : State) (h : Instr.wf (.proofRecompute region) = true) :
    exec (.proofRecompute region) s = .next (withQueue s.pending (settleRun (proofRecompute region s))) :=
  guarded_next h (fun s => settleRun (proofRecompute region s)) s

/-! ## MessageRows -/

theorem exec_indexRun (msg : Msg) (s : State) (h : Instr.wf (.indexRun msg) = true) :
    exec (.indexRun msg) s = .next (withQueue s.pending (indexRunRow msg s)) :=
  guarded_next h (fun s => indexRunRow msg s) s

theorem exec_bandPartial (msg : Msg) (s : State) (h : Instr.wf (.bandPartial msg) = true) :
    exec (.bandPartial msg) s = .next (withQueue s.pending (bandPartialRow msg s)) :=
  guarded_next h (fun s => bandPartialRow msg s) s

theorem exec_gradMsg (msg : Msg) (s : State) (h : Instr.wf (.gradMsg msg) = true) :
    exec (.gradMsg msg) s = .next (withQueue s.pending (gradMsgRow msg s)) :=
  guarded_next h (fun s => gradMsgRow msg s) s

theorem exec_gradConsume (region : Nat) (s : State) (h : Instr.wf (.gradConsume region) = true) :
    exec (.gradConsume region) s = .next (withQueue s.pending (settleRun (consume region s))) :=
  guarded_next h (fun s => settleRun (consume region s)) s

theorem exec_targetSliceApply (region : Nat) (tableSet : Nat) (table : Nat) (row : Nat) (variant : Nat) (slice : Nat) (s : State) (h : Instr.wf (.targetSliceApply region tableSet table row variant slice) = true) :
    exec (.targetSliceApply region tableSet table row variant slice) s =
      .next (withQueue s.pending (settleRun (applyTarget region tableSet table row variant slice s))) :=
  guarded_next h
    (fun s => settleRun (applyTarget region tableSet table row variant slice s)) s

theorem exec_shardGrad (msg : Msg) (s : State) (h : Instr.wf (.shardGrad msg) = true) :
    exec (.shardGrad msg) s = .next (withQueue s.pending (shardGradRow msg s)) :=
  guarded_next h (fun s => shardGradRow msg s) s

theorem exec_ledgerUp (msg : Msg) (s : State) (h : Instr.wf (.ledgerUp msg) = true) :
    exec (.ledgerUp msg) s = .next (withQueue s.pending (ledgerUpRow msg s)) :=
  guarded_next h (fun s => ledgerUpRow msg s) s

theorem exec_ledgerDown (msg : Msg) (s : State) (h : Instr.wf (.ledgerDown msg) = true) :
    exec (.ledgerDown msg) s = .next (withQueue s.pending (ledgerDownRow msg s)) :=
  guarded_next h (fun s => ledgerDownRow msg s) s

theorem exec_shardMulticast (msg : Msg) (s : State) (h : Instr.wf (.shardMulticast msg) = true) :
    exec (.shardMulticast msg) s = .next (withQueue s.pending (shardMulticastRow msg s)) :=
  guarded_next h (fun s => shardMulticastRow msg s) s

theorem exec_stepReport (msg : Msg) (s : State) (h : Instr.wf (.stepReport msg) = true) :
    exec (.stepReport msg) s = .next (withQueue s.pending (stepReportRow msg s)) :=
  guarded_next h (fun s => stepReportRow msg s) s

theorem exec_stepVerdict (msg : Msg) (s : State) (h : Instr.wf (.stepVerdict msg) = true) :
    exec (.stepVerdict msg) s = .next (withQueue s.pending (stepVerdictRow msg s)) :=
  guarded_next h (fun s => stepVerdictRow msg s) s

/-! ## PowerRows -/

theorem exec_inputPowerArrival (feed : Nat) (s : State) (h : Instr.wf (.inputPowerArrival feed) = true) :
    exec (.inputPowerArrival feed) s = .next (withQueue s.pending (feedIn feed s)) :=
  guarded_next h (fun s => feedIn feed s) s

theorem exec_bringupStageComplete (failedRails : List Nat) (s : State) (h : Instr.wf (.bringupStageComplete failedRails) = true) :
    exec (.bringupStageComplete failedRails) s = .next (withQueue s.pending (stageDone failedRails s)) :=
  guarded_next h (fun s => stageDone failedRails s) s

theorem exec_bringupStageTimeout (unit : Nat) (s : State) (h : Instr.wf (.bringupStageTimeout unit) = true) :
    exec (.bringupStageTimeout unit) s = .next (withQueue s.pending (stageTimeout unit s)) :=
  guarded_next h (fun s => stageTimeout unit s) s

theorem exec_bringupRetryExpiry (s : State) (h : Instr.wf .bringupRetryExpiry = true) :
    exec .bringupRetryExpiry s = .next (withQueue s.pending (retryStart s)) :=
  guarded_next h (fun s => retryStart s) s

theorem exec_feedUndervoltage (feed : Nat) (s : State) (h : Instr.wf (.feedUndervoltage feed) = true) :
    exec (.feedUndervoltage feed) s = .next (withQueue s.pending (feedUnder feed s)) :=
  guarded_next h (fun s => feedUnder feed s) s

theorem exec_feedLost (feed : Nat) (s : State) (h : Instr.wf (.feedLost feed) = true) :
    exec (.feedLost feed) s = .next (withQueue s.pending (feedGone feed s)) :=
  guarded_next h (fun s => feedGone feed s) s

theorem exec_feedOvervoltage (feed : Nat) (s : State) (h : Instr.wf (.feedOvervoltage feed) = true) :
    exec (.feedOvervoltage feed) s = .next (withQueue s.pending (feedOver feed s)) :=
  guarded_next h (fun s => feedOver feed s) s

theorem exec_feedReconnect (feed : Nat) (s : State) (h : Instr.wf (.feedReconnect feed) = true) :
    exec (.feedReconnect feed) s = .next (withQueue s.pending (feedIn feed s)) :=
  guarded_next h (fun s => feedIn feed s) s

theorem exec_powerFailWarning (s : State) (h : Instr.wf .powerFailWarning = true) :
    exec .powerFailWarning s = .next (withQueue s.pending (powerFail s)) :=
  guarded_next h (fun s => powerFail s) s

theorem exec_bulkBusCollapse (s : State) (h : Instr.wf .bulkBusCollapse = true) :
    exec .bulkBusCollapse s = .next (withQueue s.pending (busCollapse s)) :=
  guarded_next h (fun s => busCollapse s) s

theorem exec_railFault (rail : Nat) (s : State) (h : Instr.wf (.railFault rail) = true) :
    exec (.railFault rail) s = .next (withQueue s.pending (railFault rail s)) :=
  guarded_next h (fun s => railFault rail s) s

theorem exec_thermalThrottle (hbm : Bool) (unit : Nat) (value : Nat) (s : State) (h : Instr.wf (.thermalThrottle hbm unit value) = true) :
    exec (.thermalThrottle hbm unit value) s = .next (withQueue s.pending (thermal hbm unit value s)) :=
  guarded_next h
    (fun s => thermal hbm unit value s) s

theorem exec_thermalShutdown (hbm : Bool) (unit : Nat) (value : Nat) (s : State) (h : Instr.wf (.thermalShutdown hbm unit value) = true) :
    exec (.thermalShutdown hbm unit value) s = .next (withQueue s.pending (thermalTrip hbm unit value s)) :=
  guarded_next h
    (fun s => thermalTrip hbm unit value s) s

theorem exec_coolantFlowLow (low : Bool) (s : State) (h : Instr.wf (.coolantFlowLow low) = true) :
    exec (.coolantFlowLow low) s = .next (withQueue s.pending (flowLow low s)) :=
  guarded_next h (fun s => flowLow low s) s

theorem exec_powerLimitInterval (milliwatts : Nat) (s : State) (h : Instr.wf (.powerLimitInterval milliwatts) = true) :
    exec (.powerLimitInterval milliwatts) s = .next (withQueue s.pending (powerInterval milliwatts s)) :=
  guarded_next h (fun s => powerInterval milliwatts s) s

theorem exec_throttleRaiseInterval (milliwatts : Nat) (s : State) (h : Instr.wf (.throttleRaiseInterval milliwatts) = true) :
    exec (.throttleRaiseInterval milliwatts) s = .next (withQueue s.pending (throttleRaise milliwatts s)) :=
  guarded_next h (fun s => throttleRaise milliwatts s) s

theorem exec_senseSample (values : List W32) (s : State) (h : Instr.wf (.senseSample values) = true) :
    exec (.senseSample values) s = .next (withQueue s.pending (senseSample values s)) :=
  guarded_next h (fun s => senseSample values s) s

theorem exec_enterRetention (path : Path) (s : State) (h : Instr.wf (.enterRetention path) = true) :
    exec (.enterRetention path) s = .next (withQueue s.pending (requestNumber path E.POWER_STATE_REQUEST 1 1 s)) :=
  guarded_next h (fun s => requestNumber path E.POWER_STATE_REQUEST 1 1 s) s

theorem exec_exitRetention (path : Path) (s : State) (h : Instr.wf (.exitRetention path) = true) :
    exec (.exitRetention path) s = .next (withQueue s.pending (requestNumber path E.POWER_STATE_REQUEST 1 2 s)) :=
  guarded_next h (fun s => requestNumber path E.POWER_STATE_REQUEST 1 2 s) s

theorem exec_moduleReset (path : Path) (s : State) (h : Instr.wf (.moduleReset path) = true) :
    exec (.moduleReset path) s = .next (withQueue s.pending (requestNumber path E.POWER_STATE_REQUEST 1 3 s)) :=
  guarded_next h (fun s => requestNumber path E.POWER_STATE_REQUEST 1 3 s) s

theorem exec_standbyRequest (path : Path) (s : State) (h : Instr.wf (.standbyRequest path) = true) :
    exec (.standbyRequest path) s = .next (withQueue s.pending (requestNumber path E.POWER_STATE_REQUEST 1 4 s)) :=
  guarded_next h (fun s => requestNumber path E.POWER_STATE_REQUEST 1 4 s) s

theorem exec_coldStart (path : Path) (s : State) (h : Instr.wf (.coldStart path) = true) :
    exec (.coldStart path) s = .next (withQueue s.pending (requestNumber path E.POWER_STATE_REQUEST 1 5 s)) :=
  guarded_next h (fun s => requestNumber path E.POWER_STATE_REQUEST 1 5 s) s

theorem exec_resetReqAssert (s : State) (h : Instr.wf .resetReqAssert = true) :
    exec .resetReqAssert s = .next (withQueue s.pending (pinRequest 3 s)) :=
  guarded_next h (fun s => pinRequest 3 s) s

theorem exec_serviceButtonShort (s : State) (h : Instr.wf .serviceButtonShort = true) :
    exec .serviceButtonShort s = .next (withQueue s.pending (buttonShort s)) :=
  guarded_next h (fun s => buttonShort s) s

theorem exec_serviceButtonHold (s : State) (h : Instr.wf .serviceButtonHold = true) :
    exec .serviceButtonHold s = .next (withQueue s.pending (buttonHold s)) :=
  guarded_next h (fun s => buttonHold s) s

theorem exec_unitFault (unit : Nat) (s : State) (h : Instr.wf (.unitFault unit) = true) :
    exec (.unitFault unit) s = .next (withQueue s.pending (unitFault unit s)) :=
  guarded_next h (fun s => unitFault unit s) s

theorem exec_hbm3RefreshDoubled (stack : Nat) (hot : Bool) (s : State) (h : Instr.wf (.hbm3RefreshDoubled stack hot) = true) :
    exec (.hbm3RefreshDoubled stack hot) s = .next (withQueue s.pending (refreshDoubled stack hot s)) :=
  guarded_next h (fun s => refreshDoubled stack hot s) s

/-! ## QueueRows -/

theorem exec_commandFetch (queue : Nat) (reply : HostReply) (s : State) (h : Instr.wf (.commandFetch queue reply) = true) :
    exec (.commandFetch queue reply) s = .next (withQueue s.pending (settleRun (fetchCommand queue reply s))) :=
  guarded_next h (fun s => settleRun (fetchCommand queue reply s)) s

theorem exec_descriptorRecheckExpiry (queue : Nat) (reply : HostReply) (s : State) (h : Instr.wf (.descriptorRecheckExpiry queue reply) = true) :
    exec (.descriptorRecheckExpiry queue reply) s = .next (withQueue s.pending (settleRun (recheckDescriptor queue reply s))) :=
  guarded_next h
    (fun s => settleRun (recheckDescriptor queue reply s)) s

theorem exec_commandStart (queue : Nat) (index : Nat) (s : State) (h : Instr.wf (.commandStart queue index) = true) :
    exec (.commandStart queue index) s = .next (withQueue s.pending (settleRun (startCommand queue index s))) :=
  guarded_next h (fun s => settleRun (startCommand queue index s)) s

theorem exec_commandComplete (queue : Nat) (index : Nat) (s : State) (h : Instr.wf (.commandComplete queue index) = true) :
    exec (.commandComplete queue index) s = .next (withQueue s.pending (settleRun (completeCommand queue index s))) :=
  guarded_next h (fun s => settleRun (completeCommand queue index s)) s

theorem exec_completionFlushDone (queue : Nat) (s : State) (h : Instr.wf (.completionFlushDone queue) = true) :
    exec (.completionFlushDone queue) s = .next (withQueue s.pending (settleRun (flushDone queue s))) :=
  guarded_next h (fun s => settleRun (flushDone queue s)) s

theorem exec_intCoalesceExpiry (queue : Nat) (s : State) (h : Instr.wf (.intCoalesceExpiry queue) = true) :
    exec (.intCoalesceExpiry queue) s = .next (withQueue s.pending (coalesceExpiry queue s)) :=
  guarded_next h (fun s => coalesceExpiry queue s) s

theorem exec_doorbellSqProducer (queue : Nat) (index : Nat) (s : State) (h : Instr.wf (.doorbellSqProducer queue index) = true) :
    exec (.doorbellSqProducer queue index) s = .next (withQueue s.pending (doorbellSq queue index s)) :=
  guarded_next h (fun s => doorbellSq queue index s) s

theorem exec_doorbellCqHead (queue : Nat) (index : Nat) (s : State) (h : Instr.wf (.doorbellCqHead queue index) = true) :
    exec (.doorbellCqHead queue index) s = .next (withQueue s.pending (doorbellCq queue index s)) :=
  guarded_next h (fun s => doorbellCq queue index s) s

theorem exec_queueEnable (queue : Nat) (s : State) (h : Instr.wf (.queueEnable queue) = true) :
    exec (.queueEnable queue) s = .next (withQueue s.pending (enableQueue queue s)) :=
  guarded_next h (fun s => enableQueue queue s) s

theorem exec_queueDisable (queue : Nat) (s : State) (h : Instr.wf (.queueDisable queue) = true) :
    exec (.queueDisable queue) s = .next (withQueue s.pending (settleRun (disableQueue queue s))) :=
  guarded_next h (fun s => settleRun (disableQueue queue s)) s

theorem exec_queueRestart (queue : Nat) (s : State) (h : Instr.wf (.queueRestart queue) = true) :
    exec (.queueRestart queue) s = .next (withQueue s.pending (restartQueue queue s)) :=
  guarded_next h (fun s => restartQueue queue s) s

theorem exec_pcieCompletionTimeout (queue : Nat) (s : State) (h : Instr.wf (.pcieCompletionTimeout queue) = true) :
    exec (.pcieCompletionTimeout queue) s = .next (withQueue s.pending (settleRun (completionTimeout queue s))) :=
  guarded_next h (fun s => settleRun (completionTimeout queue s)) s

theorem exec_pegWaitTimeout (queue : Nat) (index : Nat) (s : State) (h : Instr.wf (.pegWaitTimeout queue index) = true) :
    exec (.pegWaitTimeout queue index) s = .next (withQueue s.pending (settleRun (waitTimeout queue index s))) :=
  guarded_next h (fun s => settleRun (waitTimeout queue index s)) s

/-! ## RidgeRows -/

theorem exec_axisSignal (packet : Packet) (s : State) (h : Instr.wf (.axisSignal packet) = true) :
    exec (.axisSignal packet) s = .next (withQueue s.pending (arrive packet (axisSignal packet) s)) :=
  guarded_next h (fun s => arrive packet (axisSignal packet) s) s

theorem exec_readyReport (s : State) (h : Instr.wf .readyReport = true) :
    exec .readyReport s = .next (withQueue s.pending (settleRun (readyReport s))) :=
  guarded_next h (fun s => settleRun (readyReport s)) s

theorem exec_readySignal (packet : Packet) (s : State) (h : Instr.wf (.readySignal packet) = true) :
    exec (.readySignal packet) s = .next (withQueue s.pending (arrive packet (readySignal packet) s)) :=
  guarded_next h (fun s => arrive packet (readySignal packet) s) s

theorem exec_beatExpiry (s : State) (h : Instr.wf .beatExpiry = true) :
    exec .beatExpiry s = .next (withQueue s.pending (beat s)) :=
  guarded_next h (fun s => beat s) s

theorem exec_joinStepSignal (packet : Packet) (s : State) (h : Instr.wf (.joinStepSignal packet) = true) :
    exec (.joinStepSignal packet) s = .next (withQueue s.pending (arrive packet (joinStepSignal packet) s)) :=
  guarded_next h (fun s => arrive packet (joinStepSignal packet) s) s

theorem exec_joinSignal (packet : Packet) (s : State) (h : Instr.wf (.joinSignal packet) = true) :
    exec (.joinSignal packet) s = .next (withQueue s.pending (arrive packet (joinSignal packet) s)) :=
  guarded_next h (fun s => arrive packet (joinSignal packet) s) s

theorem exec_leaveSignal (packet : Packet) (s : State) (h : Instr.wf (.leaveSignal packet) = true) :
    exec (.leaveSignal packet) s = .next (withQueue s.pending (arrive packet (leaveSignal packet) s)) :=
  guarded_next h (fun s => arrive packet (leaveSignal packet) s) s

theorem exec_excludeSignal (packet : Packet) (s : State) (h : Instr.wf (.excludeSignal packet) = true) :
    exec (.excludeSignal packet) s = .next (withQueue s.pending (arrive packet (excludeSignal packet) s)) :=
  guarded_next h (fun s => arrive packet (excludeSignal packet) s) s

theorem exec_admitSignal (packet : Packet) (s : State) (h : Instr.wf (.admitSignal packet) = true) :
    exec (.admitSignal packet) s = .next (withQueue s.pending (arrive packet (admitSignal packet) s)) :=
  guarded_next h (fun s => arrive packet (admitSignal packet) s) s

theorem exec_standbyAdmit (s : State) (h : Instr.wf .standbyAdmit = true) :
    exec .standbyAdmit s = .next (withQueue s.pending (admitStandby s)) :=
  guarded_next h (fun s => admitStandby s) s

theorem exec_ridgeSourceLoss (s : State) (h : Instr.wf .ridgeSourceLoss = true) :
    exec .ridgeSourceLoss s = .next (withQueue s.pending (settleRun (sourceLoss s))) :=
  guarded_next h (fun s => settleRun (sourceLoss s)) s

theorem exec_standbyTakeover (s : State) (h : Instr.wf .standbyTakeover = true) :
    exec .standbyTakeover s = .next (withQueue s.pending (takeover s)) :=
  guarded_next h (fun s => takeover s) s

theorem exec_stepWatchdogExpiry (s : State) (h : Instr.wf .stepWatchdogExpiry = true) :
    exec .stepWatchdogExpiry s = .next (withQueue s.pending (watchdog s)) :=
  guarded_next h (fun s => watchdog s) s

theorem exec_boundDelayExpiry (tag : Nat) (s : State) (h : Instr.wf (.boundDelayExpiry tag) = true) :
    exec (.boundDelayExpiry tag) s = .next (withQueue s.pending (boundDelay tag s)) :=
  guarded_next h (fun s => boundDelay tag s) s

/-! ## TwinRows -/

theorem exec_repairRequest (port : Nat) (packet : GPacket) (s : State) (h : Instr.wf (.repairRequest port packet) = true) :
    exec (.repairRequest port packet) s = .next (withQueue s.pending (settleRun (repairRequest { packet with path := port - 8 } s))) :=
  guarded_next h (fun s => settleRun (repairRequest { packet with path := port - 8 } s)) s

theorem exec_twinRepairWrite (port : Nat) (packet : GPacket) (s : State) (h : Instr.wf (.twinRepairWrite port packet) = true) :
    exec (.twinRepairWrite port packet) s = .next (withQueue s.pending (settleRun (guylineResponse { packet with path := port - 8 } s))) :=
  guarded_next h
    (fun s => settleRun (guylineResponse { packet with path := port - 8 } s)) s

theorem exec_heartbeatSendExpiry (s : State) (h : Instr.wf .heartbeatSendExpiry = true) :
    exec .heartbeatSendExpiry s = .next (withQueue s.pending (heartbeatTick s)) :=
  guarded_next h (fun s => heartbeatTick s) s

theorem exec_twinBeatLoss (s : State) (h : Instr.wf .twinBeatLoss = true) :
    exec .twinBeatLoss s = .next (withQueue s.pending (settleRun (beatLoss s))) :=
  guarded_next h (fun s => settleRun (beatLoss s)) s

theorem exec_livenessDecision (ok : Bool) (word : Nat) (s : State) (h : Instr.wf (.livenessDecision ok word) = true) :
    exec (.livenessDecision ok word) s = .next (withQueue s.pending (settleRun (livenessDecision ok word s))) :=
  guarded_next h (fun s => settleRun (livenessDecision ok word s)) s

theorem exec_twinProbeExpiry (member : Nat) (s : State) (h : Instr.wf (.twinProbeExpiry member) = true) :
    exec (.twinProbeExpiry member) s = .next (withQueue s.pending (settleRun (probeExpiry member s))) :=
  guarded_next h (fun s => settleRun (probeExpiry member s)) s

theorem exec_mirrorLog (port : Nat) (packet : GPacket) (s : State) (h : Instr.wf (.mirrorLog port packet) = true) :
    exec (.mirrorLog port packet) s = .next (withQueue s.pending (settleRun (mirrorLog { packet with path := port - 8 } s))) :=
  guarded_next h (fun s => settleRun (mirrorLog { packet with path := port - 8 } s)) s

theorem exec_stepOperands (port : Nat) (packet : GPacket) (s : State) (h : Instr.wf (.stepOperands port packet) = true) :
    exec (.stepOperands port packet) s = .next (withQueue s.pending (settleRun (takeOperands { packet with path := port - 8 } s))) :=
  guarded_next h (fun s => settleRun (takeOperands { packet with path := port - 8 } s)) s

theorem exec_stepMark (port : Nat) (packet : GPacket) (s : State) (h : Instr.wf (.stepMark port packet) = true) :
    exec (.stepMark port packet) s = .next (withQueue s.pending (settleRun (takeMark { packet with path := port - 8 } s))) :=
  guarded_next h (fun s => settleRun (takeMark { packet with path := port - 8 } s)) s

theorem exec_copyPage (port : Nat) (packet : GPacket) (s : State) (h : Instr.wf (.copyPage port packet) = true) :
    exec (.copyPage port packet) s = .next (withQueue s.pending (settleRun (copyPage { packet with path := port - 8 } s))) :=
  guarded_next h (fun s => settleRun (copyPage { packet with path := port - 8 } s)) s

theorem exec_occurrences (port : Nat) (packet : GPacket) (s : State) (h : Instr.wf (.occurrences port packet) = true) :
    exec (.occurrences port packet) s = .next (withQueue s.pending (settleRun (takeOccPacket { packet with path := port - 8 } s))) :=
  guarded_next h (fun s => settleRun (takeOccPacket { packet with path := port - 8 } s)) s

theorem exec_contributions (port : Nat) (packet : GPacket) (s : State) (h : Instr.wf (.contributions port packet) = true) :
    exec (.contributions port packet) s = .next (withQueue s.pending (settleRun (takeContribPacket { packet with path := port - 8 } s))) :=
  guarded_next h
    (fun s => settleRun (takeContribPacket { packet with path := port - 8 } s)) s

theorem exec_rowChange (port : Nat) (packet : GPacket) (s : State) (h : Instr.wf (.rowChange port packet) = true) :
    exec (.rowChange port packet) s = .next (withQueue s.pending (settleRun (takeRowPacket { packet with path := port - 8 } s))) :=
  guarded_next h (fun s => settleRun (takeRowPacket { packet with path := port - 8 } s)) s

end Sys2Proof.Machine
end

