-- ==== Sys2Proof/Laws/Power.lean ====
section
/-!
SUPPORT. What turning the rails off, resetting the dies and becoming READY can do.
-/
namespace Sys2Proof.Machine

/-! ## Repeated changes that leave all but one field -/

theorem forEach_memOnly {α : Type} (l : List α) (f : α → State → State) (h : ∀ a s, ∃ m, f a s = { s with mem := m }) :
    ∀ s, ∃ m, forEach l f s = { s with mem := m } := by
  induction l with
  | nil => intro s; exact ⟨s.mem, rfl⟩
  | cons a l ih =>
    intro s
    obtain ⟨m, e⟩ := h a s
    obtain ⟨n, e'⟩ := ih (f a s)
    exact ⟨n, by rw [forEach_cons, e', e]⟩

theorem loseParity_frame (die : Nat) (s : State) : ∃ m, loseParity die s = { s with mem := m } := by
  unfold loseParity
  dsimp only
  obtain ⟨m, e⟩ := forEach_memOnly (s.mem.pend.filter fun e => placeOfPage e.1 / 8 == die) (fun e s =>
    setMem { (setStale e.1 (xor2 (staleOf s e.1) (e.2.getD (0, 0))) s).mem with
      pend := sput none (setStale e.1 (xor2 (staleOf s e.1) (e.2.getD (0, 0))) s).mem.pend e.1 none }
      (setStale e.1 (xor2 (staleOf s e.1) (e.2.getD (0, 0))) s)) (fun e s => ⟨_, rfl⟩) s
  obtain ⟨n, e'⟩ := forEach_memOnly four (fun r s => setMem { s.mem with suspect := sput 0 s.mem.suspect (die * 4 + r) 3 } s)
    (fun r s => ⟨_, rfl⟩) ({ s with mem := m } : State)
  exact ⟨n, by rw [e, e']⟩

theorem allLoseParity_frame (s : State) : ∃ m, forEach four loseParity s = { s with mem := m } :=
  forEach_memOnly _ _ loseParity_frame s

/-- R320: disabling a port changes the fabric, and drops what has come in by it. -/
theorem disablePort_frame (i : Nat) (s : State) :
    ∃ f l, disablePort i s = { s with fabric := f, twin := { s.twin with arrivals := l } } := by
  unfold disablePort dropPort dropArrivals
  split
  · exact ⟨_, _, rfl⟩
  · exact ⟨_, s.twin.arrivals, rfl⟩

theorem disablePorts_frame (ps : List Nat) :
    ∀ s, ∃ f l, forEach ps disablePort s = { s with fabric := f, twin := { s.twin with arrivals := l } } := by
  induction ps with
  | nil => intro s; exact ⟨s.fabric, s.twin.arrivals, rfl⟩
  | cons i ps ih =>
    intro s
    obtain ⟨f, l, e⟩ := disablePort_frame i s
    obtain ⟨g, m, e'⟩ := ih (disablePort i s)
    exact ⟨g, m, by rw [forEach_cons, e', e]⟩

/-- R527: every main rail off: the rails' own state, the links with what came in by them, memory and the MODULE_PWRGD pin,
and nothing else. -/
theorem railsOff_frame (s : State) : ∃ f l h o, railsOff s = { s with
    life := { s.life with conversion := false, pwrgd := false, powState := .standby }
    mem := {}, fabric := f, twin := { s.twin with arrivals := l }, host := h, outbox := o } := by
  unfold railsOff
  dsimp only
  have hw : ∃ o, whenS s.life.pwrgd (emit (.pin "MODULE_PWRGD" false)) s = { s with outbox := o } := by
    unfold whenS
    split
    · exact ⟨_, rfl⟩
    · exact ⟨s.outbox, rfl⟩
  obtain ⟨o, e⟩ := hw
  rw [e]
  obtain ⟨f, l, e'⟩ := disablePorts_frame (upto 12)
    (linkDown (setLife { s.life with conversion := false, pwrgd := false, powState := .standby } { s with outbox := o }))
  have e'' : forEach (upto 12) disablePort (linkDown (setLife
      { ({ s with outbox := o } : State).life with conversion := false, pwrgd := false, powState := .standby }
      { s with outbox := o })) = _ := e'
  rw [e'']
  exact ⟨f, l, _, o, rfl⟩

/-- R510: what a reset of the dies leaves. -/
theorem resetUnits_frame (s : State) : ∃ m, resetUnits s = { s with
    mem := m, pegs := {}, ridge := {}, fabric := {}, twin := {}
    host := { perst := s.host.perst }
    power := { s.power with senseMax := [], senseMin := [], sampled := false, energyUj := 0 }
    life := { s.life with bridgeErrors := 0 } } := by
  unfold resetUnits
  obtain ⟨m, e⟩ := allLoseParity_frame s
  rw [e]
  exact ⟨_, rfl⟩

@[simp] theorem resetUnits_pegs (s : State) : (resetUnits s).pegs = {} := by
  obtain ⟨m, e⟩ := resetUnits_frame s
  rw [e]

@[simp] theorem resetUnits_ridge (s : State) : (resetUnits s).ridge = {} := by
  obtain ⟨m, e⟩ := resetUnits_frame s
  rw [e]

@[simp] theorem resetUnits_fabric (s : State) : (resetUnits s).fabric = {} := by
  obtain ⟨m, e⟩ := resetUnits_frame s
  rw [e]

@[simp] theorem resetUnits_twin (s : State) : (resetUnits s).twin = {} := by
  obtain ⟨m, e⟩ := resetUnits_frame s
  rw [e]

@[simp] theorem resetUnits_host (s : State) : (resetUnits s).host = { perst := s.host.perst } := by
  obtain ⟨m, e⟩ := resetUnits_frame s
  rw [e]

@[simp] theorem resetUnits_power (s : State) : (resetUnits s).power = { s.power with senseMax := [], senseMin := [], sampled := false, energyUj := 0 } := by
  obtain ⟨m, e⟩ := resetUnits_frame s
  rw [e]

@[simp] theorem resetUnits_life (s : State) : (resetUnits s).life = { s.life with bridgeErrors := 0 } := by
  obtain ⟨m, e⟩ := resetUnits_frame s
  rw [e]

@[simp] theorem resetUnits_dict (s : State) : (resetUnits s).dict = s.dict := by
  obtain ⟨m, e⟩ := resetUnits_frame s
  rw [e]

@[simp] theorem resetUnits_lantern (s : State) : (resetUnits s).lantern = s.lantern := by
  obtain ⟨m, e⟩ := resetUnits_frame s
  rw [e]

@[simp] theorem resetUnits_loadState (s : State) : (resetUnits s).loadState = s.loadState := by
  obtain ⟨m, e⟩ := resetUnits_frame s
  rw [e]

@[simp] theorem resetUnits_plan (s : State) : (resetUnits s).plan = s.plan := by
  obtain ⟨m, e⟩ := resetUnits_frame s
  rw [e]

@[simp] theorem resetUnits_sets (s : State) : (resetUnits s).sets = s.sets := by
  obtain ⟨m, e⟩ := resetUnits_frame s
  rw [e]

@[simp] theorem resetUnits_outbox (s : State) : (resetUnits s).outbox = s.outbox := by
  obtain ⟨m, e⟩ := resetUnits_frame s
  rw [e]

@[simp] theorem resetUnits_free (s : State) : (resetUnits s).free = s.free := by
  obtain ⟨m, e⟩ := resetUnits_frame s
  rw [e]

@[simp] theorem resetUnits_pending (s : State) : (resetUnits s).pending = s.pending := by
  obtain ⟨m, e⟩ := resetUnits_frame s
  rw [e]

@[simp] theorem resetUnits_gen (s : State) : (resetUnits s).gen = s.gen := by
  obtain ⟨m, e⟩ := resetUnits_frame s
  rw [e]

@[simp] theorem resetUnits_place (s : State) : (resetUnits s).place = s.place := by
  obtain ⟨m, e⟩ := resetUnits_frame s
  rw [e]

@[simp] theorem railsOff_life (s : State) :
    (railsOff s).life = { s.life with conversion := false, pwrgd := false, powState := .standby } := by
  obtain ⟨f, l, h, o, e⟩ := railsOff_frame s
  rw [e]

@[simp] theorem railsOff_mem (s : State) : (railsOff s).mem = {} := by
  obtain ⟨f, l, h, o, e⟩ := railsOff_frame s
  rw [e]

@[simp] theorem railsOff_dict (s : State) : (railsOff s).dict = s.dict := by
  obtain ⟨g, l, h, o, e⟩ := railsOff_frame s
  rw [e]

@[simp] theorem railsOff_power (s : State) : (railsOff s).power = s.power := by
  obtain ⟨g, l, h, o, e⟩ := railsOff_frame s
  rw [e]

@[simp] theorem railsOff_lantern (s : State) : (railsOff s).lantern = s.lantern := by
  obtain ⟨g, l, h, o, e⟩ := railsOff_frame s
  rw [e]

@[simp] theorem railsOff_loadState (s : State) : (railsOff s).loadState = s.loadState := by
  obtain ⟨g, l, h, o, e⟩ := railsOff_frame s
  rw [e]

@[simp] theorem railsOff_plan (s : State) : (railsOff s).plan = s.plan := by
  obtain ⟨g, l, h, o, e⟩ := railsOff_frame s
  rw [e]

@[simp] theorem railsOff_sets (s : State) : (railsOff s).sets = s.sets := by
  obtain ⟨g, l, h, o, e⟩ := railsOff_frame s
  rw [e]

@[simp] theorem railsOff_free (s : State) : (railsOff s).free = s.free := by
  obtain ⟨g, l, h, o, e⟩ := railsOff_frame s
  rw [e]

@[simp] theorem railsOff_pending (s : State) : (railsOff s).pending = s.pending := by
  obtain ⟨g, l, h, o, e⟩ := railsOff_frame s
  rw [e]

@[simp] theorem railsOff_pegs (s : State) : (railsOff s).pegs = s.pegs := by
  obtain ⟨g, l, h, o, e⟩ := railsOff_frame s
  rw [e]

@[simp] theorem railsOff_ridge (s : State) : (railsOff s).ridge = s.ridge := by
  obtain ⟨g, l, h, o, e⟩ := railsOff_frame s
  rw [e]

theorem railsOff_twin (s : State) : ∃ l, (railsOff s).twin = { s.twin with arrivals := l } := by
  obtain ⟨g, l, h, o, e⟩ := railsOff_frame s
  exact ⟨l, by rw [e]⟩

@[simp] theorem railsOff_step (s : State) : (railsOff s).step = s.step := by
  obtain ⟨g, l, h, o, e⟩ := railsOff_frame s
  rw [e]

@[simp] theorem railsOff_holds (s : State) : (railsOff s).holds = s.holds := by
  obtain ⟨g, l, h, o, e⟩ := railsOff_frame s
  rw [e]

@[simp] theorem railsOff_gen (s : State) : (railsOff s).gen = s.gen := by
  obtain ⟨g, l, h, o, e⟩ := railsOff_frame s
  rw [e]

end Sys2Proof.Machine
end

