-- ==== Sys2Proof/Laws/Frames.lean ====
section
/-!
SUPPORT. Fields that operations leave as they are: one lemma for each operation and field that later proofs need.
-/
namespace Sys2Proof.Machine

/-! ## life -/

@[simp] theorem forEach_life {α : Type} (l : List α) (f : α → State → State) (h : ∀ a s, (f a s).life = s.life) (s : State) :
    (forEach l f s).life = s.life := by
  induction l generalizing s with
  | nil => rfl
  | cons a l ih => rw [forEach_cons, ih, h]

@[simp] theorem whenS_life (c : Bool) (f : State → State) (h : ∀ s, (f s).life = s.life) (s : State) :
    (whenS c f s).life = s.life := by
  unfold whenS
  split
  · exact h s
  · rfl

@[simp] theorem sendHost_life (o : Out) (s : State) : (sendHost o s).life = s.life := by
  unfold sendHost
  try dsimp only
  repeat' (first | with_reducible rfl | (simp; done) | split)

@[simp] theorem nextFree_life (s : State) : (nextFree s).2.life = s.life := by
  unfold nextFree
  try dsimp only
  repeat' (first | with_reducible rfl | (simp; done) | split)

@[simp] theorem msix_life (v : Nat) (s : State) : (msix v s).life = s.life := by
  unfold msix
  try dsimp only
  repeat' (first | with_reducible rfl | (simp; done) | split)

@[simp] theorem causeErrorEvent_life (s : State) : (causeErrorEvent s).life = s.life := by
  unfold causeErrorEvent
  try dsimp only
  repeat' (first | with_reducible rfl | (simp; done) | split)

@[simp] theorem takeEvent_life (r : EventRec) (s : State) : (takeEvent r s).life = s.life := by
  unfold takeEvent
  try dsimp only
  repeat' (first | with_reducible rfl | (simp; done) | split)

@[simp] theorem bufferEvent_life (r : EventRec) (s : State) : (bufferEvent r s).life = s.life := by
  unfold bufferEvent
  try dsimp only
  repeat' (first | with_reducible rfl | (simp; done) | split)

@[simp] theorem raiseAt_life (code : Nat) (coord : Nat) (detail : Nat) (s : State) : (raiseAt code coord detail s).life = s.life := by
  unfold raiseAt
  try dsimp only
  repeat' (first | with_reducible rfl | (simp; done) | split)

@[simp] theorem raise_life (code : Nat) (detail : Nat) (s : State) : (raise code detail s).life = s.life := by
  unfold raise
  try dsimp only
  repeat' (first | with_reducible rfl | (simp; done) | split)

@[simp] theorem raiseOnceAt_life (code : Nat) (coord : Nat) (detail : Nat) (s : State) : (raiseOnceAt code coord detail s).life = s.life := by
  unfold raiseOnceAt
  try dsimp only
  repeat' (first | with_reducible rfl | (simp; done) | split)

@[simp] theorem raiseOnce_life (code : Nat) (detail : Nat) (s : State) : (raiseOnce code detail s).life = s.life := by
  unfold raiseOnce
  try dsimp only
  repeat' (first | with_reducible rfl | (simp; done) | split)

@[simp] theorem settleBits_life (sk : Nat) (lo : Nat) (s : State) : (settleBits sk lo s).life = s.life := by
  unfold settleBits
  dsimp only
  repeat' split
  all_goals simp only [setStale_life, putWord_life]

@[simp] theorem settle_life (sk : Nat) (err : Nat) (s : State) : (settle sk err s).life = s.life := by
  exact settleBits_life _ _ _

@[simp] theorem checkSector_life (sk : Nat) (s : State) : (checkSector sk s).2.life = s.life := by
  unfold checkSector
  try dsimp only
  repeat' (first | with_reducible rfl | (simp; done) | split)

@[simp] theorem checkSectors_life (pk : Nat) (x0 : List Nat) (x1 : State) : (checkSectors pk x0 x1).2.life = x1.life := by
  induction x0 generalizing x1 with
  | nil => rfl
  | cons i l ih =>
    unfold checkSectors
    dsimp only
    exact (ih _).trans (by simp)

@[simp] theorem poisonSector_life (sk : Nat) (s : State) : (poisonSector sk s).life = s.life := by
  unfold poisonSector
  generalize poisonBit * 2 ^ 448 = w
  dsimp only
  simp

@[simp] theorem freshParity_life (pk : Nat) (s : State) : (freshParity pk s).life = s.life := by
  unfold freshParity
  try dsimp only
  repeat' (first | with_reducible rfl | (simp; done) | split)

@[simp] theorem poisonLost_life (pk : Nat) (lost : List Nat) (s : State) : (poisonLost pk lost s).life = s.life := by
  unfold poisonLost
  try dsimp only
  repeat' (first | with_reducible rfl | (simp; done) | split)

@[simp] theorem rebuild_life (pk : Nat) (lost : List Nat) (s : State) : (rebuild pk lost s).life = s.life := by
  unfold rebuild
  dsimp only
  split
  · rfl
  · split
    · simp
    · rw [whenS_life _ _ (fun _ => by rw [setDamage_life, setStale_life]),
        whenS_life _ _ (fun _ => by rw [setDamage_life, setStale_life])]
      simp

@[simp] theorem fixLine_life (lk : Nat) (s : State) : (fixLine lk s).life = s.life := by
  unfold fixLine
  try dsimp only
  repeat' (first | with_reducible rfl | (simp; done) | split)

@[simp] theorem applyDelta_life (pk : Nat) (s : State) : (applyDelta pk s).life = s.life := by
  unfold applyDelta
  try dsimp only
  repeat' (first | with_reducible rfl | (simp; done) | split)

@[simp] theorem parityWriteback_life (pk : Nat) (s : State) : (parityWriteback pk s).life = s.life := by
  unfold parityWriteback
  try dsimp only
  repeat' (first | with_reducible rfl | (simp; done) | split)

@[simp] theorem parityFlushAll_life (s : State) : (parityFlushAll s).life = s.life := by
  unfold parityFlushAll
  try dsimp only
  repeat' (first | with_reducible rfl | (simp; done) | split)

@[simp] theorem updPort_life (i : Nat) (f : Port → Port) (s : State) : (updPort i f s).life = s.life := by
  unfold updPort
  try dsimp only
  repeat' (first | with_reducible rfl | (simp; done) | split)

@[simp] theorem pumpFlits_life (i : Nat) (x0 : List Flit) (x1 : List Nat) (x2 : State) : (pumpFlits i x0 x1 x2).2.life = x2.life := by
  induction x0 generalizing x1 x2 with
  | nil => rfl
  | cons f l ih =>
    unfold pumpFlits
    dsimp only
    repeat' split
    all_goals first | (rw [ih]; done) | (rw [ih]; simp; done)

@[simp] theorem pumpPort_life (i : Nat) (s : State) : (pumpPort i s).life = s.life := by
  unfold pumpPort
  try dsimp only
  repeat' (first | with_reducible rfl | (simp; done) | split)

@[simp] theorem putOnPort_life (i : Nat) (p : Packet) (s : State) : (putOnPort i p s).life = s.life := by
  unfold putOnPort
  try dsimp only
  repeat' (first | with_reducible rfl | (simp; done) | split)

@[simp] theorem takeHop_life (h : Hop) (p : Packet) (s : State) : (takeHop h p s).life = s.life := by
  unfold takeHop
  try dsimp only
  repeat' (first | with_reducible rfl | (simp; done) | split)

@[simp] theorem sendResponse_life (die : Nat) (p : Packet) (s : State) : (sendResponse die p s).life = s.life := by
  unfold sendResponse
  try dsimp only
  repeat' (first | with_reducible rfl | (simp; done) | split)

@[simp] theorem returnPacket_life (die : Nat) (p : Packet) (code : Nat) (s : State) : (returnPacket die p code s).life = s.life := by
  unfold returnPacket
  try dsimp only
  repeat' (first | with_reducible rfl | (simp; done) | split)

@[simp] theorem forwardHop_life (die : Nat) (h : Hop) (p : Packet) (s : State) : (forwardHop die h p s).life = s.life := by
  unfold forwardHop
  try dsimp only
  repeat' (first | with_reducible rfl | (simp; done) | split)

@[simp] theorem sendRequest_life (p : Packet) (s : State) : (sendRequest p s).life = s.life := by
  unfold sendRequest
  try dsimp only
  repeat' (first | with_reducible rfl | (simp; done) | split)

@[simp] theorem takeTag_life (die : Nat) (tag : Nat) (s : State) : (takeTag die tag s).life = s.life := by
  unfold takeTag
  try dsimp only
  repeat' (first | with_reducible rfl | (simp; done) | split)

@[simp] theorem issue_life (die : Nat) (addr : Nat) (op : Nat) (cls : Nat) (data : Bytes) (poison : Bool) (origin : Origin) (s : State) : (issue die addr op cls data poison origin s).life = s.life := by
  unfold issue
  try dsimp only
  repeat' (first | with_reducible rfl | (simp; done) | split)

@[simp] theorem settleTwin_life (s : State) : (settleTwin s).life = s.life := by
  unfold settleTwin
  try dsimp only
  repeat' (first | with_reducible rfl | (simp; done) | split)

@[simp] theorem captureTraining_life (i : Nat) (s : State) : (captureTraining i s).life = s.life := by
  unfold captureTraining
  try dsimp only
  repeat' (first | with_reducible rfl | (simp; done) | split)

@[simp] theorem dropArrivals_life (i : Nat) (s : State) : (dropArrivals i s).life = s.life := by
  unfold dropArrivals
  try dsimp only
  repeat' (first | with_reducible rfl | (simp; done) | split)

@[simp] theorem dropPort_life (i : Nat) (s : State) : (dropPort i s).life = s.life := by
  unfold dropPort
  try dsimp only
  repeat' (first | with_reducible rfl | (simp; done) | split)

@[simp] theorem disablePort_life (i : Nat) (s : State) : (disablePort i s).life = s.life := by
  unfold disablePort
  try dsimp only
  repeat' (first | with_reducible rfl | (simp; done) | split)

@[simp] theorem startTraining_life (i : Nat) (s : State) : (startTraining i s).life = s.life := by
  unfold startTraining
  try dsimp only
  repeat' (first | with_reducible rfl | (simp; done) | split)

@[simp] theorem trainPorts_life (s : State) : (trainPorts s).life = s.life := by
  unfold trainPorts
  refine forEach_life _ _ (fun i s => ?_) s
  split <;> simp

@[simp] theorem retryRefused_life (s : State) : (retryRefused s).life = s.life := by
  unfold retryRefused
  refine forEach_life _ _ (fun i s => ?_) s
  split <;> simp

@[simp] theorem updQueue_life (q : Nat) (f : Queue → Queue) (s : State) : (updQueue q f s).life = s.life := by
  unfold updQueue
  try dsimp only
  repeat' (first | with_reducible rfl | (simp; done) | split)

@[simp] theorem updCmd_life (q : Nat) (i : Nat) (f : Cmd → Cmd) (s : State) : (updCmd q i f s).life = s.life := by
  unfold updCmd
  try dsimp only
  repeat' (first | with_reducible rfl | (simp; done) | split)

@[simp] theorem setPhase_life (q : Nat) (i : Nat) (p : CmdPhase) (s : State) : (setPhase q i p s).life = s.life := by
  unfold setPhase
  try dsimp only
  repeat' (first | with_reducible rfl | (simp; done) | split)

@[simp] theorem endCmd_life (q : Nat) (i : Nat) (status : Nat) (detail : Nat) (saturated : Bool) (poison : Bool) (s : State) : (endCmd q i status detail saturated poison s).life = s.life := by
  unfold endCmd
  exact (setPhase_life _ _ _ _).trans (whenS_life _ _ (fun s => count_life _ s) s)

@[simp] theorem endPlain_life (q : Nat) (i : Nat) (status : Nat) (s : State) : (endPlain q i status s).life = s.life := by
  unfold endPlain
  try dsimp only
  repeat' (first | with_reducible rfl | (simp; done) | split)

@[simp] theorem releaseWait_life (w : PegWaitRec) (s : State) : (releaseWait w s).life = s.life := by
  unfold releaseWait
  try dsimp only
  repeat' (first | with_reducible rfl | (simp; done) | split)

@[simp] theorem releaseWaits_life (s : State) : (releaseWaits s).life = s.life := by
  unfold releaseWaits
  try dsimp only
  repeat' (first | with_reducible rfl | (simp; done) | split)

@[simp] theorem updKeeper_life (f : Keeper → Keeper) (s : State) : (updKeeper f s).life = s.life := by
  unfold updKeeper
  try dsimp only
  repeat' (first | with_reducible rfl | (simp; done) | split)

@[simp] theorem ridgeSend_life (dest : Nat) (peg : Nat) (value : Nat) (origin : Origin) (s : State) : (ridgeSend dest peg value origin s).life = s.life := by
  unfold ridgeSend
  try dsimp only
  repeat' (first | with_reducible rfl | (simp; done) | split)

@[simp] theorem axisRound_life (v : Nat) (s : State) : (axisRound v s).life = s.life := by
  have k : ∀ (l : List Nat) (s : State), (forEach l (fun m => ridgeSend m 4095 v (.axis m)) s).life = s.life := by
    intro l
    induction l with
    | nil => intro s; rfl
    | cons m l ih => intro s; rw [forEach_cons, ih, ridgeSend_life]
  unfold axisRound
  exact k _ s

@[simp] theorem tryAdvance_life (s : State) : (tryAdvance s).life = s.life := by
  unfold tryAdvance
  try dsimp only
  repeat' (first | with_reducible rfl | (simp; done) | split)

@[simp] theorem startRidge_life (s : State) : (startRidge s).life = s.life := by
  unfold startRidge
  try dsimp only
  repeat' (first | with_reducible rfl | (simp; done) | split)

@[simp] theorem takeover_life (s : State) : (takeover s).life = s.life := by
  unfold takeover
  try dsimp only
  repeat' (first | with_reducible rfl | (simp; done) | split)

@[simp] theorem writeTail_life (v : Nat) (s : State) : (writeTail v s).2.life = s.life := by
  unfold writeTail
  try dsimp only
  repeat' (first | with_reducible rfl | (simp; done) | split)

@[simp] theorem linkDown_life (s : State) : (linkDown s).life = s.life := by
  unfold linkDown
  try dsimp only
  repeat' (first | with_reducible rfl | (simp; done) | split)

@[simp] theorem setSel_life (p : Path) (k : Nat) (v : Nat) (s : State) : (setSel p k v s).life = s.life := by
  unfold setSel
  try dsimp only
  repeat' (first | with_reducible rfl | (simp; done) | split)

@[simp] theorem letTrain_life (s : State) : (letTrain s).life = s.life := by
  unfold letTrain
  try dsimp only
  repeat' (first | with_reducible rfl | (simp; done) | split)

@[simp] theorem refillCoords_life (s : State) : (refillCoords s).life = s.life := by
  unfold refillCoords
  try dsimp only
  repeat' (first | with_reducible rfl | (simp; done) | split)

@[simp] theorem portMaskWritten_life (old : Nat) (new : Nat) (s : State) : (portMaskWritten old new s).life = s.life := by
  unfold portMaskWritten
  refine forEach_life _ _ (fun i s => ?_) s
  repeat' split
  all_goals simp

@[simp] theorem standbyWritten_life (b : Nat) (s : State) : (standbyWritten b s).life = s.life := by
  unfold standbyWritten
  try dsimp only
  repeat' (first | with_reducible rfl | (simp; done) | split)

@[simp] theorem settingWritten_life (p : Option Path) (k : Nat) (v : Nat) (s : State) : (settingWritten p k v s).life = s.life := by
  unfold settingWritten
  try dsimp only
  repeat' (first | with_reducible rfl | (simp; done) | split)

@[simp] theorem storeEntry_life (p : Option Path) (e : Entry) (off : Nat) (b : Bytes) (s : State) : (storeEntry p e off b s).life = s.life := by
  unfold storeEntry
  try dsimp only
  repeat' (first | with_reducible rfl | (simp; done) | split)

@[simp] theorem setSets_life (t : Sets) (s : State) : (setSets t s).life = s.life := by
  unfold setSets
  try dsimp only
  repeat' (first | with_reducible rfl | (simp; done) | split)

@[simp] theorem setWriteOne_life (w : Nat × Option Bytes) (s : State) : (setWriteOne w s).life = s.life := by
  unfold setWriteOne
  try dsimp only
  repeat' (first | with_reducible rfl | (simp; done) | split)

@[simp] theorem applyWrites_life (x : SetSlot) (y : SetSlot) (s : State) : (applyWrites x y s).2.life = s.life := by
  unfold applyWrites
  try dsimp only
  repeat' (first | with_reducible rfl | (simp; done) | split)

@[simp] theorem applyAtReset_life (s : State) : (applyAtReset s).life = s.life := by
  unfold applyAtReset
  try dsimp only
  repeat' (first | with_reducible rfl | (simp; done) | split)

@[simp] theorem setFw_life (f : Firmware) (s : State) : (setFw f s).life = s.life := by
  unfold setFw
  try dsimp only
  repeat' (first | with_reducible rfl | (simp; done) | split)

@[simp] theorem confirmTrial_life (s : State) : (confirmTrial s).life = s.life := by
  unfold confirmTrial
  try dsimp only
  repeat' (first | with_reducible rfl | (simp; done) | split)

@[simp] theorem someTime_life (limit : Nat) (s : State) : (someTime limit s).2.life = s.life := by
  unfold someTime
  try dsimp only
  repeat' (first | with_reducible rfl | (simp; done) | split)

@[simp] theorem drain_life (s : State) : (drain s).life = s.life := by
  unfold drain
  try dsimp only
  repeat' (first | with_reducible rfl | (simp; done) | split)

@[simp] theorem drainCores_life (s : State) : (drainCores s).life = s.life := by
  unfold drainCores
  try dsimp only
  repeat' (first | with_reducible rfl | (simp; done) | split)

@[simp] theorem flushEvents_life (s : State) : (flushEvents s).life = s.life := by
  unfold flushEvents
  try dsimp only
  repeat' (first | with_reducible rfl | (simp; done) | split)

/-! ## power -/

@[simp] theorem forEach_power {α : Type} (l : List α) (f : α → State → State) (h : ∀ a s, (f a s).power = s.power) (s : State) :
    (forEach l f s).power = s.power := by
  induction l generalizing s with
  | nil => rfl
  | cons a l ih => rw [forEach_cons, ih, h]

@[simp] theorem whenS_power (c : Bool) (f : State → State) (h : ∀ s, (f s).power = s.power) (s : State) :
    (whenS c f s).power = s.power := by
  unfold whenS
  split
  · exact h s
  · rfl

@[simp] theorem sendHost_power (o : Out) (s : State) : (sendHost o s).power = s.power := by
  unfold sendHost
  try dsimp only
  repeat' (first | with_reducible rfl | (simp; done) | split)

@[simp] theorem nextFree_power (s : State) : (nextFree s).2.power = s.power := by
  unfold nextFree
  try dsimp only
  repeat' (first | with_reducible rfl | (simp; done) | split)

@[simp] theorem msix_power (v : Nat) (s : State) : (msix v s).power = s.power := by
  unfold msix
  try dsimp only
  repeat' (first | with_reducible rfl | (simp; done) | split)

@[simp] theorem causeErrorEvent_power (s : State) : (causeErrorEvent s).power = s.power := by
  unfold causeErrorEvent
  try dsimp only
  repeat' (first | with_reducible rfl | (simp; done) | split)

@[simp] theorem takeEvent_power (r : EventRec) (s : State) : (takeEvent r s).power = s.power := by
  unfold takeEvent
  try dsimp only
  repeat' (first | with_reducible rfl | (simp; done) | split)

@[simp] theorem bufferEvent_power (r : EventRec) (s : State) : (bufferEvent r s).power = s.power := by
  unfold bufferEvent
  try dsimp only
  repeat' (first | with_reducible rfl | (simp; done) | split)

@[simp] theorem raiseAt_power (code : Nat) (coord : Nat) (detail : Nat) (s : State) : (raiseAt code coord detail s).power = s.power := by
  unfold raiseAt
  try dsimp only
  repeat' (first | with_reducible rfl | (simp; done) | split)

@[simp] theorem raiseOnceAt_power (code : Nat) (coord : Nat) (detail : Nat) (s : State) : (raiseOnceAt code coord detail s).power = s.power := by
  unfold raiseOnceAt
  try dsimp only
  repeat' (first | with_reducible rfl | (simp; done) | split)

@[simp] theorem raiseOnce_power (code : Nat) (detail : Nat) (s : State) : (raiseOnce code detail s).power = s.power := by
  unfold raiseOnce
  try dsimp only
  repeat' (first | with_reducible rfl | (simp; done) | split)

@[simp] theorem settleBits_power (sk : Nat) (lo : Nat) (s : State) : (settleBits sk lo s).power = s.power := by
  unfold settleBits
  dsimp only
  repeat' split
  all_goals simp only [setStale_power, putWord_power]

@[simp] theorem settle_power (sk : Nat) (err : Nat) (s : State) : (settle sk err s).power = s.power := by
  exact settleBits_power _ _ _

@[simp] theorem checkSector_power (sk : Nat) (s : State) : (checkSector sk s).2.power = s.power := by
  unfold checkSector
  try dsimp only
  repeat' (first | with_reducible rfl | (simp; done) | split)

@[simp] theorem checkSectors_power (pk : Nat) (x0 : List Nat) (x1 : State) : (checkSectors pk x0 x1).2.power = x1.power := by
  induction x0 generalizing x1 with
  | nil => rfl
  | cons i l ih =>
    unfold checkSectors
    dsimp only
    exact (ih _).trans (by simp)

@[simp] theorem poisonSector_power (sk : Nat) (s : State) : (poisonSector sk s).power = s.power := by
  unfold poisonSector
  generalize poisonBit * 2 ^ 448 = w
  dsimp only
  simp

@[simp] theorem freshParity_power (pk : Nat) (s : State) : (freshParity pk s).power = s.power := by
  unfold freshParity
  try dsimp only
  repeat' (first | with_reducible rfl | (simp; done) | split)

@[simp] theorem poisonLost_power (pk : Nat) (lost : List Nat) (s : State) : (poisonLost pk lost s).power = s.power := by
  unfold poisonLost
  try dsimp only
  repeat' (first | with_reducible rfl | (simp; done) | split)

@[simp] theorem rebuild_power (pk : Nat) (lost : List Nat) (s : State) : (rebuild pk lost s).power = s.power := by
  unfold rebuild
  dsimp only
  split
  · rfl
  · split
    · simp
    · rw [whenS_power _ _ (fun _ => by rw [setDamage_power, setStale_power]),
        whenS_power _ _ (fun _ => by rw [setDamage_power, setStale_power])]
      simp

@[simp] theorem fixLine_power (lk : Nat) (s : State) : (fixLine lk s).power = s.power := by
  unfold fixLine
  try dsimp only
  repeat' (first | with_reducible rfl | (simp; done) | split)

@[simp] theorem applyDelta_power (pk : Nat) (s : State) : (applyDelta pk s).power = s.power := by
  unfold applyDelta
  try dsimp only
  repeat' (first | with_reducible rfl | (simp; done) | split)

@[simp] theorem parityWriteback_power (pk : Nat) (s : State) : (parityWriteback pk s).power = s.power := by
  unfold parityWriteback
  try dsimp only
  repeat' (first | with_reducible rfl | (simp; done) | split)

@[simp] theorem parityFlushAll_power (s : State) : (parityFlushAll s).power = s.power := by
  unfold parityFlushAll
  try dsimp only
  repeat' (first | with_reducible rfl | (simp; done) | split)

@[simp] theorem updPort_power (i : Nat) (f : Port → Port) (s : State) : (updPort i f s).power = s.power := by
  unfold updPort
  try dsimp only
  repeat' (first | with_reducible rfl | (simp; done) | split)

@[simp] theorem dropArrivals_power (i : Nat) (s : State) : (dropArrivals i s).power = s.power := by
  unfold dropArrivals
  try dsimp only
  repeat' (first | with_reducible rfl | (simp; done) | split)

@[simp] theorem dropPort_power (i : Nat) (s : State) : (dropPort i s).power = s.power := by
  unfold dropPort
  try dsimp only
  repeat' (first | with_reducible rfl | (simp; done) | split)

@[simp] theorem disablePort_power (i : Nat) (s : State) : (disablePort i s).power = s.power := by
  unfold disablePort
  try dsimp only
  repeat' (first | with_reducible rfl | (simp; done) | split)

@[simp] theorem linkDown_power (s : State) : (linkDown s).power = s.power := by
  unfold linkDown
  try dsimp only
  repeat' (first | with_reducible rfl | (simp; done) | split)

@[simp] theorem someTime_power (limit : Nat) (s : State) : (someTime limit s).2.power = s.power := by
  unfold someTime
  try dsimp only
  repeat' (first | with_reducible rfl | (simp; done) | split)

@[simp] theorem drain_power (s : State) : (drain s).power = s.power := by
  unfold drain
  try dsimp only
  repeat' (first | with_reducible rfl | (simp; done) | split)

@[simp] theorem drainCores_power (s : State) : (drainCores s).power = s.power := by
  unfold drainCores
  try dsimp only
  repeat' (first | with_reducible rfl | (simp; done) | split)

@[simp] theorem flushEvents_power (s : State) : (flushEvents s).power = s.power := by
  unfold flushEvents
  try dsimp only
  repeat' (first | with_reducible rfl | (simp; done) | split)

/-! ## pending -/

@[simp] theorem forEach_pending {α : Type} (l : List α) (f : α → State → State) (h : ∀ a s, (f a s).pending = s.pending) (s : State) :
    (forEach l f s).pending = s.pending := by
  induction l generalizing s with
  | nil => rfl
  | cons a l ih => rw [forEach_cons, ih, h]

@[simp] theorem whenS_pending (c : Bool) (f : State → State) (h : ∀ s, (f s).pending = s.pending) (s : State) :
    (whenS c f s).pending = s.pending := by
  unfold whenS
  split
  · exact h s
  · rfl

@[simp] theorem sendHost_pending (o : Out) (s : State) : (sendHost o s).pending = s.pending := by
  unfold sendHost
  try dsimp only
  repeat' (first | with_reducible rfl | (simp; done) | split)

@[simp] theorem nextFree_pending (s : State) : (nextFree s).2.pending = s.pending := by
  unfold nextFree
  try dsimp only
  repeat' (first | with_reducible rfl | (simp; done) | split)

@[simp] theorem msix_pending (v : Nat) (s : State) : (msix v s).pending = s.pending := by
  unfold msix
  try dsimp only
  repeat' (first | with_reducible rfl | (simp; done) | split)

@[simp] theorem causeErrorEvent_pending (s : State) : (causeErrorEvent s).pending = s.pending := by
  unfold causeErrorEvent
  try dsimp only
  repeat' (first | with_reducible rfl | (simp; done) | split)

@[simp] theorem takeEvent_pending (r : EventRec) (s : State) : (takeEvent r s).pending = s.pending := by
  unfold takeEvent
  try dsimp only
  repeat' (first | with_reducible rfl | (simp; done) | split)

@[simp] theorem bufferEvent_pending (r : EventRec) (s : State) : (bufferEvent r s).pending = s.pending := by
  unfold bufferEvent
  try dsimp only
  repeat' (first | with_reducible rfl | (simp; done) | split)

@[simp] theorem raiseOnceAt_pending (code : Nat) (coord : Nat) (detail : Nat) (s : State) : (raiseOnceAt code coord detail s).pending = s.pending := by
  unfold raiseOnceAt
  try dsimp only
  repeat' (first | with_reducible rfl | (simp; done) | split)

@[simp] theorem raiseOnce_pending (code : Nat) (detail : Nat) (s : State) : (raiseOnce code detail s).pending = s.pending := by
  unfold raiseOnce
  try dsimp only
  repeat' (first | with_reducible rfl | (simp; done) | split)

@[simp] theorem settleBits_pending (sk : Nat) (lo : Nat) (s : State) : (settleBits sk lo s).pending = s.pending := by
  unfold settleBits
  dsimp only
  repeat' split
  all_goals simp only [setStale_pending, putWord_pending]

@[simp] theorem settle_pending (sk : Nat) (err : Nat) (s : State) : (settle sk err s).pending = s.pending := by
  exact settleBits_pending _ _ _

@[simp] theorem checkSector_pending (sk : Nat) (s : State) : (checkSector sk s).2.pending = s.pending := by
  unfold checkSector
  try dsimp only
  repeat' (first | with_reducible rfl | (simp; done) | split)

@[simp] theorem checkSectors_pending (pk : Nat) (x0 : List Nat) (x1 : State) : (checkSectors pk x0 x1).2.pending = x1.pending := by
  induction x0 generalizing x1 with
  | nil => rfl
  | cons i l ih =>
    unfold checkSectors
    dsimp only
    exact (ih _).trans (by simp)

@[simp] theorem poisonSector_pending (sk : Nat) (s : State) : (poisonSector sk s).pending = s.pending := by
  unfold poisonSector
  generalize poisonBit * 2 ^ 448 = w
  dsimp only
  simp

@[simp] theorem freshParity_pending (pk : Nat) (s : State) : (freshParity pk s).pending = s.pending := by
  unfold freshParity
  try dsimp only
  repeat' (first | with_reducible rfl | (simp; done) | split)

@[simp] theorem poisonLost_pending (pk : Nat) (lost : List Nat) (s : State) : (poisonLost pk lost s).pending = s.pending := by
  unfold poisonLost
  try dsimp only
  repeat' (first | with_reducible rfl | (simp; done) | split)

@[simp] theorem rebuild_pending (pk : Nat) (lost : List Nat) (s : State) : (rebuild pk lost s).pending = s.pending := by
  unfold rebuild
  dsimp only
  split
  · rfl
  · split
    · simp
    · rw [whenS_pending _ _ (fun _ => by rw [setDamage_pending, setStale_pending]),
        whenS_pending _ _ (fun _ => by rw [setDamage_pending, setStale_pending])]
      simp

@[simp] theorem fixLine_pending (lk : Nat) (s : State) : (fixLine lk s).pending = s.pending := by
  unfold fixLine
  try dsimp only
  repeat' (first | with_reducible rfl | (simp; done) | split)

@[simp] theorem applyDelta_pending (pk : Nat) (s : State) : (applyDelta pk s).pending = s.pending := by
  unfold applyDelta
  try dsimp only
  repeat' (first | with_reducible rfl | (simp; done) | split)

@[simp] theorem parityWriteback_pending (pk : Nat) (s : State) : (parityWriteback pk s).pending = s.pending := by
  unfold parityWriteback
  try dsimp only
  repeat' (first | with_reducible rfl | (simp; done) | split)

@[simp] theorem parityFlushAll_pending (s : State) : (parityFlushAll s).pending = s.pending := by
  unfold parityFlushAll
  try dsimp only
  repeat' (first | with_reducible rfl | (simp; done) | split)

@[simp] theorem updPort_pending (i : Nat) (f : Port → Port) (s : State) : (updPort i f s).pending = s.pending := by
  unfold updPort
  try dsimp only
  repeat' (first | with_reducible rfl | (simp; done) | split)

@[simp] theorem dropArrivals_pending (i : Nat) (s : State) : (dropArrivals i s).pending = s.pending := by
  unfold dropArrivals
  try dsimp only
  repeat' (first | with_reducible rfl | (simp; done) | split)

@[simp] theorem dropPort_pending (i : Nat) (s : State) : (dropPort i s).pending = s.pending := by
  unfold dropPort
  try dsimp only
  repeat' (first | with_reducible rfl | (simp; done) | split)

@[simp] theorem disablePort_pending (i : Nat) (s : State) : (disablePort i s).pending = s.pending := by
  unfold disablePort
  try dsimp only
  repeat' (first | with_reducible rfl | (simp; done) | split)

@[simp] theorem linkDown_pending (s : State) : (linkDown s).pending = s.pending := by
  unfold linkDown
  try dsimp only
  repeat' (first | with_reducible rfl | (simp; done) | split)

@[simp] theorem someTime_pending (limit : Nat) (s : State) : (someTime limit s).2.pending = s.pending := by
  unfold someTime
  try dsimp only
  repeat' (first | with_reducible rfl | (simp; done) | split)

@[simp] theorem drain_pending (s : State) : (drain s).pending = s.pending := by
  unfold drain
  try dsimp only
  repeat' (first | with_reducible rfl | (simp; done) | split)

@[simp] theorem drainCores_pending (s : State) : (drainCores s).pending = s.pending := by
  unfold drainCores
  try dsimp only
  repeat' (first | with_reducible rfl | (simp; done) | split)

@[simp] theorem flushEvents_pending (s : State) : (flushEvents s).pending = s.pending := by
  unfold flushEvents
  try dsimp only
  repeat' (first | with_reducible rfl | (simp; done) | split)

end Sys2Proof.Machine
end

