-- ==== Sys2Proof/Laws/Memory.lean ====
section
/-!
SUPPORT. Every memory operation keeps the canonical form (Memory.wf), and memory has it at reset.
-/
namespace Sys2Proof.Machine

/-- Memory has its form at reset. -/
theorem reset_wf : Memory.wf State.reset.mem = true := rfl

theorem Memory.wf_iff (m : Mem) : Memory.wf m = true ↔
    swf 0 m.cells = true ∧ swf 0 m.marks = true ∧ swf 0 m.damage = true ∧ swf none m.pend = true ∧
    swf (0, 0) m.stale = true ∧ swf false m.sramPoison = true ∧ swf 0 m.sramBad = true := by
  simp only [Memory.wf, Bool.and_eq_true, and_assoc]

/-- A state whose memory is in its canonical form. -/
def goodMem (s : State) : Prop := Memory.wf s.mem = true

/-- An operation on states that keeps the form. -/
def keepsForm (f : State → State) : Prop := ∀ s, goodMem s → goodMem (f s)

theorem goodMem_of_mem_eq {s t : State} (h : t.mem = s.mem) (g : goodMem s) : goodMem t := by
  unfold goodMem at *
  rw [h]
  exact g

theorem keepsForm_of_mem (f : State → State) (h : ∀ s, (f s).mem = s.mem) : keepsForm f :=
  fun s g => goodMem_of_mem_eq (h s) g

theorem keepsForm_count (k : Nat) : keepsForm (count k) := keepsForm_of_mem _ (fun _ => rfl)
theorem keepsForm_countN (k n : Nat) : keepsForm (countN k n) := keepsForm_of_mem _ (fun _ => rfl)
theorem keepsForm_raiseAt (c x n : Nat) : keepsForm (raiseAt c x n) := keepsForm_of_mem _ (raiseAt_mem c x n)
theorem keepsForm_raiseOnce (c n : Nat) : keepsForm (raiseOnce c n) := keepsForm_of_mem _ (raiseOnce_mem c n)

/-- A change of every element of a list keeps what each change keeps. -/
theorem forEach_keeps {α : Type} (P : State → Prop) (l : List α) (f : α → State → State)
    (h : ∀ a s, P s → P (f a s)) : ∀ s, P s → P (forEach l f s) := by
  unfold forEach
  induction l with
  | nil => intro s g; exact g
  | cons a l ih => intro s g; exact ih _ (h a s g)

theorem whenS_keeps (P : State → Prop) (c : Bool) (f : State → State) (h : ∀ s, P s → P (f s)) :
    ∀ s, P s → P (whenS c f s) := by
  intro s g
  unfold whenS
  split
  · exact h s g
  · exact g

theorem putWord_wf (sk w : Nat) : keepsForm (putWord sk w) := by
  intro s g
  simp only [goodMem, Memory.wf_iff] at g ⊢
  exact ⟨swf_sputs _ _ _ _ g.1, swf_sput _ _ _ _ g.2.1, g.2.2⟩

theorem setStale_wf (pk : Nat) (v : Nat × Nat) : keepsForm (setStale pk v) := by
  intro s g
  simp only [goodMem, Memory.wf_iff] at g ⊢
  obtain ⟨h1, h2, h3, h4, h5, h6⟩ := g
  exact ⟨h1, h2, h3, h4, swf_sput _ _ _ _ h5, h6⟩

theorem setDamage_wf (sk v : Nat) : keepsForm (setDamage sk v) := by
  intro s g
  simp only [goodMem, Memory.wf_iff] at g ⊢
  obtain ⟨h1, h2, h3, h4⟩ := g
  exact ⟨h1, h2, swf_sput _ _ _ _ h3, h4⟩

/-- A change of what the form does not speak of. -/
theorem setMem_wf {s : State} {m : Mem} (g : goodMem s) (hc : m.cells = s.mem.cells) (hm : m.marks = s.mem.marks)
    (hd : m.damage = s.mem.damage) (hp : m.pend = s.mem.pend) (hs : m.stale = s.mem.stale)
    (hq : m.sramPoison = s.mem.sramPoison) (hb : m.sramBad = s.mem.sramBad) : goodMem (setMem m s) := by
  simp only [goodMem, Memory.wf_iff, setMem_mem] at g ⊢
  rw [hc, hm, hd, hp, hs, hq, hb]
  exact g

/-- A change of the parity cache. -/
theorem setPend_wf {s : State} (g : goodMem s) (pk : Nat) (v : Option (Nat × Nat)) :
    goodMem (setMem { s.mem with pend := sput none s.mem.pend pk v } s) := by
  simp only [goodMem, Memory.wf_iff, setMem_mem] at g ⊢
  obtain ⟨h1, h2, h3, h4, h5⟩ := g
  exact ⟨h1, h2, h3, swf_sput _ _ _ _ h4, h5⟩

theorem settleBits_wf (sk lo : Nat) : keepsForm (settleBits sk lo) := by
  intro s g
  unfold settleBits
  dsimp only
  split
  · exact setStale_wf _ _ _ g
  · split
    · exact setStale_wf _ _ _ g
    · exact setStale_wf _ _ _ (putWord_wf _ _ _ g)

theorem settle_wf (sk err : Nat) : keepsForm (settle sk err) := settleBits_wf sk _

theorem checkSector_wf (sk : Nat) : keepsForm (fun s => (checkSector sk s).2) := by
  intro s g
  show goodMem (checkSector sk s).2
  unfold checkSector
  dsimp only
  split
  · exact g
  · split
    · exact setDamage_wf _ _ _ (settle_wf _ _ _ g)
    · split
      · apply keepsForm_count
        exact setMem_wf (setDamage_wf _ _ _ (settle_wf _ _ _ g)) rfl rfl rfl rfl rfl rfl rfl
      · exact g

theorem checkSectors_wf (pk : Nat) (l : List Nat) : keepsForm (fun s => (checkSectors pk l s).2) := by
  induction l with
  | nil => intro s g; exact g
  | cons i l ih =>
    intro s g
    exact ih _ (checkSector_wf _ s g)

theorem poisonSector_wf (sk : Nat) : keepsForm (poisonSector sk) := by
  intro s g
  unfold poisonSector
  generalize poisonBit * 2 ^ 448 = w
  dsimp only
  apply keepsForm_raiseAt
  apply keepsForm_count
  exact setMem_wf (setDamage_wf _ _ _ (putWord_wf _ _ _ g)) rfl rfl rfl rfl rfl rfl rfl

theorem freshParity_wf (pk : Nat) : keepsForm (freshParity pk) := by
  intro s g
  unfold freshParity
  exact setDamage_wf _ _ _ (setDamage_wf _ _ _ (setStale_wf _ _ _ (setPend_wf g pk none)))

theorem poisonLost_wf (pk : Nat) (l : List Nat) : keepsForm (poisonLost pk l) := by
  intro s g
  unfold poisonLost
  exact freshParity_wf _ _ (forEach_keeps goodMem _ _ (fun i s g => poisonSector_wf _ s g) s g)

theorem rebuild_wf (pk : Nat) (l : List Nat) : keepsForm (rebuild pk l) := by
  intro s g
  unfold rebuild
  split
  · exact g
  · dsimp only
    split
    · exact poisonLost_wf _ _ _ g
    · apply whenS_keeps goodMem _ _ (fun s g => setDamage_wf _ _ _ (setStale_wf _ _ _ g))
      apply whenS_keeps goodMem _ _ (fun s g => setDamage_wf _ _ _ (setStale_wf _ _ _ g))
      apply keepsForm_countN
      exact forEach_keeps goodMem _ _ (fun d s g => setDamage_wf _ _ _ (settle_wf _ _ _ g)) s g

theorem fixSector_wf (sk : Nat) : keepsForm (fixSector sk) := by
  intro s g
  unfold fixSector
  split
  · exact g
  · dsimp only
    split
    · exact rebuild_wf _ _ _ (checkSectors_wf _ _ _ (checkSector_wf _ _ g))
    · exact checkSector_wf _ _ g

theorem fixPage_wf (pk : Nat) : keepsForm (fixPage pk) := by
  intro s g
  unfold fixPage
  split
  · exact rebuild_wf _ _ _ (checkSectors_wf _ _ _ g)
  · exact g

/-- A change of what is known of a line's words. -/
theorem setBad_wf {s : State} (g : goodMem s) (k v : Nat) :
    goodMem (setMem { s.mem with sramBad := sput 0 s.mem.sramBad k v } s) := by
  simp only [goodMem, Memory.wf_iff, setMem_mem] at g ⊢
  obtain ⟨h1, h2, h3, h4, h5, h6, h7⟩ := g
  exact ⟨h1, h2, h3, h4, h5, h6, swf_sput _ _ _ _ h7⟩

/-- A change of a line's poison. -/
theorem setLine_wf {s : State} (g : goodMem s) (k : Nat) (v : Bool) :
    goodMem (setMem { s.mem with sramPoison := sput false s.mem.sramPoison k v } s) := by
  simp only [goodMem, Memory.wf_iff, setMem_mem] at g ⊢
  obtain ⟨h1, h2, h3, h4, h5, h6, h7⟩ := g
  exact ⟨h1, h2, h3, h4, h5, swf_sput _ _ _ _ h6, h7⟩

theorem fixLine_wf (lk : Nat) : keepsForm (fixLine lk) := by
  intro s g
  unfold fixLine
  dsimp only
  by_cases e : sget 0 s.mem.sramBad lk = 0
  · rw [if_pos e]
    exact g
  · rw [if_neg e]
    have h := keepsForm_countN E.SRAM_CORRECTED (badWords (sget 0 s.mem.sramBad lk) 1) _ (setBad_wf g lk 0)
    by_cases f : badWords (sget 0 s.mem.sramBad lk) 2 = 0
    · rw [if_pos f]
      exact h
    · rw [if_neg f]
      apply keepsForm_raiseOnce
      apply keepsForm_count
      exact forEach_keeps goodMem _ _ (fun pk s g => freshParity_wf pk s g) _ (setLine_wf h lk true)

theorem freshLine_wf (lk : Nat) : keepsForm (freshLine lk) := by
  intro s g
  have h := whenS_keeps goodMem (linePoison s lk) (count E.POISON_CLEARED) (fun s g => keepsForm_count _ s g) s g
  unfold freshLine
  dsimp only
  simp only [goodMem, Memory.wf_iff, setMem_mem] at h ⊢
  obtain ⟨h1, h2, h3, h4, h5, h6, h7⟩ := h
  exact ⟨h1, h2, h3, h4, h5, swf_sput _ _ _ _ h6, swf_sput _ _ _ _ h7⟩

theorem fixLines_wf (l : List Nat) : keepsForm (forEach l fixLine) :=
  fun s g => forEach_keeps goodMem _ _ (fun k s g => fixLine_wf k s g) s g

theorem applyDelta_wf (pk : Nat) : keepsForm (applyDelta pk) := by
  intro s g
  unfold applyDelta
  dsimp only
  have h := checkSectors_wf pk [62, 63] s g
  split
  · exact setPend_wf h _ _
  · have h2 := checkSectors_wf pk (upto 62) _ h
    split
    · exact freshParity_wf _ _ h2
    · exact setPend_wf (rebuild_wf _ _ _ h2) _ _

theorem parityWriteback_wf (pk : Nat) : keepsForm (parityWriteback pk) := by
  intro s g
  unfold parityWriteback
  split
  · exact g
  · have h := fixLines_wf (pendLines s pk) s g
    dsimp only
    split
    · exact h
    · exact keepsForm_count _ _ (applyDelta_wf pk _ h)

theorem parityFlushAll_wf : keepsForm parityFlushAll := by
  intro s g
  exact forEach_keeps goodMem _ _ (fun pk s g => parityWriteback_wf pk s g) s g

theorem takeEntry_wf (pk : Nat) (d : Nat × Nat) : keepsForm (takeEntry pk d) := by
  intro s g
  unfold takeEntry
  dsimp only
  apply setPend_wf
  exact forEach_keeps goodMem _ _ (fun k s g => freshLine_wf k s g) _
    (forEach_keeps goodMem _ _ (fun k s g => parityWriteback_wf k s g) s g)

theorem parityAdd_wf (pk : Nat) (d : Nat × Nat) : keepsForm (parityAdd pk d) := by
  intro s g
  unfold parityAdd
  split
  · exact takeEntry_wf pk d s g
  · have h := fixLines_wf (pendLines s pk) s g
    dsimp only
    split
    · exact setPend_wf h _ _
    · exact h

theorem putSector_wf (sk w : Nat) : keepsForm (putSector sk w) := by
  intro s g
  unfold putSector
  exact parityAdd_wf _ _ _ (putWord_wf _ _ _ g)

theorem loseParity_wf (die : Nat) : keepsForm (loseParity die) := by
  intro s g
  unfold loseParity
  dsimp only
  apply forEach_keeps goodMem
  · intro r s g
    exact setMem_wf g rfl rfl rfl rfl rfl rfl rfl
  · apply forEach_keeps goodMem _ _ _ s g
    intro e s g
    exact setPend_wf (setStale_wf e.1 (xor2 (staleOf s e.1) (e.2.getD (0, 0))) s g) e.1 none

theorem fixRange_wf (a n : Nat) : keepsForm (fixRange a n) := by
  intro s g
  unfold fixRange
  split
  · split
    · exact g
    · exact forEach_keeps goodMem _ _ (fun k s g => fixSector_wf k s g) s g
  · split
    · exact g
    · exact forEach_keeps goodMem _ _ (fun k s g => fixLine_wf k s g) s g

theorem readPiece_wf (a n : Nat) : keepsForm (fun s => (readPiece a n s).2) := by
  intro s g
  show goodMem (readPiece a n s).2
  unfold readPiece
  dsimp only
  split
  · exact forEach_keeps goodMem _ _ (fun k s g => fixSector_wf _ s g) s g
  · exact fixRange_wf _ _ _ g

theorem readPieces_wf (l : List (Nat × Nat)) : ∀ p : (Bytes × Bool) × State, goodMem p.2 →
    goodMem (l.foldl (fun p c =>
      let r := readPiece c.1 c.2 p.2
      ((p.1.1 ++ r.1.1, p.1.2 || r.1.2), r.2)) p).2 := by
  induction l with
  | nil => intro p gp; exact gp
  | cons c l ih => intro p gp; exact ih _ (readPiece_wf c.1 c.2 p.2 gp)

/-- Reading a range keeps the form. -/
theorem readRange_wf (a n : Nat) : keepsForm (fun s => (readRange a n s).2) := by
  intro s g
  show goodMem (readRange a n s).2
  unfold readRange
  split
  · exact readPieces_wf _ _ g
  · exact readPiece_wf a n s g

/-- Bytes stored into a line, with its poison. -/
theorem storeLine_wf {s : State} (g : goodMem s) (lo k : Nat) (b : Bytes) (v : Bool) :
    goodMem (setMem { s.mem with
      cells := sputs 0 s.mem.cells lo b
      sramPoison := sput false s.mem.sramPoison k v } s) := by
  simp only [goodMem, Memory.wf_iff, setMem_mem] at g ⊢
  obtain ⟨h1, h2, h3, h4, h5, h6, h7⟩ := g
  exact ⟨swf_sputs _ _ _ _ h1, h2, h3, h4, h5, swf_sput _ _ _ _ h6, h7⟩

theorem writeUnit_wf (a k : Nat) (b : Bytes) (x : Nat) (p : Bool) : keepsForm (writeUnit a k b x p) := by
  intro s g
  unfold writeUnit
  dsimp only
  split
  · apply putSector_wf
    exact whenS_keeps goodMem _ _ (fun s g => keepsForm_count _ s g) _ (fixSector_wf _ _ g)
  · exact storeLine_wf (whenS_keeps goodMem _ _ (fun s g => keepsForm_count _ s g) _ (fixLine_wf k _ (setBad_wf g k _))) _ _ _ _

theorem writePage_wf (pk : Nat) (b : Bytes) (x : Nat) (p : Nat → Bool) : keepsForm (writePage pk b x p) := by
  intro s g
  unfold writePage
  dsimp only
  apply freshParity_wf
  apply forEach_keeps goodMem _ _ _ s g
  intro i s g
  apply setDamage_wf
  apply putWord_wf
  exact whenS_keeps goodMem _ _ (fun s g => keepsForm_count _ s g) s g

theorem noteRecopy_wf (pk : Nat) : keepsForm (noteRecopy pk) := by
  intro s g
  unfold noteRecopy
  split <;> exact g

theorem noteDense_wf (pk : Nat) : keepsForm (noteDense pk) := by
  intro s g
  unfold noteDense
  split
  · exact noteRecopy_wf _ _ g
  · exact g

/-- Writing a range keeps the form. -/
theorem writeRange_wf (a : Nat) (b : Bytes) (p : Bool) : keepsForm (writeRange a b p) := by
  intro s g
  unfold writeRange
  dsimp only
  split
  · exact g
  · split
    · apply forEach_keeps goodMem _ _ _ s g
      intro pk s g
      have h := noteDense_wf pk s g
      split
      · exact writePage_wf _ _ _ _ _ h
      · exact forEach_keeps goodMem _ _ (fun k s g => writeUnit_wf _ _ _ _ _ s g) _ h
    · exact forEach_keeps goodMem _ _ (fun k s g => writeUnit_wf _ _ _ _ _ s g) s g

/-- Writing a range with its poison keeps the form. -/
theorem writeMarked_wf (a : Nat) (b : Bytes) (l : List Bool) : keepsForm (writeMarked a b l) := by
  intro s g
  unfold writeMarked
  dsimp only
  split
  · exact writeRange_wf _ _ _ _ g
  · split
    · apply forEach_keeps goodMem
      · intro pk s g
        have h := noteDense_wf pk s g
        split
        · exact writePage_wf _ _ _ _ _ h
        · exact forEach_keeps goodMem _ _ (fun k s g => writeUnit_wf _ _ _ _ _ s g) _ h
      · exact keepsForm_countN _ _ _ g
    · exact forEach_keeps goodMem _ _ (fun k s g => writeUnit_wf _ _ _ _ _ s g) _ (keepsForm_countN _ _ _ g)

/-- An upset keeps the form. -/
theorem upsetAt_wf (u : Upset) : keepsForm (upsetAt u) := by
  intro s g
  unfold upsetAt
  split
  · exact setDamage_wf _ _ _ g
  · exact setBad_wf g _ _
  · exact g

/-- The fill gives the form. -/
theorem fillMemory_wf (s : State) : goodMem (fillMemory s) := rfl

end Sys2Proof.Machine
end

