-- ==== Sys2Proof/Laws/Requests.lean ====
section
/-!
SUPPORT. What a target does with a request that it performs (R306, R338), and with a message that it takes (R325).
-/
namespace Sys2Proof.Machine

theorem takeArrival_frame (p : Packet) (s : State) : ∃ f, takeArrival p s = { s with fabric := f } := by
  unfold takeArrival
  split
  · exact ⟨s.fabric, rfl⟩
  · exact ⟨_, rfl⟩

theorem serves_inService {s : State} (h : serves s = true) : outOfService s = false := by
  unfold outOfService isState
  unfold serves stepping isState at h
  cases hh : s.life.modState <;> simp_all

/-- A request of the duplicate filter that a module performs is answered with what performing it gives. -/
theorem serveReq_performs {p : Packet} {s : State} (h : performs p s) (f : State → (Nat × Bytes × Bool) × State) :
    serveReq true p f (takeArrival p s) =
      answerReq true p (f (taken p s)).1.1 (f (taken p s)).1.2.1 (f (taken p s)).1.2.2 (f (taken p s)).2 := by
  obtain ⟨a, b, c, d, e⟩ := h
  obtain ⟨x, hx⟩ := takeArrival_frame p s
  have ho : outOfService (takeArrival p s) = false := by rw [hx]; exact serves_inService a
  have ha : serves (takeArrival p s) = true := by rw [hx]; exact a
  have hb : (gModule p.address != myNumber (takeArrival p s)) = false := by
    rw [hx]; exact bne_eq_false_iff_eq.mpr b
  have he := Nat.not_le.mpr e
  unfold taken at d he ⊢
  simp only [serveReq, ho, ha, hb, c, d, decide_eq_false he]
  rfl

/-- So is a READ or WRITE, which pass no filter. -/
theorem serveReq_plain {p : Packet} {s : State} (a : serves s = true) (b : gModule p.address = myNumber s)
    (c : endCheckGood p = true) (f : State → (Nat × Bytes × Bool) × State) :
    serveReq false p f (takeArrival p s) =
      answerReq false p (f (taken p s)).1.1 (f (taken p s)).1.2.1 (f (taken p s)).1.2.2 (f (taken p s)).2 := by
  obtain ⟨x, hx⟩ := takeArrival_frame p s
  have ho : outOfService (takeArrival p s) = false := by rw [hx]; exact serves_inService a
  have ha : serves (takeArrival p s) = true := by rw [hx]; exact a
  have hb : (gModule p.address != myNumber (takeArrival p s)) = false := by
    rw [hx]; exact bne_eq_false_iff_eq.mpr b
  unfold taken
  simp only [serveReq, ho, ha, hb, c]
  rfl

/-- A signal of a member is answered with what it brings about. -/
theorem memberSignal_performs {p : Packet} {s : State} (h : performs p s) (f : Nat → Nat → State → Nat × State) :
    memberSignal p f (takeArrival p s) =
      answerReq true p (f p.srcModule (leNat p.data) (taken p s)).1 [] false
        (f p.srcModule (leNat p.data) (taken p s)).2 := by
  unfold memberSignal
  rw [serveReq_performs h]

/-- A delivered message is taken by its unit and answered with what that gives. -/
theorem messageRow_received {m : Msg} {s : State} {op : Nat} (h : wfMsg op m = true) (hm : m ∈ s.fabric.delivered)
    (hs : serves s = true) (f : Msg → State → Nat × State) :
    messageRow op m f s = settleRun (answerMsg m (f m (received m s)).1 (f m (received m s)).2) := by
  have ho : (m.op == op) = true := by
    simp [wfMsg] at h
    simp [h]
  have hc : s.fabric.delivered.contains m = true := by simpa using hm
  have a : serves (received m s) = true := hs
  have b : outOfService (received m s) = false := serves_inService a
  unfold received at a b ⊢
  simp only [messageRow, takeMsg, ho, hc, Bool.and_self, ↓reduceIte, a, b]
  rfl

/-- A Guyline request that a module performs has its effect. -/
theorem gServe_performs {p : GPacket} {s : State} (h : gPerforms p s) (f : State → State) :
    gServe p f s = f (takeGArrival p s) := by
  obtain ⟨w, a, b, c, d, e⟩ := h
  have he := Nat.not_le.mpr e
  simp only [gServe, w, a, b, c, d, he, serves_inService b]
  rfl

end Sys2Proof.Machine
end

