-- ==== Sys2Proof/Tests/Slice0.lean ====
section
/-!
SUPPORT. The model's own tests: an ill-formed term for each check of WellFormed, the manual's worked examples, single steps on
small states, and for every statement with hypotheses a state and operands that meet them, clause by clause.
-/
namespace Sys2Proof.Tests

open Sys2Proof Sys2Proof.Machine

set_option Elab.async false

/-! ## Ill-formed terms, one for each check -/

/-- Commands that no check lets through. -/
def refusedAll (l : List Instr) : Bool := l.all fun i => !(Instr.wf i)

theorem test_wf_command_record : refusedAll [
    .nop 64 0 0, .nop 0 (2 ^ 32) 0, .nop 0 0 1, .gemm 0 0 0x11, .load 0 0 0x51, .unload 0 0 0x50] = true := by decide +kernel
theorem test_wf_queue_events : refusedAll [
    .commandFetch 64 .bad, .descriptorRecheckExpiry 64 .bad, .commandStart 0 (2 ^ 32), .commandComplete 64 0, .completionFlushDone 64,
    .intCoalesceExpiry 64, .doorbellSqProducer 0 (2 ^ 32), .doorbellCqHead 64 0, .queueEnable 64, .queueDisable 64, .queueRestart 64,
    .pcieCompletionTimeout 64, .pegWaitTimeout 64 0] = true := by decide
theorem test_wf_packet_fields : ([
    { address := 2 ^ 64, op := 1 }, { srcModule := 2 ^ 13, op := 1 }, { srcDie := 4, op := 1 }, { cls := 8, op := 1 },
    { long := 8, op := 1 }, { viaModule := 2 ^ 13, op := 1 }, { tag := 2 ^ 16, op := 1 }, { status := 2 ^ 16, op := 1 },
    { hops := 128, op := 1 }, { endCheck := 2 ^ 32, op := 1 }, { op := 2 }] : List Packet).all
      (fun p => !(Instr.wf (.read p []))) = true := by decide
theorem test_wf_packet_op_and_length :
    wfPacket { op := 256 } = false ∧ wfPacket { data := List.replicate 4097 0 } = false := by decide +kernel
theorem test_wf_guyline_fields : ([
    { path := 4 }, { gop := 256 }, { cls := 8 }, { die := 4 }, { region := 4 }, { tag := 2 ^ 16 }, { status := 2 ^ 16 },
    { stepLo := 2 ^ 32 }, { endCheck := 2 ^ 32 }] : List GPacket).all (fun p => !(Instr.wf (.mirrorLog 11 p))) = true := by decide
theorem test_wf_guyline_length : wfGuyline { data := List.replicate 4097 0 } = false := by decide +kernel
theorem test_wf_message_fields : ([
    { src := 2 ^ 13, op := 0x10 }, { srcDie := 4, op := 0x10 }, { tag := 2 ^ 16, op := 0x10 }, { op := 0x11 },
    { msgId := 2 ^ 32, op := 0x10 }, { stepLo := 2 ^ 32, op := 0x10 }, { region := 16, op := 0x10 },
    { head := List.replicate 33 0, op := 0x10 }, { off := 2 ^ 32, op := 0x10 }] : List Msg).all
      (fun m => !(Instr.wf (.indexRun m))) = true := by decide
theorem test_wf_message_length (m : Msg) (h : 1048640 < m.body.length) : wfMsg 0x10 m = false := by
  have : decide (m.body.length ≤ 1048640) = false := decide_eq_false (Nat.not_le.mpr h)
  simp only [wfMsg, this, Bool.and_false, Bool.false_and]
theorem test_wf_flit_fields : ([
    { seq := 4096 }, { ack := 4096 }, { vcClass := 5 }, { crc := 2 ^ 32 }, { body := List.replicate 119 0 }] : List Flit).all
      (fun f => !(wfFlit { f with body := if f.body = [] then List.replicate 120 0 else f.body })) = true := by decide +kernel
theorem test_wf_control_fields : ([
    { code := 16 }, { ack := 4096 }, { nakSeq := 4096 }, { credits := [(20, 0)] }, { credits := [(0, 2 ^ 16)] }] : List Control).all
      (fun c => !(Instr.wf (.controlFlitReceive 0 c))) = true := by decide
theorem test_wf_train_fields : ([
    { moduleNumber := 2 ^ 13 }, { port := 16 }, { levels := 256 }, { role := 256 }, { systemId := 2 ^ 32 }, { coordCheck := 2 ^ 32 },
    { dimX := 256 }, { dimY := 256 }, { dimZ := 256 }, { selected := 256 }, { twinPeer := 2 ^ 16 }, { twinSide := 256 }] :
      List TrainRec).all (fun r => !(Instr.wf (.trainFlitReceive 0 r))) = true := by decide
theorem test_wf_ports : refusedAll [
    .controlFlitReceive 12 {}, .packetTransit 8 {}, .heartbeatReceive 7 0 0 0 0 0, .mirrorLog 7 {}, .mirrorLog 12 {},
    .codewordLockLoss 12] = true := by decide
theorem test_wf_heartbeat : refusedAll [
    .heartbeatReceive 8 (2 ^ 13) 0 0 0 0, .heartbeatReceive 8 0 256 0 0 0, .heartbeatReceive 8 0 0 256 0 0,
    .heartbeatReceive 8 0 0 0 0 (2 ^ 32)] = true := by decide
theorem test_wf_replies_and_retries : refusedAll [
    .responseReceive (.fabric 4 {}), .responseReceive (.guyline { path := 4 }), .retryBackoffExpiry (.request 4 0),
    .retryBackoffExpiry (.request 0 (2 ^ 16)), .retryBackoffExpiry (.guyline 4 0), .fabricRequestTimeout true 4 0,
    .dupFilterEntryExpiry 4 0 0 0, .twinProbeExpiry (2 ^ 13), .livenessDecision true (2 ^ 64)] = true := by decide
theorem test_wf_dictionary : refusedAll [
    .odpRead (.odp (2 ^ 48) false) 0 0, .odpRead .uart (2 ^ 16) 0, .odpRead .uart 0 256, .odpRequest (2 ^ 48) [],
    .portEnableMaskWrite .mailbox 256, .torusDimWrite .mailbox 3 1, .setCommit .mailbox (2 ^ 64), .faultCodeClear .mailbox (2 ^ 16),
    .registerWrite (.dict .mailbox (2 ^ 16) 0 []), .registerWrite (.bar0 0 0 0), .registerWrite (.bar0 0 9 0),
    .registerWrite (.bar0 (2 ^ 25) 1 0), .registerWrite (.bar0 0 1 256), .i3cAddressAssign 128 true] = true := by decide
theorem test_wf_places : refusedAll [
    .gradConsume 16, .targetSliceApply 16 0 0 0 0 0, .burnisherPageCheck 0 2 [], .burnisherPageCheck 0 0 [.dram 16 0 0 0 0],
    .burnisherPageCheck 0 0 [.sram 0 0 8 1], .burnisherPageCheck 0 0 [.sram 0 0 0 3], .burnisherPageCheck 0 0 [.bridge 6],
    .checkScanRun 4, .proofRecompute 16, .inputPowerArrival 2, .railFault 64,
    .bringupStageComplete [64], .thermalThrottle false 8 0, .hbm3RefreshDoubled 8 true, .senseSample [], .unitFault (2 ^ 13), .unitFault 0x500,
    .bringupStageTimeout 0x441, .bar2Read (2 ^ 30) 1, .exportWindowRead 0 (2 ^ 32 + 1), .ptpMessage { domain := 256 } 0 true,
    .intakeWindowWrite (2 ^ 16) 0 [] false, .intakeProducerWrite 0 0 0, .ringEnable 64, .causeClear (2 ^ 32)] = true := by decide
/-- A term that is no command leaves the state as it is. -/
theorem test_ill_formed_has_no_effect (s : State) : exec (.ringEnable 64) s = .next s := by
  simp only [exec, execRingEnable, guarded]; rfl

/-! ## Worked examples of the manual -/

/-- "The coordinate `m17:1.2.3.5` packs as follows" (R36). -/
theorem test_coordinate_example : coordOf 17 1 2 3 5 = 0x00022AC5 := by decide
/-- "Software places a payload byte at die-local offset 0x0B5_0000_1000" (R23). -/
theorem test_offset_example :
    (spotOf State.reset 0x0B500001000).region = 2 ∧ (spotOf State.reset 0x0B500001000).off = 0x500001000 := by decide
/-- The same byte is the first of physical sector 58 of the page 309,257 of region channel 9 (R258). -/
theorem test_sector_example :
    secIn (secOfAddr (modAddr 2 0x0B500001000)) = 58 ∧
    pageNo (pageOfSec (secOfAddr (modAddr 2 0x0B500001000))) % 20 = 9 ∧
    pageNo (pageOfSec (secOfAddr (modAddr 2 0x0B500001000))) / 20 = 309257 := by decide
/-- "A unit names payload byte 64 of the slow tier of region 0 on die 1 of module 7,000" (R286). -/
theorem test_address_example : memGlobal 7000 1 0x01000000040 = 0x00DAC21000000040 := by decide
/-- "X: from 8 to 24 is 16 hops either way, so the packet goes + on F0" (R307, R308). -/
theorem test_route_example :
    nextHop { State.reset with
      dict := { force := [(E.MODULE_NUMBER, 40)] }
      fabric := { trainedDims := [32, 16, 16], trainedCoords := [(40, 0x8000 + 8 + 1 * 32), (7000, 0x8000 + 24 + 10 * 32 + 13 * 512)] } }
      { address := 0x00DAC21000000040 } none = .port 0 false := by decide +kernel
/-- "(1,000, GRADS) ... 8,003"; "(999, COMMIT) has axis value 7,997. The point after it is (1,000, OPEN)" (R342). -/
theorem test_axis_example : axisOf 1000 3 = 8003 ∧ axisOf 999 5 = 7997 ∧ nextPoint 7997 = 8000 := by decide
/-- "Three D16 roundings of F32 values near 1.0" (R60 to R63). -/
theorem test_d16_example :
    (scalarEncode fmtD16 16 .rne 0 false (f32val 0x3F808000)).1 = 0x3F80 ∧
    (scalarEncode fmtD16 16 .rz 0 false (f32val 0x3F808000)).1 = 0x3F80 ∧
    (scalarEncode fmtD16 16 .srd 0x3A41 false (f32val 0x3F808000)).1 = 0x3F81 ∧
    (scalarEncode fmtD16 16 .srd 0x9C07 false (f32val 0x3F808000)).1 = 0x3F80 := by decide +kernel
/-- The K8 block of R55: T is 129, the block offset 5; 2.7 (0x402CCCCD) gives 0x76, -0.05 (0xBD4CCCCD) gives 0x9A. -/
theorem test_k8_example :
    tileExponent (numOfNat 100) 0 = 129 ∧ k8offset (f32val 0x402CCCCD) 129 = 5 ∧
    (k8encode .rne 0 5 129 (f32val 0x402CCCCD)).1 = 0x76 ∧ (k8encode .rne 0 5 129 (f32val 0xBD4CCCCD)).1 = 0x9A := by decide +kernel
/-- 50,000 (0x47435000) in F16 is the tie that RNE takes to 0x7A1A. -/
theorem test_f16_example : (scalarEncode fmtF16 16 .rne 0 false (f32val 0x47435000)).1 = 0x7A1A := by decide +kernel
/-- "α¹ × 0x5A = 0xB4. α³ × 0xC3 ... 0x56" (R263). -/
theorem test_parity_example : gfAlphaN 1 0x5A = 0xB4 ∧ gfAlphaN 3 0xC3 = 0x56 ∧ gfAlphaN 3 0xC1 = 0x46 := by decide +kernel
/-- "Input [[4, 2], [2, 5]] ... 1/16 × [[5, −2], [−2, 4]]", status 0 (R182). -/
theorem test_invr_example :
    let r := (invr (fun _ => 0) [[0x40800000, 0x40000000], [0x40000000, 0x40A00000]] 2 0).1
    (mget r.1 0 0, mget r.1 0 1, mget r.1 1 0, mget r.1 1 1, r.2) =
      ((0x3EA00000 : W32), (0xBE000000 : W32), (0xBE000000 : W32), (0x3E800000 : W32), 0) := by decide +kernel
/-- "Input [[1, 3], [3, 1]] ... The fallback writes ... the identity. The status is 5.0". -/
theorem test_invr_fallback :
    let r := (invr (fun _ => 0) [[0x3F800000, 0x40400000], [0x40400000, 0x3F800000]] 2 0).1
    (mget r.1 0 0, mget r.1 0 1, mget r.1 1 1, r.2) = ((0x3F800000 : W32), (0 : W32), (0x3F800000 : W32), 5) := by decide +kernel
/-- "Table 3 ... A gradient arrives for row 7,031,250,037, column 200": pitch 45, home group 8, and the record of slice 12 (local
slice 0) at the die-local offset 0x012_0A28_0390 less the 16 bytes before its WEIGHT of element 8. -/
theorem test_placement_example :
    let s : State := { State.reset with plan := { p := 4, n := 128 } }
    let d : TableDecl := {
      table := 3, width := 256, idx64 := true, pinned := false, init := 0, program := 0, rows := 20000000000, initBound := 0
      baseGranule := 616, granules := 308, pinnedBase := 0 }
    let t : TableSet := {
      number := 1, mode := 0, variants := 1, tables := [d], tStart := 0, t := 0, bank := [], derived := [], bankStep := 0
      scheds := [], nextBatch := 0 }
    pitchOfRow s d 7031250037 = 45 ∧ homeGroup s d 7031250037 = 8 ∧ regionRow s d 7031250037 = 2 ∧
    baseRecord s t d 7031250037 0 + 16 = modAddr 2 0x0120A280390 := by decide +kernel
/-- The check value of CRC-32C over the digits 1 to 9, which its name stands for, and of CRC-32 (R261, R297). -/
theorem test_crc :
    crc32c [0x31, 0x32, 0x33, 0x34, 0x35, 0x36, 0x37, 0x38, 0x39] = 0xE3069283 ∧
    crc32 [0x31, 0x32, 0x33, 0x34, 0x35, 0x36, 0x37, 0x38, 0x39] = 0xCBF43926 := by decide +kernel

/-! ## States and operands that the witnesses use -/

/-- A module in READY with everything on. -/
def up : State := { State.reset with
  life := { modState := .ready, powState := .active, conversion := true, standbyRail := true, pwrgd := true }
  lantern := { serving := true }, host := { linkL0 := true, perst := false, bme := true }
  power := { feedA := { connected := true }, feedB := { connected := true } } }

/-- The same module with another life, with a queue 0, with a ring 0, with a port. -/
def upLife (l : Life) : State := { up with life := l }
def upStage (n : Nat) : State := { State.reset with life := { start := some .cold, stage := n, standbyRail := true } }
def upQueue (v : Queue) : State := { up with host := { up.host with queues := [(0, v)] } }
def upRing (v : Ring) : State := { up with host := { up.host with rings := [(0, v)] } }
def upPort (i : Nat) (p : Port) : State := { up with fabric := { up.fabric with ports := [(i, p)] } }

/-- A queue that runs, and a command in it. -/
def running : Queue := { state := .running, sqProducer := 5, sqFetched := 3, cqProducer := 2, cqHead := 1 }
def cmdIn (c : Cmd) : State := upQueue { running with cmds := [c] }

/-- A command record from an opcode and fields (low bit, value). -/
def record (op : Nat) (fs : List (Nat × Nat)) : Rec64 := BitVec.ofNat 512 (op + (fs.map fun f => f.2 * 2 ^ f.1).sum)

/-- A module in a run of one member, at an axis value. -/
def member (a : Nat) : State := { up with
  life := { up.life with modState := .running }, loadState := .loaded
  plan := { members := [0], p := 1, n := 1, fastFlat := 100, slowTable := 10, slowOverlay := 10, rucksack := 10, denseAddr := 2 ^ 40 }
  pegs := { values := [(4095, BitVec.ofNat 64 a)] }, ridge := { state := .following, source := 1 }
  twin := { state := .unpaired } }
/-- The same with a queue 0. -/
def memberQueue (a : Nat) (v : Queue) : State := { member a with host := { up.host with queues := [(0, v)] } }

/-- A good packet of one operation from module 1. -/
def pkt (op addr : Nat) (data : Bytes) : Packet := sealPacket { address := addr, srcModule := 1, op := op, cls := 1, data := data }

/-- A good flit, with 120 bytes of zeros. -/
def sealFlit (f : Flit) : Flit := { f with body := zeros 120, crc := flitCrc { f with body := zeros 120 } }
/-- Modules 0 and 1 side by side, module 1 at X = 1. -/
def twoWide (ports : List (Nat × Port)) : State := { up with
  dict := { regs := [(E.TORUS_DIM_X, 2)], force := [(E.MODULE_NUMBER_VALID, 1)], coordTable := [(0, 0x8000), (1, 0x8001)] }
  fabric := { up.fabric with trainedDims := [2, 1, 1], trainedCoords := [(0, 0x8000), (1, 0x8001)], ports := ports } }

/-- A CRC of 32 bits is a number of 32 bits. -/
theorem crcBits_lt (n c : Nat) (h : c < 2 ^ 32) : crcBits 0x82F63B78 n c < 2 ^ 32 := by
  induction n generalizing c with
  | zero => exact h
  | succ n ih =>
    refine ih _ ?_
    unfold crcBit
    split
    · exact Nat.xor_lt_two_pow (by omega) (by decide)
    · omega
theorem crc32c_lt (b : Bytes) : crc32c b < 2 ^ 32 := by
  have h : ∀ c, c < 2 ^ 32 → crcRefl 0x82F63B78 c b < 2 ^ 32 := by
    induction b with
    | nil => intro c h; exact h
    | cons x b ih =>
      intro c h
      exact ih _ (crcBits_lt 8 _ (Nat.xor_lt_two_pow h (Nat.lt_of_lt_of_le x.isLt (by decide))))
  exact Nat.xor_lt_two_pow (h _ (by decide)) (by decide)

/-- A port that trains, and a good record of its peer. -/
def twoPort (p : Port) : Port := { p with dims := [2, 1, 1], coords := [(0, 0x8000), (1, 0x8001)] }
def trainingAt0 : State := twoWide [(0, twoPort { state := .training })]
def peer : TrainRec := { trainRecord trainingAt0 0 0 with moduleNumber := 1, port := 1, selected := 2 }
theorem wfTrain_check (t : TrainRec) (h : fits 32 t.coordCheck = true) (g : wfTrain { t with coordCheck := 0 } = true) :
    wfTrain t = true := by
  simp only [wfTrain, Bool.and_eq_true] at g ⊢
  simp only [h, g, and_self]
theorem wfTrain_peer : wfTrain peer = true :=
  wfTrain_check peer (decide_eq_true (crc32c_lt _)) (by decide +kernel)
theorem counted_peer : countFec 0 peer.word trainingAt0 = trainingAt0 := by rfl
theorem trainRefusal_peer : trainRefusal trainingAt0 0 peer = 0 := by
  simp only [trainRefusal, peer, bne_self_eq_false]
  decide +kernel

/-- An accepted batch with no bags, its bindings, and a module that holds them at a point of step 5. -/
def batch0 : Batch := {
  ring := 0, position := 0, bytes := 64, step := 5, firstSample := 0, samples := 2, tableSet := 3, variants := [], segments := [2], bags := [], home := true }
def pool0 : PoolBinding := {
  set := 3, fromStep := 0, format := 0, round := none, slots := 2, outAddr := 4096, slotBytes := 1024, tableStride := 512 }
def feed0 : FeedBinding := { set := 3, fromStep := 0, exportRing := 0, exportEn := true, gradRing := 1, gradEn := true }
def feeding (g : Ring) : State := { member (5 * 8 + 4) with
  host := { up.host with rings := [(0, g)] }
  step := { batches := [batch0], poolBindings := [pool0], feedBindings := [feed0] } }

/-- A record with its sequence number and check (R409), for queue 0. -/
def recordFor (i op : Nat) (fs : List (Nat × Nat)) : Rec64 :=
  let d := recBytes (record op ((16, i) :: fs))
  record op ((16, i) :: (32, crc8 (natLe 1 0 ++ natLe 2 i ++ d.take 4 ++ [0] ++ d.drop 5)) :: fs)

/-- A tensor, and a member with tensors and a queue that runs. -/
def tensor (n f r c a : Nat) : Tensor := {
  number := n, format := f, cls := 0, tableSet := 0, program := 0, rows := r, cols := c, addr := a, zeroPoint := 0, scale := 0x3F800000 }
def tensored (ts : List Tensor) : State := { memberQueue 40 running with tensors := ts }
/-- The same with side memory's tag of row 0, and a Rucksack frame. -/
def tagged (ts : List Tensor) : State := { tensored ts with rowEng := { tags := [(0, { tag := 7, step := 5, op := 2, valid := true })] } }
def tagged0 (ts : List Tensor) : State := { tensored ts with rowEng := { tags := [(0, { tag := 7, step := 5, op := 0, valid := true })] } }
def framed (tag bytes : Nat) : State := { tensored [tensor 1 0 1 2 4096] with
  rowEng := { frames := [{ region := 0, tag := tag, tensor := 1, step := 5, bytes := bytes, firstPage := 0, pages := 1 }] } }

/-- A table of a table set, and a member that has it. -/
def table2 : TableDecl := {
  table := 2, width := 16, idx64 := false, pinned := false, init := 0, program := 0, rows := 4, initBound := 0, baseGranule := 0
  granules := 1, pinnedBase := 0 }
def set3 (mode : Nat) : TableSet := {
  number := 3, mode := mode, variants := 1, tables := [table2], tStart := 0, t := 0, bank := [], derived := [], bankStep := 0, scheds := []
  nextBatch := 0 }
def withSet (a : Nat) : State := { memberQueue a running with sets := [set3 0] }

/-- A member with a generation, and with a tensor of its dense layers. -/
def withGen (a : Nat) (g : Gen) : State := { withSet a with gen := g }
def dense1 : Tensor := { tensor 1 0 1 16 (2 ^ 40) with cls := 4 }

/-- An occurrence of the batch, a gradient message for it, and a module that waits for it. -/
def occ0 : Occ := {
  step := 5, set := 3, table := 2, row := 0, variant := 0, bag := 2, position := 0, weight := 0x3F800000, home := 2, partner := false }
def gradBody (step t samples firstSlice : Nat) : Bytes :=
  gradHeader step t 0 2 3 0 0 0 samples 1 firstSlice 0 ++ zeros (samples * 64)
def gradMsg0 (step t samples firstSlice : Nat) : Msg := { src := 1, op := 0x12, region := 2, body := gradBody step t samples firstSlice }
def graded (a : Nat) (m : Msg) : State := { withSet a with
  fabric := { (withSet a).fabric with delivered := [m] }
  step := { batches := [batch0], occs := [occ0] } }

/-- A complete target slice with its hardware slot. -/
def acc0 (variant : Nat) : Acc := {
  region := 2, set := 3, table := 2, row := 0, variant := variant, slice := 0, slot := true, hot := false, count := 1, next := 0
  expect := [], held := [], taken := [], sums := [], ledgers := [], nonfinite := [], complete := true, values := List.replicate 16 0
  applied := false }

/-- A module whose record of row 0 holds given bytes, with the metadata of its two sectors. -/
def storedRow (bytes : Bytes) (first second : Nat) : State :=
  let h := baseRecord (withSet 44) (set3 0) table2 0 0
  { withSet 44 with mem := {
      cells := sputs 0 [] h bytes, marks := sput 0 (sput 0 [] (secOfAddr h) first) (secOfAddr (h + 56)) second } }

/-- A run image: its header with one member and no table, tensor or program, at the field places of R391: PLAN_LEVEL 2, 256, 320
bytes, RUN_ID 9, the check value, S0 1, P and N 1, one member, FAST_FLAT 16, SLOW_TABLE 4, 2,048 KiB of staging at 65,536 KiB, one group
a shard, 64 watch records at 0x1041000000, queue 0, and the member section at 256. -/
def image0 : Bytes :=
  [2, 0, 0, 1, 64, 1, 0, 0, 9, 0, 0, 0, 167, 103, 6, 142] ++ (zeros 8 ++ [1] ++ zeros 7) ++
  [1, 1, 0, 0, 1, 0, 0, 0, 16, 0, 0, 0, 0, 0, 0, 0] ++ ([4] ++ zeros 9 ++ [1, 0, 0, 8, 0, 0]) ++
  (zeros 8 ++ [1] ++ zeros 7) ++ zeros 16 ++ [0, 0, 0, 65, 16, 0, 0, 0, 64, 0, 0, 0, 0, 0, 0, 0] ++
  [1, 0, 0, 0, 0, 0, 0, 0, 0, 1, 0, 0, 1, 0, 0, 0] ++ zeros 192
def imageAt : Nat := 0x1040000000
/-- A module that can load it, with a Ridgeline source. -/
def loadable : State := { upQueue running with
  ridge := { state := .following, source := 1 }
  fabric := { up.fabric with trainedDims := [2, 1, 1], trainedCoords := [(0, 0x8000), (1, 0x8001)] }
  mem := { cells := [(imageAt, 2), (imageAt + 3, 1), (imageAt + 4, 64), (imageAt + 5, 1), (imageAt + 8, 9), (imageAt + 12, 167),
    (imageAt + 13, 103), (imageAt + 14, 6), (imageAt + 15, 142), (imageAt + 24, 1), (imageAt + 32, 1), (imageAt + 33, 1),
    (imageAt + 36, 1), (imageAt + 40, 16), (imageAt + 48, 4), (imageAt + 58, 1), (imageAt + 61, 8), (imageAt + 72, 1),
    (imageAt + 99, 65), (imageAt + 100, 16), (imageAt + 104, 64), (imageAt + 112, 1), (imageAt + 121, 1), (imageAt + 124, 1)] } }
/-- The LOAD of it, and the state it starts in. -/
def loadRecord : Rec64 := record 0x50 [(128, imageAt)]
def loadBegun : State := begun 0 5 loadRecord loadable

theorem crcRefl_append (p c : Nat) (a b : Bytes) : crcRefl p c (a ++ b) = crcRefl p (crcRefl p c a) b := by
  simp only [crcRefl, List.foldl_append]
/-- The check value of the image, 64 bytes at a time. -/
def part1 : Bytes := (patch image0 12 (zeros 4)).take 64
def part2 : Bytes := (image0.drop 64).take 64
theorem image0_parts : patch image0 12 (zeros 4) = part1 ++ (part2 ++ (zeros 64 ++ (zeros 64 ++ zeros 64))) := by decide +kernel
theorem crc_part1 : crcRefl 0x82F63B78 0xFFFFFFFF part1 = 806737120 := by decide +kernel
theorem crc_part2 : crcRefl 0x82F63B78 806737120 part2 = 3626970996 := by decide +kernel
theorem crc_part3 : crcRefl 0x82F63B78 3626970996 (zeros 64) = 1873236839 := by decide +kernel
theorem crc_part4 : crcRefl 0x82F63B78 1873236839 (zeros 64) = 2967737941 := by decide +kernel
theorem crc_part5 : crcRefl 0x82F63B78 2967737941 (zeros 64) = 1912182872 := by decide +kernel
theorem crc32c_parts (b : Bytes) (c : Nat) (h : crcRefl 0x82F63B78 0xFFFFFFFF b = c) : crc32c b = c ^^^ 0xFFFFFFFF := by
  rw [← h]; rfl
theorem image0_crc : crc32c (patch image0 12 (zeros 4)) = field image0 12 4 := by
  have h := crc32c_parts (patch image0 12 (zeros 4)) 1912182872 (by
    rw [image0_parts, crcRefl_append, crc_part1, crcRefl_append, crc_part2, crcRefl_append, crc_part3, crcRefl_append, crc_part4, crc_part5])
  rw [h]
  decide +kernel
theorem image0_good : planRefusal loadBegun imageAt image0 = 0 := by
  simp only [planRefusal, image0_crc, bne_self_eq_false]
  decide +kernel
/-- The same without a source. -/
def loadAlone : State := begun 0 5 loadRecord { loadable with ridge := {} }
theorem image0_alone : planRefusal loadAlone imageAt image0 = 0 := by
  simp only [planRefusal, image0_crc, bne_self_eq_false]
  decide +kernel

/-- A keeper with a join pending. -/
def keeping (st : RidgeState) (point : Nat) (ps : List Participant) : State := { member 40 with
  ridge := { state := st, source := 0, keeper := { point := point, participants := ps, joinSteps := [(7, 9)] } } }
def one0 : List Participant := [{ moduleNumber := 0, runId := 3, from_ := 0 }]

/-- A Guyline request on path 3, and a paired module. -/
def greq (gop : Nat) (data : Bytes) : GPacket := gSeal { path := 3, gop := gop, cls := 1, stepLo := 5, tag := 9, data := data }
def pairedAt (a side : Nat) (st : TwinState) : State := { withSet a with
  dict := { force := [(E.TWIN_ENABLE, 1), (E.TWIN_SIDE, side)] }
  plan := { (withSet a).plan with paired := true, members := [0, 1] }
  step := { norms := [(4, 0, 0x3F800000), (5, 0, 0x3F800000)] }
  twin := { state := st } }

/-- A salvage of a module whose run image still stands in memory. -/
def salvable : State := { loadable with
  life := { loadable.life with modState := .outOfService }
  loadState := .loaded, plan := { planAddr := imageAt, planBytes := 320, planCheck := 0x8E0667A7 } }
theorem salvable_image : (salvageImage salvable).1 = some image0 := by decide +kernel
theorem salvable_good : salvageRefusal salvable = 0 := by
  simp only [salvageRefusal, salvable_image, image0_crc]
  decide +kernel
theorem salvable_accepts : accepts salvable .mailbox E.SALVAGE 0 (natLe 1 1) := by
  refine ⟨by decide +kernel, ?_⟩
  have h : writeChecks salvable .mailbox (E.SALVAGE / 256) (E.SALVAGE % 256) 0 (natLe 1 1) = 0 := by decide +kernel
  have g : stateRule salvable (E.SALVAGE / 256 * 256 + E.SALVAGE % 256) 0 (natLe 1 1) = 0 := by
    rw [show E.SALVAGE / 256 * 256 + E.SALVAGE % 256 = E.SALVAGE from by decide]
    simp only [stateRule, if_true, salvable_good, ite_self]
  show writeRefused salvable .mailbox (E.SALVAGE / 256) (E.SALVAGE % 256) 0 (natLe 1 1) = 0
  simp only [writeRefused, h, g, bne_self_eq_false, Bool.false_eq_true, if_false]

/-- An ODP request of one operation, and one that ends with a tag. -/
def odpBody (auth seq op key len : Nat) (data : Bytes) : Bytes :=
  [1, 0, BitVec.ofNat 8 auth, 1] ++ natLe 4 7 ++ natLe 8 seq ++ zeros 8 ++
    [BitVec.ofNat 8 op, BitVec.ofNat 8 (key % 256)] ++ natLe 2 (key / 256) ++ zeros 4 ++ natLe 2 len ++ zeros 2 ++ data
def odpTag : Bytes := (hmac384 [9] (odpBody 1 6 1 E.MODULE_NUMBER 2 [])).take 16
def odpTagged : Bytes := odpBody 1 6 1 E.MODULE_NUMBER 2 [] ++ odpTag
def keyed : State := { up with lantern := { up.lantern with odpKey := some [9], odpLastSeq := 5 } }
theorem tag_good (s : State) (key body : Bytes) (h : s.lantern.odpKey = some key) (g : ((hmac384 key body).take 16).length = 16) :
    odpTagGood s (body ++ (hmac384 key body).take 16) = true := by
  simp only [odpTagGood, h, List.length_append, g, Nat.add_sub_cancel, List.take_left, List.drop_left]
  simp

/-! ## Hypotheses that are met -/

theorem test_meets_StepRunsTheFront :
    (∃ (c : Instr) (cs : List Instr) (s : State), (s.pending = c :: cs)) ∧
    (∃ (s : State), (s.pending = [])) :=
  ⟨⟨.beatExpiry, [.standbyTakeover], { up with pending := [.beatExpiry, .standbyTakeover] }, by decide +kernel⟩,
   ⟨up, by decide +kernel⟩⟩

theorem test_meets_CommandsComplete :
    ∃ (c : Instr), (c.wf = false) :=
  ⟨.burnisherLapAlarm 16 0, by decide +kernel⟩

theorem test_meets_QueueIsWorkedOff :
    (∃ (s : State) (t : State), (step s = .next t)) ∧
    (∃ (s : State) (t : State) (d : Instr), ((∀ c ∈ s.pending, c.wf = true)) ∧ (step s = .next t) ∧ (d ∈ t.pending)) :=
  ⟨⟨{ up with pending := [.queueRestart 0, .beatExpiry] }, { up with pending := [.beatExpiry] }, by rfl⟩,
   ⟨{ up with pending := [.queueRestart 0, .beatExpiry] }, { up with pending := [.beatExpiry] }, .beatExpiry,
      by exact ⟨by decide +kernel, rfl, by decide +kernel⟩⟩⟩

theorem test_meets_LightCode :
    (∃ (w : Nat) (mask : Nat), (w < 2 ^ 480) ∧ (mask < 2 ^ 512)) ∧
    (∃ (n : Nat), (n < 512)) ∧
    (∃ (sk : Nat) (s : State) (n : Nat), (n < 512) ∧ (damageOf s sk = 2 ^ n) ∧ (secMark s sk < 2 ^ 32)) ∧
    (∃ (i : Nat) (j : Nat), (i < j) ∧ (j < 512)) ∧
    (∃ (k : Nat) (e : Nat), (k < 64) ∧ (0 < e) ∧ (e < 256) ∧ ((∀ n, e ≠ 2 ^ n))) ∧
    (∃ (sk : Nat) (s : State), (syndrome (damageOf s sk) ≠ 0) ∧ (singleBit (syndrome (damageOf s sk)) = none)) :=
  ⟨⟨2 ^ 479 + 3, 2 ^ 511 + 1, by decide +kernel⟩,
   ⟨511, by decide +kernel⟩,
   ⟨65, { up with mem := { damage := [(65, 2 ^ 511)] } }, 511, by decide +kernel⟩,
   ⟨0, 511, by decide +kernel⟩,
   ⟨63, 255,
      by refine ⟨by decide, by decide, by decide, fun n h => ?_⟩; rcases Nat.lt_or_ge n 8 with g | g; (revert h; revert g; revert n; decide); (have := Nat.pow_le_pow_right (n := 2) (by decide) g; omega)⟩,
   ⟨65, { up with mem := { damage := [(65, 3)] } }, by decide +kernel⟩⟩

theorem test_meets_MemoryStores :
    (∃ (a : Nat) (b : Bytes) (s : State) (x : Nat), (s.mem.damage = []) ∧ ((x < a ∨ a + b.length ≤ x))) ∧
    (∃ (a : Nat) (b : Bytes) (s : State) (sp : Spot) (i : Nat), (s.mem.damage = []) ∧ (a < 2 ^ 43) ∧
      (rangeSpot s (addrOff a) b.length = some sp) ∧ ((isFlat sp.portion = true ∨ sp.portion = .sram)) ∧ (i < b.length)) ∧
    (∃ (a : Nat) (b : Bytes) (s : State) (sp : Spot), (s.mem.damage = []) ∧ (s.mem.sramBad = []) ∧ (s.place.cache = []) ∧
      (a < 2 ^ 43) ∧ (rangeSpot s (addrOff a) b.length = some sp) ∧ ((isFlat sp.portion = true ∨ sp.portion = .sram))) ∧
    (∃ (a : Nat) (n : Nat) (s : State) (sp : Spot), (s.mem.damage = []) ∧ (s.mem.sramBad = []) ∧ (s.place.cache = []) ∧
      (rangeSpot s (addrOff a) n = some sp) ∧ ((isFlat sp.portion = true ∨ sp.portion = .sram))) :=
  ⟨⟨10, [1, 2], up, 12, by decide +kernel⟩,
   ⟨2 ^ 42 + 5, [1, 2], up, ⟨0, 5, .fastFlat⟩, 1, by decide +kernel⟩,
   ⟨0x1F000300000, [1, 2], up, ⟨0, 0x300000, .sram⟩, by decide +kernel⟩,
   ⟨2 ^ 41 + 5, 3, up, ⟨0, 5, .fastFlat⟩, by decide +kernel⟩⟩

theorem test_meets_PegSignals :
    (∃ (die : Nat) (peg : Nat), (isRidgePeg die peg = false)) ∧
    (∃ (die : Nat) (peg : Nat) (inc : W64) (s : State), ((pegValue s die peg).toNat + inc.toNat < 2 ^ 64)) ∧
    (∃ (die : Nat) (peg : Nat) (inc : W64) (s : State) (t : State), (2 ^ 64 ≤ (pegValue s die peg).toNat + inc.toNat) ∧
      (count E.PEG_WRAPS (count E.PEG_SIGNALS (setPegValue die peg (pegValue s die peg + inc) s)) = t) ∧
      (s.lantern.events.once.contains 0x0A14 = true)) ∧
    (∃ (die : Nat) (peg : Nat) (inc : W64) (s : State) (t : State), (2 ^ 64 ≤ (pegValue s die peg).toNat + inc.toNat) ∧
      (count E.PEG_WRAPS (count E.PEG_SIGNALS (setPegValue die peg (pegValue s die peg + inc) s)) = t) ∧
      (s.lantern.events.once.contains 0x0A14 = false)) ∧
    (∃ (q : Nat) (i : Nat) (r : Rec64) (s : State), (Instr.wf (.pegSignal q i r) = true) ∧ (startable q i r s) ∧
      (pegSignalRefusal (begun q i r s) (rf r 319 256) = 0) ∧ (gModule (rf r 319 256) = myNumber s)) ∧
    (∃ (q : Nat) (i : Nat) (c : Cmd) (d : Nat) (x : Bool) (y : Bool) (s : State), (Instr.wf (.commandComplete q i) = true) ∧
      (findCmd s q i = some c) ∧ (c.phase = .done 0 d x y) ∧ (signalEn c.record = true) ∧
      (isRidgePeg (pegDie (signalPegOf c.record)) (pegNum (signalPegOf c.record)) = false)) ∧
    (∃ (p : Packet) (s : State), (Instr.wf (.fabricPegSignal p) = true) ∧ (performs p s) ∧ (pegOpRefusal (taken p s) p = 0) ∧
      (isRidgePeg (gDie p.address) ((spotOf s (gOff p.address)).off / 64) = false)) :=
  ⟨⟨3, 4088, by decide +kernel⟩,
   ⟨0, 7, 2 ^ 64 - 1, up, by decide +kernel⟩,
   ⟨0, 7, 1,
      { { up with pegs := { values := [(7, 2 ^ 64 - 1)] } } with lantern := { up.lantern with events := { once := [0x0A14] } } },
      _, by exact ⟨by decide +kernel, rfl, by decide +kernel⟩⟩,
   ⟨0, 7, 1, { up with pegs := { values := [(7, 2 ^ 64 - 1)] } }, _, by exact ⟨by decide +kernel, rfl, by decide +kernel⟩⟩,
   ⟨0, 5, record 1 [(192, 1), (256, pegBase + 64 * 7)], upQueue running, by decide +kernel⟩,
   ⟨0, 4, { index := 4, record := record 0 [(9, 1), (64, 7)], phase := .done 0 9 false false }, 9, false, false,
      cmdIn { index := 4, record := record 0 [(9, 1), (64, 7)], phase := .done 0 9 false false }, by decide +kernel⟩,
   ⟨pkt 4 (pegBase + 64 * 7) [1, 0, 0, 0, 0, 0, 0, 0], up, by decide +kernel⟩⟩

theorem test_meets_Doorbells :
    (∃ (q : Nat) (i : Nat) (s : State), (Instr.wf (.doorbellSqProducer q i) = true) ∧ (serves s = true) ∧
      ((queue s q).state ≠ .disabled) ∧ ((queue s q).state ≠ .fenced) ∧ (mod32 i (queue s q).sqProducer < 2 ^ 31) ∧
      (mod32 i (queue s q).cqHead ≤ queueDepth (queue s q)) ∧ ((queue s q).state ≠ .stoppedTorn)) ∧
    (∃ (q : Nat) (i : Nat) (s : State), (Instr.wf (.doorbellSqProducer q i) = true) ∧ (serves s = true) ∧
      ((queue s q).state ≠ .disabled) ∧ ((queue s q).state ≠ .fenced) ∧ (mod32 i (queue s q).sqProducer < 2 ^ 31) ∧
      (mod32 i (queue s q).cqHead ≤ queueDepth (queue s q)) ∧ ((queue s q).state = .stoppedTorn)) ∧
    (∃ (q : Nat) (i : Nat) (s : State), (Instr.wf (.doorbellSqProducer q i) = true) ∧
      (serves s = false ∨ (queue s q).state = .disabled ∨ (queue s q).state = .fenced ∨ 2 ^ 31 ≤ mod32 i (queue s q).sqProducer ∨ queueDepth (queue s q) < mod32 i (queue s q).cqHead)) ∧
    (∃ (q : Nat) (i : Nat) (s : State), (Instr.wf (.doorbellCqHead q i) = true) ∧ (serves s = true) ∧
      ((queue s q).state ≠ .disabled) ∧ ((queue s q).state ≠ .fenced) ∧
      (mod32 i (queue s q).cqHead ≤ mod32 (queue s q).cqProducer (queue s q).cqHead)) ∧
    (∃ (q : Nat) (i : Nat) (s : State), (Instr.wf (.doorbellCqHead q i) = true) ∧
      (serves s = false ∨ (queue s q).state = .disabled ∨ (queue s q).state = .fenced ∨ mod32 (queue s q).cqProducer (queue s q).cqHead < mod32 i (queue s q).cqHead)) ∧
    (∃ (s : State), (s.lantern.events.once.contains 0x0103 = true)) ∧
    (∃ (s : State) (t : State), (s.lantern.events.once.contains 0x0103 = false) ∧ (count E.DOORBELLS_IGNORED s = t)) :=
  ⟨⟨0, 65, upQueue { running with sqProducer := 64 }, by decide +kernel⟩,
   ⟨0, 65, upQueue { running with state := .stoppedTorn }, by decide +kernel⟩,
   ⟨0, 66, upQueue running, by decide +kernel⟩,
   ⟨0, 2, upQueue running, by decide +kernel⟩,
   ⟨0, 3, upQueue running, by decide +kernel⟩,
   ⟨{ up with lantern := { up.lantern with events := { once := [0x0103] } } }, by decide +kernel⟩,
   ⟨up, _, by decide +kernel, rfl⟩⟩

/-- Commands that start at once, their records and a state they start in; and commands of the other families. -/
theorem test_meets_RunCommandsTakeEffect :
    (∀ x ∈ ([
      (.nop, record 0 [], upQueue running), (.pegSignal, record 1 [(192, 1), (256, pegBase + 64 * 7)], upQueue running),
      (.pegWait, record 2 [(128, 7)], upQueue running), (.pegSet, record 3 [(128, 7), (192, 1)], upQueue running),
      (.dmaCopy, record 8 [(128, 0), (192, 64), (256, 64)], upQueue running),
      (.dmaTranspose, record 9 [(128, 1), (144, 2), (160, 1), (192, 2)], tensored []),
      (.rucksackPush, record 0xA [(128, 1), (144, 9), (160, 3)], tensored [tensor 1 0 1 2 4096, tensor 2 0 2 1 8192]),
      (.rucksackPop, record 0xB [(128, 1), (144, 9)], framed 9 8),
      (.gemm, record 0x10 [(128, 1), (144, 2), (160, 3), (192, 1), (224, 1), (256, 1)], tensored []),
      (.rowRead, record 0x18 [(128, 3), (144, 2), (256, 4), (320, 4096)], withSet 40),
      (.rowWrite, record 0x19 [(128, 3), (144, 2), (256, 4), (320, 4096)], withSet 40),
      (.rowFreeze, record 0x1A [(128, 3), (144, 2), (192, 3), (256, 1)], withSet 40),
      (.rowReset, record 0x1B [(128, 3), (144, 2), (192, 3), (256, 1)], withSet 40),
      (.rowengFwd, record 0x1C [(128, 1), (144, 2), (224, 1), (256, 2), (352, 7), (176, 0xFFFF), (192, 0xFFFF), (208, 0xFFFF),
      (368, 0xFFFF), (288, 0x3727C5AC)], tensored [tensor 1 0 1 2 4096, tensor 2 0 1 2 8192, tensor 3 0 1 2 12288,
      tensor 4 0 1 2 16384, tensor 6 0 1 2 20480]),
      (.rowengBwd, record 0x1D [(128, 1), (144, 2), (224, 1), (256, 2), (352, 7), (160, 3), (176, 0xFFFF), (192, 0xFFFF), (208,
      0xFFFF), (272, 2), (368, 0xFFFF)], tagged [tensor 1 0 1 2 4096, tensor 2 0 1 2 8192, tensor 3 0 1 2 12288,
      tensor 4 0 1 2 16384, tensor 6 0 1 2 20480]),
      (.gatherPool, record 0x20 [(128, 3), (144, 1), (192, 6), (256, 4096), (320, 1024), (384, 512)], withSet 40),
      (.gradScatter, record 0x21 [(128, 5), (192, 3), (200, 7), (256, 4096)],
      { withSet 42 with sets := [{ set3 0 with nextBatch := 6 }], step := { batches := [batch0] } }),
      (.denseReduce, record 0x28 [(128, 5), (200, 1), (320, 2)], { tensored [] with pegs := { values := [(4095, 42)] } }),
      (.sched, record 0x30 [(128, 6), (192, 0x3F800000), (224, 3), (236, 1)], withSet 40),
      (.checkScan, record 0x38 [(192, 64)], upQueue running),
      (.genSetup, record 0x40 [(256, 0), (288, 4096), (320, 2048), (352, 64)], withSet 40),
      (.genCut, record 0x41 [(128, 6), (192, 9)], withSet 40),
      (.genExport, record 0x42 [(192, 9), (256, 4096), (320, 0x100040)], withSet 40),
      (.genRelease, record 0x43 [(192, 9)], withGen 40 { isOpen := true, number := 9, setup := true }),
      (.feedBind, record 0x48 [(128, 3), (192, 6)], { withSet 40 with plan := { (withSet 40).plan with feed := true } }),
      (.load, record 0x50 [(128, 4096)], withSet 40), (.unload, record 0x51 [(192, 8)],
      withSet 40)] : List ((Nat → Nat → Rec64 → Instr) × Rec64 × State)),
      (x.1 0 5 x.2.1).wf = true ∧ startable 0 5 x.2.1 x.2.2) ∧
    ∀ x ∈ ([
      .parityFlushExpiry 7, .burnisherPageCheck 15 1 ([.dram 15 1 0 0 1]), .burnisherLapAlarm 15 1, .checkScanRun 0,
      .proofRecompute 15, .indexRun (({ op := 0x10, src := 1 } : Msg)), .bandPartial (({ op := 0x11, src := 1 } : Msg)),
      .gradMsg (gradMsg0 5 0 1 0), .gradConsume 2, .targetSliceApply 2 3 2 0 2 0,
      .shardGrad (({ op := 0x13, src := 1 } : Msg)), .ledgerUp (({ op := 0x14, src := 1 } : Msg)),
      .ledgerDown (({ op := 0x15, src := 1 } : Msg)), .shardMulticast (({ op := 0x16, src := 1 } : Msg)),
      .stepReport (({ op := 0x17, src := 1 } : Msg)), .stepVerdict (({ op := 0x18, src := 1 } : Msg)),
      .commandFetch 0 (.record (recordFor 3 0 [])), .descriptorRecheckExpiry 0 (.record (recordFor 3 0 [])), .commandStart 0 4,
      .commandComplete 0 4, .completionFlushDone 0, .intCoalesceExpiry 0, .doorbellSqProducer 0 65, .doorbellCqHead 0 2,
      .queueEnable 63, .queueDisable 0, .queueRestart 0, .pcieCompletionTimeout 0, .pegWaitTimeout 0 5,
      .axisSignal (pkt 4 (pegBase + 64 * 4095) (natLe 8 41)), .readyReport,
      .readySignal (pkt 4 (pegBase + 64 * 4094) (natLe 8 41)), .beatExpiry,
      .joinStepSignal (pkt 4 (pegBase + 64 * 4089) (natLe 8 7)), .joinSignal (pkt 4 (pegBase + 64 * 4089) (natLe 8 7)),
      .leaveSignal (pkt 4 (pegBase + 64 * 4089) (natLe 8 7)), .excludeSignal (pkt 4 (pegBase + 64 * 4089) (natLe 8 7)),
      .admitSignal (pkt 4 (pegBase + 64 * 4089) (natLe 8 7)), .standbyAdmit, .ridgeSourceLoss, .standbyTakeover,
      .stepWatchdogExpiry, .boundDelayExpiry 3, .repairRequest 11 (greq 8 (zeros 7 ++ [3, 2] ++ zeros 87)),
      .twinRepairWrite 11 (gSeal { path := 3, gop := 136, cls := 2, die := 2, tag := 9 }), .heartbeatSendExpiry, .twinBeatLoss,
      .livenessDecision true 2, .twinProbeExpiry 1, .mirrorLog 11 (greq 1 []), .stepOperands 11 (greq 2 (zeros 8)),
      .stepMark 11 (greq 3 []), .copyPage 11 (greq 4 (natLe 8 6)), .occurrences 11 (greq 5 (zeros 7 ++ [3, 2] ++ zeros 87)),
      .contributions 11 (greq 6 (zeros 7 ++ [3, 2] ++ zeros 87)), .rowChange 11 (greq 7 (zeros 7 ++ [3,
      2] ++ zeros 87))] : List Instr), x.wf = true := by decide +kernel

/-- A well-formed command of each kind of the interfaces. -/
theorem test_meets_InterfaceCommandsTakeEffect :
    (∀ x ∈ ([
      .portEnableMaskWrite .mailbox 0xFF, .routeTableCommit .mailbox 1, .torusDimWrite .mailbox 2 16,
      .coordTableWrite .mailbox 8191 (natLe 2 0x8001), .watchRingTailWrite .mailbox 5, .watchHistoryReset .mailbox 0,
      .watchResume .mailbox 1, .stepAgreeResume .mailbox 1, .tsetT .mailbox (2 ^ 64 - 1), .salvage .mailbox 1,
      .odpRequest 9 ((odpBody 0 0 1 E.MODULE_NUMBER 2 [])),
      .odpRead .mailbox ((E.PORT_ENABLE_MASK / 256)) ((E.PORT_ENABLE_MASK % 256)),
      .odpWrite .mailbox ((E.PORT_ENABLE_MASK / 256)) ((E.PORT_ENABLE_MASK % 256)) ([0xFF]),
      .describe .mailbox ((E.PORT_ENABLE_MASK / 256)) ((E.PORT_ENABLE_MASK % 256)),
      .stage .mailbox ((E.POWER_LIMIT_W / 256)) ((E.POWER_LIMIT_W % 256)) (natLe 2 1000), .registerWrite (.bar0 12 8 5),
      .i3cPrivateWrite ([1, 2, 3]), .i3cPrivateRead, .i3cAddressAssign 127 true, .uartConsoleCommand true 1 1 ([]),
      .setCommit .mailbox (2 ^ 32 + 5), .setRevert .mailbox 5, .setConfirm .mailbox 5, .setClear .mailbox 1,
      .setConfirmTimeout, .faultCodeClear .mailbox 0, .countersClearAll .mailbox 1,
      .packetTransit 0 (sealPacket { address := 100, srcModule := 1, op := 1, cls := 1, data := [8, 0, 0, 0, 0, 0, 0, 0] }),
      .read (pkt 1 100 [0, 0x10, 0, 0, 0, 0, 0, 0]) ([]), .write (pkt 2 100 (zeros 64)),
      .atomicAdd (pkt 3 104 [7, 0, 0, 0, 0, 0, 0, 0]), .fabricPegSignal (pkt 4 (pegBase + 64 * 7) [1, 0, 0, 0, 0, 0, 0, 0]),
      .poisonedWrite (sealPacket { address := 100, srcModule := 1, op := 0x19, cls := 1, data := [7] }),
      .responseReceive (.fabric 3 (sealPacket { op := 130, tag := 65535, cls := 2 })), .fabricRequestTimeout false 3 65535,
      .retryBackoffExpiry (.request 3 65535),
      .messageFragmentReceive (sealPacket { address := 2 ^ 41, srcModule := 1, op := 0x12, cls := 0, data := natLe 4 9 ++ natLe 4 64 ++ [1, 0, 0, 0] ++ natLe 4 5 ++ zeros 64 }),
      .dupFilterEntryExpiry 3 8191 3 65535, .causeClear (2 ^ 32 - 1), .bar2Read 100 8, .bar2Write 100 ([1, 2]) true,
      .intakeWindowWrite 9 (0x100000 + 0xFFFF8) ([1, 2, 3, 4, 5, 6, 7, 8]) true, .exportWindowRead (0x100000 + 0xFFFF8) 8,
      .intakeProducerWrite 0 8 0x100000, .consumedStepWrite 0 3, .ringEnable 0, .ringDisable 63, .feedExportPublish 3,
      .mailboxGo, .pcieLinkExitL0, .pcieLinkReturnL0, .hostLossTimeout, .perstAssert, .perstDeassert, .functionLevelReset,
      .pcieHotReset, .d3hotEntry, .configurationWrite true false true, .lanternFault] : List Instr), x.wf = true) ∧
    ∀ x ∈ ([
      .lanternServing, .fwBegin .mailbox, .fwUpdateData .mailbox 4 ([7]), .fwVerify .mailbox, .fwVerifyDone,
      .fwActivate .mailbox, .fwAbort .mailbox, .fwConfirm .mailbox 1, .getVersion ([0x10, 0x84]),
      .getCapabilities ([0x10, 0xE1]), .negotiateAlgorithms ([0x11, 0xE3]), .getDigests ([0x11, 0x81]),
      .getCertificate ([0x11, 0x82]), .challenge ([0x11, 0x83]), .getMeasurements ([0x11, 0xE0]), .spdmUnsupported ([0xFF]),
      .eventRateInterval, .eventLogFlashWrite, .eventRecords .mailbox, .ptpMessage ({ sync := true, wallNs := 5 }) ((-3)) true,
      .ptpUnlocked, .dataFlitReceive 11 (sealFlit { seq := 4095 }) ({ errors := 15 }),
      .controlFlitReceive 11 ({ credits := [(19, 3)] }), .nakReceive 11 ({ nakSeq := 4095 }), .trainFlitReceive 0 ({}),
      .heartbeatReceive 8 1 0 0 0 0, .controlFlitInterval 11, .linkRetryExpiry 11, .codewordLockLoss 0, .portTrainingDone 11,
      .retrainTimeout 7, .linkDownRetryExpiry 0, .inputPowerArrival 1, .bringupStageComplete ([2]), .bringupStageTimeout 4,
      .bringupRetryExpiry, .feedUndervoltage 1, .feedLost 1, .feedOvervoltage 0, .feedReconnect 1, .powerFailWarning,
      .bulkBusCollapse, .railFault 63, .thermalThrottle true 7 90, .thermalShutdown false 0 105, .coolantFlowLow true,
      .powerLimitInterval (powerLimit up * 1000 + 1), .throttleRaiseInterval (powerLimit up * 950 - 1),
      .senseSample (List.replicate 64 1), .enterRetention .mailbox, .exitRetention .mailbox, .moduleReset .mailbox,
      .standbyRequest .mailbox, .coldStart .mailbox, .resetReqAssert, .serviceButtonShort, .serviceButtonHold, .unitFault 4,
      .hbm3RefreshDoubled 7 true] : List Instr), x.wf = true := by decide +kernel

theorem test_meets_StartStages :
    (∃ (f : Nat) (s : State), (Instr.wf (.inputPowerArrival f) = true) ∧ (s.life.standbyRail = false) ∧
      (s.life.pwrFailWarn = false)) ∧
    (∃ (rails : List Nat) (s : State) (k : StartKind), (Instr.wf (.bringupStageComplete rails) = true) ∧
      (s.life.start = some k) ∧ (s.life.retryWait = false) ∧ (s.life.startHalted = false) ∧ (s.life.stage = 1)) ∧
    (∃ (rails : List Nat) (s : State) (k : StartKind), (Instr.wf (.bringupStageComplete rails) = true) ∧
      (s.life.start = some k) ∧ (s.life.retryWait = false) ∧ (s.life.startHalted = false) ∧ (s.life.stage = 2) ∧
      (s.lantern.fw.trialB = none) ∧ (fwValid s.lantern.fw s.lantern.fw.activeB = true) ∧ (s.lantern.events.buffered = [])) ∧
    (∃ (rails : List Nat) (s : State) (k : StartKind), (Instr.wf (.bringupStageComplete rails) = true) ∧
      (s.life.start = some k) ∧ (s.life.retryWait = false) ∧ (s.life.startHalted = false) ∧ (s.life.stage = 3) ∧ (rails = [])) ∧
    (∃ (rails : List Nat) (s : State) (k : StartKind), (Instr.wf (.bringupStageComplete rails) = true) ∧
      (s.life.start = some k) ∧ (s.life.retryWait = false) ∧ (s.life.startHalted = false) ∧ (s.life.stage = 4) ∧
      (s.host.perst = true) ∧ (s.life.pwrgd = false)) ∧
    (∃ (rails : List Nat) (s : State) (k : StartKind), (Instr.wf (.bringupStageComplete rails) = true) ∧
      (s.life.start = some k) ∧ (s.life.retryWait = false) ∧ (s.life.startHalted = false) ∧ (s.life.stage = 5)) ∧
    (∃ (rails : List Nat) (s : State) (k : StartKind), (Instr.wf (.bringupStageComplete rails) = true) ∧
      (s.life.start = some k) ∧ (s.life.retryWait = false) ∧ (s.life.startHalted = false) ∧ (s.life.stage = 6)) ∧
    (∃ (rails : List Nat) (s : State) (k : StartKind), (Instr.wf (.bringupStageComplete rails) = true) ∧
      (s.life.start = some k) ∧ (s.life.retryWait = false) ∧ (s.life.startHalted = false) ∧ (s.life.stage = 7)) :=
  ⟨⟨1, State.reset, by decide +kernel⟩,
   ⟨[2], upStage 1, .cold, by decide +kernel⟩,
   ⟨[2], upStage 2, .cold, by decide +kernel⟩,
   ⟨[], upStage 3, .cold, by decide +kernel⟩,
   ⟨[2], { upStage 4 with host := { perst := true } }, .cold, by decide +kernel⟩,
   ⟨[2], upStage 5, .cold, by decide +kernel⟩,
   ⟨[2], upStage 6, .cold, by decide +kernel⟩,
   ⟨[2], upStage 7, .cold, by decide +kernel⟩⟩

theorem test_meets_StartOverruns :
    (∃ (c : Nat) (s : State) (k : StartKind), (Instr.wf (.bringupStageTimeout c) = true) ∧ (s.life.start = some k) ∧
      (s.life.retryWait = false) ∧ (s.life.startHalted = false) ∧ (4 ≤ s.life.stage) ∧ (s.life.overruns = 0)) ∧
    (∃ (c : Nat) (s : State) (k : StartKind), (Instr.wf (.bringupStageTimeout c) = true) ∧ (s.life.start = some k) ∧
      (s.life.retryWait = false) ∧ (s.life.startHalted = false) ∧ (4 ≤ s.life.stage) ∧ (s.life.overruns ≠ 0) ∧
      (s.life.fault.code = 0)) ∧
    (∃ (s : State), (s.life.retryWait = true)) :=
  ⟨⟨4, upStage 4, .cold, by decide +kernel⟩,
   ⟨4, { upStage 7 with life := { (upStage 7).life with overruns := 1 } }, .cold, by decide +kernel⟩,
   ⟨{ upStage 4 with life := { (upStage 4).life with retryWait := true } }, by decide +kernel⟩⟩

theorem test_meets_FeedsAndRails :
    (∃ (f : Nat) (s : State), (Instr.wf (.feedReconnect f) = true) ∧ (s.life.standbyRail = true) ∧ (s.life.awaitsFeed = false) ∧
      (s.life.pwrFailWarn = false)) ∧
    (∃ (f : Nat) (s : State), (Instr.wf (.feedUndervoltage f) = true) ∧ ((inFeed s f).connected = true) ∧
      ((inFeed s f).under = false)) ∧
    (∃ (f : Nat) (s : State), (Instr.wf (.feedLost f) = true) ∧ ((inFeed s f).connected = true) ∧ (s.life.start = none)) ∧
    (∃ (f : Nat) (s : State), (Instr.wf (.feedOvervoltage f) = true) ∧ ((inFeed s f).connected = true) ∧
      ((inFeed s (1 - f)).connected = true)) ∧
    (∃ (f : Nat) (s : State), (Instr.wf (.feedOvervoltage f) = true) ∧ ((inFeed s f).connected = true) ∧
      ((inFeed s (1 - f)).connected = false) ∧ ((inFeed s (1 - f)).under = false) ∧ (s.life.fault.code = 0)) ∧
    (∃ (s : State), (s.life.start = none) ∧ (coresRun s = true)) ∧
    (∃ (r : Nat) (s : State), (Instr.wf (.railFault r) = true) ∧ (s.life.conversion = true) ∧ (s.life.start = none) ∧
      (s.life.fault.code = 0)) :=
  ⟨⟨1, up, by decide +kernel⟩,
   ⟨1, up, by decide +kernel⟩,
   ⟨1, up, by decide +kernel⟩,
   ⟨0, up, by decide +kernel⟩,
   ⟨0, { up with power := { feedA := { connected := true } } }, by decide +kernel⟩,
   ⟨up, by decide +kernel⟩,
   ⟨63, up, by decide +kernel⟩⟩

theorem test_meets_Throttle :
    (∃ (hbm : Bool) (u : Nat) (v : Nat) (s : State), (Instr.wf (.thermalThrottle hbm u v) = true) ∧
      ((if hbm then 90 else 100) ≤ v) ∧ (isHot s = false) ∧ (4 < s.power.throttleN)) ∧
    (∃ (hbm : Bool) (u : Nat) (v : Nat), (Instr.wf (.thermalThrottle hbm u v) = true) ∧ (v < (if hbm then 88 else 98))) ∧
    (∃ (hbm : Bool) (u : Nat) (v : Nat) (s : State), (Instr.wf (.thermalShutdown hbm u v) = true) ∧
      ((if hbm then 95 else 105) ≤ v) ∧ (s.life.conversion = true) ∧ (s.life.fault.code = 0)) ∧
    (∃ (s : State), (s.power.causeFlow = false)) ∧
    (∃ (mw : Nat) (s : State), (powerLimit s * 1000 < mw) ∧ (s.power.causePower = false) ∧ (s.power.throttleN = 16)) ∧
    (∃ (mw : Nat) (s : State), (mw ≤ powerLimit s * 1000) ∧ (isHot s = false) ∧ (s.power.throttleN = 16)) ∧
    (∃ (mw : Nat) (s : State), (isHot s = false) ∧ (s.power.causePower = false) ∧ (s.power.causeFlow = false) ∧
      (mw < powerLimit s * 950)) :=
  ⟨⟨true, 7, 90, { up with power := { throttleN := 5 } }, by decide +kernel⟩,
   ⟨false, 7, 97, by decide +kernel⟩,
   ⟨false, 0, 105, up, by decide +kernel⟩,
   ⟨up, by decide +kernel⟩,
   ⟨powerLimit up * 1000 + 1, up, by decide +kernel⟩,
   ⟨powerLimit up * 1000, up, by decide +kernel⟩,
   ⟨powerLimit up * 950 - 1, up, by decide +kernel⟩⟩

theorem test_meets_UnitReports :
    (∃ (c : Nat) (s : State), (Instr.wf (.unitFault c) = true) ∧ ((∀ i ∈ upto 12, portUnit i ≠ c ∧ portFaulty s i = false)) ∧
      (s.life.fault.code = 0)) ∧
    (∃ (c : Nat) (s : State), (Instr.wf (.unitFault c) = true) ∧ ((∀ i ∈ upto 12, portUnit i ≠ c ∧ portFaulty s i = false)) ∧
      (s.life.fault.code ≠ 0)) ∧
    (∃ (i : Nat), (i < 12) ∧ (Instr.wf (.unitFault (portUnit i)) = true)) ∧
    (∃ (u : Nat), (Instr.wf (.hbm3RefreshDoubled u true) = true)) ∧
    (∃ (u : Nat), (Instr.wf (.hbm3RefreshDoubled u false) = true)) ∧
    (∃ (vs : List W32) (s : State), (Instr.wf (.senseSample vs) = true) ∧ (s.lantern.serving = true)) :=
  ⟨⟨4, up, by decide +kernel⟩,
   ⟨4, upLife { up.life with modState := .outOfService, fault := { coord := 5, code := 0x0C21 } }, by decide +kernel⟩,
   ⟨7, by decide +kernel⟩,
   ⟨7, by decide +kernel⟩,
   ⟨7, by decide +kernel⟩,
   ⟨List.replicate 64 1, up, by decide +kernel⟩⟩

theorem test_meets_PowerRequests :
    (∃ (p : Path) (s : State), (Instr.wf (.enterRetention p) = true) ∧ (accepts s p E.POWER_STATE_REQUEST 0 [1])) ∧
    (∃ (p : Path) (s : State), (Instr.wf (.exitRetention p) = true) ∧ (accepts s p E.POWER_STATE_REQUEST 0 [2])) ∧
    (∃ (p : Path) (s : State), (Instr.wf (.moduleReset p) = true) ∧ (accepts s p E.POWER_STATE_REQUEST 0 [3])) ∧
    (∃ (p : Path) (s : State), (Instr.wf (.standbyRequest p) = true) ∧ (accepts s p E.POWER_STATE_REQUEST 0 [4])) ∧
    (∃ (p : Path) (s : State), (Instr.wf (.coldStart p) = true) ∧ (accepts s p E.POWER_STATE_REQUEST 0 [5])) ∧
    (∃ (s : State), (s.life.modState ≠ .init) ∧ (s.life.powState ≠ .standby)) ∧
    (∃ (s : State), (isState s .ready || isState s .outOfService || isState s .retention)) :=
  ⟨⟨.mailbox, up, by decide +kernel⟩,
   ⟨.mailbox, { up with life := { up.life with modState := .retention, powState := .retention } }, by decide +kernel⟩,
   ⟨.mailbox, up, by decide +kernel⟩,
   ⟨.mailbox, up, by decide +kernel⟩,
   ⟨.mailbox, { up with life := { up.life with modState := .outOfService, powState := .standby } }, by decide +kernel⟩,
   ⟨up, by decide +kernel⟩,
   ⟨{ up with life := { up.life with modState := .retention, powState := .retention } }, by decide +kernel⟩⟩

theorem test_meets_LanternRestartAndClock :
    (∃ (s : State), (s.lantern.serving = true) ∧ (s.life.start = none) ∧ (s.life.recovery = false) ∧
      (s.lantern.ptpLocked = false)) ∧
    (∃ (s : State), (s.lantern.serving = false) ∧ (s.life.standbyRail = true) ∧ (s.life.start = none) ∧
      (s.life.startHalted = false) ∧ (s.lantern.fw.trialB = none) ∧ (fwValid s.lantern.fw s.lantern.fw.activeB = true) ∧
      (s.lantern.events.buffered = [])) ∧
    (∃ (s : State), (s.lantern.events.records.length ≤ 262144)) ∧
    (∃ (m : PtpMsg) (o : Int) (s : State), (Instr.wf (.ptpMessage m o true) = true) ∧ (s.lantern.serving = true) ∧
      (m.domain = setting s E.PTP_DOMAIN)) ∧
    (∃ (m : PtpMsg) (o : Int) (s : State), (Instr.wf (.ptpMessage m o false) = true) ∧ (s.lantern.serving = true) ∧
      (m.domain = setting s E.PTP_DOMAIN) ∧ (s.lantern.ptpLocked = false)) ∧
    (∃ (m : PtpMsg) (o : Int) (k : Bool) (s : State), (Instr.wf (.ptpMessage m o k) = true) ∧
      (m.domain ≠ setting s E.PTP_DOMAIN)) ∧
    (∃ (s : State), (s.lantern.ptpLocked = true)) :=
  ⟨⟨up, by decide +kernel⟩,
   ⟨{ up with lantern := {} }, by decide +kernel⟩,
   ⟨up, by decide +kernel⟩,
   ⟨{ sync := true, wallNs := 5 }, (-3), up, by decide +kernel⟩,
   ⟨{ sync := true, wallNs := 5 }, (-3), up, by decide +kernel⟩,
   ⟨{ domain := 1, wallNs := 5 }, (-3), true, up, by decide +kernel⟩,
   ⟨{ up with lantern := { ptpLocked := true } }, by decide +kernel⟩⟩

theorem test_meets_FirmwareUpdate :
    (∃ (p : Path) (s : State), (Instr.wf (.fwBegin p) = true) ∧ (accepts s p E.FW_UPDATE_CONTROL 0 [1])) ∧
    (∃ (p : Path) (o : Nat) (b : Bytes) (s : State), (Instr.wf (.fwUpdateData p o b) = true) ∧
      (accepts s p E.FW_UPDATE_DATA o b)) ∧
    (∃ (p : Path) (s : State), (Instr.wf (.fwVerify p) = true) ∧ (accepts s p E.FW_UPDATE_CONTROL 0 [2])) ∧
    (∃ (s : State), (s.lantern.fw.verifying = true) ∧ (fwValid s.lantern.fw (spareSlot s) = true)) ∧
    (∃ (s : State), (s.lantern.fw.verifying = true) ∧ (fwValid s.lantern.fw (spareSlot s) = false)) ∧
    (∃ (p : Path) (s : State), (Instr.wf (.fwActivate p) = true) ∧ (accepts s p E.FW_UPDATE_CONTROL 0 [3])) ∧
    (∃ (p : Path) (s : State), (Instr.wf (.fwAbort p) = true) ∧ (accepts s p E.FW_UPDATE_CONTROL 0 [4]) ∧
      (s.lantern.fw.update ≠ .idle)) ∧
    (∃ (p : Path) (s : State) (b : Bool), (Instr.wf (.fwConfirm p 1) = true) ∧ (accepts s p E.FW_CONFIRM 0 [1]) ∧
      (s.lantern.fw.trialB = some b) ∧ (s.lantern.fw.trialBoots = 1) ∧ (s.lantern.fw.runningB = b)) :=
  ⟨⟨.mailbox, up, by decide +kernel⟩,
   ⟨.mailbox, 4, [7], { up with lantern := { up.lantern with fw := { update := .receiving, received := 4 } } },
      by decide +kernel⟩,
   ⟨.mailbox, up, by decide +kernel⟩,
   ⟨{ up with lantern := { up.lantern with fw := { activeB := true, runningB := true, verifying := true } } },
      by decide +kernel⟩,
   ⟨{ up with lantern := { up.lantern with fw := { verifying := true } } }, by decide +kernel⟩,
   ⟨.mailbox, { up with lantern := { up.lantern with fw := { update := .verified } } }, by decide +kernel⟩,
   ⟨.mailbox, { up with lantern := { up.lantern with fw := { update := .receiving } } }, by decide +kernel⟩,
   ⟨.mailbox, { up with lantern := { up.lantern with fw := { trialB := some true, trialBoots := 1, runningB := true } } },
      true, by decide +kernel⟩⟩

theorem test_meets_MemoryUnits :
    (∃ (pk : Nat) (d : Nat × Nat) (s : State), (Instr.wf (.parityFlushExpiry pk) = true) ∧ (sget none s.mem.pend pk = some d) ∧
      (damageOf s (secKey pk 62) = 0) ∧ (damageOf s (secKey pk 63) = 0) ∧ ((∀ l ∈ pendLines s pk,
      sget 0 s.mem.sramBad l = 0))) ∧
    (∃ (pk : Nat) (s : State), (Instr.wf (.parityFlushExpiry pk) = true) ∧ (sget none s.mem.pend pk = none)) ∧
    (∃ (g : Nat) (r : Nat) (us : List Upset) (s : State) (t : State) (b : Burn),
      (Instr.wf (.burnisherPageCheck g r us) = true) ∧ (withUpsets us s = t) ∧ (burnisherRuns t = true) ∧
      (b = { burnOf t g r with startNs := some ((burnOf t g r).startNs.getD t.lantern.wallNs) }) ∧ (tierPages r ≤ b.page + 1)) ∧
    (∃ (g : Nat) (r : Nat) (us : List Upset) (s : State) (t : State) (b : Burn),
      (Instr.wf (.burnisherPageCheck g r us) = true) ∧ (withUpsets us s = t) ∧ (burnisherRuns t = true) ∧
      (b = { burnOf t g r with startNs := some ((burnOf t g r).startNs.getD t.lantern.wallNs) }) ∧ (b.page + 1 < tierPages r)) ∧
    (∃ (g : Nat) (r : Nat) (s : State), (Instr.wf (.burnisherPageCheck g r []) = true) ∧ (burnisherRuns s = false)) ∧
    (∃ (pk : Nat) (s : State), ((s.mem.damage.any fun e => pageOfSec e.1 == pk) = false) ∧ (staleOf s pk = (0, 0))) ∧
    (∃ (pk : Nat) (s : State), ((s.mem.damage.any fun e => pageOfSec e.1 == pk) = false) ∧ (staleOf s pk ≠ (0, 0))) ∧
    (∃ (r : Nat), (r < 2)) ∧
    (∃ (g : Nat) (r : Nat) (s : State), (Instr.wf (.burnisherLapAlarm g r) = true) ∧ (setting s E.BURNISHER_LAP_LIMIT_S ≠ 0) ∧
      ((burnOf s g r).alarmed = false) ∧ ((burnOf s g r).startNs ≠ none)) ∧
    (∃ (g : Nat) (r : Nat) (s : State), (Instr.wf (.burnisherLapAlarm g r) = true) ∧ ((burnOf s g r).alarmed = true)) ∧
    (∃ (d : Nat) (c : Scan) (v : Nat) (s : State) (t : State) (u : State), (Instr.wf (.checkScanRun d) = true) ∧
      (serves s = true) ∧ ((scansAt s d).head? = some c) ∧ (c.resultAddr = 0) ∧ (c.compare = false) ∧
      (scanResult c (setMem { s.mem with scans := s.mem.scans.erase c } s) = ((v, 0), t)) ∧
      (setMem { t.mem with lastResult := sput 0 t.mem.lastResult d v, lastStatus := sput 0 t.mem.lastStatus d 0 } (count E.CHECK_SCANS t) = u)) ∧
    (∃ (d : Nat) (s : State), (Instr.wf (.checkScanRun d) = true) ∧ (scansAt s d = [] ∨ serves s = false)) ∧
    (∃ (g : Nat) (p : ProofTile) (s : State) (t : State), (Instr.wf (.proofRecompute g) = true) ∧ (serves s = true) ∧
      ((s.watch.proofs.find? fun p => p.region == g) = some p) ∧
      (gemmJob (gemmOf p.record) p.step (setWatch { s.watch with proofs := s.watch.proofs.erase p } s) = (none, t))) ∧
    (∃ (g : Nat) (p : ProofTile) (j : Job) (rc : Operand) (u : State) (s : State) (t : State),
      (Instr.wf (.proofRecompute g) = true) ∧ (serves s = true) ∧ ((s.watch.proofs.find? fun p => p.region == g) = some p) ∧
      (gemmJob (gemmOf p.record) p.step (setWatch { s.watch with proofs := s.watch.proofs.erase p } s) = (some j, t)) ∧
      (loadOperand j.c t = (rc, u)) ∧
      (let es := tileElems j p.tileI p.tileJ; let fs := tallyAll (es.map fun e => proofRef j e.1 e.2); fs.1.any numNonfinite = false) ∧
      (let es := tileElems j p.tileI p.tileJ; let ns := es.map fun e => proofNarrow j rc p.down e.1 e.2; ns.any numNonfinite = false) ∧
      (let es := tileElems j p.tileI p.tileJ; proofPoison j rc p.tileI p.tileJ es = false)) :=
  ⟨⟨7, (0, 0), { up with mem := { pend := [(7, some (0, 0))] } }, by decide +kernel⟩,
   ⟨7, up, by decide +kernel⟩,
   ⟨15, 1, [.dram 15 1 0 0 1], { up with mem := { filled := true, burn := [(31, { page := tierPages 1 - 1 })] } }, _, _,
      by decide +kernel, rfl, by decide +kernel, rfl, by decide +kernel⟩,
   ⟨15, 1, [.dram 15 1 0 0 1], { up with mem := { filled := true, burn := [(31, { page := tierPages 1 - 2 })] } }, _, _,
      by decide +kernel, rfl, by decide +kernel, rfl, by decide +kernel⟩,
   ⟨15, 1, { up with dict := { regs := [(E.BURNISHER_ENABLE, 0)] } }, by decide +kernel⟩,
   ⟨pageKey 7 3, up, by decide +kernel⟩,
   ⟨pageKey 7 3, { up with mem := { stale := [(pageKey 7 3, (1, 0))] } }, by decide +kernel⟩,
   ⟨1, by decide +kernel⟩,
   ⟨15, 1, { up with mem := { burn := [(31, { startNs := some 0 })] } }, by decide +kernel⟩,
   ⟨15, 1, { up with mem := { burn := [(31, { alarmed := true })] } }, by decide +kernel⟩,
   ⟨0, { queue := 0, index := 0, start := 0, length := 64, algo := 1, fold := 0, compare := false, seqBase := 0, expected := 0, resultAddr := 0 }, (scanResult ({ queue := 0, index := 0, start := 0, length := 64, algo := 1, fold := 0, compare := false, seqBase := 0, expected := 0, resultAddr := 0 }) (setMem { ({ up with mem := { scans := [{ queue := 0, index := 0, start := 0, length := 64, algo := 1, fold := 0, compare := false, seqBase := 0, expected := 0, resultAddr := 0 }] } }).mem with scans := [] } { up with mem := { scans := [{ queue := 0, index := 0, start := 0, length := 64, algo := 1, fold := 0, compare := false, seqBase := 0, expected := 0, resultAddr := 0 }] } })).1.1, { up with mem := { scans := [{ queue := 0, index := 0, start := 0, length := 64, algo := 1, fold := 0, compare := false, seqBase := 0, expected := 0, resultAddr := 0 }] } }, (scanResult ({ queue := 0, index := 0, start := 0, length := 64, algo := 1, fold := 0, compare := false, seqBase := 0, expected := 0, resultAddr := 0 }) (setMem { ({ up with mem := { scans := [{ queue := 0, index := 0, start := 0, length := 64, algo := 1, fold := 0, compare := false, seqBase := 0, expected := 0, resultAddr := 0 }] } }).mem with scans := [] } { up with mem := { scans := [{ queue := 0, index := 0, start := 0, length := 64, algo := 1, fold := 0, compare := false, seqBase := 0, expected := 0, resultAddr := 0 }] } })).2, _, by decide +kernel, by decide +kernel, by decide +kernel, by decide +kernel, by decide +kernel, by decide +kernel, rfl⟩,
   ⟨3, { up with mem := { scans := [{ queue := 0, index := 0, start := 0, length := 64, algo := 1, fold := 0, compare := false, seqBase := 0, expected := 0, resultAddr := 0 }] } }, by decide +kernel⟩,
   ⟨15, ({ region := 15, step := 7, record := record 0x10 [], tileI := 0, tileJ := 0, slot := none, down := 0 } : ProofTile),
      { up with watch := { up.watch with proofs := [({ region := 15, step := 7, record := record 0x10 [], tileI := 0, tileJ := 0, slot := none, down := 0 } : ProofTile)] } },
      (gemmJob (gemmOf (({ region := 15, step := 7, record := record 0x10 [], tileI := 0, tileJ := 0, slot := none, down := 0 } : ProofTile)).record) (({ region := 15, step := 7, record := record 0x10 [], tileI := 0, tileJ := 0, slot := none, down := 0 } : ProofTile)).step (setWatch { ({ up with watch := { up.watch with proofs := [({ region := 15, step := 7, record := record 0x10 [], tileI := 0, tileJ := 0, slot := none, down := 0 } : ProofTile)] } }).watch with proofs := ({ up with watch := { up.watch with proofs := [({ region := 15, step := 7, record := record 0x10 [], tileI := 0, tileJ := 0, slot := none, down := 0 } : ProofTile)] } }).watch.proofs.erase (({ region := 15, step := 7, record := record 0x10 [], tileI := 0, tileJ := 0, slot := none, down := 0 } : ProofTile)) } ({ up with watch := { up.watch with proofs := [({ region := 15, step := 7, record := record 0x10 [], tileI := 0, tileJ := 0, slot := none, down := 0 } : ProofTile)] } }))).2,
      by exact ⟨by decide +kernel, by decide +kernel, by decide +kernel, Prod.ext (Option.isNone_iff_eq_none.mp (by decide +kernel)) rfl⟩⟩,
   ⟨15, ({ region := 15, step := 5, record := record 0x10 [(128, 1), (144, 2), (160, 3), (192, 1), (224, 1), (256, 1)], tileI := 0, tileJ := 0, slot := none, down := 0 } : ProofTile), (Option.get ((gemmJob (gemmOf (({ region := 15, step := 5, record := record 0x10 [(128, 1), (144, 2), (160, 3), (192, 1), (224, 1), (256, 1)], tileI := 0, tileJ := 0, slot := none, down := 0 } : ProofTile)).record) (({ region := 15, step := 5, record := record 0x10 [(128, 1), (144, 2), (160, 3), (192, 1), (224, 1), (256, 1)], tileI := 0, tileJ := 0, slot := none, down := 0 } : ProofTile)).step (setWatch { ({ tensored [tensor 1 2 1 1 4096, tensor 2 2 1 1 8192, tensor 3 0 1 1 12288] with watch := { up.watch with proofs := [({ region := 15, step := 5, record := record 0x10 [(128, 1), (144, 2), (160, 3), (192, 1), (224, 1), (256, 1)], tileI := 0, tileJ := 0, slot := none, down := 0 } : ProofTile)] } }).watch with proofs := ({ tensored [tensor 1 2 1 1 4096, tensor 2 2 1 1 8192, tensor 3 0 1 1 12288] with watch := { up.watch with proofs := [({ region := 15, step := 5, record := record 0x10 [(128, 1), (144, 2), (160, 3), (192, 1), (224, 1), (256, 1)], tileI := 0, tileJ := 0, slot := none, down := 0 } : ProofTile)] } }).watch.proofs.erase (({ region := 15, step := 5, record := record 0x10 [(128, 1), (144, 2), (160, 3), (192, 1), (224, 1), (256, 1)], tileI := 0, tileJ := 0, slot := none, down := 0 } : ProofTile)) } ({ tensored [tensor 1 2 1 1 4096, tensor 2 2 1 1 8192, tensor 3 0 1 1 12288] with watch := { up.watch with proofs := [({ region := 15, step := 5, record := record 0x10 [(128, 1), (144, 2), (160, 3), (192, 1), (224, 1), (256, 1)], tileI := 0, tileJ := 0, slot := none, down := 0 } : ProofTile)] } }))).1) (by decide +kernel)), (loadOperand ((Option.get ((gemmJob (gemmOf (({ region := 15, step := 5, record := record 0x10 [(128, 1), (144, 2), (160, 3), (192, 1), (224, 1), (256, 1)], tileI := 0, tileJ := 0, slot := none, down := 0 } : ProofTile)).record) (({ region := 15, step := 5, record := record 0x10 [(128, 1), (144, 2), (160, 3), (192, 1), (224, 1), (256, 1)], tileI := 0, tileJ := 0, slot := none, down := 0 } : ProofTile)).step (setWatch { ({ tensored [tensor 1 2 1 1 4096, tensor 2 2 1 1 8192, tensor 3 0 1 1 12288] with watch := { up.watch with proofs := [({ region := 15, step := 5, record := record 0x10 [(128, 1), (144, 2), (160, 3), (192, 1), (224, 1), (256, 1)], tileI := 0, tileJ := 0, slot := none, down := 0 } : ProofTile)] } }).watch with proofs := ({ tensored [tensor 1 2 1 1 4096, tensor 2 2 1 1 8192, tensor 3 0 1 1 12288] with watch := { up.watch with proofs := [({ region := 15, step := 5, record := record 0x10 [(128, 1), (144, 2), (160, 3), (192, 1), (224, 1), (256, 1)], tileI := 0, tileJ := 0, slot := none, down := 0 } : ProofTile)] } }).watch.proofs.erase (({ region := 15, step := 5, record := record 0x10 [(128, 1), (144, 2), (160, 3), (192, 1), (224, 1), (256, 1)], tileI := 0, tileJ := 0, slot := none, down := 0 } : ProofTile)) } ({ tensored [tensor 1 2 1 1 4096, tensor 2 2 1 1 8192, tensor 3 0 1 1 12288] with watch := { up.watch with proofs := [({ region := 15, step := 5, record := record 0x10 [(128, 1), (144, 2), (160, 3), (192, 1), (224, 1), (256, 1)], tileI := 0, tileJ := 0, slot := none, down := 0 } : ProofTile)] } }))).1) (by decide +kernel))).c ((gemmJob (gemmOf (({ region := 15, step := 5, record := record 0x10 [(128, 1), (144, 2), (160, 3), (192, 1), (224, 1), (256, 1)], tileI := 0, tileJ := 0, slot := none, down := 0 } : ProofTile)).record) (({ region := 15, step := 5, record := record 0x10 [(128, 1), (144, 2), (160, 3), (192, 1), (224, 1), (256, 1)], tileI := 0, tileJ := 0, slot := none, down := 0 } : ProofTile)).step (setWatch { ({ tensored [tensor 1 2 1 1 4096, tensor 2 2 1 1 8192, tensor 3 0 1 1 12288] with watch := { up.watch with proofs := [({ region := 15, step := 5, record := record 0x10 [(128, 1), (144, 2), (160, 3), (192, 1), (224, 1), (256, 1)], tileI := 0, tileJ := 0, slot := none, down := 0 } : ProofTile)] } }).watch with proofs := ({ tensored [tensor 1 2 1 1 4096, tensor 2 2 1 1 8192, tensor 3 0 1 1 12288] with watch := { up.watch with proofs := [({ region := 15, step := 5, record := record 0x10 [(128, 1), (144, 2), (160, 3), (192, 1), (224, 1), (256, 1)], tileI := 0, tileJ := 0, slot := none, down := 0 } : ProofTile)] } }).watch.proofs.erase (({ region := 15, step := 5, record := record 0x10 [(128, 1), (144, 2), (160, 3), (192, 1), (224, 1), (256, 1)], tileI := 0, tileJ := 0, slot := none, down := 0 } : ProofTile)) } ({ tensored [tensor 1 2 1 1 4096, tensor 2 2 1 1 8192, tensor 3 0 1 1 12288] with watch := { up.watch with proofs := [({ region := 15, step := 5, record := record 0x10 [(128, 1), (144, 2), (160, 3), (192, 1), (224, 1), (256, 1)], tileI := 0, tileJ := 0, slot := none, down := 0 } : ProofTile)] } }))).2)).1, (loadOperand ((Option.get ((gemmJob (gemmOf (({ region := 15, step := 5, record := record 0x10 [(128, 1), (144, 2), (160, 3), (192, 1), (224, 1), (256, 1)], tileI := 0, tileJ := 0, slot := none, down := 0 } : ProofTile)).record) (({ region := 15, step := 5, record := record 0x10 [(128, 1), (144, 2), (160, 3), (192, 1), (224, 1), (256, 1)], tileI := 0, tileJ := 0, slot := none, down := 0 } : ProofTile)).step (setWatch { ({ tensored [tensor 1 2 1 1 4096, tensor 2 2 1 1 8192, tensor 3 0 1 1 12288] with watch := { up.watch with proofs := [({ region := 15, step := 5, record := record 0x10 [(128, 1), (144, 2), (160, 3), (192, 1), (224, 1), (256, 1)], tileI := 0, tileJ := 0, slot := none, down := 0 } : ProofTile)] } }).watch with proofs := ({ tensored [tensor 1 2 1 1 4096, tensor 2 2 1 1 8192, tensor 3 0 1 1 12288] with watch := { up.watch with proofs := [({ region := 15, step := 5, record := record 0x10 [(128, 1), (144, 2), (160, 3), (192, 1), (224, 1), (256, 1)], tileI := 0, tileJ := 0, slot := none, down := 0 } : ProofTile)] } }).watch.proofs.erase (({ region := 15, step := 5, record := record 0x10 [(128, 1), (144, 2), (160, 3), (192, 1), (224, 1), (256, 1)], tileI := 0, tileJ := 0, slot := none, down := 0 } : ProofTile)) } ({ tensored [tensor 1 2 1 1 4096, tensor 2 2 1 1 8192, tensor 3 0 1 1 12288] with watch := { up.watch with proofs := [({ region := 15, step := 5, record := record 0x10 [(128, 1), (144, 2), (160, 3), (192, 1), (224, 1), (256, 1)], tileI := 0, tileJ := 0, slot := none, down := 0 } : ProofTile)] } }))).1) (by decide +kernel))).c ((gemmJob (gemmOf (({ region := 15, step := 5, record := record 0x10 [(128, 1), (144, 2), (160, 3), (192, 1), (224, 1), (256, 1)], tileI := 0, tileJ := 0, slot := none, down := 0 } : ProofTile)).record) (({ region := 15, step := 5, record := record 0x10 [(128, 1), (144, 2), (160, 3), (192, 1), (224, 1), (256, 1)], tileI := 0, tileJ := 0, slot := none, down := 0 } : ProofTile)).step (setWatch { ({ tensored [tensor 1 2 1 1 4096, tensor 2 2 1 1 8192, tensor 3 0 1 1 12288] with watch := { up.watch with proofs := [({ region := 15, step := 5, record := record 0x10 [(128, 1), (144, 2), (160, 3), (192, 1), (224, 1), (256, 1)], tileI := 0, tileJ := 0, slot := none, down := 0 } : ProofTile)] } }).watch with proofs := ({ tensored [tensor 1 2 1 1 4096, tensor 2 2 1 1 8192, tensor 3 0 1 1 12288] with watch := { up.watch with proofs := [({ region := 15, step := 5, record := record 0x10 [(128, 1), (144, 2), (160, 3), (192, 1), (224, 1), (256, 1)], tileI := 0, tileJ := 0, slot := none, down := 0 } : ProofTile)] } }).watch.proofs.erase (({ region := 15, step := 5, record := record 0x10 [(128, 1), (144, 2), (160, 3), (192, 1), (224, 1), (256, 1)], tileI := 0, tileJ := 0, slot := none, down := 0 } : ProofTile)) } ({ tensored [tensor 1 2 1 1 4096, tensor 2 2 1 1 8192, tensor 3 0 1 1 12288] with watch := { up.watch with proofs := [({ region := 15, step := 5, record := record 0x10 [(128, 1), (144, 2), (160, 3), (192, 1), (224, 1), (256, 1)], tileI := 0, tileJ := 0, slot := none, down := 0 } : ProofTile)] } }))).2)).2, { tensored [tensor 1 2 1 1 4096, tensor 2 2 1 1 8192, tensor 3 0 1 1 12288] with watch := { up.watch with proofs := [({ region := 15, step := 5, record := record 0x10 [(128, 1), (144, 2), (160, 3), (192, 1), (224, 1), (256, 1)], tileI := 0, tileJ := 0, slot := none, down := 0 } : ProofTile)] } }, (gemmJob (gemmOf (({ region := 15, step := 5, record := record 0x10 [(128, 1), (144, 2), (160, 3), (192, 1), (224, 1), (256, 1)], tileI := 0, tileJ := 0, slot := none, down := 0 } : ProofTile)).record) (({ region := 15, step := 5, record := record 0x10 [(128, 1), (144, 2), (160, 3), (192, 1), (224, 1), (256, 1)], tileI := 0, tileJ := 0, slot := none, down := 0 } : ProofTile)).step (setWatch { ({ tensored [tensor 1 2 1 1 4096, tensor 2 2 1 1 8192, tensor 3 0 1 1 12288] with watch := { up.watch with proofs := [({ region := 15, step := 5, record := record 0x10 [(128, 1), (144, 2), (160, 3), (192, 1), (224, 1), (256, 1)], tileI := 0, tileJ := 0, slot := none, down := 0 } : ProofTile)] } }).watch with proofs := ({ tensored [tensor 1 2 1 1 4096, tensor 2 2 1 1 8192, tensor 3 0 1 1 12288] with watch := { up.watch with proofs := [({ region := 15, step := 5, record := record 0x10 [(128, 1), (144, 2), (160, 3), (192, 1), (224, 1), (256, 1)], tileI := 0, tileJ := 0, slot := none, down := 0 } : ProofTile)] } }).watch.proofs.erase (({ region := 15, step := 5, record := record 0x10 [(128, 1), (144, 2), (160, 3), (192, 1), (224, 1), (256, 1)], tileI := 0, tileJ := 0, slot := none, down := 0 } : ProofTile)) } ({ tensored [tensor 1 2 1 1 4096, tensor 2 2 1 1 8192, tensor 3 0 1 1 12288] with watch := { up.watch with proofs := [({ region := 15, step := 5, record := record 0x10 [(128, 1), (144, 2), (160, 3), (192, 1), (224, 1), (256, 1)], tileI := 0, tileJ := 0, slot := none, down := 0 } : ProofTile)] } }))).2, by decide +kernel, by decide +kernel, by decide +kernel, by first | (with_reducible exact (Option.some_get _).symm) | (with_reducible exact Prod.ext (Option.some_get _).symm rfl) | decide +kernel, by first | (with_reducible exact (Option.some_get _).symm) | (with_reducible exact Prod.ext (Option.some_get _).symm rfl) | decide +kernel, by decide +kernel⟩⟩

theorem test_meets_Flits :
    (∃ (i : Nat) (f : Flit) (c : Codeword) (s : State), (Instr.wf (.dataFlitReceive i f c) = true) ∧ ((port s i).state = .up) ∧
      (c.errors ≤ 15) ∧ (f.crc = flitCrc f) ∧ (f.seq = (port s i).expect)) ∧
    (∃ (i : Nat) (f : Flit) (c : Codeword) (s : State), ((port s i).state = .up) ∧ (c.errors ≤ 15) ∧ (f.crc = flitCrc f) ∧
      (f.seq ≠ (port s i).expect) ∧ (Instr.wf (.dataFlitReceive i f c) = true) ∧ ((port s i).nakSent = false)) ∧
    (∃ (i : Nat) (f : Flit) (c : Codeword) (s : State), ((port s i).state = .up) ∧ (c.errors ≤ 15) ∧ (f.crc = flitCrc f) ∧
      (f.seq ≠ (port s i).expect) ∧ (Instr.wf (.dataFlitReceive i f c) = true) ∧ ((port s i).nakSent = true)) ∧
    (∃ (i : Nat) (f : Flit) (c : Codeword) (s : State) (t : State), ((port s i).state = .up) ∧ (c.errors ≤ 15) ∧
      (f.crc ≠ flitCrc f) ∧ (Instr.wf (.dataFlitReceive i f c) = true) ∧
      (updPort i (fun p => { p with crcErrors := min (p.crcErrors + 1) (2 ^ 32 - 1) }) (countFec i c s) = t) ∧
      ((port s i).nakSent = false)) ∧
    (∃ (i : Nat) (f : Flit) (c : Codeword) (s : State) (t : State), ((port s i).state = .up) ∧ (c.errors ≤ 15) ∧
      (f.crc ≠ flitCrc f) ∧ (Instr.wf (.dataFlitReceive i f c) = true) ∧
      (updPort i (fun p => { p with crcErrors := min (p.crcErrors + 1) (2 ^ 32 - 1) }) (countFec i c s) = t) ∧
      ((port s i).nakSent = true)) ∧
    (∃ (i : Nat) (f : Flit) (c : Codeword) (s : State), ((port s i).state = .up) ∧ (15 < c.errors) ∧
      (Instr.wf (.dataFlitReceive i f c) = true)) ∧
    (∃ (i : Nat) (c : Control) (s : State), (Instr.wf (.controlFlitReceive i c) = true) ∧ ((port s i).state = .up) ∧
      (c.word.errors ≤ 15) ∧ (c.crcGood = true)) ∧
    (∃ (i : Nat) (c : Control) (s : State), (Instr.wf (.controlFlitReceive i c) = true) ∧ ((port s i).state = .up) ∧
      (15 < c.word.errors ∨ c.crcGood = false)) ∧
    (∃ (i : Nat) (c : Control) (s : State), (Instr.wf (.nakReceive i c) = true) ∧ ((port s i).state = .up) ∧
      (c.word.errors ≤ 15) ∧ (c.crcGood = true)) ∧
    (∃ (i : Nat) (c : Control) (s : State), (Instr.wf (.nakReceive i c) = true) ∧ ((port s i).state = .up) ∧
      (15 < c.word.errors ∨ c.crcGood = false)) ∧
    (∃ (i : Nat) (s : State), (Instr.wf (.controlFlitInterval i) = true) ∧ ((port s i).state = .up)) ∧
    (∃ (i : Nat) (f : Flit) (fs : List Flit) (s : State), (Instr.wf (.linkRetryExpiry i) = true) ∧ ((port s i).state = .up) ∧
      ((port s i).retry = f :: fs)) :=
  ⟨⟨11, sealFlit { seq := 4095 }, { errors := 15 }, upPort 11 { state := .up, expect := 4095 }, by decide +kernel⟩,
   ⟨11, sealFlit { seq := 4095 }, { errors := 15 }, upPort 11 { state := .up, expect := 0 }, by decide +kernel⟩,
   ⟨11, sealFlit { seq := 4095 }, { errors := 15 }, upPort 11 { state := .up, nakSent := true }, by decide +kernel⟩,
   ⟨11, { seq := 4095, body := zeros 120, crc := 1 }, { errors := 15 }, upPort 11 { state := .up }, _, by decide +kernel,
      by decide +kernel, by decide +kernel, by decide +kernel, rfl, by decide +kernel⟩,
   ⟨11, { seq := 4095, body := zeros 120, crc := 1 }, { errors := 15 }, upPort 11 { state := .up, nakSent := true }, _,
      by decide +kernel, by decide +kernel, by decide +kernel, by decide +kernel, rfl, by decide +kernel⟩,
   ⟨11, sealFlit { seq := 4095 }, { errors := 16 }, upPort 11 { state := .up, expect := 0 }, by decide +kernel⟩,
   ⟨11, { credits := [(19, 3)] }, upPort 11 { state := .up }, by decide +kernel⟩,
   ⟨11, { word := { errors := 16 } }, upPort 11 { state := .up }, by decide +kernel⟩,
   ⟨11, { nakSeq := 4095 }, upPort 11 { state := .up }, by decide +kernel⟩,
   ⟨11, { nakSeq := 4095, crcGood := false }, upPort 11 { state := .up }, by decide +kernel⟩,
   ⟨11, upPort 11 { state := .up }, by decide +kernel⟩,
   ⟨11, sealFlit { seq := 4095 }, [sealFlit {}], upPort 11 { state := .up, retry := [sealFlit { seq := 4095 }, sealFlit {}] },
      by decide +kernel⟩⟩

theorem test_meets_PortTraining :
    (∃ (i : Nat) (r : TrainRec) (s : State) (t : State), (Instr.wf (.trainFlitReceive i r) = true) ∧
      ((port s i).state = .training) ∧ (r.word.errors ≤ 15) ∧ (countFec i r.word s = t) ∧ (trainRefusal t i r = 0) ∧
      (r.selected ≠ 0)) ∧
    (∃ (i : Nat) (r : TrainRec) (s : State) (t : State), (Instr.wf (.trainFlitReceive i r) = true) ∧
      ((port s i).state = .training) ∧ (r.word.errors ≤ 15) ∧ (countFec i r.word s = t) ∧ (trainRefusal t i r ≠ 0) ∧
      ((port t i).held = [])) ∧
    (∃ (i : Nat) (r : TrainRec), (Instr.wf (.trainFlitReceive i r) = true) ∧ (15 < r.word.errors)) ∧
    (∃ (i : Nat) (s : State) (t : State), (Instr.wf (.codewordLockLoss i) = true) ∧ ((port s i).state = .up) ∧
      (trains s i = true) ∧
      (updPort i (fun p => { p with state := .training, retraining := true, resume := true, replays := 0, selected := 0, retrains := min (p.retrains + 1) (2 ^ 32 - 1) }) (captureTraining i s) = t)) ∧
    (∃ (i : Nat) (s : State), (Instr.wf (.codewordLockLoss i) = true) ∧ ((port s i).state = .up) ∧ (trains s i = false)) ∧
    (∃ (i : Nat) (s : State), (Instr.wf (.portTrainingDone i) = true) ∧ ((port s i).state = .training) ∧
      ((port s i).selected ≠ 0)) ∧
    (∃ (i : Nat) (s : State), (Instr.wf (.retrainTimeout i) = true) ∧ (i < 8) ∧ ((port s i).state = .training) ∧
      ((port s i).again = false) ∧ ((port s i).retraining = true)) ∧
    (∃ (i : Nat), (i < 8)) ∧
    (∃ (i : Nat) (s : State), (Instr.wf (.retrainTimeout i) = true) ∧ ((port s i).state = .training) ∧
      ((port s i).again = true)) ∧
    (∃ (i : Nat) (s : State), (Instr.wf (.linkDownRetryExpiry i) = true) ∧ ((port s i).state = .down) ∧
      (portFaulty s i = false) ∧ (trains s i = true)) ∧
    (∃ (i : Nat) (s : State), (trains s i = true)) ∧
    (∃ (i : Nat) (m : Nat) (a : Nat) (b : Nat) (x : W64) (r : Nat) (s : State),
      (Instr.wf (.heartbeatReceive i m a b x r) = true) ∧ (gOpen s = true)) :=
  ⟨⟨0, peer, trainingAt0, countFec 0 peer.word trainingAt0,
      by refine ⟨?_, by decide +kernel, by decide +kernel, rfl, ?_, by decide +kernel⟩; (simp only [Instr.wf, wfTrain_peer]; decide); (rw [counted_peer]; exact trainRefusal_peer)⟩,
   ⟨0, {}, twoWide [(0, { state := .training })], _, by decide +kernel, by decide +kernel, by decide +kernel, rfl,
      by decide +kernel⟩,
   ⟨0, { word := { errors := 16 } }, by decide +kernel⟩,
   ⟨0, { twoWide [(0, { state := .up })] with dict := { (twoWide []).dict with regs := (twoWide []).dict.regs ++ [(E.PORT_ENABLE_MASK, 0xFF)] } }, _, by decide +kernel, by decide +kernel, by decide +kernel, rfl⟩,
   ⟨7, upPort 7 { state := .up }, by decide +kernel⟩,
   ⟨11, upPort 11 { state := .training, selected := 2 }, by decide +kernel⟩,
   ⟨7, upPort 7 { state := .training, retraining := true }, by decide +kernel⟩,
   ⟨7, by decide +kernel⟩,
   ⟨7, upPort 7 { state := .training, again := true }, by decide +kernel⟩,
   ⟨0, { twoWide [(0, { state := .down })] with dict := { (twoWide []).dict with regs := (twoWide []).dict.regs ++ [(E.PORT_ENABLE_MASK, 0xFF)] } }, by decide +kernel⟩,
   ⟨0, { twoWide [] with dict := { (twoWide []).dict with regs := (twoWide []).dict.regs ++ [(E.PORT_ENABLE_MASK, 0xFF)] } },
      by decide +kernel⟩,
   ⟨8, 1, 0, 0, 0, 0, { up with dict := { force := [(E.TWIN_ENABLE, 1)] } }, by decide +kernel⟩⟩

theorem test_meets_PacketTransit :
    (∃ (i : Nat) (p : Packet) (s : State) (q : Packet) (c : Option Nat) (t : State), (Instr.wf (.packetTransit i p) = true) ∧
      (takeArrival p s = t) ∧ (turned t p i = (q, c)) ∧ (nextHop t q c = .here) ∧ (hopCode t (i / 2) .here q = 0)) ∧
    (∃ (i : Nat) (p : Packet) (s : State) (q : Packet) (c : Option Nat) (t : State), (Instr.wf (.packetTransit i p) = true) ∧
      (takeArrival p s = t) ∧ (turned t p i = (q, c)) ∧ (nextHop t q c = .here) ∧ (hopCode t (i / 2) .here q ≠ 0)) ∧
    (∃ (i : Nat) (p : Packet) (s : State) (q : Packet) (c : Option Nat) (t : State) (j : Nat) (d : Bool) (u : State),
      (Instr.wf (.packetTransit i p) = true) ∧ (takeArrival p s = t) ∧ (turned t p i = (q, c)) ∧ (nextHop t q c = .port j d) ∧
      (hopCode t (i / 2) (.port j d) q = 0) ∧ (countN E.TRANSIT_FLITS (flitsOf q).length t = u) ∧
      (hopCode u (i / 2) (.port j d) q = 0)) ∧
    (∃ (i : Nat) (p : Packet) (s : State) (q : Packet) (c : Option Nat) (t : State) (j : Nat) (d : Bool),
      (Instr.wf (.packetTransit i p) = true) ∧ (takeArrival p s = t) ∧ (turned t p i = (q, c)) ∧ (nextHop t q c = .port j d) ∧
      (hopCode t (i / 2) (.port j d) q ≠ 0)) ∧
    (∃ (j : Nat) (s : State), (((port s j).state ≠ .training ∨ (port s j).retraining = true))) ∧
    (∃ (j : Nat) (s : State), ((port s j).state = .training) ∧ ((port s j).retraining = false)) :=
  ⟨⟨0, sealPacket { address := 100, srcModule := 1, op := 1, cls := 1, data := [8, 0, 0, 0, 0, 0, 0, 0] }, twoWide [],
      (turned (takeArrival (sealPacket { address := 100, srcModule := 1, op := 1, cls := 1, data := [8, 0, 0, 0, 0, 0, 0, 0] }) (twoWide [])) (sealPacket { address := 100, srcModule := 1, op := 1, cls := 1, data := [8, 0, 0, 0, 0, 0, 0, 0] }) (0)).1,
      (turned (takeArrival (sealPacket { address := 100, srcModule := 1, op := 1, cls := 1, data := [8, 0, 0, 0, 0, 0, 0, 0] }) (twoWide [])) (sealPacket { address := 100, srcModule := 1, op := 1, cls := 1, data := [8, 0, 0, 0, 0, 0, 0, 0] }) (0)).2,
      _, by decide +kernel, rfl,
      by first | (with_reducible exact (Option.some_get _).symm) | (with_reducible exact Prod.ext (Option.some_get _).symm rfl) | decide +kernel,
      by decide +kernel⟩,
   ⟨2, sealPacket { address := 100, srcModule := 1, op := 1, cls := 1, data := [8, 0, 0, 0, 0, 0, 0, 0] },
      { twoWide [] with life := { up.life with faultUnits := [coordOf 0 0 4 2 4] } },
      (turned (takeArrival (sealPacket { address := 100, srcModule := 1, op := 1, cls := 1, data := [8, 0, 0, 0, 0, 0, 0, 0] }) ({ twoWide [] with life := { up.life with faultUnits := [coordOf 0 0 4 2 4] } })) (sealPacket { address := 100, srcModule := 1, op := 1, cls := 1, data := [8, 0, 0, 0, 0, 0, 0, 0] }) (2)).1,
      (turned (takeArrival (sealPacket { address := 100, srcModule := 1, op := 1, cls := 1, data := [8, 0, 0, 0, 0, 0, 0, 0] }) ({ twoWide [] with life := { up.life with faultUnits := [coordOf 0 0 4 2 4] } })) (sealPacket { address := 100, srcModule := 1, op := 1, cls := 1, data := [8, 0, 0, 0, 0, 0, 0, 0] }) (2)).2,
      _, by decide +kernel, rfl,
      by first | (with_reducible exact (Option.some_get _).symm) | (with_reducible exact Prod.ext (Option.some_get _).symm rfl) | decide +kernel,
      by decide +kernel⟩,
   ⟨2, sealPacket { address := memGlobal 1 0 100, srcModule := 0, op := 1, cls := 1, data := [8, 0, 0, 0, 0, 0, 0, 0] },
      twoWide [(0, { state := .up, level := 2 }), (2, twoPort { state := .up })],
      (turned (takeArrival (sealPacket { address := memGlobal 1 0 100, srcModule := 0, op := 1, cls := 1, data := [8, 0, 0, 0, 0, 0, 0, 0] }) (twoWide [(0,
      { state := .up, level := 2 }), (2,
      twoPort { state := .up })])) (sealPacket { address := memGlobal 1 0 100, srcModule := 0, op := 1, cls := 1, data := [8, 0, 0, 0, 0, 0, 0, 0] }) (2)).1,
      (turned (takeArrival (sealPacket { address := memGlobal 1 0 100, srcModule := 0, op := 1, cls := 1, data := [8, 0, 0, 0, 0, 0, 0, 0] }) (twoWide [(0,
      { state := .up, level := 2 }), (2,
      twoPort { state := .up })])) (sealPacket { address := memGlobal 1 0 100, srcModule := 0, op := 1, cls := 1, data := [8, 0, 0, 0, 0, 0, 0, 0] }) (2)).2,
      _, 0, false, _, by decide +kernel, rfl,
      by first | (with_reducible exact (Option.some_get _).symm) | (with_reducible exact Prod.ext (Option.some_get _).symm rfl) | decide +kernel,
      by decide +kernel, by decide +kernel, rfl, by decide +kernel⟩,
   ⟨2, sealPacket { address := memGlobal 1 0 100, srcModule := 0, op := 1, cls := 1, data := [8, 0, 0, 0, 0, 0, 0, 0] },
      twoWide [(0, { state := .down }), (2, twoPort { state := .up })],
      (turned (takeArrival (sealPacket { address := memGlobal 1 0 100, srcModule := 0, op := 1, cls := 1, data := [8, 0, 0, 0, 0, 0, 0, 0] }) (twoWide [(0,
      { state := .down }), (2,
      twoPort { state := .up })])) (sealPacket { address := memGlobal 1 0 100, srcModule := 0, op := 1, cls := 1, data := [8, 0, 0, 0, 0, 0, 0, 0] }) (2)).1,
      (turned (takeArrival (sealPacket { address := memGlobal 1 0 100, srcModule := 0, op := 1, cls := 1, data := [8, 0, 0, 0, 0, 0, 0, 0] }) (twoWide [(0,
      { state := .down }), (2,
      twoPort { state := .up })])) (sealPacket { address := memGlobal 1 0 100, srcModule := 0, op := 1, cls := 1, data := [8, 0, 0, 0, 0, 0, 0, 0] }) (2)).2,
      _, 0, false, by decide +kernel, rfl,
      by first | (with_reducible exact (Option.some_get _).symm) | (with_reducible exact Prod.ext (Option.some_get _).symm rfl) | decide +kernel,
      by decide +kernel⟩,
   ⟨0, up, by decide +kernel⟩,
   ⟨0, twoWide [(0, { state := .training })], by decide +kernel⟩⟩

theorem test_meets_OneSidedOperations :
    (∃ (p : Packet) (s : State) (us : List Upset), (serves s = true) ∧ (gModule p.address = myNumber s) ∧
      (endCheckGood p = true) ∧ (Instr.wf (.read p us) = true) ∧ (us = []) ∧ (let n := p.data.length; n = 8) ∧
      (1 ≤ leNat p.data) ∧ (leNat p.data ≤ 4096) ∧
      (let s₀ := count E.PACKETS_DELIVERED (takeArrival p s); rangeRefusal s₀ (gOff p.address) (leNat p.data) 0x080E = 0) ∧
      (let s₀ := count E.PACKETS_DELIVERED (takeArrival p s); readRefusal s₀ (gOff p.address) (leNat p.data) = 0)) ∧
    (∃ (p : Packet) (s : State), (serves s = true) ∧ (gModule p.address = myNumber s) ∧ (endCheckGood p = true) ∧
      (Instr.wf (.write p) = true) ∧ (let n := p.data.length; 1 ≤ n) ∧
      (let s₀ := count E.PACKETS_DELIVERED (takeArrival p s); let n := p.data.length; rangeRefusal s₀ (gOff p.address) n 0x080E = 0) ∧
      (let s₀ := count E.PACKETS_DELIVERED (takeArrival p s); let n := p.data.length; writeRefusal s₀ (gDie p.address) (gOff p.address) n = 0)) ∧
    (∃ (p : Packet) (s : State), (serves s = true) ∧ (gModule p.address = myNumber s) ∧ (endCheckGood p = true) ∧
      (Instr.wf (.poisonedWrite p) = true) ∧
      (let s₀ := count E.PACKETS_DELIVERED (takeArrival p s); let fresh := findDup s₀ p (gDie p.address) = none ∧ dupEntries s₀ (gDie p.address) < 16384; fresh) ∧
      (let n := p.data.length; 1 ≤ n) ∧
      (let s₀ := count E.PACKETS_DELIVERED (takeArrival p s); let n := p.data.length; rangeRefusal s₀ (gOff p.address) n 0x080E = 0) ∧
      (let s₀ := count E.PACKETS_DELIVERED (takeArrival p s); let n := p.data.length; writeRefusal s₀ (gDie p.address) (gOff p.address) n = 0)) ∧
    (∃ (p : Packet) (s : State), (serves s = true) ∧ (gModule p.address = myNumber s) ∧ (endCheckGood p = true) ∧
      (Instr.wf (.atomicAdd p) = true) ∧
      (let s₀ := count E.PACKETS_DELIVERED (takeArrival p s); let fresh := findDup s₀ p (gDie p.address) = none ∧ dupEntries s₀ (gDie p.address) < 16384; fresh) ∧
      (let n := p.data.length; n = 8) ∧ (gOff p.address % 8 = 0) ∧
      (let s₀ := count E.PACKETS_DELIVERED (takeArrival p s); rangeRefusal s₀ (gOff p.address) 8 0x080E = 0) ∧
      (let s₀ := count E.PACKETS_DELIVERED (takeArrival p s); writeRefusal s₀ (gDie p.address) (gOff p.address) 8 = 0)) ∧
    (∃ (p : Packet) (s : State), (serves s = true) ∧ (gModule p.address = myNumber s) ∧ (endCheckGood p = true) ∧
      (Instr.wf (.fabricPegSignal p) = true) ∧
      (let s₀ := count E.PACKETS_DELIVERED (takeArrival p s); let fresh := findDup s₀ p (gDie p.address) = none ∧ dupEntries s₀ (gDie p.address) < 16384; fresh) ∧
      (let s₀ := count E.PACKETS_DELIVERED (takeArrival p s); pegOpRefusal s₀ p = 0) ∧
      (let s₀ := count E.PACKETS_DELIVERED (takeArrival p s); isRidgePeg (gDie p.address) ((spotOf s₀ (gOff p.address)).off / 64) = false)) :=
  ⟨⟨pkt 1 100 [0, 0x10, 0, 0, 0, 0, 0, 0], up, [], by decide +kernel⟩,
   ⟨pkt 2 100 (zeros 64), up, by decide +kernel⟩,
   ⟨sealPacket { address := 100, srcModule := 1, op := 0x19, cls := 1, data := [7] }, up, by decide +kernel⟩,
   ⟨pkt 3 104 [7, 0, 0, 0, 0, 0, 0, 0], up, by decide +kernel⟩,
   ⟨pkt 4 (pegBase + 64 * 7) [7, 0, 0, 0, 0, 0, 0, 0], up, by decide +kernel⟩⟩

theorem test_meets_RequestsAndFragments :
    (∃ (die : Nat) (p : Packet) (r : Req) (q : Nat) (i : Nat) (s : State),
      (Instr.wf (.responseReceive (.fabric die p)) = true) ∧ (isRequest p = false) ∧ (endCheckGood p = true) ∧
      (p.poison = false) ∧ (p.status = 0) ∧ (findReq (takeArrival p s) die p.tag = some r) ∧ (p.op = r.packet.op + 128) ∧
      (r.origin = .command q i)) ∧
    (∃ (die : Nat) (tag : Nat) (r : Req) (q : Nat) (i : Nat) (s : State),
      (Instr.wf (.fabricRequestTimeout false die tag) = true) ∧ (findReq s die tag = some r) ∧ (r.backoff = false) ∧
      (r.origin = .command q i) ∧ (r.resends < setting (count E.REQUEST_TIMEOUTS s) E.FABRIC_RETRY_LIMIT)) ∧
    (∃ (die : Nat) (tag : Nat) (r : Req) (q : Nat) (i : Nat) (s : State),
      (Instr.wf (.fabricRequestTimeout false die tag) = true) ∧ (findReq s die tag = some r) ∧ (r.backoff = false) ∧
      (r.origin = .command q i) ∧ (setting (count E.REQUEST_TIMEOUTS s) E.FABRIC_RETRY_LIMIT ≤ r.resends)) ∧
    (∃ (die : Nat) (tag : Nat) (r : Req) (s : State), (Instr.wf (.retryBackoffExpiry (.request die tag)) = true) ∧
      (findReq s die tag = some r) ∧ (r.backoff = true)) ∧
    (∃ (die : Nat) (src : Nat) (sd : Nat) (tag : Nat), (Instr.wf (.dupFilterEntryExpiry die src sd tag) = true)) ∧
    (∃ (p : Packet) (s : State), (Instr.wf (.messageFragmentReceive p) = true) ∧ (serves s = true) ∧
      (gModule p.address = myNumber s) ∧ (endCheckGood p = true) ∧
      (let s₀ := count E.PACKETS_DELIVERED (takeArrival p s); findDup s₀ p (gDie p.address) = none) ∧
      (let s₀ := count E.PACKETS_DELIVERED (takeArrival p s); dupEntries s₀ (gDie p.address) < 16384) ∧
      (s.twin.state ≠ .copyTarget) ∧ (fragOffset p = 0) ∧ (bitAt (preFlags p) 0 = true) ∧ (bitAt (preFlags p) 1 = false) ∧
      (let s₀ := count E.PACKETS_DELIVERED (takeArrival p s); misdirected s₀ p = false) ∧ (fragmentShape p = true) ∧
      (let s₀ := count E.PACKETS_DELIVERED (takeArrival p s); findAssembly s₀ p = none)) :=
  ⟨⟨3, sealPacket { op := 130, tag := 65535, cls := 2 },
      { die := 3, tag := 65535, packet := pkt 2 100 [7], origin := .command 63 9, resends := 0, later := 0, backoff := false },
      63, 9,
      { up with fabric := { up.fabric with reqs := [{ die := 3, tag := 65535, packet := pkt 2 100 [7], origin := .command 63 9, resends := 0, later := 0, backoff := false }] } },
      by decide +kernel⟩,
   ⟨3, 65535,
      { die := 3, tag := 65535, packet := pkt 2 100 [7], origin := .command 63 9, resends := 0, later := 0, backoff := false },
      63, 9,
      { up with fabric := { up.fabric with reqs := [{ die := 3, tag := 65535, packet := pkt 2 100 [7], origin := .command 63 9, resends := 0, later := 0, backoff := false }] } },
      by decide +kernel⟩,
   ⟨3, 65535,
      { die := 3, tag := 65535, packet := pkt 2 100 [7], origin := .command 63 9, resends := 255, later := 0, backoff := false },
      63, 9,
      { up with fabric := { up.fabric with reqs := [{ die := 3, tag := 65535, packet := pkt 2 100 [7], origin := .command 63 9, resends := 255, later := 0, backoff := false }] } },
      by decide +kernel⟩,
   ⟨3, 65535,
      { die := 3, tag := 65535, packet := pkt 2 100 [7], origin := .command 63 9, resends := 0, later := 0, backoff := true },
      { up with fabric := { up.fabric with reqs := [{ die := 3, tag := 65535, packet := pkt 2 100 [7], origin := .command 63 9, resends := 0, later := 0, backoff := true }] } },
      by decide +kernel⟩,
   ⟨3, 8191, 3, 65535, by decide +kernel⟩,
   ⟨sealPacket { address := 2 ^ 41, srcModule := 1, op := 0x12, cls := 0, data := natLe 4 9 ++ natLe 4 64 ++ [1, 0, 0, 0] ++ natLe 4 5 ++ zeros 64 },
      member 5, by decide +kernel⟩⟩

theorem test_meets_CausesAndConfiguration :
    (∃ (m : Nat), (Instr.wf (.causeClear m) = true)) ∧
    (∃ (d : Bool) (s : State), ((d = false ∨ s.host.d3hot = true))) ∧
    (∃ (s : State), (s.host.d3hot = false)) ∧
    (∃ (o : Nat) (n : Nat) (v : Nat), (Instr.wf (.registerWrite (.bar0 o n v)) = true) ∧ (((n ≠ 4 ∧ n ≠ 8) ∨ o % n ≠ 0))) ∧
    (∃ (o : Nat) (n : Nat), (((n ≠ 4 ∧ n ≠ 8) ∨ o % n ≠ 0))) :=
  ⟨⟨2 ^ 32 - 1, by decide +kernel⟩,
   ⟨true, { up with host := { up.host with d3hot := true } }, by decide +kernel⟩,
   ⟨up, by decide +kernel⟩,
   ⟨12, 8, 5, by decide +kernel⟩,
   ⟨3, 2, by decide +kernel⟩⟩

theorem test_meets_WindowAccesses :
    (∃ (o : Nat) (n : Nat) (a : Nat) (s : State) (v : (Bytes × Bool) × State), (Instr.wf (.bar2Read o n) = true) ∧
      (serves s = true) ∧ (windowAddr s o = a) ∧ (readRefusal s (addrOff a) n = 0) ∧ (accessRead a n s = v)) ∧
    (∃ (o : Nat) (n : Nat) (a : Nat) (s : State), (Instr.wf (.bar2Read o n) = true) ∧ (serves s = true) ∧ (windowAddr s o = a) ∧
      (readRefusal s (addrOff a) n ≠ 0)) ∧
    (∃ (o : Nat) (b : Bytes) (x : Bool) (a : Nat) (s : State), (Instr.wf (.bar2Write o b x) = true) ∧ (serves s = true) ∧
      (windowAddr s o = a) ∧ (writeRefusal s (addrDie a) (addrOff a) b.length = 0)) ∧
    (∃ (o : Nat) (b : Bytes) (x : Bool) (a : Nat) (s : State), (Instr.wf (.bar2Write o b x) = true) ∧ (serves s = true) ∧
      (windowAddr s o = a) ∧ (writeRefusal s (addrDie a) (addrOff a) b.length ≠ 0)) :=
  ⟨⟨100, 8, _, writeRange 107 [1] true up, _, by decide +kernel, by decide +kernel, rfl, by decide +kernel, rfl⟩,
   ⟨0, 8, _, { up with host := { up.host with windowGib := 2047 } }, by decide +kernel, by decide +kernel, rfl,
      by decide +kernel⟩,
   ⟨100, [1, 2], true, _, up, by decide +kernel, by decide +kernel, rfl, by decide +kernel⟩,
   ⟨0, [1, 2], false, _, { up with host := { up.host with windowGib := 2047 } }, by decide +kernel, by decide +kernel, rfl,
      by decide +kernel⟩⟩

theorem test_meets_IntakeRings :
    (∃ (r : Nat) (s : State), (Instr.wf (.ringEnable r) = true) ∧ (serves s = true) ∧ ((ring s r).enable = false) ∧
      (ringConfigOk s r = true)) ∧
    (∃ (r : Nat) (s : State), (Instr.wf (.ringEnable r) = true) ∧ (serves s = true) ∧ ((ring s r).enable = false) ∧
      (ringConfigOk s r = false)) ∧
    (∃ (r : Nat), (Instr.wf (.ringDisable r) = true)) ∧
    (∃ (q : Nat) (o : Nat) (b : Bytes) (y : Bool) (r : Nat) (x : Nat) (g : Ring) (s : State),
      (Instr.wf (.intakeWindowWrite q o b y) = true) ∧ (serves s = true) ∧ (windowRing s o b.length = some (r, x)) ∧
      (ring s r = g) ∧ (g.kind ≠ .outlet) ∧ ((g.reqFilter = false ∨ q = g.requester)) ∧
      (writeRefusal s (addrDie (g.backing + x)) (addrOff (g.backing + x)) b.length = 0)) ∧
    (∃ (q : Nat) (o : Nat) (b : Bytes) (y : Bool) (r : Nat) (x : Nat) (g : Ring) (s : State),
      (Instr.wf (.intakeWindowWrite q o b y) = true) ∧ (serves s = true) ∧ (windowRing s o b.length = some (r, x)) ∧
      (ring s r = g) ∧ (g.kind ≠ .outlet) ∧ ((g.reqFilter = false ∨ q = g.requester)) ∧
      (writeRefusal s (addrDie (g.backing + x)) (addrOff (g.backing + x)) b.length ≠ 0)) ∧
    (∃ (q : Nat) (o : Nat) (b : Bytes) (y : Bool) (r : Nat) (x : Nat) (g : Ring) (s : State),
      (Instr.wf (.intakeWindowWrite q o b y) = true) ∧ (serves s = true) ∧ (windowRing s o b.length = some (r, x)) ∧
      (ring s r = g) ∧ (g.kind = .outlet ∨ (g.reqFilter = true ∧ q ≠ g.requester))) ∧
    (∃ (q : Nat) (o : Nat) (b : Bytes) (y : Bool) (s : State), (Instr.wf (.intakeWindowWrite q o b y) = true) ∧
      (serves s = true) ∧ (windowRing s o b.length = none)) ∧
    (∃ (o : Nat) (n : Nat) (r : Nat) (x : Nat) (g : Ring) (s : State) (v : (Bytes × Bool) × State),
      (Instr.wf (.exportWindowRead o n) = true) ∧ (0x100000 ≤ o) ∧ (serves s = true) ∧ (windowRing s o n = some (r, x)) ∧
      (ring s r = g) ∧ (g.kind = .outlet) ∧ (readRefusal s (addrOff (g.backing + x)) n = 0) ∧
      (readRange (g.backing + x) n s = v)) ∧
    (∃ (o : Nat) (n : Nat) (r : Nat) (x : Nat) (g : Ring) (s : State), (Instr.wf (.exportWindowRead o n) = true) ∧
      (0x100000 ≤ o) ∧ (serves s = true) ∧ (windowRing s o n = some (r, x)) ∧ (ring s r = g) ∧ (g.kind ≠ .outlet)) ∧
    (∃ (r : Nat) (v : Nat) (s : State), (Instr.wf (.intakeProducerWrite r 8 v) = true) ∧ (serves s = true) ∧
      ((ring s r).state = .active) ∧ (((ring s r).kind = .batch ∨ (ring s r).kind = .gradient)) ∧ (v % 64 = 0) ∧
      ((ring s r).producer ≤ v) ∧ (v ≤ (ring s r).consumer + (ring s r).apertureBytes)) ∧
    (∃ (r : Nat) (v : Nat) (s : State), (Instr.wf (.intakeProducerWrite r 8 v) = true) ∧ (serves s = true) ∧
      ((ring s r).state = .active) ∧ (((ring s r).kind = .batch ∨ (ring s r).kind = .gradient)) ∧
      (v % 64 ≠ 0 ∨ v < (ring s r).producer ∨ (ring s r).consumer + (ring s r).apertureBytes < v)) ∧
    (∃ (r : Nat) (n : Nat) (v : Nat) (s : State), (Instr.wf (.intakeProducerWrite r n v) = true) ∧ (serves s = true) ∧
      ((ring s r).state = .active) ∧ (((ring s r).kind = .batch ∨ (ring s r).kind = .gradient)) ∧ (n ≠ 8)) ∧
    (∃ (r : Nat) (n : Nat) (v : Nat) (s : State), (Instr.wf (.intakeProducerWrite r n v) = true) ∧ (serves s = false)) ∧
    (∃ (r : Nat) (v : Nat) (s : State), (Instr.wf (.consumedStepWrite r v) = true) ∧ (serves s = true) ∧
      ((ring s r).state = .active) ∧ ((ring s r).kind = .outlet) ∧ ((ring s r).consumedStep < v)) :=
  ⟨⟨0, upRing { kind := .batch, enable := false, tableSet := 3, apertureOffset := 0x100000, apertureBytes := 0x100000, backing := 0x40000 }, by decide +kernel⟩,
   ⟨0, up, by decide +kernel⟩,
   ⟨63, by decide +kernel⟩,
   ⟨9, 0x100000 + 0xFFFF8, [1, 2, 3, 4, 5, 6, 7, 8], true, 0, 0xFFFF8, _,
      upRing { kind := .batch, enable := true, tableSet := 3, apertureOffset := 0x100000, apertureBytes := 0x100000, backing := 0x40000, state := .active },
      by decide +kernel, by decide +kernel, by decide +kernel, rfl, by decide +kernel⟩,
   ⟨9, 0x100000, [1], false, 0, 0, _,
      upRing { kind := .batch, enable := true, tableSet := 3, apertureOffset := 0x100000, apertureBytes := 0x100000, backing := pegBase, state := .active },
      by decide +kernel, by decide +kernel, by decide +kernel, rfl, by decide +kernel⟩,
   ⟨9, 0x100000, [1], false, 0, 0, _,
      upRing { kind := .batch, enable := true, tableSet := 3, apertureOffset := 0x100000, apertureBytes := 0x100000, backing := 0x40000, state := .active, reqFilter := true, requester := 8 },
      by decide +kernel, by decide +kernel, by decide +kernel, rfl, by decide +kernel⟩,
   ⟨9, 0x100000, [1], false, up, by decide +kernel⟩,
   ⟨0x100000 + 0xFFFF8, 8, 0, 0xFFFF8, _,
      upRing { kind := .outlet, enable := true, tableSet := 3, apertureOffset := 0x100000, apertureBytes := 0x100000, backing := 0x40000, state := .active },
      _, by decide +kernel, by decide +kernel, by decide +kernel, by decide +kernel, rfl, by decide +kernel, by decide +kernel,
      rfl⟩,
   ⟨0x100000 + 0xFFFF8, 8, 0, 0xFFFF8, _,
      upRing { kind := .batch, enable := true, tableSet := 3, apertureOffset := 0x100000, apertureBytes := 0x100000, backing := 0x40000, state := .active },
      by decide +kernel, by decide +kernel, by decide +kernel, by decide +kernel, rfl, by decide +kernel⟩,
   ⟨0, 0x100000,
      upRing { kind := .gradient, enable := true, tableSet := 3, apertureOffset := 0x100000, apertureBytes := 0x100000, backing := 0x40000, state := .active, producer := 64 },
      by decide +kernel⟩,
   ⟨0, 64 + 0x100000,
      upRing { kind := .gradient, enable := true, tableSet := 3, apertureOffset := 0x100000, apertureBytes := 0x100000, backing := 0x40000, state := .active, producer := 64 },
      by decide +kernel⟩,
   ⟨0, 4, 64,
      upRing { kind := .gradient, enable := true, tableSet := 3, apertureOffset := 0x100000, apertureBytes := 0x100000, backing := 0x40000, state := .active },
      by decide +kernel⟩,
   ⟨63, 8, 64, State.reset, by decide +kernel⟩,
   ⟨0, 3,
      upRing { kind := .outlet, enable := true, tableSet := 3, apertureOffset := 0x100000, apertureBytes := 0x100000, backing := 0x40000, state := .active, consumedStep := 2 },
      by decide +kernel⟩⟩

theorem test_meets_FeedExport :
    (∃ (t : Nat) (bt : Batch) (f : FeedBinding) (b : PoolBinding) (s : State), (Instr.wf (.feedExportPublish t) = true) ∧
      (serves s = true) ∧ (batchOf s t (curStep s) = some bt) ∧ (bt.home = true) ∧ (feedBinding s t (curStep s) = some f) ∧
      (poolBinding s t (curStep s) = some b) ∧ (f.exportEn = true) ∧ (outputsDone s bt = true) ∧
      ((s.step.published.any fun p => p.1 == t && p.2.1 == curStep s) = false) ∧
      (let g := ring s f.exportRing; let a := b.outAddr + curStep s % b.slots * b.slotBytes; g.backing ≤ a) ∧
      (let g := ring s f.exportRing; let a := b.outAddr + curStep s % b.slots * b.slotBytes; a + b.slotBytes ≤ g.backing + g.apertureBytes) ∧
      (let g := ring s f.exportRing; g.state = .active)) ∧
    (∃ (t : Nat) (bt : Batch) (f : FeedBinding) (b : PoolBinding) (s : State), (Instr.wf (.feedExportPublish t) = true) ∧
      (serves s = true) ∧ (batchOf s t (curStep s) = some bt) ∧ (bt.home = true) ∧ (feedBinding s t (curStep s) = some f) ∧
      (poolBinding s t (curStep s) = some b) ∧ (f.exportEn = true) ∧ (outputsDone s bt = true) ∧
      ((s.step.published.any fun p => p.1 == t && p.2.1 == curStep s) = false) ∧
      (let g := ring s f.exportRing; let a := b.outAddr + curStep s % b.slots * b.slotBytes; a < g.backing ∨ g.backing + g.apertureBytes < a + b.slotBytes)) :=
  ⟨⟨3, batch0, feed0, pool0, feeding { state := .active, kind := .outlet, backing := 5120, apertureBytes := 1024 },
      by decide +kernel⟩,
   ⟨3, batch0, feed0, pool0, feeding { state := .active, kind := .outlet, backing := 5120, apertureBytes := 1023 },
      by decide +kernel⟩⟩

theorem test_meets_Mailbox :
    (∃ (s : State), (s.lantern.serving = true) ∧ (s.life.recovery = false) ∧ (s.lantern.mbxBusy = false) ∧
      (let r := mailboxAnswer (count E.MAILBOX_REQUESTS (setLantern { s.lantern with mbxBusy := true, mbxDone := false } s)); r.2.2.lantern.mbxBusy = true)) ∧
    (∃ (s : State), (s.lantern.serving = true) ∧ (s.life.recovery = false) ∧ (s.lantern.mbxBusy = false) ∧
      (let r := mailboxAnswer (count E.MAILBOX_REQUESTS (setLantern { s.lantern with mbxBusy := true, mbxDone := false } s)); r.2.2.lantern.mbxBusy = false)) ∧
    (∃ (s : State), (s.lantern.serving = true) ∧ (s.life.recovery = false) ∧ (s.lantern.mbxBusy = true)) :=
  ⟨⟨up, by decide +kernel⟩,
   ⟨{ up with lantern := { up.lantern with mbxReqBytes := 40, mbxReq := sputs none [] 0 (([1, 0, 0, 1] ++ zeros 20 ++ [2, BitVec.ofNat 8 E.POWER_STATE_REQUEST] ++ natLe 2 (E.POWER_STATE_REQUEST / 256) ++ [0, 0, 0, 0, 1, 0, 0, 0] ++ [3, 0, 0, 0]).map some) } },
      by decide +kernel⟩,
   ⟨{ up with lantern := { up.lantern with mbxBusy := true } }, by decide +kernel⟩⟩

theorem test_meets_HostLoss :
    (∃ (s : State), (s.host.linkL0 = true)) ∧
    (∃ (s : State), (s.host.linkL0 = false) ∧ (s.host.perst = false) ∧ (s.host.lossTimer = true)) ∧
    (∃ (s : State), (s.host.lossTimer = true)) ∧
    (∃ (s : State), (endpointReady s = true)) ∧
    (∃ (s : State), (endpointReady s = true) ∧ (s.host.linkL0 = false)) ∧
    (∃ (q : Nat) (s : State), (q < 64) ∧ ((queue s q).state ≠ .disabled) ∧ (hostRings (queue s q) = true) ∧
      ((queue s q).disabling = false)) ∧
    (∃ (q : Nat) (s : State), (hostRings (queue s q) = false)) :=
  ⟨⟨up, by decide +kernel⟩,
   ⟨{ up with host := { up.host with linkL0 := false, lossTimer := true } }, by decide +kernel⟩,
   ⟨{ up with host := { up.host with lossTimer := true } }, by decide +kernel⟩,
   ⟨up, by decide +kernel⟩,
   ⟨{ up with host := { up.host with linkL0 := false } }, by decide +kernel⟩,
   ⟨63, { up with host := { up.host with queues := [(63, running)] } }, by decide +kernel⟩,
   ⟨63, { up with host := { up.host with queues := [(63, { running with sqInDevice := true, cqInDevice := true })] } },
      by decide +kernel⟩⟩

theorem test_meets_CommandFetching :
    (∃ (q : Nat) (r : Rec64) (s : State), (Instr.wf (.commandFetch q (.record r)) = true) ∧ (fetchable s (queue s q) = true) ∧
      ((queue s q).recheck = none) ∧ ((queue s q).sqInDevice = false) ∧ (descriptorGood r q (queue s q).sqFetched = true)) ∧
    (∃ (q : Nat) (r : Rec64) (s : State), (Instr.wf (.commandFetch q (.record r)) = true) ∧ (fetchable s (queue s q) = true) ∧
      ((queue s q).recheck = none) ∧ ((queue s q).sqInDevice = false) ∧ (descriptorGood r q (queue s q).sqFetched = false)) ∧
    (∃ (q : Nat) (i : Nat) (n : Nat) (r : Rec64) (s : State), (Instr.wf (.descriptorRecheckExpiry q (.record r)) = true) ∧
      ((queue s q).recheck = some (i, n)) ∧ (s.host.linkL0 = true) ∧ (mayRead s (queue s q) = true) ∧
      ((queue s q).sqInDevice = false) ∧ (descriptorGood r q i = true)) ∧
    (∃ (q : Nat) (i : Nat) (n : Nat) (r : Rec64) (s : State), (Instr.wf (.descriptorRecheckExpiry q (.record r)) = true) ∧
      ((queue s q).recheck = some (i, n)) ∧ (s.host.linkL0 = true) ∧ (mayRead s (queue s q) = true) ∧
      ((queue s q).sqInDevice = false) ∧ (descriptorGood r q i = false) ∧ (n + 1 < 4)) ∧
    (∃ (q : Nat) (i : Nat) (n : Nat) (r : Rec64) (s : State), (Instr.wf (.descriptorRecheckExpiry q (.record r)) = true) ∧
      ((queue s q).recheck = some (i, n)) ∧ (s.host.linkL0 = true) ∧ (mayRead s (queue s q) = true) ∧
      ((queue s q).sqInDevice = false) ∧ (descriptorGood r q i = false) ∧ (4 ≤ n + 1)) ∧
    (∃ (q : Nat) (x : HostReply) (s : State), (Instr.wf (.descriptorRecheckExpiry q x) = true) ∧ (s.host.linkL0 = false)) ∧
    (∃ (q : Nat) (s : State), (Instr.wf (.pcieCompletionTimeout q) = true) ∧ (s.host.linkL0 = true) ∧
      ((queue s q).flushing = false) ∧ ((queue s q).recheck = none) ∧ (fetchable s (queue s q) = true) ∧
      ((queue s q).sqInDevice = false)) :=
  ⟨⟨0, recordFor 3 0 [], upQueue running, by decide +kernel⟩,
   ⟨0, recordFor 4 0 [], upQueue running, by decide +kernel⟩,
   ⟨0, 3, 2, recordFor 3 0 [], upQueue { running with recheck := some (3, 2) }, by decide +kernel⟩,
   ⟨0, 3, 2, recordFor 4 0 [], upQueue { running with recheck := some (3, 2) }, by decide +kernel⟩,
   ⟨0, 3, 3, recordFor 4 0 [], upQueue { running with recheck := some (3, 3) }, by decide +kernel⟩,
   ⟨0, .record (record 0 []), { up with host := { up.host with linkL0 := false } }, by decide +kernel⟩,
   ⟨0, upQueue running, by decide +kernel⟩⟩

theorem test_meets_CommandStarts :
    (∃ (q : Nat) (i : Nat) (c : Cmd) (cs : List Cmd) (s : State), (Instr.wf (.commandStart q i) = true) ∧
      (unstarted (queue s q) = c :: cs) ∧ (c.index = i) ∧ (c.phase = .fetched) ∧ (queueStarts s (queue s q) = true) ∧
      (fenced (queue s q) c = false) ∧ (waitEn c.record = false) ∧ (heldBack s q c.record = false) ∧
      (startCode (setPhase q i .running s) c.record = 0)) ∧
    (∃ (q : Nat) (i : Nat) (c : Cmd) (cs : List Cmd) (s : State), (Instr.wf (.commandStart q i) = true) ∧
      (unstarted (queue s q) = c :: cs) ∧ (c.index = i) ∧ (c.phase = .fetched) ∧ (queueStarts s (queue s q) = true) ∧
      (fenced (queue s q) c = false) ∧ (waitEn c.record = false) ∧ (heldBack s q c.record = false) ∧
      (startCode (setPhase q i .running s) c.record ≠ 0) ∧ (opcodeOf c.record ≠ 0x50)) :=
  ⟨⟨0, 4, ({ index := 4, record := record 0 [], phase := .fetched } : Cmd), [],
      cmdIn ({ index := 4, record := record 0 [], phase := .fetched } : Cmd), by decide +kernel⟩,
   ⟨0, 4, ({ index := 4, record := record 0x10 [], phase := .fetched } : Cmd), [],
      cmdIn ({ index := 4, record := record 0x10 [], phase := .fetched } : Cmd), by decide +kernel⟩⟩

theorem test_meets_CommandCompletes :
    (∃ (q : Nat) (i : Nat) (c : Cmd) (d : Nat) (s : State), (Instr.wf (.commandComplete q i) = true) ∧
      (findCmd s q i = some c) ∧ (c.phase = .done 0 d false false) ∧ (signalEn c.record = false)) ∧
    (∃ (q : Nat) (i : Nat) (c : Cmd) (st : Nat) (d : Nat) (s : State), (Instr.wf (.commandComplete q i) = true) ∧
      (findCmd s q i = some c) ∧ (c.phase = .done st d false false) ∧ (succeeded st = false) ∧ (signalEn c.record = false) ∧
      (continueOnError c.record = false)) ∧
    (∃ (q : Nat) (s : State), (Instr.wf (.completionFlushDone q) = true) ∧ ((queue s q).flushing = true) ∧
      (mayMaster s = true)) ∧
    (∃ (q : Nat) (s : State), (Instr.wf (.intCoalesceExpiry q) = true) ∧ ((queue s q).coalescing = true) ∧
      ((queue s q).uncovered = true)) ∧
    (∃ (q : Nat) (s : State), (Instr.wf (.intCoalesceExpiry q) = true) ∧ ((queue s q).coalescing = true) ∧
      ((queue s q).uncovered = false)) :=
  ⟨⟨0, 4, ({ index := 4, record := record 0 [], phase := .done 0 9 false false } : Cmd), 9,
      cmdIn ({ index := 4, record := record 0 [], phase := .done 0 9 false false } : Cmd), by decide +kernel⟩,
   ⟨0, 4, ({ index := 4, record := record 0 [], phase := .done 0x202 9 false false } : Cmd), 0x202, 9,
      cmdIn ({ index := 4, record := record 0 [], phase := .done 0x202 9 false false } : Cmd), by decide +kernel⟩,
   ⟨0, upQueue { running with flushing := true }, by decide +kernel⟩,
   ⟨0, upQueue { running with coalescing := true, uncovered := true }, by decide +kernel⟩,
   ⟨0, upQueue { running with coalescing := true }, by decide +kernel⟩⟩

theorem test_meets_QueueRegisters :
    (∃ (q : Nat) (s : State), (Instr.wf (.queueEnable q) = true) ∧ ((queue s q).state = .disabled) ∧ (serves s = true) ∧
      (queueConfigOk s (queue s q) = true)) ∧
    (∃ (q : Nat) (s : State), (Instr.wf (.queueEnable q) = true) ∧ ((queue s q).state = .disabled) ∧ (serves s = true) ∧
      (queueConfigOk s (queue s q) = false)) ∧
    (∃ (q : Nat) (s : State), (Instr.wf (.queueEnable q) = true) ∧ ((queue s q).state = .disabled) ∧ (serves s = false)) ∧
    (∃ (q : Nat) (s : State), (Instr.wf (.queueEnable q) = true) ∧ ((queue s q).state ≠ .disabled)) ∧
    (∃ (q : Nat) (t : State) (s : State), (Instr.wf (.queueDisable q) = true) ∧ ((queue s q).state ≠ .disabled) ∧
      (discardUnstarted q s = t) ∧ ((queue t q).cmds.any isRunning = false)) ∧
    (∃ (q : Nat) (t : State) (s : State), (Instr.wf (.queueDisable q) = true) ∧ ((queue s q).state ≠ .disabled) ∧
      (discardUnstarted q s = t) ∧ ((queue t q).cmds.any isRunning = true)) ∧
    (∃ (q : Nat) (s : State), (Instr.wf (.queueRestart q) = true) ∧ ((queue s q).state = .stoppedError) ∧
      ((queue s q).disabling = false)) ∧
    (∃ (q : Nat) (s : State), (Instr.wf (.queueRestart q) = true) ∧ ((queue s q).state ≠ .stoppedError)) ∧
    (∃ (q : Nat) (i : Nat) (s : State), (Instr.wf (.doorbellSqProducer q i) = true) ∧ (serves s = true) ∧
      ((queue s q).state = .running) ∧ (mod32 i (queue s q).sqProducer < 2 ^ 31) ∧
      (mod32 i (queue s q).cqHead ≤ queueDepth (queue s q))) ∧
    (∃ (q : Nat) (i : Nat) (s : State), (Instr.wf (.doorbellSqProducer q i) = true) ∧
      (doorbellOpen s (queue s q) = false ∨ queueDepth (queue s q) < mod32 i (queue s q).cqHead)) ∧
    (∃ (q : Nat) (i : Nat) (s : State), (Instr.wf (.doorbellCqHead q i) = true) ∧ (doorbellOpen s (queue s q) = true) ∧
      (mod32 i (queue s q).cqHead ≤ mod32 (queue s q).cqProducer (queue s q).cqHead)) ∧
    (∃ (q : Nat) (i : Nat) (s : State), (Instr.wf (.doorbellCqHead q i) = true) ∧
      (doorbellOpen s (queue s q) = false ∨ mod32 (queue s q).cqProducer (queue s q).cqHead < mod32 i (queue s q).cqHead)) :=
  ⟨⟨63, up, by decide +kernel⟩,
   ⟨0, upQueue { depthLog2 := 5 }, by decide +kernel⟩,
   ⟨63, State.reset, by decide +kernel⟩,
   ⟨0, upQueue running, by decide +kernel⟩,
   ⟨0, _, upQueue running, by decide +kernel, by decide +kernel, rfl, by decide +kernel⟩,
   ⟨0, _, cmdIn ({ index := 4, record := record 0x50 [], phase := .running } : Cmd), by decide +kernel, by decide +kernel, rfl,
      by decide +kernel⟩,
   ⟨0, upQueue { running with state := .stoppedError }, by decide +kernel⟩,
   ⟨0, upQueue running, by decide +kernel⟩,
   ⟨0, 65, upQueue { running with sqProducer := 64 }, by decide +kernel⟩,
   ⟨0, 66, upQueue running, by decide +kernel⟩,
   ⟨0, 2, upQueue running, by decide +kernel⟩,
   ⟨0, 3, upQueue running, by decide +kernel⟩⟩

theorem test_meets_PegCommands :
    (∃ (q : Nat) (i : Nat) (r : Rec64) (s : State), (Instr.wf (.nop q i r) = true) ∧ (startable q i r s)) ∧
    (∃ (q : Nat) (i : Nat) (r : Rec64) (s : State), (Instr.wf (.pegSignal q i r) = true) ∧ (startable q i r s) ∧
      (pegSignalRefusal (begun q i r s) (rf r 319 256) = 0) ∧ (gModule (rf r 319 256) = myNumber s)) ∧
    (∃ (q : Nat) (i : Nat) (r : Rec64) (s : State), (Instr.wf (.pegSignal q i r) = true) ∧ (startable q i r s) ∧
      (pegSignalRefusal (begun q i r s) (rf r 319 256) = 0) ∧ (gModule (rf r 319 256) ≠ myNumber s)) ∧
    (∃ (q : Nat) (i : Nat) (r : Rec64) (c : Nat) (s : State), (Instr.wf (.pegSignal q i r) = true) ∧ (startable q i r s) ∧
      (pegSignalRefusal (begun q i r s) (rf r 319 256) = c) ∧ (c ≠ 0)) ∧
    (∃ (q : Nat) (i : Nat) (r : Rec64) (w : PegWaitRec) (s : State), (Instr.wf (.pegWait q i r) = true) ∧ (startable q i r s) ∧
      (w = ({ die := pegDie (rf r 143 128), peg := pegNum (rf r 143 128), target := BitVec.ofNat 64 (rf r 255 192), cls := rf r 145 144, queue := q, index := i, header := false } : PegWaitRec)) ∧
      (waitHolds (begun q i r s) w = true)) ∧
    (∃ (q : Nat) (i : Nat) (r : Rec64) (w : PegWaitRec) (s : State), (Instr.wf (.pegWait q i r) = true) ∧ (startable q i r s) ∧
      (w = ({ die := pegDie (rf r 143 128), peg := pegNum (rf r 143 128), target := BitVec.ofNat 64 (rf r 255 192), cls := rf r 145 144, queue := q, index := i, header := false } : PegWaitRec)) ∧
      (waitHolds (begun q i r s) w = false) ∧ ((s.pegs.waits.filter fun x => x.die == w.die).length < 256)) ∧
    (∃ (q : Nat) (i : Nat) (r : Rec64) (w : PegWaitRec) (s : State), (Instr.wf (.pegWait q i r) = true) ∧ (startable q i r s) ∧
      (w = ({ die := pegDie (rf r 143 128), peg := pegNum (rf r 143 128), target := BitVec.ofNat 64 (rf r 255 192), cls := rf r 145 144, queue := q, index := i, header := false } : PegWaitRec)) ∧
      (waitHolds (begun q i r s) w = false) ∧ (256 ≤ (s.pegs.waits.filter fun x => x.die == w.die).length)) ∧
    (∃ (q : Nat) (i : Nat) (r : Rec64) (die : Nat) (peg : Nat) (s : State), (Instr.wf (.pegSet q i r) = true) ∧
      (startable q i r s) ∧ (pegDie (rf r 143 128) = die) ∧ (pegNum (rf r 143 128) = peg) ∧ (isRidgePeg die peg = false) ∧
      ((s.pegs.waits.any fun w => w.die == die && w.peg == peg) = false)) ∧
    (∃ (q : Nat) (i : Nat) (r : Rec64) (die : Nat) (peg : Nat) (s : State), (Instr.wf (.pegSet q i r) = true) ∧
      (startable q i r s) ∧ (pegDie (rf r 143 128) = die) ∧ (pegNum (rf r 143 128) = peg) ∧ (isRidgePeg die peg = false) ∧
      ((s.pegs.waits.any fun w => w.die == die && w.peg == peg) = true)) ∧
    (∃ (q : Nat) (i : Nat) (r : Rec64) (die : Nat) (peg : Nat) (s : State), (Instr.wf (.pegSet q i r) = true) ∧
      (startable q i r s) ∧ (pegDie (rf r 143 128) = die) ∧ (pegNum (rf r 143 128) = peg) ∧ (isRidgePeg die peg = true)) ∧
    (∃ (die : Nat) (peg : Nat), (isRidgePeg die peg = false)) ∧
    (∃ (die : Nat) (peg : Nat) (die' : Nat) (peg' : Nat), (peg < 4096) ∧ (peg' < 4096) ∧ ((die', peg') ≠ (die, peg)) ∧
      (isRidgePeg die peg = false)) ∧
    (∃ (die : Nat) (peg : Nat) (inc : W64) (s : State) (w : PegWaitRec), (w ∈ (signalPeg die peg inc s).pegs.waits)) :=
  ⟨⟨0, 5, record 0 [], upQueue running, by decide +kernel⟩,
   ⟨0, 5, record 1 [(192, 1), (256, pegBase + 64 * 7)], upQueue running, by decide +kernel⟩,
   ⟨0, 5, record 1 [(192, 1), (256, memGlobal 1 3 (pegBase + 64 * 7))], { twoWide [] with host := (upQueue running).host },
      by decide +kernel⟩,
   ⟨0, 5, record 1 [(192, 1), (256, pegBase + 64 * 4095)], _, upQueue running, by decide +kernel, by decide +kernel, rfl,
      by decide +kernel⟩,
   ⟨0, 5, record 2 [(128, 7)], _, upQueue running, by decide +kernel, by decide +kernel, rfl, by decide +kernel⟩,
   ⟨0, 5, record 2 [(128, 7), (192, 1)], _, upQueue running, by decide +kernel, by decide +kernel, rfl, by decide +kernel⟩,
   ⟨0, 5, record 2 [(128, 7), (192, 1)], _,
      { upQueue running with pegs := { waits := List.replicate 256 { die := 0, peg := 1, target := 1, cls := 0, queue := 1, index := 0, header := false } } },
      by decide +kernel, by decide +kernel, rfl, by decide +kernel⟩,
   ⟨0, 5, record 3 [(128, 7), (192, 1)], 0, 7, upQueue running, by decide +kernel⟩,
   ⟨0, 5, record 3 [(128, 7), (192, 1)], 0, 7,
      { upQueue running with pegs := { waits := [{ die := 0, peg := 7, target := 1, cls := 0, queue := 1, index := 0, header := false }] } },
      by decide +kernel⟩,
   ⟨0, 5, record 3 [(128, 4095), (192, 1)], 0, 4095, upQueue running, by decide +kernel⟩,
   ⟨3, 4095, by decide +kernel⟩,
   ⟨0, 7, 3, 4095, by decide +kernel⟩,
   ⟨0, 7, 1,
      { up with pegs := { waits := [({ die := 0, peg := 8, target := 1, cls := 0, queue := 1, index := 0, header := false } : PegWaitRec)] } },
      ({ die := 0, peg := 8, target := 1, cls := 0, queue := 1, index := 0, header := false } : PegWaitRec), by decide +kernel⟩⟩

theorem test_meets_CopyCommands :
    (∃ (q : Nat) (i : Nat) (r : Rec64) (c : Copy) (t : State) (s : State), (Instr.wf (.dmaCopy q i r) = true) ∧
      (startable q i r s) ∧ (copyOf r = c) ∧ (begun q i r s = t) ∧ (copyRefusal t c = 0) ∧
      ((accessRead c.src c.n t).1.2 = false)) ∧
    (∃ (q : Nat) (i : Nat) (r : Rec64) (c : Copy) (t : State) (s : State), (Instr.wf (.dmaCopy q i r) = true) ∧
      (startable q i r s) ∧ (copyOf r = c) ∧ (begun q i r s = t) ∧ (copyRefusal t c = 0) ∧
      ((accessRead c.src c.n t).1.2 = true)) ∧
    (∃ (q : Nat) (i : Nat) (r : Rec64) (c : Copy) (t : State) (s : State), (Instr.wf (.dmaCopy q i r) = true) ∧
      (startable q i r s) ∧ (copyOf r = c) ∧ (begun q i r s = t) ∧ (copyRefusal t c ≠ 0)) ∧
    (∃ (q : Nat) (i : Nat) (r : Rec64) (c : Transpose) (t : State) (s : State), (Instr.wf (.dmaTranspose q i r) = true) ∧
      (startable q i r s) ∧ (transposeOf r = c) ∧ (begun q i r s = t) ∧ (transposeRefusal t c ≠ 0)) ∧
    (∃ (q : Nat) (i : Nat) (r : Rec64) (a : Tensor) (d : Tensor) (c : Transpose) (t : State) (s : State) (o : Operand × State) (p : List Piece × State) (w : Bool × State),
      (Instr.wf (.dmaTranspose q i r) = true) ∧ (startable q i r s) ∧ (transposeOf r = c) ∧ (begun q i r s = t) ∧
      (transposeRefusal t c = 0) ∧ (tensorOf t c.src = some a) ∧ (tensorOf t c.dst = some d) ∧ (loadOperand a t = o) ∧
      (p = (if a.format = d.format && d.format != 4 then (transposeCodes c o.1 d,
      o.2) else ((sourceBlocks c).zip (upto (sourceBlocks c).length)).foldl (fun acc b => transposeBlock c o.1 d (watchSlotOf t false 0 c.dst) (engineCoord t (nthD 0 (enginesOf c.mask) (b.2 % (enginesOf c.mask).length))) b.1.1 b.1.2 acc) ([],
      o.2))) ∧ (w = writePieces d p.1 (transposeMarks c o.1 d) p.2)) ∧
    (∃ (q : Nat) (i : Nat) (r : Rec64) (x : Tensor) (t : State) (s : State) (o : Operand × State) (u : State),
      (Instr.wf (.rucksackPush q i r) = true) ∧ (startable q i r s) ∧ (begun q i r s = t) ∧
      (tensorOf t (rf r 143 128) = some x) ∧
      (let g := rf r 163 160; let pages := ceilDiv (56 + tensorBytes x) pageBytes; pagesUsed t g + pages ≤ s.plan.rucksack * 4096) ∧
      (loadOperand x t = o) ∧
      (let g := rf r 163 160; let pages := ceilDiv (56 + tensorBytes x) pageBytes; u = writeMarked (ruckAddr t g (pagesUsed t g)) (frameHeader (rf r 159 144) x.number (curStep t) (tensorBytes x) (match (framesOf t g).getLast? with | some f => f.firstPage | none => 0xFFFFFFFF) ++ o.1.bytes ++ zeros (pages * pageBytes - 56 - tensorBytes x)) (if o.1.poison.any id then List.replicate 56 false ++ o.1.poison ++ List.replicate (pages * pageBytes - 56 - tensorBytes x) false else []) o.2)) ∧
    (∃ (q : Nat) (i : Nat) (r : Rec64) (x : Tensor) (t : State) (s : State), (Instr.wf (.rucksackPush q i r) = true) ∧
      (startable q i r s) ∧ (begun q i r s = t) ∧ (tensorOf t (rf r 143 128) = some x) ∧
      (let g := rf r 163 160; let pages := ceilDiv (56 + tensorBytes x) pageBytes; s.plan.rucksack * 4096 < pagesUsed t g + pages)) ∧
    (∃ (q : Nat) (i : Nat) (r : Rec64) (x : Tensor) (f : Frame) (t : State) (s : State) (v : (Bytes × Bool) × State) (u : State),
      (Instr.wf (.rucksackPop q i r) = true) ∧ (startable q i r s) ∧ (begun q i r s = t) ∧
      (tensorOf t (rf r 143 128) = some x) ∧ ((framesOf t (rf r 163 160)).getLast? = some f) ∧ (f.tag = rf r 159 144) ∧
      (f.bytes = tensorBytes x) ∧ (outputRefusal t x.addr f.bytes = 0) ∧
      (readRange (ruckAddr t (rf r 163 160) f.firstPage + 56) f.bytes t = v) ∧
      (u = writeMarked x.addr v.1.1 (if v.1.2 then poisonMap v.2 (ruckAddr t (rf r 163 160) f.firstPage + 56) f.bytes else []) v.2)) ∧
    (∃ (q : Nat) (i : Nat) (r : Rec64) (x : Tensor) (f : Frame) (t : State) (s : State) (c : Nat),
      (Instr.wf (.rucksackPop q i r) = true) ∧ (startable q i r s) ∧ (begun q i r s = t) ∧
      (tensorOf t (rf r 143 128) = some x) ∧ ((framesOf t (rf r 163 160)).getLast? = some f) ∧ (f.tag = rf r 159 144) ∧
      (f.bytes = tensorBytes x) ∧ (outputRefusal t x.addr f.bytes = c) ∧ (c ≠ 0)) ∧
    (∃ (q : Nat) (i : Nat) (r : Rec64) (x : Tensor) (f : Frame) (t : State) (s : State),
      (Instr.wf (.rucksackPop q i r) = true) ∧ (startable q i r s) ∧ (begun q i r s = t) ∧
      (tensorOf t (rf r 143 128) = some x) ∧ ((framesOf t (rf r 163 160)).getLast? = some f) ∧
      (f.tag ≠ rf r 159 144 ∨ f.bytes ≠ tensorBytes x)) ∧
    (∃ (q : Nat) (i : Nat) (r : Rec64) (x : Tensor) (t : State) (s : State), (Instr.wf (.rucksackPop q i r) = true) ∧
      (startable q i r s) ∧ (begun q i r s = t) ∧ (tensorOf t (rf r 143 128) = some x) ∧ (framesOf t (rf r 163 160) = [])) ∧
    (∃ (q : Nat) (i : Nat) (r : Rec64) (t : State) (s : State), (Instr.wf (.checkScan q i r) = true) ∧ (startable q i r s) ∧
      (begun q i r s = t) ∧ (scanRefusal t (scanOf q i r) = 0)) ∧
    (∃ (q : Nat) (i : Nat) (r : Rec64) (t : State) (s : State), (Instr.wf (.checkScan q i r) = true) ∧ (startable q i r s) ∧
      (begun q i r s = t) ∧ (scanRefusal t (scanOf q i r) ≠ 0)) :=
  ⟨⟨0, 5, record 8 [(128, 0), (192, 64), (256, 64)], _, _, upQueue running, by decide +kernel, by decide +kernel, rfl, rfl,
      by decide +kernel⟩,
   ⟨0, 5, record 8 [(128, 0), (192, 64), (256, 64)], _, _, writeRange 63 [1] true (upQueue running), by decide +kernel,
      by decide +kernel, rfl, rfl, by decide +kernel⟩,
   ⟨0, 5, record 8 [(128, 0), (192, 63), (256, 64)], _, _, upQueue running, by decide +kernel, by decide +kernel, rfl, rfl,
      by decide +kernel⟩,
   ⟨0, 5, record 9 [(128, 1), (144, 2), (160, 1), (192, 2)], _, _, tensored [], by decide +kernel, by decide +kernel, rfl, rfl,
      by decide +kernel⟩,
   ⟨0, 5, record 9 [(128, 1), (144, 2), (160, 1), (192, 2)], tensor 1 0 1 2 4096, tensor 2 0 2 1 8192, _, _,
      tensored [tensor 1 0 1 2 4096, tensor 2 0 2 1 8192], _, _, _, by decide +kernel, by decide +kernel, rfl, rfl,
      by decide +kernel, by decide +kernel, by decide +kernel, rfl, rfl, rfl⟩,
   ⟨0, 5, record 0xA [(128, 1), (144, 9), (160, 3)], tensor 1 0 1 2 4096, _, tensored [tensor 1 0 1 2 4096,
      tensor 2 0 2 1 8192], _, _, by decide +kernel, by decide +kernel, rfl, by decide +kernel, by decide +kernel, rfl,
      by exact rfl⟩,
   ⟨0, 5, record 0xA [(128, 1), (144, 9), (160, 3)], tensor 1 0 1 2 4096, _,
      { tensored [tensor 1 0 1 2 4096, tensor 2 0 2 1 8192] with plan := { (tensored []).plan with rucksack := 0 } },
      by decide +kernel, by decide +kernel, rfl, by decide +kernel⟩,
   ⟨0, 5, record 0xB [(128, 1), (144, 9)], tensor 1 0 1 2 4096,
      ({ region := 0, tag := 9, tensor := 1, step := 5, bytes := 8, firstPage := 0, pages := 1 } : Frame), _, framed 9 8, _, _,
      by decide +kernel, by decide +kernel, rfl, by decide +kernel, by decide +kernel, by decide +kernel, by decide +kernel,
      by decide +kernel, rfl, rfl⟩,
   ⟨0, 5, record 0xB [(128, 1), (144, 9)], tensor 1 0 1 2 pegBase,
      ({ region := 0, tag := 9, tensor := 1, step := 5, bytes := 8, firstPage := 0, pages := 1 } : Frame), _,
      { framed 9 8 with tensors := [tensor 1 0 1 2 pegBase] }, _, by decide +kernel, by decide +kernel, rfl, by decide +kernel,
      by decide +kernel, by decide +kernel, by decide +kernel, rfl, by decide +kernel⟩,
   ⟨0, 5, record 0xB [(128, 1), (144, 9)], tensor 1 0 1 2 4096,
      ({ region := 0, tag := 9, tensor := 1, step := 5, bytes := 4, firstPage := 0, pages := 1 } : Frame), _, framed 9 4,
      by decide +kernel, by decide +kernel, rfl, by decide +kernel⟩,
   ⟨0, 5, record 0xB [(128, 1), (144, 9)], tensor 1 0 1 2 4096, _, tensored [tensor 1 0 1 2 4096, tensor 2 0 2 1 8192],
      by decide +kernel, by decide +kernel, rfl, by decide +kernel⟩,
   ⟨0, 5, record 0x38 [(192, 64)], _, upQueue running, by decide +kernel, by decide +kernel, rfl, by decide +kernel⟩,
   ⟨0, 5, record 0x38 [(192, 65)], _, upQueue running, by decide +kernel, by decide +kernel, rfl, by decide +kernel⟩⟩

theorem test_meets_MatrixCommands :
    (∃ (q : Nat) (i : Nat) (r : Rec64) (g : Gemm) (t : State) (s : State), (Instr.wf (.gemm q i r) = true) ∧
      (startable q i r s) ∧ (begun q i r s = t) ∧ (gemmOf r = g) ∧ (gemmRefusal t g ≠ 0)) ∧
    (∃ (q : Nat) (i : Nat) (r : Rec64) (g : Gemm) (t : State) (s : State) (j : Job) (u : State) (acc : GemmAcc) (w : Bool × State),
      (Instr.wf (.gemm q i r) = true) ∧ (startable q i r s) ∧ (begun q i r s = t) ∧ (gemmOf r = g) ∧ (gemmRefusal t g = 0) ∧
      (gemmJob g (curStep t) t = (some j, u)) ∧
      (acc = ((gemmTiles g).zip (upto (gemmTiles g).length)).foldl (fun acc x => gemmTile r j (watchSlotOf u false 0 g.c) (nthD 0 (arraysOf g.mask) (x.2 * g.split % (arraysOf g.mask).length)) x.1.1 x.1.2 acc) ({ state := u } : GemmAcc)) ∧
      (w = writePieces j.c acc.pieces [] acc.state) ∧ (scaledOut j = false)) ∧
    (∃ (q : Nat) (i : Nat) (r : Rec64) (g : Gemm) (t : State) (s : State) (j : Job) (u : State) (acc : GemmAcc) (w : Bool × State),
      (Instr.wf (.gemm q i r) = true) ∧ (startable q i r s) ∧ (begun q i r s = t) ∧ (gemmOf r = g) ∧ (gemmRefusal t g = 0) ∧
      (gemmJob g (curStep t) t = (some j, u)) ∧
      (acc = ((gemmTiles g).zip (upto (gemmTiles g).length)).foldl (fun acc x => gemmTile r j (watchSlotOf u false 0 g.c) (nthD 0 (arraysOf g.mask) (x.2 * g.split % (arraysOf g.mask).length)) x.1.1 x.1.2 acc) ({ state := u } : GemmAcc)) ∧
      (w = writePieces j.c acc.pieces [] acc.state) ∧ (scaledOut j = true)) ∧
    (∃ (g : Gemm) (s : State), (gemmRefusal s g = 0)) ∧
    (∃ (q : Nat) (i : Nat) (r : Rec64) (c : RowCmd) (tx : Tensor) (ty : Tensor) (t : State) (s : State) (x : Operand × State) (gm : Option Operand × State) (bt : Option Operand × State) (acc : RowAcc) (w : Bool × State),
      (Instr.wf (.rowengFwd q i r) = true) ∧ (startable q i r s) ∧ (begun q i r s = t) ∧ (rowCmdOf false r = c) ∧
      (rowCmdRefusal t c = 0) ∧ (tensorOf t c.x = some tx) ∧ (tensorOf t c.y = some ty) ∧ (x = loadOperand tx t) ∧
      (gm = loadOpt (c.op != 2) c.gamma x.2) ∧ (bt = loadOpt (c.op != 2) c.beta gm.2) ∧
      (acc = (upto c.rows).foldl (fun acc row => runRow ⟨c, x.1, none, gm.1, bt.1, ty,
      none⟩ row acc) ({ state := bt.2 } : RowAcc)) ∧ (w = writePieces ty acc.y [] acc.state)) ∧
    (∃ (q : Nat) (i : Nat) (r : Rec64) (c : RowCmd) (tx : Tensor) (ty : Tensor) (t : State) (s : State) (x : Operand × State) (dy : Option Operand × State) (gm : Option Operand × State) (acc : RowAcc) (w : Bool × State),
      (Instr.wf (.rowengBwd q i r) = true) ∧ (startable q i r s) ∧ (begun q i r s = t) ∧ (rowCmdOf true r = c) ∧
      (rowCmdRefusal t c = 0) ∧ (tensorOf t c.x = some tx) ∧ (tensorOf t c.y = some ty) ∧ ((c.op = 2 ∨ c.p = 0xFFFF)) ∧
      (x = loadOperand tx t) ∧ (dy = loadOpt true c.dy x.2) ∧ (gm = loadOpt (c.op != 2) c.gamma dy.2) ∧
      (acc = (upto c.rows).foldl (fun acc row => runRow ⟨c, x.1, dy.1, gm.1, none, ty,
      none⟩ row acc) ({ state := gm.2 } : RowAcc)) ∧ (w = writePieces ty acc.y [] acc.state)) ∧
    (∃ (q : Nat) (i : Nat) (r : Rec64) (c : RowCmd) (tx : Tensor) (ty : Tensor) (tp : Tensor) (t : State) (s : State) (x : Operand × State) (dy : Option Operand × State) (gm : Option Operand × State) (acc : RowAcc) (w : Bool × State) (w₂ : Bool × State),
      (Instr.wf (.rowengBwd q i r) = true) ∧ (startable q i r s) ∧ (begun q i r s = t) ∧ (rowCmdOf true r = c) ∧
      (rowCmdRefusal t c = 0) ∧ (tensorOf t c.x = some tx) ∧ (tensorOf t c.y = some ty) ∧ (c.op ≠ 2) ∧ (c.p ≠ 0xFFFF) ∧
      (tensorOf t c.p = some tp) ∧ (x = loadOperand tx t) ∧ (dy = loadOpt true c.dy x.2) ∧ (gm = loadOpt true c.gamma dy.2) ∧
      (acc = (upto c.rows).foldl (fun acc row => runRow ⟨c, x.1, dy.1, gm.1, none, ty,
      some tp⟩ row acc) ({ state := gm.2 } : RowAcc)) ∧ (w = writePieces ty acc.y [] acc.state) ∧
      (w₂ = writePieces tp acc.p [] w.2)) :=
  ⟨⟨0, 5, record 0x10 [(128, 1), (144, 2), (160, 3), (192, 1), (224, 1), (256, 1)], _, _, tensored [], by decide +kernel,
      by decide +kernel, rfl, rfl, by decide +kernel⟩,
   ⟨0, 5, record 0x10 [(128, 1), (144, 2), (160, 3), (192, 1), (224, 1), (256, 1)], _, _, tensored [tensor 1 2 1 1 4096,
      tensor 2 2 1 1 8192, tensor 3 0 1 1 12288], (Option.get ((gemmJob (gemmOf (record 0x10 [(128, 1), (144, 2), (160, 3),
      (192, 1), (224, 1), (256, 1)])) (curStep (begun (0) (5) (record 0x10 [(128, 1), (144, 2), (160, 3), (192, 1), (224, 1),
      (256, 1)]) (tensored [tensor 1 2 1 1 4096, tensor 2 2 1 1 8192,
      tensor 3 0 1 1 12288]))) (begun (0) (5) (record 0x10 [(128, 1), (144, 2), (160, 3), (192, 1), (224, 1), (256,
      1)]) (tensored [tensor 1 2 1 1 4096, tensor 2 2 1 1 8192, tensor 3 0 1 1 12288]))).1) (by decide +kernel)),
      (gemmJob (gemmOf (record 0x10 [(128, 1), (144, 2), (160, 3), (192, 1), (224, 1), (256,
      1)])) (curStep (begun (0) (5) (record 0x10 [(128, 1), (144, 2), (160, 3), (192, 1), (224, 1), (256,
      1)]) (tensored [tensor 1 2 1 1 4096, tensor 2 2 1 1 8192, tensor 3 0 1 1 12288]))) (begun (0) (5) (record 0x10 [(128, 1),
      (144, 2), (160, 3), (192, 1), (224, 1), (256, 1)]) (tensored [tensor 1 2 1 1 4096, tensor 2 2 1 1 8192,
      tensor 3 0 1 1 12288]))).2, _, _, by decide +kernel, by decide +kernel, rfl, rfl, by decide +kernel,
      by first | (with_reducible exact (Option.some_get _).symm) | (with_reducible exact Prod.ext (Option.some_get _).symm rfl) | decide +kernel,
      rfl, rfl, by decide +kernel⟩,
   ⟨0, 5, record 0x10 [(128, 1), (144, 2), (160, 3), (192, 1), (224, 1), (256, 1), (384, 16384)], _, _,
      tensored [tensor 1 2 1 1 4096, tensor 2 2 1 1 8192, tensor 3 0 1 1 12288],
      (Option.get ((gemmJob (gemmOf (record 0x10 [(128, 1), (144, 2), (160, 3), (192, 1), (224, 1), (256, 1), (384,
      16384)])) (curStep (begun (0) (5) (record 0x10 [(128, 1), (144, 2), (160, 3), (192, 1), (224, 1), (256, 1), (384,
      16384)]) (tensored [tensor 1 2 1 1 4096, tensor 2 2 1 1 8192, tensor 3 0 1 1 12288]))) (begun (0) (5) (record 0x10 [(128,
      1), (144, 2), (160, 3), (192, 1), (224, 1), (256, 1), (384, 16384)]) (tensored [tensor 1 2 1 1 4096, tensor 2 2 1 1 8192,
      tensor 3 0 1 1 12288]))).1) (by decide +kernel)), (gemmJob (gemmOf (record 0x10 [(128, 1), (144, 2), (160, 3), (192, 1),
      (224, 1), (256, 1), (384, 16384)])) (curStep (begun (0) (5) (record 0x10 [(128, 1), (144, 2), (160, 3), (192, 1), (224,
      1), (256, 1), (384, 16384)]) (tensored [tensor 1 2 1 1 4096, tensor 2 2 1 1 8192,
      tensor 3 0 1 1 12288]))) (begun (0) (5) (record 0x10 [(128, 1), (144, 2), (160, 3), (192, 1), (224, 1), (256, 1), (384,
      16384)]) (tensored [tensor 1 2 1 1 4096, tensor 2 2 1 1 8192, tensor 3 0 1 1 12288]))).2, _, _, by decide +kernel,
      by decide +kernel, rfl, rfl, by decide +kernel,
      by first | (with_reducible exact (Option.some_get _).symm) | (with_reducible exact Prod.ext (Option.some_get _).symm rfl) | decide +kernel,
      rfl, rfl, by decide +kernel⟩,
   ⟨gemmOf (record 0x10 [(128, 1), (144, 2), (160, 3), (192, 1), (224, 1), (256, 1)]), tensored [tensor 1 2 1 1 4096,
      tensor 2 2 1 1 8192, tensor 3 0 1 1 12288], by decide +kernel⟩,
   ⟨0, 5, record 0x1C [(128, 1), (144, 2), (224, 1), (256, 2), (352, 7), (176, 0xFFFF), (192, 0xFFFF), (208, 0xFFFF), (368,
      0xFFFF), (288, 0x3727C5AC)], _, tensor 1 0 1 2 4096, tensor 2 0 1 2 8192, _, tensored [tensor 1 0 1 2 4096,
      tensor 2 0 1 2 8192, tensor 3 0 1 2 12288, tensor 4 0 1 2 16384, tensor 6 0 1 2 20480], _, _, _, _, _, by decide +kernel,
      by decide +kernel, rfl, rfl, by decide +kernel, by decide +kernel, by decide +kernel, rfl, rfl, rfl, rfl, rfl⟩,
   ⟨0, 5, record 0x1D [(128, 1), (144, 2), (224, 1), (256, 2), (352, 7), (160, 3), (176, 0xFFFF), (192, 0xFFFF), (208, 0xFFFF),
      (272, 2), (368, 0xFFFF)], _, tensor 1 0 1 2 4096, tensor 2 0 1 2 8192, _, tagged [tensor 1 0 1 2 4096,
      tensor 2 0 1 2 8192, tensor 3 0 1 2 12288, tensor 4 0 1 2 16384, tensor 6 0 1 2 20480], _, _, _, _, _, by decide +kernel,
      by decide +kernel, rfl, rfl, by decide +kernel, by decide +kernel, by decide +kernel, by decide +kernel, rfl, rfl, rfl,
      rfl, rfl⟩,
   ⟨0, 5, record 0x1D [(128, 1), (144, 2), (224, 1), (256, 2), (352, 7), (160, 3), (176, 0xFFFF), (192, 0xFFFF), (208, 4),
      (368, 0xFFFF), (288, 0x3727C5AC)], _, tensor 1 0 1 2 4096, tensor 2 0 1 2 8192, tensor 4 0 1 2 16384, _,
      tagged0 [tensor 1 0 1 2 4096, tensor 2 0 1 2 8192, tensor 3 0 1 2 12288, tensor 4 0 1 2 16384, tensor 6 0 1 2 20480], _,
      _, _, _, _, _, by decide +kernel, by decide +kernel, rfl, rfl, by decide +kernel, by decide +kernel, by decide +kernel,
      by decide +kernel, by decide +kernel, by decide +kernel, rfl, rfl, rfl, rfl, rfl, rfl⟩⟩

theorem test_meets_ChunkSumExact :
    (∃ (ps qs : List ExactNum), ps.Perm qs ∧ ps ≠ qs) ∧
    (∃ ps : List ExactNum, (∀ p ∈ ps, numIsZero p = true) ∧ ps ≠ []) ∧
    (∃ (ps : List ExactNum) (top : Int), (ps.filterMap leadExp).max? = some top ∧ ∀ p ∈ ps, ∃ s m e, p = .fin s m e ∧ top - 40 ≤ e) :=
  ⟨⟨[num0, numOfNat 1], [numOfNat 1, num0], .swap _ _ _, by decide +kernel⟩,
   ⟨[num0], by decide +kernel, by decide⟩,
   ⟨[.fin false 3 (-39)], (([ExactNum.fin false 3 (-39)].filterMap leadExp).max?).get (by decide +kernel), by decide +kernel,
     fun p h => ⟨false, 3, -39, by simpa using h, by decide +kernel⟩⟩⟩

theorem test_meets_RowCommands :
    (∃ (q : Nat) (i : Nat) (r : Rec64) (a : RowArgs) (td : TableSet × TableDecl) (t : State) (s : State),
      (Instr.wf (.rowRead q i r) = true) ∧ (startable q i r s) ∧ (begun q i r s = t) ∧ (rowArgs r = a) ∧
      (rowDecl t a.set a.table = some td) ∧ (rowRefusal t a true true = 0)) ∧
    (∃ (q : Nat) (i : Nat) (r : Rec64) (a : RowArgs) (td : TableSet × TableDecl) (t : State) (s : State),
      (Instr.wf (.rowRead q i r) = true) ∧ (startable q i r s) ∧ (begun q i r s = t) ∧ (rowArgs r = a) ∧
      (rowDecl t a.set a.table = some td) ∧ (rowRefusal t a true true ≠ 0)) ∧
    (∃ (q : Nat) (i : Nat) (r : Rec64) (a : RowArgs) (o : Nat → RowOp) (t : State) (s : State), (startable q i r s) ∧
      (begun q i r s = t) ∧ (rowArgs r = a) ∧ ((rowDecl t a.set a.table).isSome = true) ∧ ((∀ op,
      o op = ({ queue := q, index := i, op := op, set := a.set, table := a.table, variant := a.variant, frozen := a.frozen, firstRow := a.first, rows := a.rows, buf := a.buf, nextRecord := 0, awaiting := 0, status := 0, detail := 0 } : RowOp))) ∧
      (Instr.wf (.rowWrite q i r) = true) ∧ (rowRefusal t a true false = 0)) ∧
    (∃ (q : Nat) (i : Nat) (r : Rec64) (a : RowArgs) (o : Nat → RowOp) (t : State) (s : State), (startable q i r s) ∧
      (begun q i r s = t) ∧ (rowArgs r = a) ∧ ((rowDecl t a.set a.table).isSome = true) ∧ ((∀ op,
      o op = ({ queue := q, index := i, op := op, set := a.set, table := a.table, variant := a.variant, frozen := a.frozen, firstRow := a.first, rows := a.rows, buf := a.buf, nextRecord := 0, awaiting := 0, status := 0, detail := 0 } : RowOp))) ∧
      (Instr.wf (.rowFreeze q i r) = true) ∧ (rowRefusal t a false false = 0)) ∧
    (∃ (q : Nat) (i : Nat) (r : Rec64) (a : RowArgs) (o : Nat → RowOp) (t : State) (s : State), (startable q i r s) ∧
      (begun q i r s = t) ∧ (rowArgs r = a) ∧ ((rowDecl t a.set a.table).isSome = true) ∧ ((∀ op,
      o op = ({ queue := q, index := i, op := op, set := a.set, table := a.table, variant := a.variant, frozen := a.frozen, firstRow := a.first, rows := a.rows, buf := a.buf, nextRecord := 0, awaiting := 0, status := 0, detail := 0 } : RowOp))) ∧
      (Instr.wf (.rowReset q i r) = true) ∧ (rowRefusal t a false false = 0)) ∧
    (∃ (q : Nat) (i : Nat) (r : Rec64) (a : RowArgs) (o : Nat → RowOp) (t : State) (s : State), (startable q i r s) ∧
      (begun q i r s = t) ∧ (rowArgs r = a) ∧ ((rowDecl t a.set a.table).isSome = true) ∧ ((∀ op,
      o op = ({ queue := q, index := i, op := op, set := a.set, table := a.table, variant := a.variant, frozen := a.frozen, firstRow := a.first, rows := a.rows, buf := a.buf, nextRecord := 0, awaiting := 0, status := 0, detail := 0 } : RowOp))) ∧
      (Instr.wf (.rowWrite q i r) = true) ∧ (rowRefusal t a true false ≠ 0)) ∧
    (∃ (q : Nat) (i : Nat) (r : Rec64) (a : RowArgs) (o : Nat → RowOp) (t : State) (s : State), (startable q i r s) ∧
      (begun q i r s = t) ∧ (rowArgs r = a) ∧ ((rowDecl t a.set a.table).isSome = true) ∧ ((∀ op,
      o op = ({ queue := q, index := i, op := op, set := a.set, table := a.table, variant := a.variant, frozen := a.frozen, firstRow := a.first, rows := a.rows, buf := a.buf, nextRecord := 0, awaiting := 0, status := 0, detail := 0 } : RowOp))) ∧
      (Instr.wf (.rowFreeze q i r) = true) ∧ (rowRefusal t a false false ≠ 0)) ∧
    (∃ (q : Nat) (i : Nat) (r : Rec64) (a : RowArgs) (o : Nat → RowOp) (t : State) (s : State), (startable q i r s) ∧
      (begun q i r s = t) ∧ (rowArgs r = a) ∧ ((rowDecl t a.set a.table).isSome = true) ∧ ((∀ op,
      o op = ({ queue := q, index := i, op := op, set := a.set, table := a.table, variant := a.variant, frozen := a.frozen, firstRow := a.first, rows := a.rows, buf := a.buf, nextRecord := 0, awaiting := 0, status := 0, detail := 0 } : RowOp))) ∧
      (Instr.wf (.rowReset q i r) = true) ∧ (rowRefusal t a false false ≠ 0)) ∧
    (∃ (q : Nat) (i : Nat) (r : Rec64) (t : State) (s : State), (Instr.wf (.rowRead q i r) = true) ∧ (startable q i r s) ∧
      (begun q i r s = t) ∧ (rowDecl t (rowArgs r).set (rowArgs r).table = none)) ∧
    (∃ (q : Nat) (i : Nat) (r : Rec64) (t : State) (s : State), (startable q i r s) ∧ (begun q i r s = t) ∧
      (rowDecl t (rowArgs r).set (rowArgs r).table = none) ∧ (Instr.wf (.rowWrite q i r) = true)) ∧
    (∃ (q : Nat) (i : Nat) (r : Rec64) (t : State) (s : State), (startable q i r s) ∧ (begun q i r s = t) ∧
      (rowDecl t (rowArgs r).set (rowArgs r).table = none) ∧ (Instr.wf (.rowFreeze q i r) = true)) ∧
    (∃ (q : Nat) (i : Nat) (r : Rec64) (t : State) (s : State), (startable q i r s) ∧ (begun q i r s = t) ∧
      (rowDecl t (rowArgs r).set (rowArgs r).table = none) ∧ (Instr.wf (.rowReset q i r) = true)) ∧
    (∃ (s : State), (atCommit s = false)) ∧
    (∃ (o : RowOp) (td : TableSet × TableDecl) (s : State), (atCommit s = true) ∧ (rowDecl s o.set o.table = some td)) ∧
    (∃ (mode : Nat) (old : Bytes), (mode < 3) ∧ (old.length = recLen mode)) ∧
    (∃ (mode : Nat) (old : Bytes), (mode < 3) ∧ (old.length = recLen mode) ∧ (isCompat mode = true)) ∧
    (∃ (mode : Nat) (old : Bytes), (mode < 3) ∧ (old.length = recLen mode) ∧ (isCompat mode = false)) :=
  ⟨⟨0, 5, record 0x18 [(128, 3), (144, 2), (256, 4), (320, 4096)], _, (set3 0, table2), _, withSet 40, by decide +kernel,
      by decide +kernel, rfl, rfl, by decide +kernel⟩,
   ⟨0, 5, record 0x18 [(128, 3), (144, 2), (192, 1), (256, 4), (320, 4096)], _, (set3 0, table2), _, withSet 40,
      by decide +kernel, by decide +kernel, rfl, rfl, by decide +kernel⟩,
   ⟨0, 5, record 0x19 [(128, 3), (144, 2), (256, 4), (320, 4096)], rowArgs (record 0x19 [(128, 3), (144, 2), (256, 4), (320,
      4096)]),
      (fun op => { queue := 0, index := 5, op := op, set := (rowArgs (record 0x19 [(128, 3), (144, 2), (256, 4), (320, 4096)])).set, table := (rowArgs (record 0x19 [(128, 3), (144, 2), (256, 4), (320, 4096)])).table, variant := (rowArgs (record 0x19 [(128, 3), (144, 2), (256, 4), (320, 4096)])).variant, frozen := (rowArgs (record 0x19 [(128, 3), (144, 2), (256, 4), (320, 4096)])).frozen, firstRow := (rowArgs (record 0x19 [(128, 3), (144, 2), (256, 4), (320, 4096)])).first, rows := (rowArgs (record 0x19 [(128, 3), (144, 2), (256, 4), (320, 4096)])).rows, buf := (rowArgs (record 0x19 [(128, 3), (144, 2), (256, 4), (320, 4096)])).buf, nextRecord := 0, awaiting := 0, status := 0, detail := 0 }),
      begun (0) (5) (record 0x19 [(128, 3), (144, 2), (256, 4), (320, 4096)]) (withSet 40), withSet 40,
      by refine ⟨?_, ?_, ?_, ?_, fun _ => rfl, ?_, ?_⟩ <;> first | with_reducible rfl | decide +kernel⟩,
   ⟨0, 5, record 0x1A [(128, 3), (144, 2), (192, 3), (256, 1)], rowArgs (record 0x1A [(128, 3), (144, 2), (192, 3), (256, 1)]),
      (fun op => { queue := 0, index := 5, op := op, set := (rowArgs (record 0x1A [(128, 3), (144, 2), (192, 3), (256, 1)])).set, table := (rowArgs (record 0x1A [(128, 3), (144, 2), (192, 3), (256, 1)])).table, variant := (rowArgs (record 0x1A [(128, 3), (144, 2), (192, 3), (256, 1)])).variant, frozen := (rowArgs (record 0x1A [(128, 3), (144, 2), (192, 3), (256, 1)])).frozen, firstRow := (rowArgs (record 0x1A [(128, 3), (144, 2), (192, 3), (256, 1)])).first, rows := (rowArgs (record 0x1A [(128, 3), (144, 2), (192, 3), (256, 1)])).rows, buf := (rowArgs (record 0x1A [(128, 3), (144, 2), (192, 3), (256, 1)])).buf, nextRecord := 0, awaiting := 0, status := 0, detail := 0 }),
      begun (0) (5) (record 0x1A [(128, 3), (144, 2), (192, 3), (256, 1)]) (withSet 40), withSet 40,
      by refine ⟨?_, ?_, ?_, ?_, fun _ => rfl, ?_, ?_⟩ <;> first | with_reducible rfl | decide +kernel⟩,
   ⟨0, 5, record 0x1B [(128, 3), (144, 2), (192, 3), (256, 1)], rowArgs (record 0x1B [(128, 3), (144, 2), (192, 3), (256, 1)]),
      (fun op => { queue := 0, index := 5, op := op, set := (rowArgs (record 0x1B [(128, 3), (144, 2), (192, 3), (256, 1)])).set, table := (rowArgs (record 0x1B [(128, 3), (144, 2), (192, 3), (256, 1)])).table, variant := (rowArgs (record 0x1B [(128, 3), (144, 2), (192, 3), (256, 1)])).variant, frozen := (rowArgs (record 0x1B [(128, 3), (144, 2), (192, 3), (256, 1)])).frozen, firstRow := (rowArgs (record 0x1B [(128, 3), (144, 2), (192, 3), (256, 1)])).first, rows := (rowArgs (record 0x1B [(128, 3), (144, 2), (192, 3), (256, 1)])).rows, buf := (rowArgs (record 0x1B [(128, 3), (144, 2), (192, 3), (256, 1)])).buf, nextRecord := 0, awaiting := 0, status := 0, detail := 0 }),
      begun (0) (5) (record 0x1B [(128, 3), (144, 2), (192, 3), (256, 1)]) (withSet 40), withSet 40,
      by refine ⟨?_, ?_, ?_, ?_, fun _ => rfl, ?_, ?_⟩ <;> first | with_reducible rfl | decide +kernel⟩,
   ⟨0, 5, record 0x19 [(128, 3), (144, 2), (192, 1), (256, 4), (320, 4096)], rowArgs (record 0x19 [(128, 3), (144, 2), (192,
      1), (256, 4), (320, 4096)]),
      (fun op => { queue := 0, index := 5, op := op, set := (rowArgs (record 0x19 [(128, 3), (144, 2), (192, 1), (256, 4), (320, 4096)])).set, table := (rowArgs (record 0x19 [(128, 3), (144, 2), (192, 1), (256, 4), (320, 4096)])).table, variant := (rowArgs (record 0x19 [(128, 3), (144, 2), (192, 1), (256, 4), (320, 4096)])).variant, frozen := (rowArgs (record 0x19 [(128, 3), (144, 2), (192, 1), (256, 4), (320, 4096)])).frozen, firstRow := (rowArgs (record 0x19 [(128, 3), (144, 2), (192, 1), (256, 4), (320, 4096)])).first, rows := (rowArgs (record 0x19 [(128, 3), (144, 2), (192, 1), (256, 4), (320, 4096)])).rows, buf := (rowArgs (record 0x19 [(128, 3), (144, 2), (192, 1), (256, 4), (320, 4096)])).buf, nextRecord := 0, awaiting := 0, status := 0, detail := 0 }),
      begun (0) (5) (record 0x19 [(128, 3), (144, 2), (192, 1), (256, 4), (320, 4096)]) (withSet 40), withSet 40,
      by refine ⟨?_, ?_, ?_, ?_, fun _ => rfl, ?_, ?_⟩ <;> first | with_reducible rfl | decide +kernel⟩,
   ⟨0, 5, record 0x1A [(128, 3), (144, 2), (192, 1), (256, 4)], rowArgs (record 0x1A [(128, 3), (144, 2), (192, 1), (256, 4)]),
      (fun op => { queue := 0, index := 5, op := op, set := (rowArgs (record 0x1A [(128, 3), (144, 2), (192, 1), (256, 4)])).set, table := (rowArgs (record 0x1A [(128, 3), (144, 2), (192, 1), (256, 4)])).table, variant := (rowArgs (record 0x1A [(128, 3), (144, 2), (192, 1), (256, 4)])).variant, frozen := (rowArgs (record 0x1A [(128, 3), (144, 2), (192, 1), (256, 4)])).frozen, firstRow := (rowArgs (record 0x1A [(128, 3), (144, 2), (192, 1), (256, 4)])).first, rows := (rowArgs (record 0x1A [(128, 3), (144, 2), (192, 1), (256, 4)])).rows, buf := (rowArgs (record 0x1A [(128, 3), (144, 2), (192, 1), (256, 4)])).buf, nextRecord := 0, awaiting := 0, status := 0, detail := 0 }),
      begun (0) (5) (record 0x1A [(128, 3), (144, 2), (192, 1), (256, 4)]) (withSet 40), withSet 40,
      by refine ⟨?_, ?_, ?_, ?_, fun _ => rfl, ?_, ?_⟩ <;> first | with_reducible rfl | decide +kernel⟩,
   ⟨0, 5, record 0x1B [(128, 3), (144, 2), (192, 1), (256, 4)], rowArgs (record 0x1B [(128, 3), (144, 2), (192, 1), (256, 4)]),
      (fun op => { queue := 0, index := 5, op := op, set := (rowArgs (record 0x1B [(128, 3), (144, 2), (192, 1), (256, 4)])).set, table := (rowArgs (record 0x1B [(128, 3), (144, 2), (192, 1), (256, 4)])).table, variant := (rowArgs (record 0x1B [(128, 3), (144, 2), (192, 1), (256, 4)])).variant, frozen := (rowArgs (record 0x1B [(128, 3), (144, 2), (192, 1), (256, 4)])).frozen, firstRow := (rowArgs (record 0x1B [(128, 3), (144, 2), (192, 1), (256, 4)])).first, rows := (rowArgs (record 0x1B [(128, 3), (144, 2), (192, 1), (256, 4)])).rows, buf := (rowArgs (record 0x1B [(128, 3), (144, 2), (192, 1), (256, 4)])).buf, nextRecord := 0, awaiting := 0, status := 0, detail := 0 }),
      begun (0) (5) (record 0x1B [(128, 3), (144, 2), (192, 1), (256, 4)]) (withSet 40), withSet 40,
      by refine ⟨?_, ?_, ?_, ?_, fun _ => rfl, ?_, ?_⟩ <;> first | with_reducible rfl | decide +kernel⟩,
   ⟨0, 5, record 0x18 [(128, 4), (144, 2), (256, 4), (320, 4096)], _, withSet 40, by decide +kernel, by decide +kernel, rfl,
      by decide +kernel⟩,
   ⟨0, 5, record 0x19 [(128, 4), (144, 2), (256, 4), (320, 4096)], _, withSet 40, by decide +kernel, rfl, by decide +kernel⟩,
   ⟨0, 5, record 0x1A [(128, 4), (144, 2), (256, 4)], _, withSet 40, by decide +kernel, rfl, by decide +kernel⟩,
   ⟨0, 5, record 0x1B [(128, 4), (144, 2), (256, 4)], _, withSet 40, by decide +kernel, rfl, by decide +kernel⟩,
   ⟨withSet 44, by decide +kernel⟩,
   ⟨({ queue := 0, index := 5, op := 0x19, set := 3, table := 2, variant := 0, frozen := false, firstRow := 0, rows := 4, buf := 4096, nextRecord := 0, awaiting := 0, status := 0, detail := 0 } : RowOp),
      (set3 0, table2), withSet 45, by decide +kernel⟩,
   ⟨2, zeros (recLen 2), by decide +kernel⟩,
   ⟨2, zeros (recLen 2), by decide +kernel⟩,
   ⟨1, zeros (recLen 1), by decide +kernel⟩⟩

theorem test_meets_BindingCommands :
    (∃ (q : Nat) (i : Nat) (r : Rec64) (t : State) (s : State), (Instr.wf (.gatherPool q i r) = true) ∧ (startable q i r s) ∧
      (begun q i r s = t) ∧ (poolRefusal t r = 0)) ∧
    (∃ (q : Nat) (i : Nat) (r : Rec64) (t : State) (s : State), (Instr.wf (.gatherPool q i r) = true) ∧ (startable q i r s) ∧
      (begun q i r s = t) ∧ (poolRefusal t r ≠ 0)) ∧
    (∃ (q : Nat) (i : Nat) (r : Rec64) (t : State) (s : State), (Instr.wf (.feedBind q i r) = true) ∧ (startable q i r s) ∧
      (begun q i r s = t) ∧ (feedRefusal t (feedOf r) = 0)) ∧
    (∃ (q : Nat) (i : Nat) (r : Rec64) (t : State) (s : State), (Instr.wf (.feedBind q i r) = true) ∧ (startable q i r s) ∧
      (begun q i r s = t) ∧ (feedRefusal t (feedOf r) ≠ 0)) ∧
    (∃ (q : Nat) (i : Nat) (r : Rec64) (t : State) (s : State), (Instr.wf (.sched q i r) = true) ∧ (startable q i r s) ∧
      (begun q i r s = t)) ∧
    (∃ (r : Rec64) (d : Done) (j : Nat) (e : Bool × Nat × SchedEntry), (schedEntry r j = e) ∧ (d.saturated = false) ∧
      (d.poison = false) ∧ (e.1 = false)) ∧
    (∃ (r : Rec64) (d : Done) (j : Nat) (e : Bool × Nat × SchedEntry) (s : State), (schedEntry r j = e) ∧
      (d.saturated = false) ∧ (d.poison = false) ∧ (e.1 = true) ∧ (schedRefusal s e.2.1 e.2.2 = 0)) ∧
    (∃ (r : Rec64) (d : Done) (j : Nat) (e : Bool × Nat × SchedEntry) (s : State), (schedEntry r j = e) ∧
      (d.saturated = false) ∧ (d.poison = false) ∧ (e.1 = true) ∧ (schedRefusal s e.2.1 e.2.2 ≠ 0) ∧ (d.status = 0)) ∧
    (∃ (r : Rec64) (d : Done) (j : Nat) (e : Bool × Nat × SchedEntry) (s : State), (schedEntry r j = e) ∧
      (d.saturated = false) ∧ (d.poison = false) ∧ (e.1 = true) ∧ (schedRefusal s e.2.1 e.2.2 ≠ 0) ∧ (d.status ≠ 0)) :=
  ⟨⟨0, 5, record 0x20 [(128, 3), (144, 1), (192, 6), (256, 4096), (320, 1024), (384, 512)], _, withSet 40, by decide +kernel,
      by decide +kernel, rfl, by decide +kernel⟩,
   ⟨0, 5, record 0x20 [(128, 4), (144, 1), (192, 6), (256, 4096), (320, 1024), (384, 512)], _, withSet 40, by decide +kernel,
      by decide +kernel, rfl, by decide +kernel⟩,
   ⟨0, 5, record 0x48 [(128, 3), (192, 6)], _, { withSet 40 with plan := { (withSet 40).plan with feed := true } },
      by decide +kernel, by decide +kernel, rfl, by decide +kernel⟩,
   ⟨0, 5, record 0x48 [(128, 3), (192, 6)], _, withSet 40, by decide +kernel, by decide +kernel, rfl, by decide +kernel⟩,
   ⟨0, 5, record 0x30 [(128, 6), (192, 0x3F800000), (224, 3), (236, 1)], _, withSet 40, by decide +kernel, by decide +kernel,
      rfl⟩,
   ⟨record 0x30 [], { status := 0, detail := 0, saturated := false, poison := false }, 2, _, rfl, by decide +kernel⟩,
   ⟨record 0x30 [(384, 6), (448, 0x3F800000), (480, 3), (492, 1)],
      { status := 0, detail := 0, saturated := false, poison := false }, 2, _, withSet 40, rfl, by decide +kernel⟩,
   ⟨record 0x30 [(384, 5), (448, 0x3F800000), (480, 3), (492, 1)],
      { status := 0, detail := 0, saturated := false, poison := false }, 2, _, withSet 40, rfl, by decide +kernel⟩,
   ⟨record 0x30 [(384, 5), (448, 0x3F800000), (480, 3), (492, 1)],
      { status := 1, detail := 0, saturated := false, poison := false }, 2, _, withSet 40, rfl, by decide +kernel⟩⟩

theorem test_meets_SendingCommands :
    (∃ (q : Nat) (i : Nat) (r : Rec64) (t : State) (s : State), (Instr.wf (.gradScatter q i r) = true) ∧ (startable q i r s) ∧
      (begun q i r s = t) ∧ (scatterRefusal t r ≠ 0)) ∧
    (∃ (q : Nat) (i : Nat) (r : Rec64) (td : TableSet × TableDecl) (bt : Batch) (t : State) (s : State),
      (Instr.wf (.gradScatter q i r) = true) ∧ (startable q i r s) ∧ (begun q i r s = t) ∧ (scatterRefusal t r = 0) ∧
      (rowDecl t (rf r 199 192) (rf r 215 200) = some td) ∧ (batchOf t (rf r 199 192) (rf r 191 128) = some bt) ∧
      (bt.segments.contains td.2.table = false)) ∧
    (∃ (q : Nat) (i : Nat) (r : Rec64) (td : TableSet × TableDecl) (bt : Batch) (t : State) (s : State) (n : Nat) (v : (Bytes × Bool) × State) (ms : List (Nat × Bytes)),
      (Instr.wf (.gradScatter q i r) = true) ∧ (startable q i r s) ∧ (begun q i r s = t) ∧ (scatterRefusal t r = 0) ∧
      (rowDecl t (rf r 199 192) (rf r 215 200) = some td) ∧ (batchOf t (rf r 199 192) (rf r 191 128) = some bt) ∧
      (bt.segments.contains td.2.table = true) ∧ (0 < bt.samples * td.2.width) ∧
      (n = bt.samples * td.2.width * (if rb r 216 then 2 else 4)) ∧ (v = accessRead (rf r 319 256) n t) ∧
      (ms = scatterMsgs v.2 r td.1 td.2 bt v.1.1 (if v.1.2 then accessPoison v.2 (rf r 319 256) n else []))) ∧
    (∃ (q : Nat) (i : Nat) (r : Rec64) (t : State) (s : State), (Instr.wf (.denseReduce q i r) = true) ∧ (startable q i r s) ∧
      (begun q i r s = t) ∧ (denseRefusal t r ≠ 0)) ∧
    (∃ (q : Nat) (i : Nat) (r : Rec64) (x : Tensor) (g : Tensor) (t : State) (s : State) (o : Operand × State) (ms : List (Nat × Bytes)),
      (Instr.wf (.denseReduce q i r) = true) ∧ (startable q i r s) ∧ (begun q i r s = t) ∧ (denseRefusal t r = 0) ∧
      (tensorOf t (rf r 215 200) = some x) ∧ (tensorOf t (rf r 335 320) = some g) ∧ (o = loadOperand g t) ∧
      (ms = denseMsgs o.2 (rf r 191 128) x o.1.bytes o.1.poison)) :=
  ⟨⟨0, 5, record 0x21 [(128, 5), (192, 3), (200, 7), (256, 4096)], _,
      { withSet 42 with sets := [{ set3 0 with nextBatch := 6 }], step := { batches := [batch0] } }, by decide +kernel,
      by decide +kernel, rfl, by decide +kernel⟩,
   ⟨0, 5, record 0x21 [(128, 5), (192, 3), (200, 7), (256, 4096)],
      ({ set3 0 with nextBatch := 6, tables := [table2, { table2 with table := 7 }] }, { table2 with table := 7 }), batch0, _,
      { withSet 42 with sets := [{ set3 0 with nextBatch := 6, tables := [table2, { table2 with table := 7 }] }], step := { batches := [batch0] } },
      by decide +kernel, by decide +kernel, rfl, by decide +kernel⟩,
   ⟨0, 5, record 0x21 [(128, 5), (192, 3), (200, 2), (256, 4096)], ({ set3 0 with nextBatch := 6 }, table2), batch0, _,
      { withSet 42 with sets := [{ set3 0 with nextBatch := 6 }], step := { batches := [batch0] } }, _, _, _,
      by decide +kernel, by decide +kernel, rfl, by decide +kernel, by decide +kernel, by decide +kernel, by decide +kernel,
      by decide +kernel, rfl, rfl, rfl⟩,
   ⟨0, 5, record 0x28 [(128, 5), (200, 1), (320, 2)], _, { tensored [] with pegs := { values := [(4095, 42)] } },
      by decide +kernel, by decide +kernel, rfl, by decide +kernel⟩,
   ⟨0, 5, record 0x28 [(128, 5), (200, 1), (320, 2)], dense1, tensor 2 0 1 16 8192, _,
      { tensored [dense1, tensor 2 0 1 16 8192] with pegs := { values := [(4095, 42)] } }, _, _, by decide +kernel,
      by decide +kernel, rfl, by decide +kernel, by decide +kernel, by decide +kernel, rfl, rfl⟩⟩

theorem test_meets_GenerationCommands :
    (∃ (q : Nat) (i : Nat) (r : Rec64) (c : Nat) (t : State) (s : State), (Instr.wf (.genSetup q i r) = true) ∧
      (startable q i r s) ∧ (begun q i r s = t) ∧
      (genSetupRefusal t (rf r 287 256) (rf r 319 288) (rf r 351 320) (rf r 383 352) = c) ∧ (c = 0)) ∧
    (∃ (q : Nat) (i : Nat) (r : Rec64) (c : Nat) (t : State) (s : State), (Instr.wf (.genSetup q i r) = true) ∧
      (startable q i r s) ∧ (begun q i r s = t) ∧
      (genSetupRefusal t (rf r 287 256) (rf r 319 288) (rf r 351 320) (rf r 383 352) = c) ∧ (c ≠ 0)) ∧
    (∃ (q : Nat) (i : Nat) (r : Rec64) (t : State) (s : State), (Instr.wf (.genCut q i r) = true) ∧ (startable q i r s) ∧
      (begun q i r s = t) ∧ (s.holds.salvaged = false) ∧ (reached t (rf r 191 128) 5 = false)) ∧
    (∃ (q : Nat) (i : Nat) (r : Rec64) (t : State) (s : State), (Instr.wf (.genCut q i r) = true) ∧ (startable q i r s) ∧
      (begun q i r s = t) ∧ (s.holds.salvaged = false) ∧ (reached t (rf r 191 128) 5 = true)) ∧
    (∃ (q : Nat) (i : Nat) (r : Rec64) (t : State) (s : State), (Instr.wf (.genCut q i r) = true) ∧ (startable q i r s) ∧
      (begun q i r s = t) ∧ (s.holds.salvaged = true)) ∧
    (∃ (s : State), (s.gen.isOpen = false)) ∧
    (∃ (s : State), (s.gen.isOpen = true)) ∧
    (∃ (q : Nat) (i : Nat) (r : Rec64) (t : State) (s : State), (Instr.wf (.genExport q i r) = true) ∧ (startable q i r s) ∧
      (begun q i r s = t) ∧ (exportRefusal t r ≠ 0)) ∧
    (∃ (q : Nat) (i : Nat) (r : Rec64) (t : State) (s : State) (v : ExportRun × State) (c : Cmd) (u : State),
      (Instr.wf (.genExport q i r) = true) ∧ (startable q i r s) ∧ (begun q i r s = t) ∧ (exportRefusal t r = 0) ∧
      (v = exportFrom q i (rf r 226 225 == 1) (rf r 319 256) (rf r 383 320) ((genShards t).drop t.gen.exported) t.gen.exported ⟨0,
      0, false⟩ t) ∧
      (u = (if v.1.used + 64 ≤ rf r 383 320 then exportWrite q i (rf r 226 225 == 1) (rf r 319 256 + v.1.used) (zeros 64) v.2 else v.2)) ∧
      (findCmd u q i = some c) ∧ (c.outstanding = 0)) ∧
    (∃ (q : Nat) (i : Nat) (r : Rec64) (t : State) (s : State), (Instr.wf (.genRelease q i r) = true) ∧ (startable q i r s) ∧
      (begun q i r s = t) ∧ (t.gen.isOpen = true) ∧ (rf r 223 192 = t.gen.number)) ∧
    (∃ (q : Nat) (i : Nat) (r : Rec64) (t : State) (s : State), (Instr.wf (.genRelease q i r) = true) ∧ (startable q i r s) ∧
      (begun q i r s = t) ∧ (t.gen.isOpen = false ∨ rf r 223 192 ≠ t.gen.number)) :=
  ⟨⟨0, 5, record 0x40 [(256, 0), (288, 4096), (320, 2048), (352, 64)], _, _, withSet 40, by decide +kernel, by decide +kernel,
      rfl, by decide +kernel, rfl⟩,
   ⟨0, 5, record 0x40 [(256, 0), (288, 0), (320, 2048), (352, 64)], _, _, withSet 40, by decide +kernel, by decide +kernel,
      rfl, rfl, by decide +kernel⟩,
   ⟨0, 5, record 0x41 [(128, 6), (192, 9)], _, withSet 40, by decide +kernel, by decide +kernel, rfl, by decide +kernel⟩,
   ⟨0, 5, record 0x41 [(128, 5), (192, 9)], _, withSet 45, by decide +kernel, by decide +kernel, rfl, by decide +kernel⟩,
   ⟨0, 5, record 0x41 [(128, 5), (192, 9)], _, { withSet 45 with holds := { salvaged := true } }, by decide +kernel,
      by decide +kernel, rfl, by decide +kernel⟩,
   ⟨withSet 45, by decide +kernel⟩,
   ⟨withGen 45 { isOpen := true, number := 9, setup := true }, by decide +kernel⟩,
   ⟨0, 5, record 0x42 [(192, 9), (256, 4096), (320, 0x100040)], _, withSet 40, by decide +kernel, by decide +kernel, rfl,
      by decide +kernel⟩,
   ⟨0, 5, record 0x42 [(192, 9), (256, 4096), (320, 0x100040)], _,
      { withGen 40 { isOpen := true, number := 9, setup := true } with sets := [] }, _,
      (Option.get (findCmd ((if (exportFrom (0) (5) (rf (record 0x42 [(192, 9), (256, 4096), (320,
      0x100040)]) 226 225 == 1) (rf (record 0x42 [(192, 9), (256, 4096), (320, 0x100040)]) 319 256) (rf (record 0x42 [(192, 9),
      (256, 4096), (320, 0x100040)]) 383 320) ((genShards (begun (0) (5) (record 0x42 [(192, 9), (256, 4096), (320,
      0x100040)]) ({ withGen 40 { isOpen := true, number := 9, setup := true } with sets := [] }))).drop (begun (0) (5) (record 0x42 [(192,
      9), (256, 4096), (320,
      0x100040)]) ({ withGen 40 { isOpen := true, number := 9, setup := true } with sets := [] })).gen.exported) (begun (0) (5) (record 0x42 [(192,
      9), (256, 4096), (320,
      0x100040)]) ({ withGen 40 { isOpen := true, number := 9, setup := true } with sets := [] })).gen.exported ⟨0, 0,
      false⟩ (begun (0) (5) (record 0x42 [(192, 9), (256, 4096), (320,
      0x100040)]) ({ withGen 40 { isOpen := true, number := 9, setup := true } with sets := [] }))).1.used + 64 ≤ rf (record 0x42 [(192,
      9), (256, 4096), (320, 0x100040)]) 383 320 then exportWrite (0) (5) (rf (record 0x42 [(192, 9), (256, 4096), (320,
      0x100040)]) 226 225 == 1) (rf (record 0x42 [(192, 9), (256, 4096), (320,
      0x100040)]) 319 256 + (exportFrom (0) (5) (rf (record 0x42 [(192, 9), (256, 4096), (320,
      0x100040)]) 226 225 == 1) (rf (record 0x42 [(192, 9), (256, 4096), (320, 0x100040)]) 319 256) (rf (record 0x42 [(192, 9),
      (256, 4096), (320, 0x100040)]) 383 320) ((genShards (begun (0) (5) (record 0x42 [(192, 9), (256, 4096), (320,
      0x100040)]) ({ withGen 40 { isOpen := true, number := 9, setup := true } with sets := [] }))).drop (begun (0) (5) (record 0x42 [(192,
      9), (256, 4096), (320,
      0x100040)]) ({ withGen 40 { isOpen := true, number := 9, setup := true } with sets := [] })).gen.exported) (begun (0) (5) (record 0x42 [(192,
      9), (256, 4096), (320,
      0x100040)]) ({ withGen 40 { isOpen := true, number := 9, setup := true } with sets := [] })).gen.exported ⟨0, 0,
      false⟩ (begun (0) (5) (record 0x42 [(192, 9), (256, 4096), (320,
      0x100040)]) ({ withGen 40 { isOpen := true, number := 9, setup := true } with sets := [] }))).1.used) (zeros 64) (exportFrom (0) (5) (rf (record 0x42 [(192,
      9), (256, 4096), (320, 0x100040)]) 226 225 == 1) (rf (record 0x42 [(192, 9), (256, 4096), (320,
      0x100040)]) 319 256) (rf (record 0x42 [(192, 9), (256, 4096), (320,
      0x100040)]) 383 320) ((genShards (begun (0) (5) (record 0x42 [(192, 9), (256, 4096), (320,
      0x100040)]) ({ withGen 40 { isOpen := true, number := 9, setup := true } with sets := [] }))).drop (begun (0) (5) (record 0x42 [(192,
      9), (256, 4096), (320,
      0x100040)]) ({ withGen 40 { isOpen := true, number := 9, setup := true } with sets := [] })).gen.exported) (begun (0) (5) (record 0x42 [(192,
      9), (256, 4096), (320,
      0x100040)]) ({ withGen 40 { isOpen := true, number := 9, setup := true } with sets := [] })).gen.exported ⟨0, 0,
      false⟩ (begun (0) (5) (record 0x42 [(192, 9), (256, 4096), (320,
      0x100040)]) ({ withGen 40 { isOpen := true, number := 9, setup := true } with sets := [] }))).2 else (exportFrom (0) (5) (rf (record 0x42 [(192,
      9), (256, 4096), (320, 0x100040)]) 226 225 == 1) (rf (record 0x42 [(192, 9), (256, 4096), (320,
      0x100040)]) 319 256) (rf (record 0x42 [(192, 9), (256, 4096), (320,
      0x100040)]) 383 320) ((genShards (begun (0) (5) (record 0x42 [(192, 9), (256, 4096), (320,
      0x100040)]) ({ withGen 40 { isOpen := true, number := 9, setup := true } with sets := [] }))).drop (begun (0) (5) (record 0x42 [(192,
      9), (256, 4096), (320,
      0x100040)]) ({ withGen 40 { isOpen := true, number := 9, setup := true } with sets := [] })).gen.exported) (begun (0) (5) (record 0x42 [(192,
      9), (256, 4096), (320,
      0x100040)]) ({ withGen 40 { isOpen := true, number := 9, setup := true } with sets := [] })).gen.exported ⟨0, 0,
      false⟩ (begun (0) (5) (record 0x42 [(192, 9), (256, 4096), (320,
      0x100040)]) ({ withGen 40 { isOpen := true, number := 9, setup := true } with sets := [] }))).2)) (0) (5)) (by decide +kernel)),
      _, by decide +kernel, by decide +kernel, rfl, by decide +kernel, rfl, rfl,
      by first | (with_reducible exact (Option.some_get _).symm) | (with_reducible exact Prod.ext (Option.some_get _).symm rfl) | decide +kernel,
      by decide +kernel⟩,
   ⟨0, 5, record 0x43 [(192, 9)], _, withGen 40 { isOpen := true, number := 9, setup := true }, by decide +kernel,
      by decide +kernel, rfl, by decide +kernel⟩,
   ⟨0, 5, record 0x43 [(192, 8)], _, withGen 40 { isOpen := true, number := 9, setup := true }, by decide +kernel,
      by decide +kernel, rfl, by decide +kernel⟩⟩

theorem test_meets_LoadAndUnload :
    (∃ (q : Nat) (i : Nat) (r : Rec64) (b : Option Bytes) (t : State) (u : State) (s : State), (Instr.wf (.load q i r) = true) ∧
      (startable q i r s) ∧ (begun q i r s = t) ∧ (readImage (rf r 191 128) t = (b, u)) ∧
      (isState u .ready = false ∨ u.loadState ≠ .idle)) ∧
    (∃ (q : Nat) (i : Nat) (r : Rec64) (b : Option Bytes) (t : State) (u : State) (s : State), (Instr.wf (.load q i r) = true) ∧
      (startable q i r s) ∧ (begun q i r s = t) ∧ (readImage (rf r 191 128) t = (b, u)) ∧ (isState u .ready = true) ∧
      (u.loadState = .idle) ∧ (b = none)) ∧
    (∃ (q : Nat) (i : Nat) (r : Rec64) (b : Option Bytes) (t : State) (u : State) (s : State) (im : Bytes),
      (Instr.wf (.load q i r) = true) ∧ (startable q i r s) ∧ (begun q i r s = t) ∧ (readImage (rf r 191 128) t = (b, u)) ∧
      (isState u .ready = true) ∧ (u.loadState = .idle) ∧ (b = some im) ∧ (planRefusal u (rf r 191 128) im ≠ 0)) ∧
    (∃ (q : Nat) (i : Nat) (r : Rec64) (b : Option Bytes) (t : State) (u : State) (s : State) (im : Bytes) (p : State),
      (Instr.wf (.load q i r) = true) ∧ (startable q i r s) ∧ (begun q i r s = t) ∧ (readImage (rf r 191 128) t = (b, u)) ∧
      (isState u .ready = true) ∧ (u.loadState = .idle) ∧ (b = some im) ∧ (planRefusal u (rf r 191 128) im = 0) ∧
      (ridgeTargets u ≠ []) ∧ (coordValid u u.ridge.source = true) ∧ (candidate (rf r 191 128) im (emptyRun u) = p)) ∧
    (∃ (q : Nat) (i : Nat) (r : Rec64) (b : Option Bytes) (t : State) (u : State) (s : State) (im : Bytes),
      (Instr.wf (.load q i r) = true) ∧ (startable q i r s) ∧ (begun q i r s = t) ∧ (readImage (rf r 191 128) t = (b, u)) ∧
      (isState u .ready = true) ∧ (u.loadState = .idle) ∧ (b = some im) ∧ (planRefusal u (rf r 191 128) im = 0) ∧
      (ridgeTargets u = [])) ∧
    (∃ (q : Nat) (i : Nat) (s : State) (c : Nat), (s.loadState = .loading) ∧ (runningCmd s 0x50 = some (q, i)) ∧ (c ≠ 0x0A03)) ∧
    (∃ (q : Nat) (i : Nat) (r : Rec64) (t : State) (s : State), (Instr.wf (.unload q i r) = true) ∧ (startable q i r s) ∧
      (begun q i r s = t) ∧ (rf r 223 192 ≠ runId s)) ∧
    (∃ (q : Nat) (i : Nat) (r : Rec64) (t : State) (s : State), (Instr.wf (.unload q i r) = true) ∧ (startable q i r s) ∧
      (begun q i r s = t) ∧ (rf r 223 192 = runId s) ∧ (unloadForced t r = false)) ∧
    (∃ (q : Nat) (i : Nat) (r : Rec64) (t : State) (s : State) (u : State), (Instr.wf (.unload q i r) = true) ∧
      (startable q i r s) ∧ (begun q i r s = t) ∧ (rf r 223 192 = runId s) ∧ (unloadForced t r = true) ∧
      (abandonStep (failWaiting q i t) = u)) :=
  ⟨⟨0, 5, record 0x50 [(128, 4096)], (readImage (rf (record 0x50 [(128, 4096)]) 191 128) (begun (0) (5) (record 0x50 [(128,
      4096)]) (withSet 40))).1, begun (0) (5) (record 0x50 [(128, 4096)]) (withSet 40), (readImage (rf (record 0x50 [(128,
      4096)]) 191 128) (begun (0) (5) (record 0x50 [(128, 4096)]) (withSet 40))).2, withSet 40,
      by refine ⟨?_, ?_, ?_, ?_, ?_⟩ <;> first | with_reducible rfl | (with_reducible exact (Option.some_get _).symm) | (with_reducible exact Prod.ext (Option.some_get _).symm rfl) | decide +kernel⟩,
   ⟨0, 5, record 0x50 [(128, 0x7FFFFFFFF)], _, _, (readImage (rf (record 0x50 [(128,
      0x7FFFFFFFF)]) 191 128) (begun (0) (5) (record 0x50 [(128, 0x7FFFFFFFF)]) (upQueue running))).2, upQueue running,
      by decide +kernel, by decide +kernel, rfl,
      by first | (with_reducible exact (Option.some_get _).symm) | (with_reducible exact Prod.ext (Option.some_get _).symm rfl) | decide +kernel,
      by decide +kernel, by decide +kernel, rfl⟩,
   ⟨0, 5, record 0x50 [(128, 4096)], (readImage (rf (record 0x50 [(128, 4096)]) 191 128) (begun (0) (5) (record 0x50 [(128,
      4096)]) (upQueue running))).1, begun (0) (5) (record 0x50 [(128, 4096)]) (upQueue running),
      (readImage (rf (record 0x50 [(128, 4096)]) 191 128) (begun (0) (5) (record 0x50 [(128, 4096)]) (upQueue running))).2,
      upQueue running, (Option.get (((readImage (rf (record 0x50 [(128, 4096)]) 191 128) (begun (0) (5) (record 0x50 [(128,
      4096)]) (upQueue running))).1)) (by decide +kernel)),
      by refine ⟨?_, ?_, ?_, ?_, ?_, ?_, ?_, ?_⟩ <;> first | with_reducible rfl | (with_reducible exact (Option.some_get _).symm) | (with_reducible exact Prod.ext (Option.some_get _).symm rfl) | decide +kernel⟩,
   ⟨0, 5, loadRecord, some image0, loadBegun, loadBegun, loadable, image0, candidate imageAt image0 (emptyRun loadBegun),
      by (refine ⟨?_, ?_, rfl, ?_, ?_, ?_, rfl, ?_, ?_, ?_, ?_⟩; decide +kernel; decide +kernel; exact Prod.ext (by decide +kernel) (by decide +kernel); decide +kernel; decide +kernel; (rw [show rf loadRecord 191 128 = imageAt from by decide +kernel]; exact image0_good); decide +kernel; decide +kernel; (rw [show rf loadRecord 191 128 = imageAt from by decide +kernel]))⟩,
   ⟨0, 5, loadRecord, some image0, loadAlone, loadAlone, { loadable with ridge := {} }, image0,
      by (refine ⟨?_, ?_, rfl, ?_, ?_, ?_, rfl, ?_, ?_⟩; decide +kernel; decide +kernel; exact Prod.ext (by decide +kernel) (by decide +kernel); decide +kernel; decide +kernel; (rw [show rf loadRecord 191 128 = imageAt from by decide +kernel]; exact image0_alone); decide +kernel)⟩,
   ⟨0, 4,
      { upQueue { running with cmds := [{ index := 4, record := record 0x50 [], phase := .running }] } with loadState := .loading },
      1, by decide +kernel⟩,
   ⟨0, 5, record 0x51 [(192, 8)], _, withSet 40, by decide +kernel, by decide +kernel, rfl, by decide +kernel⟩,
   ⟨0, 5, record 0x51 [(192, 0)], _, withSet 45, by decide +kernel, by decide +kernel, rfl, by decide +kernel⟩,
   ⟨0, 5, record 0x51 [(192, 0), (224, 1)], _, withSet 45, _, by decide +kernel, by decide +kernel, rfl, by decide +kernel,
      by decide +kernel, rfl⟩⟩

theorem test_meets_PoolingMessages :
    (∃ (m : Msg) (s : State), (Instr.wf (.indexRun m) = true) ∧ (serves s = true) ∧ (m ∈ s.fabric.delivered)) ∧
    (∃ (m : Msg) (s : State), (curStep s + 1 < field m.body 0 8)) ∧
    (∃ (m : Msg) (s : State) (r : Nat × State), (Instr.wf (.bandPartial m) = true) ∧ (serves s = true) ∧
      (m ∈ s.fabric.delivered) ∧ (takeBands m (received m s) = r)) ∧
    (∃ (m : Msg) (s : State), (batchOf s (field m.body 8 1) (field m.body 0 8) = none)) ∧
    (∃ (m : Msg) (s : State) (t : Batch), (batchOf s (field m.body 8 1) (field m.body 0 8) = some t) ∧
      (pastGather s (field m.body 0 8) = false) ∧ (admits s m.region m.body.length false = false) ∧ ((∀ e es,
      bandEntries m.body = e :: es → nextPart s t e.1 (field m.body 12 2) (field m.body 14 1) = false))) ∧
    (∃ (m : Msg) (s : State) (r : Nat × State), (Instr.wf (.gradMsg m) = true) ∧ (serves s = true) ∧ (m ∈ s.fabric.delivered) ∧
      (takeGrad m (received m s) = r)) ∧
    (∃ (m : Msg) (g : GradMsg) (s : State), (gradMsgOf m.body = g) ∧ (s.twin.failStep ≠ some g.step) ∧
      ((∃ r ∈ msgRegions s g m.region, verdict s r g = .later))) ∧
    (∃ (m : Msg) (g : GradMsg) (s : State) (x : Nat), (gradMsgOf m.body = g) ∧ (s.twin.failStep ≠ some g.step) ∧
      (msgRegions s g m.region = [x]) ∧ ((msgRetained s g).isEmpty = false) ∧ (verdict s x g = .accept)) ∧
    (∃ (m : Msg) (s : State), (isState s .outOfService = true) ∧ (m ∈ s.fabric.delivered) ∧ (m.op = 0x10) ∧
      (Instr.wf (.indexRun m) = true)) ∧
    (∃ (m : Msg) (s : State), (isState s .outOfService = true) ∧ (m ∈ s.fabric.delivered) ∧ (m.op = 0x11) ∧
      (Instr.wf (.bandPartial m) = true)) ∧
    (∃ (m : Msg) (s : State), (isState s .outOfService = true) ∧ (m ∈ s.fabric.delivered) ∧ (m.op = 0x12) ∧
      (Instr.wf (.gradMsg m) = true)) ∧
    (∃ (s : State) (g : Nat) (m : GradMsg), (malformed s m ((msgRetained s m).filter fun o => occRegion s o == g) = true)) ∧
    (∃ (s : State) (g : Nat) (m : GradMsg), (malformed s m ((msgRetained s m).filter fun o => occRegion s o == g) = false) ∧
      (ownSlices s m = false)) :=
  ⟨⟨({ op := 0x10, src := 1 } : Msg),
      { withSet 44 with fabric := { up.fabric with delivered := [({ op := 0x10, src := 1 } : Msg)] } }, by decide +kernel⟩,
   ⟨({ op := 0x10, src := 1, body := natLe 8 7 } : Msg), withSet 40, by decide +kernel⟩,
   ⟨({ op := 0x11, src := 1 } : Msg),
      { withSet 44 with fabric := { up.fabric with delivered := [({ op := 0x11, src := 1 } : Msg)] } }, _, by decide +kernel,
      by decide +kernel, by decide +kernel, rfl⟩,
   ⟨({ op := 0x11, src := 1 } : Msg), withSet 40, by decide +kernel⟩,
   ⟨({ op := 0x11, src := 1, body := natLe 8 5 ++ [3, 1, 0, 0, 0, 0, 0, 0, 1, 0, 0, 0] ++ zeros 12 ++ natLe 8 0x90002 ++ zeros 72 } : Msg),
      { withSet 40 with step := { batches := [{ batch0 with bags := [{ sample := 0, table := 2, variant := 0, indices := [(0, 0, 0)] }] }], staged := [{ region := 0, msg := { step := 5, t := 0, firstSample := 0, table := 2, set := 3, variant := 0, source := 0, format := 0, samples := 1, slices := 1, firstSlice := 0, sender := 0, values := [] } }] }, plan := { (withSet 40).plan with stagingKib := 0 } },
      (Option.get (batchOf ({ withSet 40 with step := { batches := [{ batch0 with bags := [{ sample := 0, table := 2, variant := 0, indices := [(0, 0, 0)] }] }], staged := [{ region := 0, msg := { step := 5, t := 0, firstSample := 0, table := 2, set := 3, variant := 0, source := 0, format := 0, samples := 1, slices := 1, firstSlice := 0, sender := 0, values := [] } }] }, plan := { (withSet 40).plan with stagingKib := 0 } }) (field (({ op := 0x11, src := 1, body := natLe 8 5 ++ [3, 1, 0, 0, 0, 0, 0, 0, 1, 0, 0, 0] ++ zeros 12 ++ natLe 8 0x90002 ++ zeros 72 } : Msg)).body 8 1) (field (({ op := 0x11, src := 1, body := natLe 8 5 ++ [3, 1, 0, 0, 0, 0, 0, 0, 1, 0, 0, 0] ++ zeros 12 ++ natLe 8 0x90002 ++ zeros 72 } : Msg)).body 0 8)) (by decide +kernel)),
      by (refine ⟨?_, ?_, ?_, fun e es h => ?_⟩; (with_reducible exact (Option.some_get _).symm); decide +kernel; decide +kernel; (have g : (bandEntries (natLe 8 5 ++ [3, 1, 0, 0, 0, 0, 0, 0, 1, 0, 0, 0] ++ zeros 12 ++ natLe 8 0x90002 ++ zeros 72)).head? = some e := (by rw [h]; rfl)); (have k : (bandEntries (natLe 8 5 ++ [3, 1, 0, 0, 0, 0, 0, 0, 1, 0, 0, 0] ++ zeros 12 ++ natLe 8 0x90002 ++ zeros 72)).head? = some (0x90002, List.replicate 16 0) := by decide +kernel); rw [k] at g; obtain rfl := Option.some.inj g; decide +kernel)⟩,
   ⟨gradMsg0 5 0 1 0, graded 41 (gradMsg0 5 0 1 0), _, by decide +kernel, by decide +kernel, by decide +kernel, rfl⟩,
   ⟨gradMsg0 6 1 1 0, _, { graded 41 (gradMsg0 6 1 1 0) with dict := { force := [(E.EARLY_QUEUE_KIB, 0)] } }, rfl,
      by decide +kernel⟩,
   ⟨gradMsg0 5 0 1 0, _, graded 41 (gradMsg0 5 0 1 0), 2, rfl, by decide +kernel⟩,
   ⟨({ op := 0x10, src := 1 } : Msg),
      { withSet 44 with fabric := { up.fabric with delivered := [({ op := 0x10, src := 1 } : Msg)] }, life := { up.life with modState := .outOfService } },
      by decide +kernel⟩,
   ⟨({ op := 0x11, src := 1 } : Msg),
      { withSet 44 with fabric := { up.fabric with delivered := [({ op := 0x11, src := 1 } : Msg)] }, life := { up.life with modState := .outOfService } },
      by decide +kernel⟩,
   ⟨({ op := 0x12, src := 1 } : Msg),
      { withSet 44 with fabric := { up.fabric with delivered := [({ op := 0x12, src := 1 } : Msg)] }, life := { up.life with modState := .outOfService } },
      by decide +kernel⟩,
   ⟨graded 41 (gradMsg0 5 0 1 0), 2, gradMsgOf (gradBody 5 0 0 0), by decide +kernel⟩,
   ⟨graded 41 (gradMsg0 5 0 1 0), 2, gradMsgOf (gradBody 5 0 1 1), by decide +kernel⟩⟩

theorem test_meets_ReductionMessages :
    (∃ (m : Msg) (s : State) (r : Nat × State), (Instr.wf (.shardGrad m) = true) ∧ (serves s = true) ∧
      (m ∈ s.fabric.delivered) ∧ (takeShard m (received m s) = r)) ∧
    (∃ (m : Msg) (s : State), ((ownsShard s (field m.body 8 4) = false ∨ shardRef s (field m.body 8 4) = none))) ∧
    (∃ (m : Msg) (s : State), (ownsShard s (field m.body 8 4) = true) ∧ ((shardRef s (field m.body 8 4)).isSome = true) ∧
      (field m.body 0 8 ≠ curStep s)) ∧
    (∃ (m : Msg) (s : State) (r : Nat × State), (Instr.wf (.shardMulticast m) = true) ∧ (serves s = true) ∧
      (m ∈ s.fabric.delivered) ∧ (takeCast m (received m s) = r)) ∧
    (∃ (m : Msg) (s : State), (shardRef s (field m.head 8 4) = none)) ∧
    (∃ (m : Msg) (s : State) (r : Nat × State), (Instr.wf (.ledgerUp m) = true) ∧ (serves s = true) ∧ (m ∈ s.fabric.delivered) ∧
      (takeLedgerUp m (received m s) = r)) ∧
    (∃ (m : Msg) (s : State), (field m.body 0 8 ≠ curStep s)) ∧
    (∃ (m : Msg) (s : State) (r : Nat × State), (Instr.wf (.ledgerDown m) = true) ∧ (serves s = true) ∧
      (m ∈ s.fabric.delivered) ∧ (takeLedgerDown m (received m s) = r)) ∧
    (∃ (m : Msg) (s : State), (hasNorm s (field m.body 0 8) = true)) ∧
    (∃ (m : Msg) (s : State) (r : Nat × State), (Instr.wf (.stepReport m) = true) ∧ (serves s = true) ∧
      (m ∈ s.fabric.delivered) ∧ (takeReportMsg m (received m s) = r)) ∧
    (∃ (n : Nat) (k : Nat) (s : State), ((s.holds.reports.any fun r => r.1 == n && r.2.1 == k) = true)) ∧
    (∃ (m : Msg) (s : State), (Instr.wf (.stepVerdict m) = true) ∧ (serves s = true) ∧ (m ∈ s.fabric.delivered)) ∧
    (∃ (n : Nat) (s : State), (s.holds.verdictFor = some n)) ∧
    (∃ (n : Nat) (s : State), (s.holds.verdictFor ≠ some n)) :=
  ⟨⟨({ op := 0x13, src := 1 } : Msg),
      { withSet 44 with fabric := { up.fabric with delivered := [({ op := 0x13, src := 1 } : Msg)] } }, _, by decide +kernel,
      by decide +kernel, by decide +kernel, rfl⟩,
   ⟨({ op := 0x13, src := 1 } : Msg), withSet 44, by decide +kernel⟩,
   ⟨({ op := 0x13, src := 1, body := natLe 8 6 ++ zeros 4 } : Msg),
      { tensored [dense1] with plan := { (tensored []).plan with shardGroups := 1 } }, by decide +kernel⟩,
   ⟨({ op := 0x16, src := 1 } : Msg),
      { withSet 44 with fabric := { up.fabric with delivered := [({ op := 0x16, src := 1 } : Msg)] } }, _, by decide +kernel,
      by decide +kernel, by decide +kernel, rfl⟩,
   ⟨({ op := 0x16, src := 1, head := natLe 8 5 ++ natLe 4 1 } : Msg),
      { tensored [dense1] with plan := { (tensored []).plan with shardGroups := 1 } }, by decide +kernel⟩,
   ⟨({ op := 0x14, src := 1 } : Msg),
      { withSet 44 with fabric := { up.fabric with delivered := [({ op := 0x14, src := 1 } : Msg)] } }, _, by decide +kernel,
      by decide +kernel, by decide +kernel, rfl⟩,
   ⟨({ op := 0x14, src := 1 } : Msg), withSet 40, by decide +kernel⟩,
   ⟨({ op := 0x15, src := 1 } : Msg),
      { withSet 44 with fabric := { up.fabric with delivered := [({ op := 0x15, src := 1 } : Msg)] } }, _, by decide +kernel,
      by decide +kernel, by decide +kernel, rfl⟩,
   ⟨({ op := 0x15, src := 1, body := natLe 8 5 } : Msg), { withSet 40 with step := { norms := [(5, 0, 0)] } },
      by decide +kernel⟩,
   ⟨({ op := 0x17, src := 1 } : Msg),
      { withSet 44 with fabric := { up.fabric with delivered := [({ op := 0x17, src := 1 } : Msg)] } }, _, by decide +kernel,
      by decide +kernel, by decide +kernel, rfl⟩,
   ⟨5, 0, { withSet 40 with holds := { reports := [(5, 0, 0, [])] } }, by decide +kernel⟩,
   ⟨({ op := 0x18, src := 1 } : Msg),
      { withSet 44 with fabric := { up.fabric with delivered := [({ op := 0x18, src := 1 } : Msg)] } }, by decide +kernel⟩,
   ⟨5, { withSet 40 with holds := { verdictFor := some 5 } }, by decide +kernel⟩,
   ⟨5, withSet 40, by decide +kernel⟩⟩

theorem test_meets_DrainGradients :
    (∃ (g : Nat) (x : Staged) (s : State), (Instr.wf (.gradConsume g) = true) ∧ (nextStaged s g = some x) ∧
      (pastGather s x.msg.step = true)) ∧
    (∃ (g : Nat) (s : State), (Instr.wf (.gradConsume g) = true) ∧ (nextStaged s g = none)) ∧
    (∃ (g : Nat) (k : Nat) (t : Nat) (r : Nat) (v : Nat) (c : Nat) (a : Acc) (td : TableSet × TableDecl) (nc : W32 × W32) (w : State) (s : State),
      (Instr.wf (.targetSliceApply g k t r v c) = true) ∧ ((s.step.accs.find? fun a => applies s a g k t r v c) = some a) ∧
      (((tableSet s k).bind fun ts => (tableOf ts t).map fun d => (ts, d)) = some td) ∧ (stepNorm s (curStep s) = some nc) ∧
      (resolveReads td.1 td.2 r v s = w) ∧ (awaitsLower w td.1 td.2 r v c = true)) ∧
    (∃ (g : Nat) (k : Nat) (t : Nat) (r : Nat) (v : Nat) (c : Nat) (a : Acc) (td : TableSet × TableDecl) (nc : W32 × W32) (w : State) (s : State) (m : List W32 × Tally) (u : Option (Nat × Bool × Bool) × State),
      (Instr.wf (.targetSliceApply g k t r v c) = true) ∧ ((s.step.accs.find? fun a => applies s a g k t r v c) = some a) ∧
      (((tableSet s k).bind fun ts => (tableOf ts t).map fun d => (ts, d)) = some td) ∧ (stepNorm s (curStep s) = some nc) ∧
      (resolveReads td.1 td.2 r v s = w) ∧ (awaitsLower w td.1 td.2 r v c = false) ∧
      (m = (if w.plan.paired then mirrorRound (elemAt w td.1 td.2 (curStep s) r v c) a.values else (a.values, {}))) ∧
      (u = updateSlice (curStep s) td.1 td.2 r v c a.count m.1 nc.1 nc.2 (countTally m.2 (putAcc { a with applied := true } w))) ∧
      (u.1 = none)) ∧
    (∃ (g : Nat) (k : Nat) (t : Nat) (r : Nat) (v : Nat) (c : Nat) (a : Acc) (td : TableSet × TableDecl) (nc : W32 × W32) (w : State) (s : State) (m : List W32 × Tally) (u : Option (Nat × Bool × Bool) × State) (h : Nat × Bool × Bool),
      (Instr.wf (.targetSliceApply g k t r v c) = true) ∧ ((s.step.accs.find? fun a => applies s a g k t r v c) = some a) ∧
      (((tableSet s k).bind fun ts => (tableOf ts t).map fun d => (ts, d)) = some td) ∧ (stepNorm s (curStep s) = some nc) ∧
      (resolveReads td.1 td.2 r v s = w) ∧ (awaitsLower w td.1 td.2 r v c = false) ∧
      (m = (if w.plan.paired then mirrorRound (elemAt w td.1 td.2 (curStep s) r v c) a.values else (a.values, {}))) ∧
      (u = updateSlice (curStep s) td.1 td.2 r v c a.count m.1 nc.1 nc.2 (countTally m.2 (putAcc { a with applied := true } w))) ∧
      (u.1 = some h)) ∧
    (∃ (g : Nat) (k : Nat) (t : Nat) (r : Nat) (v : Nat) (c : Nat) (s : State),
      (Instr.wf (.targetSliceApply g k t r v c) = true) ∧
      ((s.step.accs.find? fun a => applies s a g k t r v c) = none ∨ stepNorm s (curStep s) = none)) ∧
    (∃ (ts : TableSet) (d : TableDecl) (r : Nat) (v : Nat) (c : Nat) (h : Nat) (b : Bool) (l : Nat) (s : State),
      (locate s ts d r v c = .at h b) ∧ (burinLane s (recordArea s (homeGroup s d r) d ts.mode b) h ts.mode d.table = l) ∧
      ((skips l ts.mode h s).1 = true)) ∧
    (∃ (ts : TableSet) (d : TableDecl) (r : Nat) (v : Nat) (c : Nat) (h : Nat) (b : Bool) (l : Nat) (s : State),
      (locate s ts d r v c = .at h b) ∧ (burinLane s (recordArea s (homeGroup s d r) d ts.mode b) h ts.mode d.table = l) ∧
      ((skips l ts.mode h s).1 = false)) ∧
    (∃ (mode : Nat) (h : Nat) (s : State), ((readRecord h 0 (recSectors mode) s).1.2.any markPoison = false) ∧
      (isFrozen mode (readRecord h 0 (recSectors mode) s).1.1 = true)) ∧
    (∃ (mode : Nat) (h : Nat) (s : State), ((readRecord h 0 (recSectors mode) s).1.2.any markPoison = true)) :=
  ⟨⟨2, ({ region := 2, msg := gradMsgOf (gradBody 5 0 1 0) } : Staged),
      { withSet 41 with step := { batches := [batch0], occs := [occ0], staged := [({ region := 2, msg := gradMsgOf (gradBody 5 0 1 0) } : Staged)] } },
      by decide +kernel⟩,
   ⟨2, withSet 41, by decide +kernel⟩,
   ⟨2, 3, 2, 0, 2, 0, acc0 2, ({ set3 0 with variants := 3 }, table2),
      (Option.get (stepNorm ({ withSet 44 with sets := [{ set3 0 with variants := 3 }], step := { accs := [acc0 1, acc0 2], norms := [(4, 0, 0x3F800000), (5, 0, 0x3F800000)] } }) (curStep ({ withSet 44 with sets := [{ set3 0 with variants := 3 }], step := { accs := [acc0 1, acc0 2], norms := [(4, 0, 0x3F800000), (5, 0, 0x3F800000)] } }))) (by decide +kernel)),
      _, { withSet 44 with sets := [{ set3 0 with variants := 3 }], step := { accs := [acc0 1, acc0 2], norms := [(4, 0, 0x3F800000), (5, 0, 0x3F800000)] } }, by decide +kernel, by decide +kernel, by decide +kernel, by first | (with_reducible exact (Option.some_get _).symm) | (with_reducible exact Prod.ext (Option.some_get _).symm rfl) | decide +kernel, rfl, by decide +kernel⟩,
   ⟨2, 3, 2, 0, 1, 0, acc0 1, ({ set3 0 with variants := 2 }, table2),
      (Option.get (stepNorm ({ withSet 44 with sets := [{ set3 0 with variants := 2 }], step := { accs := [acc0 1], newOverlays := [{ region := 2, set := 3, table := 2, row := 0, variant := 1, record := none }], norms := [(4, 0, 0x3F800000), (5, 0, 0x3F800000)] } }) (curStep ({ withSet 44 with sets := [{ set3 0 with variants := 2 }], step := { accs := [acc0 1], newOverlays := [{ region := 2, set := 3, table := 2, row := 0, variant := 1, record := none }], norms := [(4, 0, 0x3F800000), (5, 0, 0x3F800000)] } }))) (by decide +kernel)),
      _, { withSet 44 with sets := [{ set3 0 with variants := 2 }], step := { accs := [acc0 1], newOverlays := [{ region := 2, set := 3, table := 2, row := 0, variant := 1, record := none }], norms := [(4, 0, 0x3F800000), (5, 0, 0x3F800000)] } }, _, _, by decide +kernel, by decide +kernel, by decide +kernel, by first | (with_reducible exact (Option.some_get _).symm) | (with_reducible exact Prod.ext (Option.some_get _).symm rfl) | decide +kernel, rfl, by decide +kernel, rfl, rfl, by decide +kernel⟩,
   ⟨2, 3, 2, 0, 0, 0, acc0 0, (set3 0, table2),
      (Option.get (stepNorm ({ withSet 44 with step := { accs := [acc0 0], norms := [(4, 0, 0x3F800000), (5, 0, 0x3F800000)] } }) (curStep ({ withSet 44 with step := { accs := [acc0 0], norms := [(4, 0, 0x3F800000), (5, 0, 0x3F800000)] } }))) (by decide +kernel)),
      _, { withSet 44 with step := { accs := [acc0 0], norms := [(4, 0, 0x3F800000), (5, 0, 0x3F800000)] } }, _, _,
      (Option.get ((updateSlice (curStep ({ withSet 44 with step := { accs := [acc0 0], norms := [(4, 0, 0x3F800000), (5, 0, 0x3F800000)] } })) ((set3 0,
      table2)).1 ((set3 0, table2)).2 (0) (0) (0) (acc0 0).count ((if (resolveReads ((set3 0, table2)).1 ((set3 0,
      table2)).2 (0) (0) ({ withSet 44 with step := { accs := [acc0 0], norms := [(4, 0, 0x3F800000), (5, 0, 0x3F800000)] } })).plan.paired then mirrorRound (elemAt (resolveReads ((set3 0,
      table2)).1 ((set3 0,
      table2)).2 (0) (0) ({ withSet 44 with step := { accs := [acc0 0], norms := [(4, 0, 0x3F800000), (5, 0, 0x3F800000)] } })) ((set3 0,
      table2)).1 ((set3 0,
      table2)).2 (curStep ({ withSet 44 with step := { accs := [acc0 0], norms := [(4, 0, 0x3F800000), (5, 0, 0x3F800000)] } })) (0) (0) (0)) (acc0 0).values else ((acc0 0).values,
      {}))).1 ((Option.get (stepNorm ({ withSet 44 with step := { accs := [acc0 0], norms := [(4, 0, 0x3F800000), (5, 0, 0x3F800000)] } }) (curStep ({ withSet 44 with step := { accs := [acc0 0], norms := [(4, 0, 0x3F800000), (5, 0, 0x3F800000)] } }))) (by decide +kernel))).1 ((Option.get (stepNorm ({ withSet 44 with step := { accs := [acc0 0], norms := [(4, 0, 0x3F800000), (5, 0, 0x3F800000)] } }) (curStep ({ withSet 44 with step := { accs := [acc0 0], norms := [(4, 0, 0x3F800000), (5, 0, 0x3F800000)] } }))) (by decide +kernel))).2 (countTally ((if (resolveReads ((set3 0,
      table2)).1 ((set3 0,
      table2)).2 (0) (0) ({ withSet 44 with step := { accs := [acc0 0], norms := [(4, 0, 0x3F800000), (5, 0, 0x3F800000)] } })).plan.paired then mirrorRound (elemAt (resolveReads ((set3 0,
      table2)).1 ((set3 0,
      table2)).2 (0) (0) ({ withSet 44 with step := { accs := [acc0 0], norms := [(4, 0, 0x3F800000), (5, 0, 0x3F800000)] } })) ((set3 0,
      table2)).1 ((set3 0,
      table2)).2 (curStep ({ withSet 44 with step := { accs := [acc0 0], norms := [(4, 0, 0x3F800000), (5, 0, 0x3F800000)] } })) (0) (0) (0)) (acc0 0).values else ((acc0 0).values,
      {}))).2 (putAcc { (acc0 0) with applied := true } (resolveReads ((set3 0, table2)).1 ((set3 0,
      table2)).2 (0) (0) ({ withSet 44 with step := { accs := [acc0 0], norms := [(4, 0, 0x3F800000), (5, 0, 0x3F800000)] } }))))).1) (by decide +kernel)),
      by decide +kernel, by decide +kernel, by decide +kernel,
      by first | (with_reducible exact (Option.some_get _).symm) | (with_reducible exact Prod.ext (Option.some_get _).symm rfl) | decide +kernel,
      rfl, by decide +kernel, rfl, rfl,
      by first | (with_reducible exact (Option.some_get _).symm) | (with_reducible exact Prod.ext (Option.some_get _).symm rfl) | decide +kernel⟩,
   ⟨2, 3, 2, 0, 0, 0, withSet 44, by decide +kernel⟩,
   ⟨set3 0, table2, 0, 0, 0, baseRecord (withSet 44) (set3 0) table2 0 0, false, _, storedRow (zeros 112) (2 ^ 20) 0,
      by decide +kernel, rfl, by decide +kernel⟩,
   ⟨set3 0, table2, 0, 0, 0, baseRecord (withSet 44) (set3 0) table2 0 0, false, _, storedRow (zeros 112) 0 0,
      by decide +kernel, rfl, by decide +kernel⟩,
   ⟨0, baseRecord (withSet 44) (set3 0) table2 0 0, storedRow (zeros 48 ++ [2] ++ zeros 63) 0 0, by decide +kernel⟩,
   ⟨0, baseRecord (withSet 44) (set3 0) table2 0 0, storedRow (zeros 112) (2 ^ 20) 0, by decide +kernel⟩⟩

theorem test_meets_AxisAndReadiness :
    (∃ (p : Packet) (s : State), (Instr.wf (.axisSignal p) = true) ∧ (performs p s) ∧ (s.ridge.source = p.srcModule) ∧
      (let r := axisTake (leNat p.data) (if axis (taken p s) < leNat p.data then boundNow (taken p s) else taken p s); r.1 = true) ∧
      (s.ridge.state ≠ .noKeeper)) ∧
    (∃ (p : Packet) (s : State), (Instr.wf (.axisSignal p) = true) ∧ (performs p s) ∧ (s.ridge.source = p.srcModule) ∧
      (let r := axisTake (leNat p.data) (if axis (taken p s) < leNat p.data then boundNow (taken p s) else taken p s); r.1 = false)) ∧
    (∃ (p : Packet) (s : State), (Instr.wf (.axisSignal p) = true) ∧ (performs p s) ∧ (s.ridge.source ≠ p.srcModule)) ∧
    (∃ (v : Nat), (v < 2 ^ 64)) ∧
    (∃ (v : Nat) (s : State), (nextPoint (axis s) = v) ∧ (takesPart s = true) ∧ (s.ridge.reported ≠ some v) ∧
      (readyFor v (beforeReport v s) = true)) ∧
    (∃ (p : Packet) (s : State), (Instr.wf (.readySignal p) = true) ∧ (performs p s)) ∧
    (∃ (m : Nat) (v : Nat) (s : State), (keepsState s = true) ∧ (nextPoint s.ridge.keeper.point = v) ∧
      ((s.ridge.keeper.participants.any fun p => p.moduleNumber == m) = true)) ∧
    (∃ (v : Nat) (s : State), (nextPoint s.ridge.keeper.point = v) ∧ (isKeeper s = true) ∧ (allReported s.ridge.keeper = true) ∧
      (runBlocks s.ridge.keeper v = false)) ∧
    (∃ (s : State), (isKeeper s = false ∨ allReported s.ridge.keeper = false)) ∧
    (∃ (s : State), (isKeeper s = true)) :=
  ⟨⟨pkt 4 (pegBase + 64 * 4095) (natLe 8 41), member 40, by decide +kernel⟩,
   ⟨pkt 4 (pegBase + 64 * 4095) (natLe 8 40), member 40, by decide +kernel⟩,
   ⟨pkt 4 (pegBase + 64 * 4095) (natLe 8 41), { member 40 with ridge := { source := 2 } }, by decide +kernel⟩,
   ⟨2 ^ 64 - 1, by decide +kernel⟩,
   ⟨41, { member 40 with step := { opened := some 5 } }, by decide +kernel⟩,
   ⟨pkt 4 (pegBase + 64 * 4094) (natLe 8 41), member 40, by decide +kernel⟩,
   ⟨0, 41,
      { member 40 with ridge := { state := .keeper, source := 0, keeper := { point := 40, participants := [{ moduleNumber := 0, runId := 0, from_ := 0 }], reports := [(0, 41)] } } },
      by decide +kernel⟩,
   ⟨41, { member 40 with ridge := { state := .keeper, source := 0, keeper := { point := 40, participants := [{ moduleNumber := 0, runId := 0, from_ := 0 }], reports := [(0, 41)] } } }, by decide +kernel⟩,
   ⟨up, by decide +kernel⟩,
   ⟨{ member 40 with ridge := { state := .keeper, source := 0, keeper := { point := 40, participants := [{ moduleNumber := 0, runId := 0, from_ := 0 }], reports := [(0, 41)] } } },
      by decide +kernel⟩⟩

theorem test_meets_JoiningAndLeaving :
    (∃ (p : Packet) (s : State), (Instr.wf (.joinStepSignal p) = true) ∧ (performs p s)) ∧
    (∃ (s : State), (keepsState s = true)) ∧
    (∃ (p : Packet) (s : State), (Instr.wf (.joinSignal p) = true) ∧ (performs p s)) ∧
    (∃ (m : Nat) (i : Nat) (j : Nat × Nat) (s : State), (keepsState s = true) ∧
      ((s.ridge.keeper.participants.any fun p => p.runId == i) = false) ∧
      ((s.ridge.keeper.joinSteps.find? fun j => j.1 == m) = some j) ∧
      ((s.ridge.keeper.runs.find? fun r => r.runId == i) = none) ∧ (s.ridge.keeper.participants ≠ []) ∧
      (axisOf (j.2 - 1) 5 ≤ s.ridge.keeper.point)) ∧
    (∃ (m : Nat) (i : Nat) (n : Nat) (j : Nat × Nat) (s : State), (keepsState s = true) ∧
      ((s.ridge.keeper.participants.any fun p => p.runId == i) = false) ∧
      ((s.ridge.keeper.joinSteps.find? fun j => j.1 == m) = some j) ∧
      ((s.ridge.keeper.runs.find? fun r => r.runId == i) = none) ∧ (s.ridge.keeper.participants ≠ []) ∧
      (s.ridge.keeper.point < axisOf (j.2 - 1) 5) ∧ (1 < n)) ∧
    (∃ (m : Nat) (i : Nat) (s : State), (keepsState s = true) ∧
      ((s.ridge.keeper.participants.any fun p => p.runId == i) = false) ∧
      ((s.ridge.keeper.joinSteps.find? fun j => j.1 == m) = none)) ∧
    (∃ (p : Packet) (s : State), (Instr.wf (.leaveSignal p) = true) ∧ (performs p s)) ∧
    (∃ (s : State), (keepsState s = true) ∧ (isKeeper s = false)) ∧
    (∃ (p : Packet) (s : State), (Instr.wf (.excludeSignal p) = true) ∧ (performs p s) ∧ (p.srcModule = s.ridge.source)) ∧
    (∃ (p : Packet) (s : State), (Instr.wf (.admitSignal p) = true) ∧ (performs p s) ∧ (p.srcModule = s.ridge.source)) ∧
    (∃ (p : Packet) (s : State), (Instr.wf (.admitSignal p) = true) ∧ (performs p s) ∧ (p.srcModule ≠ s.ridge.source)) ∧
    (∃ (b : Nat) (t : State) (s : State), (s.ridge.keeper.newStandby = some b) ∧ (isKeeper s = true) ∧
      (s.ridge.keeper.runs = []) ∧ (s.ridge.keeper.participants ≠ []) ∧ (b ≠ myNumber s) ∧
      (forEach s.ridge.keeper.participants (fun p => ridgeSend b 4089 (p.moduleNumber + p.runId * 2 ^ 32) .admitted) s = t)) :=
  ⟨⟨pkt 4 (pegBase + 64 * 4089) (natLe 8 7), member 40, by decide +kernel⟩,
   ⟨keeping .standby 40 [], by decide +kernel⟩,
   ⟨pkt 4 (pegBase + 64 * 4089) (natLe 8 7), member 40, by decide +kernel⟩,
   ⟨7, 5, (7, 9), keeping .keeper 69 one0, by decide +kernel⟩,
   ⟨7, 5, 2, (7, 9), keeping .keeper 68 one0, by decide +kernel⟩,
   ⟨8, 5, keeping .keeper 68 one0, by decide +kernel⟩,
   ⟨pkt 4 (pegBase + 64 * 4089) (natLe 8 7), member 40, by decide +kernel⟩,
   ⟨keeping .standby 40 [], by decide +kernel⟩,
   ⟨pkt 4 (pegBase + 64 * 4089) (natLe 8 7), member 40, by decide +kernel⟩,
   ⟨pkt 4 (pegBase + 64 * 4089) (natLe 8 7), member 40, by decide +kernel⟩,
   ⟨pkt 4 (pegBase + 64 * 4089) (natLe 8 7), { member 40 with ridge := { source := 2 } }, by decide +kernel⟩,
   ⟨5, _,
      { member 40 with ridge := { state := .keeper, source := 0, keeper := { point := 40, participants := one0, newStandby := some 5 } } },
      by decide +kernel, by decide +kernel, by decide +kernel, by decide +kernel, by decide +kernel, rfl⟩⟩

theorem test_meets_RidgelineLosses :
    (∃ (b : Nat) (s : State),
      (s.ridge.state = .waiting ∨ s.ridge.state = .following ∨ s.ridge.state = .standby ∨ s.ridge.state = .deposed) ∧
      (s.ridge.source = reg s E.RIDGE_KEEPER) ∧ (s.ridge.source ≠ 0xFFFF) ∧ (s.ridge.switched = false) ∧
      (s.ridge.standby = some b)) ∧
    (∃ (s : State),
      (s.ridge.state = .waiting ∨ s.ridge.state = .following ∨ s.ridge.state = .standby ∨ s.ridge.state = .deposed) ∧
      (s.ridge.source ≠ 0xFFFF) ∧ (s.ridge.switched = true ∨ s.ridge.standby = none)) ∧
    (∃ (s : State), (s.ridge.state = .standby) ∧ (s.ridge.switched = true) ∧ (s.ridge.source = myNumber s)) ∧
    (∃ (s : State), (isKeeper s = true) ∧ (setting s E.STEP_WATCHDOG_S ≠ 0) ∧
      ((s.ridge.keeper.reports.any fun r => r.2 % 8 == 7) = false) ∧
      (s.ridge.keeper.participants ≠ [] ∨ s.ridge.keeper.runs ≠ [])) ∧
    (∃ (v : Nat) (s : State), (Instr.wf (.boundDelayExpiry v) = true) ∧ (v ∈ s.ridge.bound)) ∧
    (∃ (q : Nat) (i : Nat) (w : PegWaitRec) (s : State), (Instr.wf (.pegWaitTimeout q i) = true) ∧
      ((s.pegs.waits.find? fun w => w.queue == q && w.index == i && w.cls != 0) = some w) ∧ (waitHolds s w = false)) :=
  ⟨⟨5, { up with ridge := { state := .following, source := 1, standby := some 5 }, dict := { regs := [(E.RIDGE_KEEPER, 1)] } },
      by decide +kernel⟩,
   ⟨{ up with ridge := { state := .standby, source := 1 } }, by decide +kernel⟩,
   ⟨{ up with ridge := { state := .standby, source := 0, switched := true } }, by decide +kernel⟩,
   ⟨keeping .keeper 40 one0, by decide +kernel⟩,
   ⟨3, { up with ridge := { bound := [3] } }, by decide +kernel⟩,
   ⟨0, 5, ({ die := 0, peg := 8, target := 1, cls := 1, queue := 0, index := 5, header := false } : PegWaitRec),
      { up with pegs := { waits := [({ die := 0, peg := 8, target := 1, cls := 1, queue := 0, index := 5, header := false } : PegWaitRec)] } },
      by decide +kernel⟩⟩

theorem test_meets_MirrorLog :
    (∃ (i : Nat) (p : GPacket) (q : GPacket) (s : State) (t : State), (Instr.wf (.stepOperands i p) = true) ∧
      ({ p with path := i - 8 } = q) ∧ (gPerforms q s) ∧ (takeGArrival q s = t)) ∧
    (∃ (i : Nat) (p : GPacket) (q : GPacket) (s : State) (t : State), (Instr.wf (.stepMark i p) = true) ∧
      ({ p with path := i - 8 } = q) ∧ (gPerforms q s) ∧ (takeGArrival q s = t)) ∧
    (∃ (i : Nat) (p : GPacket) (q : GPacket) (s : State), (Instr.wf (.stepMark i p) = true) ∧ ({ p with path := i - 8 } = q) ∧
      (precededBy s q = true)) ∧
    (∃ (i : Nat) (p : GPacket) (q : GPacket) (nc : W32 × W32) (s : State) (t : State) (u : State),
      (Instr.wf (.mirrorLog i p) = true) ∧ ({ p with path := i - 8 } = q) ∧ (gPerforms q s) ∧ (takeGArrival q s = t) ∧
      (mirrorOpen t (nearStep t p.stepLo) = true) ∧ (gOpen t = true) ∧ (replayOperands t (nearStep t p.stepLo) = some nc) ∧
      (replayAll (nearStep t p.stepLo) p.die nc none ((pieces 40 p.data).map entry40) t = (false, u))) ∧
    (∃ (i : Nat) (p : GPacket) (q : GPacket) (nc : W32 × W32) (s : State) (t : State) (u : State),
      (Instr.wf (.mirrorLog i p) = true) ∧ ({ p with path := i - 8 } = q) ∧ (gPerforms q s) ∧ (takeGArrival q s = t) ∧
      (mirrorOpen t (nearStep t p.stepLo) = true) ∧ (gOpen t = true) ∧ (replayOperands t (nearStep t p.stepLo) = some nc) ∧
      (replayAll (nearStep t p.stepLo) p.die nc none ((pieces 40 p.data).map entry40) t = (true, u))) ∧
    (∃ (i : Nat) (p : GPacket) (q : GPacket) (s : State) (t : State), (Instr.wf (.mirrorLog i p) = true) ∧
      ({ p with path := i - 8 } = q) ∧ (gPerforms q s) ∧ (takeGArrival q s = t) ∧
      (mirrorOpen t (nearStep t p.stepLo) = false)) ∧
    (∃ (ts : TableSet) (home : Nat) (s : State) (u : State), (pageHere s home = true) ∧
      (recordPoisoned home ts.mode s = (false, u))) ∧
    (∃ (ts : TableSet) (home : Nat) (s : State) (u : State), (pageHere s home = true) ∧ (recordPoisoned home ts.mode s = (true,
      u))) :=
  ⟨⟨11, greq 2 (zeros 8), _, pairedAt 44 1 .paired, _, by decide +kernel, rfl, by decide +kernel, rfl⟩,
   ⟨11, greq 3 [], _, pairedAt 44 1 .paired, _, by decide +kernel, rfl, by decide +kernel, rfl⟩,
   ⟨11, greq 3 [], _, { pairedAt 44 1 .paired with twin := { state := .paired, arrivals := [greq 1 [], greq 3 []] } },
      by decide +kernel, rfl, by decide +kernel⟩,
   ⟨11, greq 1 [], _,
      (Option.get (replayOperands (takeGArrival ({ (greq 1 []) with path := (11) - 8 }) (pairedAt 44 1 .paired)) (nearStep (takeGArrival ({ (greq 1 []) with path := (11) - 8 }) (pairedAt 44 1 .paired)) (greq 1 []).stepLo)) (by decide +kernel)),
      pairedAt 44 1 .paired, _,
      (replayAll (nearStep (takeGArrival ({ (greq 1 []) with path := (11) - 8 }) (pairedAt 44 1 .paired)) (greq 1 []).stepLo) (greq 1 []).die ((Option.get (replayOperands (takeGArrival ({ (greq 1 []) with path := (11) - 8 }) (pairedAt 44 1 .paired)) (nearStep (takeGArrival ({ (greq 1 []) with path := (11) - 8 }) (pairedAt 44 1 .paired)) (greq 1 []).stepLo)) (by decide +kernel))) none ((pieces 40 (greq 1 []).data).map entry40) (takeGArrival ({ (greq 1 []) with path := (11) - 8 }) (pairedAt 44 1 .paired))).2,
      by decide +kernel, rfl, by decide +kernel, rfl, by decide +kernel, by decide +kernel,
      by first | (with_reducible exact (Option.some_get _).symm) | (with_reducible exact Prod.ext (Option.some_get _).symm rfl) | decide +kernel,
      by first | (with_reducible exact (Option.some_get _).symm) | (with_reducible exact Prod.ext (Option.some_get _).symm rfl) | decide +kernel⟩,
   ⟨11, greq 1 (zeros 32 ++ [2] ++ zeros 7), _,
      (Option.get (replayOperands (takeGArrival ({ (greq 1 (zeros 32 ++ [2] ++ zeros 7)) with path := (11) - 8 }) (pairedAt 44 1 .paired)) (nearStep (takeGArrival ({ (greq 1 (zeros 32 ++ [2] ++ zeros 7)) with path := (11) - 8 }) (pairedAt 44 1 .paired)) (greq 1 (zeros 32 ++ [2] ++ zeros 7)).stepLo)) (by decide +kernel)),
      pairedAt 44 1 .paired, _,
      (replayAll (nearStep (takeGArrival ({ (greq 1 (zeros 32 ++ [2] ++ zeros 7)) with path := (11) - 8 }) (pairedAt 44 1 .paired)) (greq 1 (zeros 32 ++ [2] ++ zeros 7)).stepLo) (greq 1 (zeros 32 ++ [2] ++ zeros 7)).die ((Option.get (replayOperands (takeGArrival ({ (greq 1 (zeros 32 ++ [2] ++ zeros 7)) with path := (11) - 8 }) (pairedAt 44 1 .paired)) (nearStep (takeGArrival ({ (greq 1 (zeros 32 ++ [2] ++ zeros 7)) with path := (11) - 8 }) (pairedAt 44 1 .paired)) (greq 1 (zeros 32 ++ [2] ++ zeros 7)).stepLo)) (by decide +kernel))) none ((pieces 40 (greq 1 (zeros 32 ++ [2] ++ zeros 7)).data).map entry40) (takeGArrival ({ (greq 1 (zeros 32 ++ [2] ++ zeros 7)) with path := (11) - 8 }) (pairedAt 44 1 .paired))).2,
      by decide +kernel, rfl, by decide +kernel, rfl, by decide +kernel, by decide +kernel,
      by first | (with_reducible exact (Option.some_get _).symm) | (with_reducible exact Prod.ext (Option.some_get _).symm rfl) | decide +kernel,
      by first | (with_reducible exact (Option.some_get _).symm) | (with_reducible exact Prod.ext (Option.some_get _).symm rfl) | decide +kernel⟩,
   ⟨11, greq 1 [], _, pairedAt 48 1 .paired, _, by decide +kernel, rfl, by decide +kernel, rfl, by decide +kernel⟩,
   ⟨set3 0, baseRecord (withSet 44) (set3 0) table2 0 0, storedRow (zeros 112) 0 0,
      (recordPoisoned (baseRecord (withSet 44) (set3 0) table2 0 0) (set3 0).mode (storedRow (zeros 112) 0 0)).2,
      by decide +kernel,
      by first | (with_reducible exact (Option.some_get _).symm) | (with_reducible exact Prod.ext (Option.some_get _).symm rfl) | decide +kernel⟩,
   ⟨set3 0, baseRecord (withSet 44) (set3 0) table2 0 0, storedRow (zeros 112) (2 ^ 20) 0,
      (recordPoisoned (baseRecord (withSet 44) (set3 0) table2 0 0) (set3 0).mode (storedRow (zeros 112) (2 ^ 20) 0)).2,
      by decide +kernel,
      by first | (with_reducible exact (Option.some_get _).symm) | (with_reducible exact Prod.ext (Option.some_get _).symm rfl) | decide +kernel⟩⟩

theorem test_meets_TwinCopies :
    (∃ (i : Nat) (p : GPacket) (q : GPacket) (l : Nat) (die : Nat) (k : Nat) (s : State) (t : State) (u : State) (v : State),
      (Instr.wf (.copyPage i p) = true) ∧ ({ p with path := i - 8 } = q) ∧ (gPerforms q s) ∧ (takeGArrival q s = t) ∧
      (t.twin.state = .copyTarget) ∧ (field p.data 0 8 = l) ∧ (l % 4 = die) ∧ (l / 32 * 8 + l / 8 % 4 * 2 + l / 4 % 2 = k) ∧
      (writeCopied (pageAt die k) (p.data.drop 8) t = u) ∧
      (gAnswer q 0 [] false (setTwin { u.twin with copyGot := sput 0 u.twin.copyGot die (max (sget 0 u.twin.copyGot die) (k + 1)) } u) = v) ∧
      (v.loadState ≠ .idle)) ∧
    (∃ (i : Nat) (p : GPacket) (q : GPacket) (l : Nat) (die : Nat) (k : Nat) (s : State) (t : State) (u : State) (v : State),
      (Instr.wf (.copyPage i p) = true) ∧ ({ p with path := i - 8 } = q) ∧ (gPerforms q s) ∧ (takeGArrival q s = t) ∧
      (t.twin.state = .copyTarget) ∧ (field p.data 0 8 = l) ∧ (l % 4 = die) ∧ (l / 32 * 8 + l / 8 % 4 * 2 + l / 4 % 2 = k) ∧
      (writeCopied (pageAt die k) (p.data.drop 8) t = u) ∧
      (gAnswer q 0 [] false (setTwin { u.twin with copyGot := sput 0 u.twin.copyGot die (max (sget 0 u.twin.copyGot die) (k + 1)) } u) = v) ∧
      (v.loadState = .idle) ∧ ((four.all fun d => (nextCopy v d (sget 0 v.twin.copyGot d)).isNone) = true)) ∧
    (∃ (i : Nat) (p : GPacket) (q : GPacket) (s : State) (t : State), (Instr.wf (.copyPage i p) = true) ∧
      ({ p with path := i - 8 } = q) ∧ (gPerforms q s) ∧ (takeGArrival q s = t) ∧ (t.twin.state ≠ .copyTarget)) ∧
    (∃ (i : Nat) (p : GPacket) (q : GPacket) (s : State) (t : State), (Instr.wf (.occurrences i p) = true) ∧
      ({ p with path := i - 8 } = q) ∧ (gPerforms q s) ∧ (takeGArrival q s = t)) ∧
    (∃ (i : Nat) (p : GPacket) (q : GPacket) (s : State) (t : State), (Instr.wf (.contributions i p) = true) ∧
      ({ p with path := i - 8 } = q) ∧ (gPerforms q s) ∧ (takeGArrival q s = t)) ∧
    (∃ (p : GPacket) (s : State),
      (((pieces 96 p.data).all fun e => (rowRegion s (field e 7 1) (field e 8 2) (field e 0 5)).isSome) = true)) ∧
    (∃ (p : GPacket) (s : State),
      (((pieces 96 p.data).all fun e => (rowRegion s (field e 7 1) (field e 8 2) (field e 0 5)).isSome) = false)) ∧
    (∃ (i : Nat) (p : GPacket) (q : GPacket) (s : State) (t : State), (Instr.wf (.rowChange i p) = true) ∧
      ({ p with path := i - 8 } = q) ∧ (gPerforms q s) ∧ (takeGArrival q s = t)) ∧
    (∃ (s : State), (atCommit s = false)) ∧
    (∃ (p : GPacket) (ts : TableSet) (d : TableDecl) (s : State) (t : State) (home : Nat), (atCommit s = true) ∧
      (rowDecl s (keyOf p.data).set (keyOf p.data).table = some (ts, d)) ∧
      (resolveReads ts d (keyOf p.data).row (keyOf p.data).variant s = t) ∧
      (rowTarget t ts d (keyOf p.data).row (keyOf p.data).variant (keyOf p.data).slice = some home)) ∧
    (∃ (p : GPacket) (ts : TableSet) (d : TableDecl) (s : State) (t : State), (atCommit s = true) ∧
      (rowDecl s (keyOf p.data).set (keyOf p.data).table = some (ts, d)) ∧
      (resolveReads ts d (keyOf p.data).row (keyOf p.data).variant s = t) ∧
      (rowTarget t ts d (keyOf p.data).row (keyOf p.data).variant (keyOf p.data).slice = none)) :=
  ⟨⟨11, greq 4 (natLe 8 6), _, 6, 2, 1, pairedAt 44 1 .copyTarget, _, _, _, by decide +kernel, rfl, by decide +kernel, rfl,
      by decide +kernel, by decide +kernel, by decide +kernel, by decide +kernel, rfl, rfl, by decide +kernel⟩,
   ⟨11, greq 4 (natLe 8 6), _, 6, 2, 1,
      { pairedAt 44 1 .copyTarget with loadState := .idle, twin := { state := .copyTarget, copyGot := [(0, 2 ^ 60), (1, 2 ^ 60), (2, 2 ^ 60), (3, 2 ^ 60)] } },
      _, _, _, by decide +kernel, rfl, by decide +kernel, rfl, by decide +kernel, by decide +kernel, by decide +kernel,
      by decide +kernel, rfl, rfl, by decide +kernel⟩,
   ⟨11, greq 4 (natLe 8 6), _, pairedAt 44 1 .copySource, _, by decide +kernel, rfl, by decide +kernel, rfl, by decide +kernel⟩,
   ⟨11, greq 5 (zeros 7 ++ [3, 2] ++ zeros 87), _, pairedAt 44 1 .paired, _, by decide +kernel, rfl, by decide +kernel, rfl⟩,
   ⟨11, greq 6 (zeros 7 ++ [3, 2] ++ zeros 87), _, pairedAt 44 1 .paired, _, by decide +kernel, rfl, by decide +kernel, rfl⟩,
   ⟨greq 5 (zeros 7 ++ [3, 2] ++ zeros 87),
      { pairedAt 44 0 .failedOver with twin := { state := .failedOver, failStep := some 5 } }, by decide +kernel⟩,
   ⟨greq 5 (zeros 7 ++ [4, 2] ++ zeros 87),
      { pairedAt 44 1 .failedOver with twin := { state := .failedOver, failStep := some 5 } }, by decide +kernel⟩,
   ⟨11, greq 7 (zeros 7 ++ [3, 2] ++ zeros 87), _, pairedAt 44 1 .paired, _, by decide +kernel, rfl, by decide +kernel, rfl⟩,
   ⟨pairedAt 44 1 .paired, by decide +kernel⟩,
   ⟨greq 7 (zeros 7 ++ [3, 2] ++ zeros 87), set3 0, table2, pairedAt 45 1 .paired, _,
      (Option.get (rowTarget (resolveReads (set3 0) (table2) (keyOf (greq 7 (zeros 7 ++ [3,
      2] ++ zeros 87)).data).row (keyOf (greq 7 (zeros 7 ++ [3,
      2] ++ zeros 87)).data).variant (pairedAt 45 1 .paired)) (set3 0) (table2) (keyOf (greq 7 (zeros 7 ++ [3,
      2] ++ zeros 87)).data).row (keyOf (greq 7 (zeros 7 ++ [3, 2] ++ zeros 87)).data).variant (keyOf (greq 7 (zeros 7 ++ [3,
      2] ++ zeros 87)).data).slice) (by decide +kernel)), by decide +kernel, by decide +kernel, rfl,
      by first | (with_reducible exact (Option.some_get _).symm) | (with_reducible exact Prod.ext (Option.some_get _).symm rfl) | decide +kernel⟩,
   ⟨greq 7 (zeros 5 ++ [1, 0, 3, 2] ++ zeros 87), set3 0, table2, pairedAt 45 1 .paired, _, by decide +kernel,
      by decide +kernel, rfl, by decide +kernel⟩⟩

theorem test_meets_TwinRepairAndLoss :
    (∃ (i : Nat) (p : GPacket) (q : GPacket) (h : Nat) (m : Nat) (s : State) (t : State) (b : Bytes) (l : List Nat) (u : State),
      (Instr.wf (.repairRequest i p) = true) ∧ ({ p with path := i - 8 } = q) ∧ (gPerforms q s) ∧
      (keyRead (keyOf p.data) (takeGArrival q s) = t) ∧ (s.loadState = .loaded) ∧ (keyHome t (keyOf p.data) = some (h, m)) ∧
      (readRecord h 0 (recSectors m) t = ((b, l), u)) ∧ (l.any markPoison = true)) ∧
    (∃ (i : Nat) (p : GPacket) (q : GPacket) (h : Nat) (m : Nat) (s : State) (t : State) (b : Bytes) (l : List Nat) (u : State),
      (Instr.wf (.repairRequest i p) = true) ∧ ({ p with path := i - 8 } = q) ∧ (gPerforms q s) ∧
      (keyRead (keyOf p.data) (takeGArrival q s) = t) ∧ (s.loadState = .loaded) ∧ (keyHome t (keyOf p.data) = some (h, m)) ∧
      (readRecord h 0 (recSectors m) t = ((b, l), u)) ∧ (l.any markPoison = false) ∧ (curStation u = 5)) ∧
    (∃ (i : Nat) (p : GPacket) (q : GPacket) (r : GReq) (s : State) (t : State), (Instr.wf (.twinRepairWrite i p) = true) ∧
      ({ p with path := i - 8 } = q) ∧ (precededBy s q = false) ∧ (gIsRequest q = false) ∧ (gGood q = true) ∧
      (takeGArrival q s = t) ∧ (findGReq t p.die p.tag = some r) ∧ (p.gop = r.packet.gop + 128) ∧ (p.status ≠ 0x0811) ∧
      (r.origin = .repair)) ∧
    (∃ (k : TargetKey) (b : Bytes) (w : State) (s : State) (r : Repair) (h : Nat × Nat) (u : State), (keyRead k w = s) ∧
      (s.mem.repairs.find? (repairIs k) = some r) ∧ (keyHome s k = some h) ∧ (curStation s = 5) ∧ (b.length = imageLen h.2) ∧
      (storeRecord h.1 (imagePayload b) (imageMarks b) (beforeRecordWrite h.1 h.2 (k.kind == 1) s) = u)) ∧
    (∃ (s : State), (Instr.wf .heartbeatSendExpiry = true) ∧ (s.twin.reading = false)) ∧
    (∃ (s : State), ((four.all fun d => (port s (8 + d)).state != .up) = true)) ∧
    (∃ (s : State) (t : State), (gOpen s = true) ∧ (s.twin.state ≠ .unpaired) ∧ (s.twin.state ≠ .severed) ∧
      (readLiveness (forced s E.TWIN_PEER) .liveness (setTwin { s.twin with beat := none } s) = t) ∧ (inTwinRun t = true)) ∧
    (∃ (s : State) (t : State), (gOpen s = true) ∧ (s.twin.state ≠ .unpaired) ∧ (s.twin.state ≠ .severed) ∧
      (readLiveness (forced s E.TWIN_PEER) .liveness (setTwin { s.twin with beat := none } s) = t) ∧ (inTwinRun t = false)) ∧
    (∃ (ok : Bool) (w : Nat) (s : State), (Instr.wf (.livenessDecision ok w) = true) ∧
      (s.twin.state = .paired ∨ s.twin.state = .copySource ∨ s.twin.state = .copyTarget) ∧ (inTwinRun s = true) ∧ (ok = true) ∧
      (liveIn s w = true) ∧ (mySide s = 1)) ∧
    (∃ (ok : Bool) (w : Nat) (s : State), (Instr.wf (.livenessDecision ok w) = true) ∧
      (s.twin.state = .paired ∨ s.twin.state = .copySource ∨ s.twin.state = .copyTarget) ∧ (inTwinRun s = true) ∧ (ok = true) ∧
      (liveIn s w = true) ∧ (mySide s ≠ 1)) ∧
    (∃ (ok : Bool) (w : Nat) (s : State), (Instr.wf (.livenessDecision ok w) = true) ∧
      (s.twin.state = .paired ∨ s.twin.state = .copySource ∨ s.twin.state = .copyTarget) ∧ (inTwinRun s = true) ∧
      (ok = false ∨ liveIn s w = false) ∧ (s.twin.state ≠ .copyTarget)) ∧
    (∃ (k : Nat) (s : State), (Instr.wf (.twinProbeExpiry k) = true) ∧ (s.loadState = .loaded) ∧ (k ≠ myOrder s) ∧
      (k < memberCount s) ∧
      (((myOrders s).any fun o => o != myOrder s && ((ledgerChildren s o).contains k || (o == pitchFirst s && (pitchMembers s).contains k))) = false) ∧
      (s.plan.paired = false ∨ isLost s k = false)) :=
  ⟨⟨11, greq 8 (zeros 7 ++ [3, 2] ++ zeros 87), _, baseRecord (withSet 44) (set3 0) table2 0 0, 0,
      storedRow (zeros 112) (2 ^ 20) 0, _,
      ((readRecord (baseRecord (withSet 44) (set3 0) table2 0 0) 0 (recSectors (0)) (keyRead (keyOf (greq 8 (zeros 7 ++ [3,
      2] ++ zeros 87)).data) (takeGArrival ({ (greq 8 (zeros 7 ++ [3, 2] ++ zeros 87)) with path := (11) - 8 }) (storedRow (zeros 112) (2 ^ 20) 0)))).1).1,
      ((readRecord (baseRecord (withSet 44) (set3 0) table2 0 0) 0 (recSectors (0)) (keyRead (keyOf (greq 8 (zeros 7 ++ [3,
      2] ++ zeros 87)).data) (takeGArrival ({ (greq 8 (zeros 7 ++ [3, 2] ++ zeros 87)) with path := (11) - 8 }) (storedRow (zeros 112) (2 ^ 20) 0)))).1).2,
      (readRecord (baseRecord (withSet 44) (set3 0) table2 0 0) 0 (recSectors (0)) (keyRead (keyOf (greq 8 (zeros 7 ++ [3,
      2] ++ zeros 87)).data) (takeGArrival ({ (greq 8 (zeros 7 ++ [3, 2] ++ zeros 87)) with path := (11) - 8 }) (storedRow (zeros 112) (2 ^ 20) 0)))).2,
      by decide +kernel, rfl, by decide +kernel, rfl, by decide +kernel, by decide +kernel,
      by first | (with_reducible exact (Option.some_get _).symm) | (with_reducible exact Prod.ext (Option.some_get _).symm rfl) | decide +kernel,
      by decide +kernel⟩,
   ⟨11, greq 8 (zeros 7 ++ [3, 2] ++ zeros 87), _, baseRecord (withSet 44) (set3 0) table2 0 0, 0,
      { storedRow (zeros 112) 0 0 with pegs := { values := [(4095, 45)] } }, _,
      ((readRecord (baseRecord (withSet 44) (set3 0) table2 0 0) 0 (recSectors (0)) (keyRead (keyOf (greq 8 (zeros 7 ++ [3,
      2] ++ zeros 87)).data) (takeGArrival ({ (greq 8 (zeros 7 ++ [3, 2] ++ zeros 87)) with path := (11) - 8 }) ({ storedRow (zeros 112) 0 0 with pegs := { values := [(4095, 45)] } })))).1).1,
      ((readRecord (baseRecord (withSet 44) (set3 0) table2 0 0) 0 (recSectors (0)) (keyRead (keyOf (greq 8 (zeros 7 ++ [3,
      2] ++ zeros 87)).data) (takeGArrival ({ (greq 8 (zeros 7 ++ [3, 2] ++ zeros 87)) with path := (11) - 8 }) ({ storedRow (zeros 112) 0 0 with pegs := { values := [(4095, 45)] } })))).1).2,
      (readRecord (baseRecord (withSet 44) (set3 0) table2 0 0) 0 (recSectors (0)) (keyRead (keyOf (greq 8 (zeros 7 ++ [3,
      2] ++ zeros 87)).data) (takeGArrival ({ (greq 8 (zeros 7 ++ [3, 2] ++ zeros 87)) with path := (11) - 8 }) ({ storedRow (zeros 112) 0 0 with pegs := { values := [(4095, 45)] } })))).2,
      by decide +kernel, rfl, by decide +kernel, rfl, by decide +kernel, by decide +kernel,
      by first | (with_reducible exact (Option.some_get _).symm) | (with_reducible exact Prod.ext (Option.some_get _).symm rfl) | decide +kernel,
      by decide +kernel⟩,
   ⟨11, gSeal { path := 3, gop := 136, cls := 2, die := 2, tag := 9 }, _,
      ({ path := 2, tag := 9, packet := greq 8 [], origin := .repair, resends := 0, later := 0, backoff := false } : GReq),
      { pairedAt 44 1 .paired with twin := { state := .paired, reqs := [({ path := 2, tag := 9, packet := greq 8 [], origin := .repair, resends := 0, later := 0, backoff := false } : GReq)] } },
      _, by decide +kernel, rfl, by decide +kernel, by decide +kernel, by decide +kernel, rfl, by decide +kernel⟩,
   ⟨({ kind := 0, set := 3, table := 2, row := 0, variant := 0, slice := 0 } : TargetKey), zeros 128,
      { withSet 45 with mem := { repairs := [{ kind := 0, set := 3, table := 2, row := 0, variant := 0, slice := 0, failures := 1 }] } },
      _, ({ kind := 0, set := 3, table := 2, row := 0, variant := 0, slice := 0, failures := 1 } : Repair),
      (Option.get (keyHome (keyRead (({ kind := 0, set := 3, table := 2, row := 0, variant := 0, slice := 0 } : TargetKey)) ({ withSet 45 with mem := { repairs := [{ kind := 0, set := 3, table := 2, row := 0, variant := 0, slice := 0, failures := 1 }] } })) (({ kind := 0, set := 3, table := 2, row := 0, variant := 0, slice := 0 } : TargetKey))) (by decide +kernel)),
      _, rfl, by decide +kernel,
      by first | (with_reducible exact (Option.some_get _).symm) | (with_reducible exact Prod.ext (Option.some_get _).symm rfl) | decide +kernel,
      by decide +kernel, by decide +kernel, rfl⟩,
   ⟨up, by decide +kernel⟩,
   ⟨up, by decide +kernel⟩,
   ⟨pairedAt 44 1 .paired, _, by decide +kernel, by decide +kernel, by decide +kernel, rfl, by decide +kernel⟩,
   ⟨{ pairedAt 44 1 .paired with loadState := .idle }, _, by decide +kernel, by decide +kernel, by decide +kernel, rfl,
      by decide +kernel⟩,
   ⟨true, 2, pairedAt 44 1 .copyTarget, by decide +kernel⟩,
   ⟨true, 2, pairedAt 44 0 .copyTarget, by decide +kernel⟩,
   ⟨true, 5, pairedAt 44 0 .copySource, by decide +kernel⟩,
   ⟨1, { pairedAt 44 0 .paired with plan := { (withSet 44).plan with members := [0, 1] } }, by decide +kernel⟩⟩

theorem test_meets_SettingWrites :
    (∃ (p : Path) (v : Nat) (u : State) (s : State), (Instr.wf (.portEnableMaskWrite p v) = true) ∧
      (accepts s p E.PORT_ENABLE_MASK 0 (natLe 1 v)) ∧ (touchPath p s = u)) ∧
    (∃ (p : Path) (u : State) (s : State), (Instr.wf (.routeTableCommit p 1) = true) ∧
      (accepts s p E.ROUTE_TABLE_COMMIT 0 [1]) ∧ (touchPath p s = u) ∧ (isMember s = false)) ∧
    (∃ (p : Path) (u : State) (s : State), (Instr.wf (.routeTableCommit p 1) = true) ∧
      (accepts s p E.ROUTE_TABLE_COMMIT 0 [1]) ∧ (touchPath p s = u) ∧ (isMember s = true)) ∧
    (∃ (p : Path) (a : Nat) (v : Nat) (s : State), (Instr.wf (.torusDimWrite p a v) = true) ∧
      (accepts s p (E.TORUS_DIM_X + a) 0 (natLe 1 v))) ∧
    (∃ (p : Path) (i : Nat) (b : Bytes) (u : State) (s : State), (Instr.wf (.coordTableWrite p i b) = true) ∧
      (accepts s p E.COORD_TABLE (2 * i) b) ∧ (touchPath p s = u)) ∧
    (∃ (p : Path) (v : Nat) (u : State) (s : State), (Instr.wf (.watchRingTailWrite p v) = true) ∧
      (accepts s p E.WATCH_RING_TAIL 0 (natLe 8 v)) ∧ (touchPath p s = u) ∧ (u.watch.tail ≤ v) ∧ (v ≤ u.watch.head)) ∧
    (∃ (p : Path) (v : Nat) (u : State) (s : State), (Instr.wf (.tsetT p v) = true) ∧ (accepts s p E.TSET_T 0 (natLe 8 v)) ∧
      (touchPath p s = u)) :=
  ⟨⟨.mailbox, 0xFF, _, up, by decide +kernel, by decide +kernel, rfl⟩,
   ⟨.mailbox, _, up, by decide +kernel, by decide +kernel, rfl, by decide +kernel⟩,
   ⟨.mailbox, _, withSet 40, by decide +kernel, by decide +kernel, rfl, by decide +kernel⟩,
   ⟨.mailbox, 2, 16, up, by decide +kernel⟩,
   ⟨.mailbox, 8191, natLe 2 0x8001, _, { up with dict := { regs := [(E.TORUS_DIM_X, 2)] } }, by decide +kernel,
      by decide +kernel, rfl⟩,
   ⟨.mailbox, 5, _, { withSet 40 with watch := { head := 5, tail := 5 } }, by decide +kernel, by decide +kernel, rfl,
      by decide +kernel⟩,
   ⟨.mailbox, 2 ^ 64 - 1, _, { withSet 40 with life := { up.life with modState := .held } }, by decide +kernel,
      by decide +kernel, rfl⟩⟩

theorem test_meets_ActingWrites :
    (∃ (p : Path) (v : Nat) (s : State), (Instr.wf (.watchHistoryReset p v) = true) ∧
      (accepts s p E.WATCH_HISTORY_RESET 0 (natLe 2 v))) ∧
    (∃ (p : Path) (v : Nat) (s : State), (Instr.wf (.watchResume p v) = true) ∧ (accepts s p E.WATCH_RESUME 0 (natLe 1 v)) ∧
      (v = 1)) ∧
    (∃ (p : Path) (v : Nat) (s : State), (Instr.wf (.watchResume p v) = true) ∧ (accepts s p E.WATCH_RESUME 0 (natLe 1 v)) ∧
      (v = 0)) ∧
    (∃ (p : Path) (v : Nat) (u : State) (s : State), (Instr.wf (.stepAgreeResume p v) = true) ∧
      (accepts s p E.STEP_AGREE_RESUME 0 (natLe 1 v)) ∧ (touchPath p s = u) ∧ (v = 1)) ∧
    (∃ (p : Path) (v : Nat) (u : State) (s : State), (Instr.wf (.stepAgreeResume p v) = true) ∧
      (accepts s p E.STEP_AGREE_RESUME 0 (natLe 1 v)) ∧ (touchPath p s = u) ∧ (v = 0)) ∧
    (∃ (p : Path) (v : Nat) (s : State), (Instr.wf (.salvage p v) = true) ∧ (accepts s p E.SALVAGE 0 (natLe 1 v)) ∧ (v = 1)) ∧
    (∃ (p : Path) (v : Nat) (s : State), (Instr.wf (.salvage p v) = true) ∧ (accepts s p E.SALVAGE 0 (natLe 1 v)) ∧ (v = 0)) ∧
    (∃ (p : Path) (u : State) (s : State), (Instr.wf (.faultCodeClear p 0) = true) ∧ (accepts s p E.FAULT_CODE 0 [0, 0]) ∧
      (touchPath p s = u)) ∧
    (∃ (p : Path) (v : Nat) (s : State), (Instr.wf (.countersClearAll p v) = true) ∧
      (accepts s p E.COUNTERS_CLEAR_ALL 0 (natLe 1 v)) ∧ (v = 1)) ∧
    (∃ (p : Path) (v : Nat) (s : State), (Instr.wf (.countersClearAll p v) = true) ∧
      (accepts s p E.COUNTERS_CLEAR_ALL 0 (natLe 1 v)) ∧ (v = 0)) :=
  ⟨⟨.mailbox, 0, withSet 40, by decide +kernel⟩,
   ⟨.mailbox, 1, withSet 40, by decide +kernel⟩,
   ⟨.mailbox, 0, withSet 40, by decide +kernel⟩,
   ⟨.mailbox, 1, _, withSet 40, by decide +kernel, by decide +kernel, rfl, by decide +kernel⟩,
   ⟨.mailbox, 0, _, withSet 40, by decide +kernel, by decide +kernel, rfl, by decide +kernel⟩,
   ⟨.mailbox, 1, salvable, by exact ⟨by decide +kernel, salvable_accepts, rfl⟩⟩,
   ⟨.mailbox, 0, up, by decide +kernel⟩,
   ⟨.mailbox, _, up, by decide +kernel, by decide +kernel, rfl⟩,
   ⟨.mailbox, 1, up, by decide +kernel⟩,
   ⟨.mailbox, 0, up, by decide +kernel⟩⟩

theorem test_meets_DictionaryRequests :
    (∃ (p : Path) (i : Nat) (j : Nat) (s : State), (Instr.wf (.odpRead p i j) = true) ∧ (s.lantern.serving = true) ∧
      (pathRefusal s p false ≠ 0x0C0B)) ∧
    (∃ (p : Path) (i : Nat) (j : Nat) (b : Bytes) (e : Entry) (s : State), (Instr.wf (.odpWrite p i j b) = true) ∧
      (s.lantern.serving = true) ∧ (pathRefusal s p true ≠ 0x0C0B) ∧ (writeRefused (touchPath p s) p i j 0 b = 0) ∧
      (entryOf (i * 256 + j) = some e)) ∧
    (∃ (p : Path) (i : Nat) (j : Nat) (b : Bytes) (s : State), (Instr.wf (.odpWrite p i j b) = true) ∧
      (s.lantern.serving = true) ∧ (pathRefusal s p true ≠ 0x0C0B) ∧ (writeRefused (touchPath p s) p i j 0 b ≠ 0)) ∧
    (∃ (p : Path) (i : Nat) (j : Nat) (s : State), (Instr.wf (.describe p i j) = true) ∧ (s.lantern.serving = true) ∧
      (pathRefusal s p false ≠ 0x0C0B)) ∧
    (∃ (p : Path) (i : Nat) (j : Nat) (b : Bytes) (u : State) (s : State), (Instr.wf (.stage p i j b) = true) ∧
      (s.lantern.serving = true) ∧ (pathRefusal s p true ≠ 0x0C0B) ∧ (touchPath p s = u) ∧ (stageRefusal u p i j b = 0)) ∧
    (∃ (p : Path) (i : Nat) (j : Nat) (b : Bytes) (u : State) (s : State), (Instr.wf (.stage p i j b) = true) ∧
      (s.lantern.serving = true) ∧ (pathRefusal s p true ≠ 0x0C0B) ∧ (touchPath p s = u) ∧ (stageRefusal u p i j b ≠ 0)) ∧
    (∃ (o : Nat) (n : Nat) (v : Nat), (Instr.wf (.registerWrite (.bar0 o n v)) = true)) ∧
    (∃ (p : Path) (i : Nat) (j : Nat) (b : Bytes), (Instr.wf (.registerWrite (.dict p i j b)) = true) ∧
      (Instr.wf (.odpWrite p i j b) = true)) ∧
    (∃ (src : Nat) (b : Bytes) (ops : List OdpOp) (u : State) (s : State) (r : Bytes × State),
      (Instr.wf (.odpRequest src b) = true) ∧ (s.lantern.serving = true) ∧ (b.length ≤ 1472) ∧ (touchSource src s = u) ∧
      (odpLookup u src b = none) ∧ (odpParse b false 1472 = some ops) ∧ (field b 2 1 = 0) ∧ (odpNeedsAuth u ops = false) ∧
      (odpAnswer (.odp src false) b ops u = r)) ∧
    (∃ (src : Nat) (b : Bytes) (ops : List OdpOp) (u : State) (s : State), (Instr.wf (.odpRequest src b) = true) ∧
      (s.lantern.serving = true) ∧ (b.length ≤ 1472) ∧ (touchSource src s = u) ∧ (odpLookup u src b = none) ∧
      (odpParse b false 1472 = some ops) ∧ (field b 2 1 = 0) ∧ (odpNeedsAuth u ops = true)) ∧
    (∃ (src : Nat) (b : Bytes) (ops : List OdpOp) (u : State) (s : State) (r : Bytes × State),
      (Instr.wf (.odpRequest src b) = true) ∧ (s.lantern.serving = true) ∧ (b.length ≤ 1472) ∧ (touchSource src s = u) ∧
      (odpLookup u src b = none) ∧ (odpParse b true 1472 = some ops) ∧ (field b 2 1 = 1) ∧ (odpTagGood u b = true) ∧
      (u.lantern.odpLastSeq < field b 8 8) ∧
      (odpAnswer (.odp src true) b ops { u with lantern := { u.lantern with odpLastSeq := field b 8 8 } } = r)) ∧
    (∃ (src : Nat) (b : Bytes) (ops : List OdpOp) (e : OdpKept) (u : State) (s : State), (Instr.wf (.odpRequest src b) = true) ∧
      (s.lantern.serving = true) ∧ (b.length ≤ 1472) ∧ (touchSource src s = u) ∧ (odpLookup u src b = some e) ∧
      (odpParse b false 1472 = some ops) ∧ (field b 2 1 = 0)) ∧
    (∃ (b : Bytes) (s : State), (Instr.wf (.i3cPrivateWrite b) = true) ∧ (s.lantern.serving = true) ∧
      (s.life.recovery = false) ∧ (s.lantern.i3cAddr.isSome = true) ∧ (b.length = 3)) ∧
    (∃ (b : Bytes) (s : State), (Instr.wf (.i3cPrivateWrite b) = true) ∧ (s.lantern.serving = true) ∧
      (s.life.recovery = false) ∧ (s.lantern.i3cAddr.isSome = true) ∧ (b.length ≠ 3)) ∧
    (∃ (s : State), (s.lantern.serving = true) ∧ (s.life.recovery = false) ∧ (s.lantern.i3cAddr.isSome = true)) ∧
    (∃ (a : Nat) (i : Bool) (s : State), (Instr.wf (.i3cAddressAssign a i) = true) ∧ (s.lantern.serving = true)) ∧
    (∃ (i : Nat) (j : Nat) (b : Bytes) (s : State), (Instr.wf (.uartConsoleCommand true i j b) = true) ∧
      (s.lantern.serving = true)) ∧
    (∃ (i : Nat) (j : Nat) (b : Bytes) (s : State), (Instr.wf (.uartConsoleCommand false i j b) = true) ∧
      (s.lantern.serving = true)) :=
  ⟨⟨.mailbox, (E.PORT_ENABLE_MASK / 256), (E.PORT_ENABLE_MASK % 256), up, by decide +kernel⟩,
   ⟨.mailbox, (E.PORT_ENABLE_MASK / 256), (E.PORT_ENABLE_MASK % 256), [0xFF],
      (Option.get (entryOf (((E.PORT_ENABLE_MASK / 256)) * 256 + ((E.PORT_ENABLE_MASK % 256)))) (by decide +kernel)), up,
      by decide +kernel, by decide +kernel, by decide +kernel, by decide +kernel,
      by first | (with_reducible exact (Option.some_get _).symm) | (with_reducible exact Prod.ext (Option.some_get _).symm rfl) | decide +kernel⟩,
   ⟨.mailbox, (E.PORT_ENABLE_MASK / 256), (E.PORT_ENABLE_MASK % 256), [0xFF, 0], up, by decide +kernel⟩,
   ⟨.mailbox, (E.PORT_ENABLE_MASK / 256), (E.PORT_ENABLE_MASK % 256), up, by decide +kernel⟩,
   ⟨.mailbox, (E.POWER_LIMIT_W / 256), (E.POWER_LIMIT_W % 256), natLe 2 1000, _, up, by decide +kernel, by decide +kernel,
      by decide +kernel, rfl, by decide +kernel⟩,
   ⟨.mailbox, (E.POWER_LIMIT_W / 256), (E.POWER_LIMIT_W % 256), [], _, up, by decide +kernel, by decide +kernel,
      by decide +kernel, rfl, by decide +kernel⟩,
   ⟨0x30000, 8, 2 ^ 64 - 1, by decide +kernel⟩,
   ⟨.mailbox, 1, 1, [], by decide +kernel⟩,
   ⟨9, (odpBody 0 0 1 E.MODULE_NUMBER 2 []),
      (Option.get (odpParse ((odpBody 0 0 1 E.MODULE_NUMBER 2 [])) false 1472) (by decide +kernel)), _, up, _,
      by decide +kernel, by decide +kernel, by decide +kernel, rfl, by decide +kernel,
      by first | (with_reducible exact (Option.some_get _).symm) | (with_reducible exact Prod.ext (Option.some_get _).symm rfl) | decide +kernel,
      by decide +kernel, by decide +kernel, rfl⟩,
   ⟨9, (odpBody 0 0 1 E.MODULE_NUMBER 2 []),
      (Option.get (odpParse ((odpBody 0 0 1 E.MODULE_NUMBER 2 [])) false 1472) (by decide +kernel)), _,
      { up with dict := { regs := [(E.ODP_AUTH_MODE, 2)] } }, by decide +kernel, by decide +kernel, by decide +kernel, rfl,
      by decide +kernel,
      by first | (with_reducible exact (Option.some_get _).symm) | (with_reducible exact Prod.ext (Option.some_get _).symm rfl) | decide +kernel,
      by decide +kernel⟩,
   ⟨9, odpTagged, (Option.get (odpParse (odpTagged) true 1472) (by decide +kernel)), touchSource (9) (keyed), keyed,
      odpAnswer (.odp (9) true) (odpTagged) ((Option.get (odpParse (odpTagged) true 1472) (by decide +kernel))) { (touchSource (9) (keyed)) with lantern := { (touchSource (9) (keyed)).lantern with odpLastSeq := field (odpTagged) 8 8 } },
      by (refine ⟨?_, ?_, ?_, ?_, ?_, ?_, ?_, ?_, ?_, ?_⟩; decide +kernel; decide +kernel; decide +kernel; rfl; decide +kernel; (with_reducible exact (Option.some_get _).symm); decide +kernel; exact tag_good _ _ _ rfl (by decide +kernel); decide +kernel; rfl)⟩,
   ⟨9, (odpBody 0 0 1 E.MODULE_NUMBER 2 []),
      (Option.get (odpParse ((odpBody 0 0 1 E.MODULE_NUMBER 2 [])) false 1472) (by decide +kernel)),
      (Option.get (odpLookup (touchSource (9) ({ up with lantern := { up.lantern with odpKept := [{ source := 9, reqId := 7, authSeq := 0, response := [] }] } })) (9) ((odpBody 0 0 1 E.MODULE_NUMBER 2 []))) (by decide +kernel)),
      _, { up with lantern := { up.lantern with odpKept := [{ source := 9, reqId := 7, authSeq := 0, response := [] }] } },
      by decide +kernel, by decide +kernel, by decide +kernel, rfl,
      by first | (with_reducible exact (Option.some_get _).symm) | (with_reducible exact Prod.ext (Option.some_get _).symm rfl) | decide +kernel,
      by first | (with_reducible exact (Option.some_get _).symm) | (with_reducible exact Prod.ext (Option.some_get _).symm rfl) | decide +kernel,
      by decide +kernel⟩,
   ⟨[1, 2, 3], { up with lantern := { up.lantern with i3cAddr := some 9 } }, by decide +kernel⟩,
   ⟨[1, 2], { up with lantern := { up.lantern with i3cAddr := some 9 } }, by decide +kernel⟩,
   ⟨{ up with lantern := { up.lantern with i3cAddr := some 9 } }, by decide +kernel⟩,
   ⟨127, true, up, by decide +kernel⟩,
   ⟨1, 1, [], up, by decide +kernel⟩,
   ⟨1, 1, [], up, by decide +kernel⟩⟩

theorem test_meets_SettingSets :
    (∃ (p : Path) (v : Nat) (u : State) (s : State), (Instr.wf (.setCommit p v) = true) ∧
      (accepts s p E.SET_COMMIT 0 (natLe 8 v)) ∧ (touchPath p s = u)) ∧
    (∃ (p : Path) (v : Nat) (u : State) (s : State), (Instr.wf (.setRevert p v) = true) ∧
      (accepts s p E.SET_REVERT 0 (natLe 4 v)) ∧ (touchPath p s = u)) ∧
    (∃ (p : Path) (v : Nat) (u : State) (s : State), (Instr.wf (.setConfirm p v) = true) ∧
      (accepts s p E.SET_CONFIRM 0 (natLe 4 v)) ∧ (touchPath p s = u) ∧ (u.lantern.sets.pending = .awaiting)) ∧
    (∃ (p : Path) (v : Nat) (u : State) (s : State), (Instr.wf (.setConfirm p v) = true) ∧
      (accepts s p E.SET_CONFIRM 0 (natLe 4 v)) ∧ (touchPath p s = u) ∧ (u.lantern.sets.pending ≠ .awaiting)) ∧
    (∃ (p : Path) (u : State) (s : State), (Instr.wf (.setClear p 1) = true) ∧ (accepts s p E.SET_CLEAR 0 [1]) ∧
      (touchPath p s = u)) ∧
    (∃ (s : State), (s.lantern.sets.pending = .awaiting)) ∧
    (∃ (s : State), (s.lantern.sets.pending ≠ .awaiting)) ∧
    (∃ (x : SetSlot) (y : SetSlot) (w : Nat × Option Bytes) (s : State),
      ((setWrites x y).find? (fun w => setWriteRefusal s w != 0) = some w)) ∧
    (∃ (x : SetSlot) (y : SetSlot) (s : State), ((∀ w ∈ setWrites x y, setWriteRefusal s w = 0))) ∧
    (∃ (s : State), (setsDue s = false)) :=
  ⟨⟨.mailbox, 2 ^ 32 + 5, _,
      { up with lantern := { up.lantern with sets := { staged := { number := 5, entries := [(E.POWER_LIMIT_W, natLe 2 1000)] } } } },
      by decide +kernel, by decide +kernel, rfl⟩,
   ⟨.mailbox, 5, _,
      { up with lantern := { up.lantern with sets := { active := { number := 5, entries := [(E.POWER_LIMIT_W, natLe 2 1000)] }, previous := { number := 5, entries := [(E.POWER_LIMIT_W, natLe 2 1000)] } } } },
      by decide +kernel, by decide +kernel, rfl⟩,
   ⟨.mailbox, 5, _,
      { up with lantern := { up.lantern with sets := { active := { number := 5, entries := [(E.POWER_LIMIT_W, natLe 2 1000)] }, pending := .awaiting } } },
      by decide +kernel, by decide +kernel, rfl, by decide +kernel⟩,
   ⟨.mailbox, 5, _,
      { up with lantern := { up.lantern with sets := { active := { number := 5, entries := [(E.POWER_LIMIT_W, natLe 2 1000)] } } } },
      by decide +kernel, by decide +kernel, rfl, by decide +kernel⟩,
   ⟨.mailbox, _,
      { up with lantern := { up.lantern with sets := { staged := { number := 5, entries := [(E.POWER_LIMIT_W, natLe 2 1000)] } } } },
      by decide +kernel, by decide +kernel, rfl⟩,
   ⟨{ up with lantern := { up.lantern with sets := { pending := .awaiting } } }, by decide +kernel⟩,
   ⟨up, by decide +kernel⟩,
   ⟨{ number := 5, entries := [(E.POWER_LIMIT_W, [])] }, {}, (E.POWER_LIMIT_W, some []), up, by decide +kernel⟩,
   ⟨{ number := 5, entries := [(E.POWER_LIMIT_W, natLe 2 1000)] }, {}, up, by decide +kernel⟩,
   ⟨withSet 40, by decide +kernel⟩⟩

theorem test_meets_AttestationAndEvents :
    (∃ (b : Bytes) (s : State), (s.lantern.serving = true) ∧ (s.life.recovery = false) ∧ (Instr.wf (.getVersion b) = true)) ∧
    (∃ (b : Bytes) (s : State), (s.lantern.serving = true) ∧ (s.life.recovery = false) ∧
      (Instr.wf (.getCapabilities b) = true)) ∧
    (∃ (b : Bytes) (s : State), (s.lantern.serving = true) ∧ (s.life.recovery = false) ∧
      (Instr.wf (.negotiateAlgorithms b) = true)) ∧
    (∃ (b : Bytes) (s : State), (s.lantern.serving = true) ∧ (s.life.recovery = false) ∧ (Instr.wf (.getDigests b) = true)) ∧
    (∃ (b : Bytes) (s : State), (s.lantern.serving = true) ∧ (s.life.recovery = false) ∧
      (Instr.wf (.getCertificate b) = true)) ∧
    (∃ (b : Bytes) (s : State), (s.lantern.serving = true) ∧ (s.life.recovery = false) ∧ (Instr.wf (.challenge b) = true)) ∧
    (∃ (b : Bytes) (s : State) (x : Bytes), (s.lantern.serving = true) ∧ (s.life.recovery = false) ∧
      (Instr.wf (.getMeasurements b) = true) ∧
      (let u : State := { s with free := s.free + 1 }; let say (k : Nat) : Bytes := Config.spdmAnswer s.free (natLe 1 k ++ b); x = say 6 ++ (measurements u).flatten)) ∧
    (∃ (b : Bytes) (s : State), (s.lantern.serving = true) ∧ (s.life.recovery = false) ∧
      (Instr.wf (.spdmUnsupported b) = true)) ∧
    (∃ (p : Path) (s : State) (r : Nat × Bytes), (Instr.wf (.eventRecords p) = true) ∧ (s.lantern.serving = true) ∧
      (pathRefusal s p false ≠ 0x0C0B) ∧
      (readEntry (touchPath p s) p (E.EVENT_RECORDS / 256) (E.EVENT_RECORDS % 256) 0 none = r)) :=
  ⟨⟨[0x10, 0x84], up, by decide +kernel⟩,
   ⟨[0x10, 0xE1], up, by decide +kernel⟩,
   ⟨[0x11, 0xE3], up, by decide +kernel⟩,
   ⟨[0x11, 0x81], up, by decide +kernel⟩,
   ⟨[0x11, 0x82], up, by decide +kernel⟩,
   ⟨[0x11, 0x83], up, by decide +kernel⟩,
   ⟨[0x11, 0xE0], up, _, by decide +kernel, by decide +kernel, by decide +kernel, by exact rfl⟩,
   ⟨[0xFF], up, by decide +kernel⟩,
   ⟨.mailbox, up, _, by decide +kernel, by decide +kernel, by decide +kernel, rfl⟩⟩

theorem test_meets_LinkFrame :
    (∃ (a : Nat) (b : Flit) (c : Codeword) (s : State) (t : State), (exec (.dataFlitReceive a b c) s = .next t)) ∧
    (∃ (a : Nat) (b : Control) (s : State) (t : State), (exec (.controlFlitReceive a b) s = .next t)) ∧
    (∃ (a : Nat) (b : Control) (s : State) (t : State), (exec (.nakReceive a b) s = .next t)) ∧
    (∃ (a : Nat) (s : State) (t : State), (exec (.linkRetryExpiry a) s = .next t)) ∧
    (∃ (a : Nat) (s : State) (t : State), (exec (.codewordLockLoss a) s = .next t)) ∧
    (∃ (a : Nat) (s : State) (t : State), (exec (.controlFlitInterval a) s = .next t)) ∧
    (∃ (a : Nat) (b : Nat) (c : Nat) (d : Nat) (s : State) (t : State), (exec (.dupFilterEntryExpiry a b c d) s = .next t)) ∧
    (∃ (a : Nat) (b : TrainRec) (s : State) (t : State), (exec (.trainFlitReceive a b) s = .next t)) ∧
    (∃ (a : Nat) (s : State) (t : State), (exec (.linkDownRetryExpiry a) s = .next t)) ∧
    (∃ (a : Nat) (b : Packet) (s : State) (t : State), (exec (.packetTransit a b) s = .next t)) ∧
    (∃ (a : Retry) (s : State) (t : State), (exec (.retryBackoffExpiry a) s = .next t)) ∧
    (∃ (s : State) (t : State), (exec .heartbeatSendExpiry s = .next t)) :=
  ⟨⟨11, (sealFlit { seq := 1 }), { errors := 1 }, up, _,
      by exact exec_dataFlitReceive 11 (sealFlit { seq := 1 }) { errors := 1 } _ (by decide +kernel)⟩,
   ⟨11, { credits := [(19, 1)] }, up, _, by exact exec_controlFlitReceive 11 { credits := [(19, 1)] } _ (by decide +kernel)⟩,
   ⟨11, { nakSeq := 5 }, up, _, by exact exec_nakReceive 11 { nakSeq := 5 } _ (by decide +kernel)⟩,
   ⟨11, up, _, by exact exec_linkRetryExpiry 11 _ (by decide +kernel)⟩,
   ⟨11, up, _, by exact exec_codewordLockLoss 11 _ (by decide +kernel)⟩,
   ⟨11, up, _, by exact exec_controlFlitInterval 11 _ (by decide +kernel)⟩,
   ⟨3, 8191, 3, 65535, up, _, by exact exec_dupFilterEntryExpiry 3 8191 3 65535 _ (by decide +kernel)⟩,
   ⟨7, {}, up, _, by exact exec_trainFlitReceive 7 {} _ (by decide +kernel)⟩,
   ⟨11, up, _, by exact exec_linkDownRetryExpiry 11 _ (by decide +kernel)⟩,
   ⟨7, (pkt 1 100 (natLe 8 8)), up, _, by exact exec_packetTransit 7 (pkt 1 100 (natLe 8 8)) _ (by decide +kernel)⟩,
   ⟨(.message 3), up, _, by exact exec_retryBackoffExpiry (.message 3) _ (by decide +kernel)⟩,
   ⟨up, _, by exact exec_heartbeatSendExpiry _ (by decide +kernel)⟩⟩

theorem test_meets_HostFrame :
    (∃ (a : Nat) (s : State) (t : State), (exec (.queueRestart a) s = .next t)) ∧
    (∃ (a : Nat) (s : State) (t : State), (exec (.ringDisable a) s = .next t)) ∧
    (∃ (a : Nat) (s : State) (t : State), (exec (.causeClear a) s = .next t)) ∧
    (∃ (s : State) (t : State), (exec .pcieLinkExitL0 s = .next t)) ∧
    (∃ (a : Nat) (s : State) (t : State), (exec (.intCoalesceExpiry a) s = .next t)) ∧
    (∃ (a : Nat) (b : Nat) (s : State) (t : State), (exec (.doorbellSqProducer a b) s = .next t)) ∧
    (∃ (a : Nat) (b : Nat) (s : State) (t : State), (exec (.doorbellCqHead a b) s = .next t)) ∧
    (∃ (a : Nat) (s : State) (t : State), (exec (.queueEnable a) s = .next t)) ∧
    (∃ (a : Nat) (s : State) (t : State), (exec (.ringEnable a) s = .next t)) :=
  ⟨⟨63, up, _, by exact exec_queueRestart 63 _ (by decide +kernel)⟩,
   ⟨63, up, _, by exact exec_ringDisable 63 _ (by decide +kernel)⟩,
   ⟨7, up, _, by exact exec_causeClear 7 _ (by decide +kernel)⟩,
   ⟨up, _, by exact exec_pcieLinkExitL0 _ (by decide +kernel)⟩,
   ⟨63, up, _, by exact exec_intCoalesceExpiry 63 _ (by decide +kernel)⟩,
   ⟨63, 5, up, _, by exact exec_doorbellSqProducer 63 5 _ (by decide +kernel)⟩,
   ⟨63, 5, up, _, by exact exec_doorbellCqHead 63 5 _ (by decide +kernel)⟩,
   ⟨63, up, _, by exact exec_queueEnable 63 _ (by decide +kernel)⟩,
   ⟨63, up, _, by exact exec_ringEnable 63 _ (by decide +kernel)⟩⟩

theorem test_meets_LanternAndSensorFrame :
    (∃ (a : Bytes) (s : State) (t : State), (exec (.getVersion a) s = .next t)) ∧
    (∃ (a : Bytes) (s : State) (t : State), (exec (.getCapabilities a) s = .next t)) ∧
    (∃ (a : Bytes) (s : State) (t : State), (exec (.negotiateAlgorithms a) s = .next t)) ∧
    (∃ (a : Bytes) (s : State) (t : State), (exec (.getDigests a) s = .next t)) ∧
    (∃ (a : Bytes) (s : State) (t : State), (exec (.getCertificate a) s = .next t)) ∧
    (∃ (a : Bytes) (s : State) (t : State), (exec (.challenge a) s = .next t)) ∧
    (∃ (a : Bytes) (s : State) (t : State), (exec (.getMeasurements a) s = .next t)) ∧
    (∃ (a : Bytes) (s : State) (t : State), (exec (.spdmUnsupported a) s = .next t)) ∧
    (∃ (s : State) (t : State), (exec .fwVerifyDone s = .next t)) ∧
    (∃ (s : State) (t : State), (exec .eventRateInterval s = .next t)) ∧
    (∃ (s : State) (t : State), (exec .eventLogFlashWrite s = .next t)) ∧
    (∃ (a : Bytes) (s : State) (t : State), (exec (.i3cPrivateWrite a) s = .next t)) ∧
    (∃ (a : Nat) (b : Bool) (s : State) (t : State), (exec (.i3cAddressAssign a b) s = .next t)) ∧
    (∃ (a : Path) (b : Nat) (c : Nat) (s : State) (t : State), (exec (.describe a b c) s = .next t)) ∧
    (∃ (a : Path) (b : Nat) (c : Nat) (s : State) (t : State), (exec (.odpRead a b c) s = .next t)) ∧
    (∃ (a : Path) (s : State) (t : State), (exec (.eventRecords a) s = .next t)) ∧
    (∃ (s : State) (t : State), (exec .i3cPrivateRead s = .next t)) ∧
    (∃ (a : PtpMsg) (b : Int) (c : Bool) (s : State) (t : State), (exec (.ptpMessage a b c) s = .next t)) ∧
    (∃ (s : State) (t : State), (exec .ptpUnlocked s = .next t)) ∧
    (∃ (a : Nat) (s : State) (t : State), (exec (.feedUndervoltage a) s = .next t)) ∧
    (∃ (a : Bool) (b : Nat) (c : Nat) (s : State) (t : State), (exec (.thermalThrottle a b c) s = .next t)) ∧
    (∃ (a : Bool) (s : State) (t : State), (exec (.coolantFlowLow a) s = .next t)) ∧
    (∃ (a : Nat) (s : State) (t : State), (exec (.powerLimitInterval a) s = .next t)) ∧
    (∃ (a : Nat) (s : State) (t : State), (exec (.throttleRaiseInterval a) s = .next t)) ∧
    (∃ (a : List W32) (s : State) (t : State), (exec (.senseSample a) s = .next t)) ∧
    (∃ (a : Nat) (b : Bool) (s : State) (t : State), (exec (.hbm3RefreshDoubled a b) s = .next t)) ∧
    (∃ (s : State) (t : State), (exec .serviceButtonShort s = .next t)) :=
  ⟨⟨[], up, _, by exact exec_getVersion [] _ (by decide +kernel)⟩,
   ⟨[], up, _, by exact exec_getCapabilities [] _ (by decide +kernel)⟩,
   ⟨[], up, _, by exact exec_negotiateAlgorithms [] _ (by decide +kernel)⟩,
   ⟨[], up, _, by exact exec_getDigests [] _ (by decide +kernel)⟩,
   ⟨[], up, _, by exact exec_getCertificate [] _ (by decide +kernel)⟩,
   ⟨[], up, _, by exact exec_challenge [] _ (by decide +kernel)⟩,
   ⟨[], up, _, by exact exec_getMeasurements [] _ (by decide +kernel)⟩,
   ⟨[], up, _, by exact exec_spdmUnsupported [] _ (by decide +kernel)⟩,
   ⟨up, _, by exact exec_fwVerifyDone _ (by decide +kernel)⟩,
   ⟨up, _, by exact exec_eventRateInterval _ (by decide +kernel)⟩,
   ⟨up, _, by exact exec_eventLogFlashWrite _ (by decide +kernel)⟩,
   ⟨[1, 2, 3], up, _, by exact exec_i3cPrivateWrite [1, 2, 3] _ (by decide +kernel)⟩,
   ⟨127, true, up, _, by exact exec_i3cAddressAssign 127 true _ (by decide +kernel)⟩,
   ⟨.mailbox, 1, 1, up, _, by exact exec_describe .mailbox 1 1 _ (by decide +kernel)⟩,
   ⟨.mailbox, 1, 1, up, _, by exact exec_odpRead .mailbox 1 1 _ (by decide +kernel)⟩,
   ⟨.mailbox, up, _, by exact exec_eventRecords .mailbox _ (by decide +kernel)⟩,
   ⟨up, _, by exact exec_i3cPrivateRead _ (by decide +kernel)⟩,
   ⟨{ sync := true, wallNs := 5 }, (-3), true, up, _,
      by exact exec_ptpMessage { sync := true, wallNs := 5 } (-3) true _ (by decide +kernel)⟩,
   ⟨up, _, by exact exec_ptpUnlocked _ (by decide +kernel)⟩,
   ⟨1, up, _, by exact exec_feedUndervoltage 1 _ (by decide +kernel)⟩,
   ⟨true, 7, 90, up, _, by exact exec_thermalThrottle true 7 90 _ (by decide +kernel)⟩,
   ⟨true, up, _, by exact exec_coolantFlowLow true _ (by decide +kernel)⟩,
   ⟨1000, up, _, by exact exec_powerLimitInterval 1000 _ (by decide +kernel)⟩,
   ⟨1000, up, _, by exact exec_throttleRaiseInterval 1000 _ (by decide +kernel)⟩,
   ⟨(List.replicate 64 0), up, _, by exact exec_senseSample (List.replicate 64 0) _ (by decide +kernel)⟩,
   ⟨7, true, up, _, by exact exec_hbm3RefreshDoubled 7 true _ (by decide +kernel)⟩,
   ⟨up, _, by exact exec_serviceButtonShort _ (by decide +kernel)⟩⟩

end Sys2Proof.Tests
end

section
/-!
SUPPORT. The reset state as the registers, queues and pegs read it, and the statement about it.
-/
namespace Sys2Proof.Machine

/-- R9: no register of the dictionary is written yet. -/
@[simp] theorem reg_reset (k : Nat) : reg State.reset k = dfltOf k := sget_nil (dfltOf k) k

/-- R405: no queue is configured yet. -/
@[simp] theorem queue_reset (q : Nat) : queue State.reset q = {} := sget_nil ({} : Queue) q

/-- R345: the Ridgeline's pegs (axis, ready count, run count) count nothing, as the keeper has no participant and
no run. -/
@[simp] theorem ridgeRead_reset (peg : Nat) : ridgeRead State.reset peg = 0 := by
  unfold ridgeRead
  split
  · exact sget_nil 0 axisKey
  · split
    · rfl
    · split <;> rfl

/-- R345: a peg of the Ridgeline and one of a die's own bank alike. -/
@[simp] theorem pegValue_reset (die peg : Nat) : pegValue State.reset die peg = 0 := by
  unfold pegValue
  split
  · exact ridgeRead_reset peg
  · exact sget_nil 0 (pegKey die peg)

/-- Settles O4: what the reset state holds in a field is read off; registers, queues and pegs read as unlisted ones. -/
theorem resetState : Obligations.ResetState := by
  unfold Obligations.ResetState
  have queues_disabled (q : Nat) : (queue State.reset q).state = .disabled := by rw [queue_reset]
  exact ⟨rfl, reset_wf, rfl, rfl, rfl, rfl, rfl, rfl, rfl, pegValue_reset,
    reg_reset, queues_disabled⟩

end Sys2Proof.Machine
end

section
/-!
SUPPORT. What the units report: a failed unit takes its own ports down and the module out of service (R29, R30, R306), a
hot stack refreshes at the doubled rate (R257), and a sense sample is read back point by point (R534).
-/
namespace Sys2Proof.Machine

/-! ## Ports -/

@[simp] theorem port_setPort (i : Nat) (p : Port) (s : State) : port (setPort i p s) i = p := by
  simp [port, setPort]

theorem port_setPort_other {i j : Nat} (h : j ≠ i) (p : Port) (s : State) : port (setPort i p s) j = port s j := by
  simp [port, setPort, sget_sput_other _ _ _ _ _ h]

@[simp] theorem port_updPort (i : Nat) (f : Port → Port) (s : State) : port (updPort i f s) i = f (port s i) :=
  port_setPort i _ s

theorem port_updPort_other {i j : Nat} (h : j ≠ i) (f : Port → Port) (s : State) : port (updPort i f s) j = port s j :=
  port_setPort_other h _ s

@[simp] theorem port_dropArrivals (i j : Nat) (s : State) : port (dropArrivals i s) j = port s j := by
  unfold dropArrivals
  split <;> rfl

theorem port_dropPort_other {i j : Nat} (h : j ≠ i) (s : State) : port (dropPort i s) j = port s j := by
  unfold dropPort
  rw [port_dropArrivals, port_updPort_other h]

@[simp] theorem port_raiseAt (c x n i : Nat) (s : State) : port (raiseAt c x n s) i = port s i := by
  obtain ⟨d, l, h, b, e⟩ := raiseAt_frame c x n s
  rw [e]
  rfl

@[simp] theorem port_withQueue (cs : List Instr) (i : Nat) (s : State) : port (withQueue cs s) i = port s i := rfl

@[simp] theorem withQueue_life (cs : List Instr) (s : State) : (withQueue cs s).life = s.life := rfl

/-- Whether a port has failed is read off the failed units alone. -/
theorem portFaulty_congr {s t : State} (h : t.life.faultUnits = s.life.faultUnits) (i : Nat) :
    portFaulty t i = portFaulty s i := by
  simp only [portFaulty, h]

/-! ## Ports of failed units (R306) -/

theorem stopFaultyPort_working {i : Nat} {s : State} (h : portFaulty s i = false) : stopFaultyPort i s = s := by
  simp [stopFaultyPort, h]

theorem stopFaultyPort_faulty {i : Nat} {s : State} (h : portFaulty s i = true) :
    (port (stopFaultyPort i s) i).state = .down := by
  simp [stopFaultyPort, h]

@[simp] theorem stopFaultyPort_life (i : Nat) (s : State) : (stopFaultyPort i s).life = s.life := by
  unfold stopFaultyPort
  split
  · rw [updPort_life, dropPort_life]
  · rfl

/-- A port that is DOWN stays so, whichever port is stopped. -/
theorem stopFaultyPort_keeps_down (j i : Nat) {s : State} (h : (port s i).state = .down) :
    (port (stopFaultyPort j s) i).state = .down := by
  cases f : portFaulty s j
  · rwa [stopFaultyPort_working f]
  · by_cases e : i = j
    · subst e
      exact stopFaultyPort_faulty f
    · simpa [stopFaultyPort, f, port_updPort_other e, port_dropPort_other e] using h

/-- Where every port works, none is stopped. -/
theorem forEach_stopFaultyPort_working {l : List Nat} {s : State} (h : ∀ i ∈ l, portFaulty s i = false) :
    forEach l stopFaultyPort s = s := by
  induction l with
  | nil => rfl
  | cons a l ih =>
    rw [forEach_cons, stopFaultyPort_working (h a List.mem_cons_self)]
    exact ih fun i m => h i (List.mem_cons_of_mem a m)

/-- Every failed port among those looked at ends DOWN. -/
theorem forEach_stopFaultyPort_faulty {l : List Nat} {i : Nat} (m : i ∈ l) :
    ∀ {s : State}, portFaulty s i = true → (port (forEach l stopFaultyPort s) i).state = .down := by
  induction l with
  | nil => simp at m
  | cons a l ih =>
    intro s f
    rw [forEach_cons]
    rcases List.mem_cons.mp m with e | m
    · subst e
      exact forEach_inv (fun t => (port t i).state = .down) l stopFaultyPort
        (fun j _ d => stopFaultyPort_keeps_down j i d) _ (stopFaultyPort_faulty f)
    · exact ih m ((portFaulty_congr (by rw [stopFaultyPort_life]) i).trans f)

/-! ## Leaving service (R29, R30) -/

/-- R30: the first fault is recorded, and raises no event. -/
theorem leaveServiceLogged_first (code coord : Nat) {s : State} (h : s.life.fault.code = 0) :
    leaveServiceLogged code coord s = { s with life := { s.life with
      modState := .outOfService
      fault := { coord := coord, code := code, step := curStep s, station := curStation s } } } := by
  simp [leaveServiceLogged, leaveService, recordFault, setModState, h]

/-- R30: a later fault is logged as an event, and leaves the record. -/
theorem leaveServiceLogged_later (code coord : Nat) {s : State} (h : s.life.fault.code ≠ 0) :
    leaveServiceLogged code coord s = setModState .outOfService (raiseAt code coord 0 s) := by
  have logged : (s.life.fault.code != 0) = true := bne_iff_ne.mpr h
  simp only [leaveServiceLogged, leaveService, recordFault, logged, whenS_true, raiseAt_life, if_true]

/-- The effect on the ports and on the life of the module is the same for the first fault and for a later one, but for
the fault record. -/
theorem leaveServiceLogged_parts (code coord : Nat) (s : State) :
    (∀ i, port (leaveServiceLogged code coord s) i = port s i) ∧
    (leaveServiceLogged code coord s).life.modState = .outOfService ∧
    (leaveServiceLogged code coord s).life.faultUnits = s.life.faultUnits := by
  by_cases h : s.life.fault.code = 0
  · rw [leaveServiceLogged_first code coord h]
    exact ⟨fun _ => rfl, rfl, rfl⟩
  · rw [leaveServiceLogged_later code coord h]
    exact ⟨fun i => port_raiseAt code coord 0 i s, rfl, by simp⟩

/-- UNIT_FAULT before the ports are looked at: a start in progress ends, and the unit is among the failed ones. -/
def faulted (unit : Nat) (s : State) : State :=
  setLife { s.life with
    start := none, stage := 0, retryWait := false, startHalted := false, faultUnits := unit :: s.life.faultUnits } s

theorem unitFault_eq (unit : Nat) (s : State) :
    unitFault unit s = leaveServiceLogged 0x0C21 (ownUnit s unit) (forEach (upto 12) stopFaultyPort (faulted unit s)) := rfl

theorem portFaulty_faulted (unit i : Nat) (s : State) :
    portFaulty (faulted unit s) i = (portUnit i == unit || portFaulty s i) := by
  simp only [portFaulty, faulted, setLife_life, List.contains_cons]

/-- A fault of a unit that is no port, while every port works, stops no port. -/
theorem unitFault_elsewhere {unit : Nat} {s : State} (h : ∀ i ∈ upto 12, portUnit i ≠ unit ∧ portFaulty s i = false) :
    unitFault unit s = leaveServiceLogged 0x0C21 (ownUnit s unit) (faulted unit s) := by
  rw [unitFault_eq, forEach_stopFaultyPort_working]
  intro i m
  obtain ⟨other, works⟩ := h i m
  simp [portFaulty_faulted, other, works]

/-- R306: a fault of a port's own unit leaves the port DOWN, and the module out of service. -/
theorem unitFault_port {i : Nat} (h : i < 12) (s : State) :
    (port (unitFault (portUnit i) s) i).state = .down ∧ portFaulty (unitFault (portUnit i) s) i = true ∧
    (unitFault (portUnit i) s).life.modState = .outOfService := by
  have failed : portFaulty (faulted (portUnit i) s) i = true := by simp [portFaulty_faulted]
  have down := forEach_stopFaultyPort_faulty (List.mem_range.mpr h) failed
  have life : (forEach (upto 12) stopFaultyPort (faulted (portUnit i) s)).life = (faulted (portUnit i) s).life :=
    forEach_life _ _ stopFaultyPort_life _
  rw [unitFault_eq]
  obtain ⟨ports, out, units⟩ := leaveServiceLogged_parts 0x0C21 (ownUnit s (portUnit i))
    (forEach (upto 12) stopFaultyPort (faulted (portUnit i) s))
  exact ⟨by rw [ports]; exact down, (portFaulty_congr (by rw [units, life]) i).trans failed, out⟩

/-! ## Sense samples (R534) -/

/-- The current value of a sense point, its maximum and its minimum. -/
def pointOf (p : Power) (i : Nat) : W32 × W32 × W32 := (sget 0 p.sense i, sget 0 p.senseMax i, sget 0 p.senseMin i)

/-- What a sample does for one value and its point. -/
def sensePoint (x : W32 × Nat) (s : State) : State :=
  let first := !s.power.sampled
  let hi := sget 0 s.power.senseMax x.2
  let lo := sget 0 s.power.senseMin x.2
  setPower { s.power with
    sense := sput 0 s.power.sense x.2 x.1
    senseMax := sput 0 s.power.senseMax x.2 (if first || numLt (f32val hi) (f32val x.1) then x.1 else hi)
    senseMin := sput 0 s.power.senseMin x.2 (if first || numLt (f32val x.1) (f32val lo) then x.1 else lo)
    sampled := s.power.sampled || x.2 == 63 } s

/-- While Lantern serves, a full sample gives each point its value in turn. -/
theorem senseSample_serving {vs : List W32} {s : State} (serving : s.lantern.serving = true) (full : vs.length = 64) :
    senseSample vs s = forEach vs.zipIdx sensePoint s := by
  have points : vs.zip (upto 64) = vs.zipIdx := by
    rw [List.zipIdx_eq_zip_range', full, upto, List.range_eq_range']
  simp only [senseSample, serving, Bool.not_true, Bool.false_eq_true, if_false, points]
  rfl

theorem sensePoint_sampled (x : W32 × Nat) (s : State) :
    (sensePoint x s).power.sampled = (s.power.sampled || x.2 == 63) := rfl

theorem sensePoint_other {x : W32 × Nat} {j : Nat} (h : j ≠ x.2) (s : State) :
    pointOf (sensePoint x s).power j = pointOf s.power j := by
  simp [pointOf, sensePoint, sget_sput_other _ _ _ _ _ h]

theorem sensePoint_value (x : W32 × Nat) (s : State) : (pointOf (sensePoint x s).power x.2).1 = x.1 := by
  simp [pointOf, sensePoint]

/-- The first sample of a point is its extremes too. -/
theorem sensePoint_first (x : W32 × Nat) {s : State} (h : s.power.sampled = false) :
    pointOf (sensePoint x s).power x.2 = (x.1, x.1, x.1) := by
  simp [pointOf, sensePoint, h]

/-- A sample touches neither the throttle nor anything outside the power state. -/
theorem forEach_sensePoint_frame (l : List (W32 × Nat)) (s : State) :
    forEach l sensePoint s = setPower (forEach l sensePoint s).power s ∧
    (forEach l sensePoint s).power.throttleN = s.power.throttleN :=
  forEach_inv (fun t => t = setPower t.power s ∧ t.power.throttleN = s.power.throttleN) l sensePoint
    (fun x t ⟨only, throttle⟩ => ⟨by rw [only]; rfl, throttle⟩) s ⟨rfl, rfl⟩

/-- Values given to other points leave a point as it is. -/
theorem forEach_sensePoint_other {l : List (W32 × Nat)} {j : Nat} (h : ∀ x ∈ l, j ≠ x.2) (s : State) :
    pointOf (forEach l sensePoint s).power j = pointOf s.power j := by
  induction l generalizing s with
  | nil => rfl
  | cons x l ih =>
    rw [forEach_cons, ih fun y m => h y (List.mem_cons_of_mem x m), sensePoint_other (h x List.mem_cons_self)]

/-- Points 0 to 63 count as sampled from the last of them on. -/
theorem forEach_sensePoint_sampled (l : List (W32 × Nat)) (s : State) :
    (forEach l sensePoint s).power.sampled = (s.power.sampled || l.any fun x => x.2 == 63) := by
  induction l generalizing s with
  | nil => simp
  | cons x l ih => rw [forEach_cons, ih, sensePoint_sampled, List.any_cons, Bool.or_assoc]

/-- Values for the points from `k` on, none beyond point 63: each point reads as its value, and so do its extremes when no
sample came before. -/
theorem forEach_sensePoint_reads (vs : List W32) : ∀ (k : Nat) (s : State), k + vs.length ≤ 64 →
    ∀ i v, vs[i]? = some v →
      (pointOf (forEach (vs.zipIdx k) sensePoint s).power (k + i)).1 = v ∧
      (s.power.sampled = false → pointOf (forEach (vs.zipIdx k) sensePoint s).power (k + i) = (v, v, v)) := by
  induction vs with
  | nil => simp
  | cons w vs ih =>
    intro k s bound i v hv
    rw [List.length_cons] at bound
    rw [List.zipIdx_cons, forEach_cons]
    cases i with
    | zero =>
      obtain rfl : w = v := by simpa using hv
      have later : ∀ x ∈ vs.zipIdx (k + 1), k ≠ x.2 := fun x m => by
        have := List.le_snd_of_mem_zipIdx m
        omega
      rw [Nat.add_zero k, forEach_sensePoint_other later]
      exact ⟨sensePoint_value (w, k) s, sensePoint_first (w, k)⟩
    | succ i =>
      have hv : vs[i]? = some v := by simpa using hv
      have notLast : k ≠ 63 := by
        have := (List.getElem?_eq_some_iff.mp hv).1
        omega
      obtain ⟨value, extremes⟩ := ih (k + 1) (sensePoint (w, k) s) (by omega) i v hv
      rw [show k + (i + 1) = k + 1 + i by omega]
      exact ⟨value, fun first => extremes (by simp [sensePoint_sampled, first, notLast])⟩

/-- A full sample reaches the last point. -/
theorem zipIdx_any_last {vs : List W32} (full : vs.length = 64) : (vs.zipIdx.any fun x => x.2 == 63) = true := by
  have last : (vs[63], 63) ∈ vs.zipIdx := List.mk_mem_zipIdx_iff_getElem?.mpr (List.getElem?_eq_getElem _)
  exact List.any_eq_true.mpr ⟨_, last, rfl⟩

/-- Settles O15: a unit fault by whether it is the first and whether it is a port's, a refresh as its row says, and a sample
by what each point reads as after its value. -/
theorem unitReports : Obligations.UnitReports := by
  unfold Obligations.UnitReports
  refine ⟨fun c s wf ports => ⟨fun first => ?_, fun later => ?_⟩, fun i s bound wf => ?_, fun u s wf => ?_, fun u s wf => ?_,
    fun vs s wf serving => ?_⟩
  · rw [exec_unitFault c s wf, unitFault_elsewhere ports, leaveServiceLogged_first (s := faulted c s) _ _ first]
    rfl
  · rw [exec_unitFault c s wf, unitFault_elsewhere ports, leaveServiceLogged_later (s := faulted c s) _ _ later]
    rfl
  · obtain ⟨down, failed, out⟩ := unitFault_port bound s
    refine ⟨_, exec_unitFault (portUnit i) s wf, ?_, ?_, ?_, withQueue_pending _ _⟩
    · rw [port_withQueue, down]
    · exact (portFaulty_congr (by rw [withQueue_life]) i).trans failed
    · rw [withQueue_life, out]
  · exact exec_hbm3RefreshDoubled u true s wf
  · exact exec_hbm3RefreshDoubled u false s wf
  · have full : vs.length = 64 := by simpa [Instr.wf] using wf
    obtain ⟨only, throttle⟩ := forEach_sensePoint_frame vs.zipIdx s
    refine ⟨forEach vs.zipIdx sensePoint s, ?_, fun i v hv => ?_, ?_, throttle, only⟩
    · rw [exec_senseSample vs s wf, senseSample_serving serving full, withQueue_same]
      rw [only, setPower_pending]
    · obtain ⟨value, extremes⟩ := forEach_sensePoint_reads vs 0 s (by omega) i v hv
      rw [Nat.zero_add] at value extremes
      exact ⟨value, fun first => by simpa [pointOf] using (Prod.mk.inj (extremes first)).2⟩
    · rw [forEach_sensePoint_sampled, zipIdx_any_last full, Bool.or_true]

end Sys2Proof.Machine
end

section
/-!
SUPPORT. How a region consumes its staged messages (R142), and what a lane makes of a complete target slice: it waits for a
lower variant (R101), is applied (R147) or is skipped (R149).
-/
namespace Sys2Proof.Machine

/-! ## Consuming (R142) -/

theorem consume_none {g : Nat} {s : State} (h : nextStaged s g = none) : consume g s = s := by
  simp only [consume, h]

/-- Once the gather of its step has been made, the next message leaves the staging area and is expanded. -/
theorem consume_gathered {g : Nat} {x : Staged} {s : State} (next : nextStaged s g = some x)
    (gathered : pastGather s x.msg.step = true) :
    consume g s = expand g x.msg.step x.msg { s with step := { s.step with staged := s.step.staged.erase x } } := by
  simp [consume, next, gathered]

/-! ## Skipping (R149) -/

section
variable {l mode h : Nat} {s : State}

/-- A poisoned record is skipped whether or not it is frozen. -/
theorem skips_poisoned (poisoned : (readRecord h 0 (recSectors mode) s).1.2.any markPoison = true) :
    skips l mode h s =
      (true, raiseOnceRunAt 0x0609 l h (count E.POISON_SKIPS (readRecord h 0 (recSectors mode) s).2)) := by
  simp only [skips, poisoned, Bool.not_true, Bool.and_false, Bool.false_eq_true, if_false, if_true]

theorem skips_frozen (sound : (readRecord h 0 (recSectors mode) s).1.2.any markPoison = false)
    (frozen : isFrozen mode (readRecord h 0 (recSectors mode) s).1.1 = true) :
    skips l mode h s = (true, count E.FROZEN_SKIPS (readRecord h 0 (recSectors mode) s).2) := by
  simp only [skips, sound, frozen, Bool.not_false, Bool.and_true, if_true]

end

/-! ## Updating an existing record (R147) -/

section
variable {ts : TableSet} {d : TableDecl} {r v c h l : Nat} {b : Bool} {s : State} (n o : Nat) (g : List W32) (x y : W32)
  (place : locate s ts d r v c = .at h b)
  (lane : burinLane s (recordArea s (homeGroup s d r) d ts.mode b) h ts.mode d.table = l)
include place lane

theorem updateSlice_skipped (skipped : (skips l ts.mode h s).1 = true) :
    updateSlice n ts d r v c o g x y s = (none, (skips l ts.mode h s).2) := by
  simp only [updateSlice, place, lane, skipped, if_true]

theorem updateSlice_updated (kept : (skips l ts.mode h s).1 = false) :
    updateSlice n ts d r v c o g x y s =
      (some (h, b, false), updateHere n ts d r v c h o g x y (skips l ts.mode h s).2) := by
  simp only [updateSlice, place, lane, kept, Bool.false_eq_true, if_false]

end

/-! ## Applying a target slice (R101, R147, R150) -/

/-- A target that no complete slice is held for stays as it is. -/
theorem applyTarget_absent {g k t r v c : Nat} {s : State}
    (absent : (s.step.accs.find? fun a => applies s a g k t r v c) = none) : applyTarget g k t r v c s = s := by
  simp only [applyTarget, absent]

/-- A target slice waits for the norm of its step (R157). -/
theorem applyTarget_normless {g k t r v c : Nat} {s : State} (unknown : stepNorm s (curStep s) = none) :
    applyTarget g k t r v c s = s := by
  dsimp only [applyTarget]
  split
  next known => exact nomatch unknown.symm.trans known
  · rfl

section
variable {g k t r v c : Nat} {a : Acc} {td : TableSet × TableDecl} {nc : W32 × W32} {s w : State}
  (held : (s.step.accs.find? fun a => applies s a g k t r v c) = some a)
  (declared : ((tableSet s k).bind fun ts => (tableOf ts t).map fun d => (ts, d)) = some td)
  (norm : stepNorm s (curStep s) = some nc) (reads : resolveReads td.1 td.2 r v s = w)
include held declared norm reads

theorem applyTarget_awaiting (awaits : awaitsLower w td.1 td.2 r v c = true) : applyTarget g k t r v c s = w := by
  simp only [applyTarget, held, declared, norm, reads, awaits, if_true]

section
variable (turn : awaitsLower w td.1 td.2 r v c = false) {m : List W32 × Tally} {u : Option (Nat × Bool × Bool) × State}
  (gradient : m = if w.plan.paired then mirrorRound (elemAt w td.1 td.2 (curStep s) r v c) a.values else (a.values, {}))
  (update : u = updateSlice (curStep s) td.1 td.2 r v c a.count m.1 nc.1 nc.2
    (countTally m.2 (putAcc { a with applied := true } w)))
include turn gradient update

/-- A target slice whose turn it is counts as applied even where nothing was written. -/
theorem applyTarget_unwritten (unwritten : u.1 = none) : applyTarget g k t r v c s = u.2 := by
  simp only [applyTarget, held, declared, norm, reads, turn, ← gradient, ← update, unwritten, Bool.false_eq_true, if_false]

/-- What is written is mirrored, behind the operands of the step (R440, R441). -/
theorem applyTarget_written {h : Nat × Bool × Bool} (written : u.1 = some h) :
    applyTarget g k t r v c s =
      mirrorTable (curStep s) h.1 { kind := 0, set := k, table := t, row := r, variant := v, slice := c }
        h.2.1 h.2.2 a.count m.1 (whenS (mirrors u.2) (sendOperands (curStep s) nc.1 nc.2) u.2) := by
  simp only [applyTarget, held, declared, norm, reads, turn, ← gradient, ← update, written, Bool.false_eq_true, if_false]

end
end

/-- Settles O46: consuming by whether a message is next, applying by whether the slice is absent, waits, is skipped or
written, and skipping by what the record holds. -/
theorem drainGradients : Obligations.DrainGradients := by
  unfold Obligations.DrainGradients
  refine ⟨fun g x s wf next gathered => ?_, fun g s wf idle => ?_,
    fun g k t r v c a td nc w s wf held declared norm reads =>
      ⟨fun awaits => ?_, fun turn m u gradient update => ⟨fun unwritten => ?_, fun h written => ?_⟩⟩,
    fun g k t r v c s wf missing => ?_,
    fun n _ _ _ _ _ o g x y _ _ _ _ => updateSlice_skipped n o g x y,
    fun n _ _ _ _ _ o g x y _ _ _ _ => updateSlice_updated n o g x y,
    fun _ _ _ _ => skips_frozen, fun _ _ _ _ => skips_poisoned⟩
  · rw [exec_gradConsume g s wf, consume_gathered next gathered]
  · rw [exec_gradConsume g s wf, consume_none idle]
  · rw [exec_targetSliceApply g k t r v c s wf, applyTarget_awaiting held declared norm reads awaits]
  · rw [exec_targetSliceApply g k t r v c s wf,
      applyTarget_unwritten held declared norm reads turn gradient update unwritten]
  · rw [exec_targetSliceApply g k t r v c s wf,
      applyTarget_written held declared norm reads turn gradient update written]
  · rw [exec_targetSliceApply g k t r v c s wf]
    rcases missing with absent | unknown
    · rw [applyTarget_absent absent]
    · rw [applyTarget_normless unknown]

end Sys2Proof.Machine
end

section
/-!
SUPPORT. Numbers written to entries of the dictionary: an accepted number is stored, or acts where it is TRUE (R154, R476,
R487), and a register reads as what was last stored there.
-/
namespace Sys2Proof.Machine

/-! ## Numbers as bytes (R8) -/

/-- The bytes of a number read back as its low bytes. -/
theorem leNat_natLe (n v : Nat) : leNat (natLe n v) = v % 256 ^ n := by
  induction n generalizing v with
  | zero => simp [natLe, leNat, Nat.mod_one]
  | succ n ih =>
    have low : v % 256 % 2 ^ 8 = v % 256 := Nat.mod_mod v 256
    rw [natLe, leNat, ih, BitVec.toNat_ofNat, low, Nat.pow_succ', Nat.mod_mul]

/-- A number that fits its bytes reads back as itself. -/
theorem leNat_natLe_of_fits {n v : Nat} (h : fits (8 * n) v = true) : leNat (natLe n v) = v := by
  have small : v < 256 ^ n := by simpa [fits, Nat.pow_mul] using h
  rw [leNat_natLe, Nat.mod_eq_of_lt small]

/-! ## Registers -/

@[simp] theorem reg_setReg_same (k v : Nat) (s : State) : reg (setReg k v s) k = v := sget_sput_same _ v s.dict.regs k

/-- Entries differ in their defaults: what one key reads as does not depend on the default of another that is stored. -/
theorem sget_sput_otherDefault {α : Type} [DecidableEq α] (c d v : α) (m : Sparse α) {j k : Nat} (h : j ≠ k) :
    sget d (sput c m k v) j = sget d m j := by
  unfold sput
  split
  · rw [sget_sdel, if_neg h]
  · rw [sget_sins d v _ k j (mem_sdel_ne m k), if_neg h, sget_sdel, if_neg h]

theorem reg_setReg_other {j k : Nat} (h : j ≠ k) (v : Nat) (s : State) : reg (setReg k v s) j = reg s j :=
  sget_sput_otherDefault (dfltOf k) (dfltOf j) v s.dict.regs h

theorem reg_setReg (j k v : Nat) (s : State) : reg (setReg k v s) j = if k = j then v else reg s j := by
  split
  next same => rw [same, reg_setReg_same]
  next other => exact reg_setReg_other (Ne.symm other) v s

/-- R477: storing one entry changes the value in force of no other. -/
theorem setting_setReg_other {j k : Nat} (h : j ≠ k) (v : Nat) (s : State) : setting (setReg k v s) j = setting s j := by
  unfold setting
  rw [reg_setReg_other h]
  rfl

theorem setting_count_other {j k : Nat} (h : j ≠ k) (s : State) : setting (count k s) j = setting s j :=
  setting_setReg_other h _ s

/-- A register reads as 0 once 0 has been stored under its key, and as before where it has not. -/
theorem reg_forEach_zeroed (l : List Entry) (s : State) (k : Nat) :
    reg (forEach l (fun e s => setReg e.key 0 s) s) k = if l.any (fun e => e.key == k) then 0 else reg s k := by
  induction l generalizing s with
  | nil => rfl
  | cons e l ih =>
    rw [forEach_cons, ih, reg_setReg, List.any_cons]
    by_cases later : l.any (fun e => e.key == k) = true
    · simp [later]
    · simp [later]

/-- R499: every counter reads as 0, and no other register changes. -/
theorem reg_clearCounters (s : State) (k : Nat) :
    reg (clearCounters s) k = if entryTable.any (fun e => e.counter && e.key == k) then 0 else reg s k := by
  rw [clearCounters, reg_forEach_zeroed, List.any_filter]

/-! ## Accepted writes -/

section
variable {s : State} {p : Path} {k v : Nat}

/-- A BOOL on whose TRUE the module acts: FALSE is answered, and changes nothing. -/
theorem requestNumber_switch {f : State → State} (row : ∃ e, entryOf k = some e ∧ e.key = k)
    (effect : ∀ {p : Path} {e : Entry}, e.key = k → ∀ off b s, writeEffect p e off b s = whenS (leNat b == 1) f s)
    (h : accepts s p k 0 (natLe 1 v)) :
    (v = 1 → requestNumber p k 1 v s = answered p (f (touchPath p s))) ∧
    (v = 0 → requestNumber p k 1 v s = answered p (touchPath p s)) := by
  obtain ⟨e, found, key⟩ := row
  have done := requestNumber_accepted h found
  rw [effect key] at done
  constructor
  · rintro rfl
    exact done
  · rintro rfl
    exact done

/-- R476: what a write of a number stores, where the entry is no table and no selector. -/
theorem storeEntry_number {e : Entry} {n : Nat} (coords : e.key ≠ E.COORD_TABLE) (routes : e.key ≠ E.ROUTE_TABLE)
    (plain : e.selector = false) (small : fits (8 * n) v = true) (o : Option Path) (off : Nat) (s : State) :
    storeEntry o e off (natLe n v) s = settingWritten o e.key v s := by
  simp only [storeEntry, coords, routes, plain, leNat_natLe_of_fits small, Bool.false_eq_true, if_false]

/-- A stored number that is accepted has the effect of its setting. -/
theorem requestNumber_setting {n : Nat} (row : ∃ e, entryOf k = some e ∧ e.key = k)
    (effect : ∀ {p : Path} {e : Entry}, e.key = k → ∀ off b s, writeEffect p e off b s = storeEntry (some p) e off b s)
    (plain : (entryOf k).all (fun e => !e.selector) = true) (coords : k ≠ E.COORD_TABLE) (routes : k ≠ E.ROUTE_TABLE)
    (small : fits (8 * n) v = true) (h : accepts s p k 0 (natLe n v)) :
    requestNumber p k n v s = answered p (settingWritten (some p) k v (touchPath p s)) := by
  obtain ⟨e, found, rfl⟩ := row
  have noSelector : e.selector = false := by simpa [found] using plain
  rw [requestNumber_accepted h found, effect rfl, storeEntry_number coords routes noSelector small]

end

end Sys2Proof.Machine
end

section
/-!
SUPPORT. What sending can change (R286, R312, R321): the counters, the events, the ports and the outbound TLPs, and nothing
beside them.
-/
namespace Sys2Proof.Machine

/-- The state without what sending, counting and raising events change. -/
def besideTraffic (s : State) : State := { s with dict := {}, lantern := {}, fabric := {}, host := {}, outbox := [] }

theorem holds_of_besideTraffic {s t : State} (h : besideTraffic t = besideTraffic s) : t.holds = s.holds :=
  show (besideTraffic t).holds = (besideTraffic s).holds from congrArg State.holds h

@[simp] theorem besideTraffic_emit (o : Out) (s : State) : besideTraffic (emit o s) = besideTraffic s := rfl
@[simp] theorem besideTraffic_setFabric (f : Fabric) (s : State) : besideTraffic (setFabric f s) = besideTraffic s := rfl
@[simp] theorem besideTraffic_setPort (i : Nat) (p : Port) (s : State) :
    besideTraffic (setPort i p s) = besideTraffic s := rfl
@[simp] theorem besideTraffic_updPort (i : Nat) (f : Port → Port) (s : State) :
    besideTraffic (updPort i f s) = besideTraffic s := rfl
@[simp] theorem besideTraffic_countN (k n : Nat) (s : State) : besideTraffic (countN k n s) = besideTraffic s := rfl
@[simp] theorem besideTraffic_count (k : Nat) (s : State) : besideTraffic (count k s) = besideTraffic s := rfl

@[simp] theorem besideTraffic_raise (c n : Nat) (s : State) : besideTraffic (raise c n s) = besideTraffic s := by
  obtain ⟨d, l, h, b, e⟩ := raise_frame c n s
  rw [e]
  rfl

@[simp] theorem besideTraffic_raiseOnce (c n : Nat) (s : State) : besideTraffic (raiseOnce c n s) = besideTraffic s := by
  obtain ⟨d, l, h, b, e⟩ := raiseOnce_frame c n s
  rw [e]
  rfl

theorem besideTraffic_whenS {f : State → State} (h : ∀ s, besideTraffic (f s) = besideTraffic s) (c : Bool) (s : State) :
    besideTraffic (whenS c f s) = besideTraffic s := by
  cases c
  · rfl
  · exact h s

theorem besideTraffic_forEach {α : Type} {f : α → State → State} (h : ∀ a s, besideTraffic (f a s) = besideTraffic s)
    (l : List α) (s : State) : besideTraffic (forEach l f s) = besideTraffic s :=
  forEach_inv (fun t => besideTraffic t = besideTraffic s) l f (fun a t kept => (h a t).trans kept) s rfl

/-! ## Packets (R297, R312) -/

@[simp] theorem besideTraffic_pumpFlits (i : Nat) (l : List Flit) (blocked : List Nat) (s : State) :
    besideTraffic (pumpFlits i l blocked s).2 = besideTraffic s := by
  induction l generalizing blocked s with
  | nil => rfl
  | cons f l ih =>
    unfold pumpFlits
    dsimp only
    split
    · exact ih _ _
    · exact ih _ _

@[simp] theorem besideTraffic_pumpPort (i : Nat) (s : State) : besideTraffic (pumpPort i s) = besideTraffic s := by
  unfold pumpPort
  split
  · simp
  · rfl

@[simp] theorem besideTraffic_putOnPort (i : Nat) (p : Packet) (s : State) :
    besideTraffic (putOnPort i p s) = besideTraffic s := by
  simp [putOnPort]

@[simp] theorem besideTraffic_takeHop (h : Hop) (p : Packet) (s : State) :
    besideTraffic (takeHop h p s) = besideTraffic s := by
  cases h with
  | here => rfl
  | port i d =>
    unfold takeHop
    dsimp only
    split
    · rfl
    · simp

@[simp] theorem besideTraffic_sendResponse (die : Nat) (p : Packet) (s : State) :
    besideTraffic (sendResponse die p s) = besideTraffic s := by
  unfold sendResponse
  dsimp only
  split
  · simp
  · rfl

@[simp] theorem besideTraffic_returnPacket (die : Nat) (p : Packet) (code : Nat) (s : State) :
    besideTraffic (returnPacket die p code s) = besideTraffic s := by
  unfold returnPacket
  dsimp only
  split
  · split <;> simp
  · rfl

@[simp] theorem besideTraffic_sendRequest (p : Packet) (s : State) :
    besideTraffic (sendRequest p s) = besideTraffic s := by
  unfold sendRequest forwardHop
  dsimp only
  split <;> simp

@[simp] theorem besideTraffic_issue (die addr op cls : Nat) (data : Bytes) (poison : Bool) (o : Origin) (s : State) :
    besideTraffic (issue die addr op cls data poison o s) = besideTraffic s := by
  unfold issue
  dsimp only
  split
  · rfl
  · split
    · simp [takeTag]
    · rfl

/-! ## Messages (R321, R451) -/

@[simp] theorem besideTraffic_startMsg (die op dest step bytes : Nat) (body : Bytes) (poison : List Nat) (o : MsgOwner)
    (s : State) : besideTraffic (startMsg die op dest step bytes body poison o s) = besideTraffic s := by
  unfold startMsg
  dsimp only
  split
  · rfl
  · exact besideTraffic_forEach (fun _ t => besideTraffic_issue _ _ _ _ _ _ _ t) _ _

@[simp] theorem besideTraffic_sendToMember (die op k step : Nat) (body : Bytes) (poison : List Nat) (o : MsgOwner)
    (s : State) : besideTraffic (sendToMember die op k step body poison o s) = besideTraffic s :=
  besideTraffic_startMsg ..

@[simp] theorem besideTraffic_toReplacement (op step : Nat) (body : Bytes) (poison : List Nat) (s : State) :
    besideTraffic (toReplacement op step body poison s) = besideTraffic s := by
  unfold toReplacement
  split
  · exact besideTraffic_startMsg ..
  · rfl

end Sys2Proof.Machine
end

section
/-!
SUPPORT. Messages of dense reduction (R147, R155, R331), of the Ledger (R139, R156, R330) and of step agreement (R153, R154):
what each does by whether it is owed, and what a verdict leaves of the holds.
-/
namespace Sys2Proof.Machine

/-! ## Dense gradients -/

theorem takeShard_unowned {m : Msg} {s : State}
    (h : ownsShard s (field m.body 8 4) = false ∨ shardRef s (field m.body 8 4) = none) :
    takeShard m s = (0x0601, raiseOnceRun 0x0601 (field m.body 8 4) (count E.NOT_OWNER_REFUSED s)) := by
  rcases h with foreign | unknown
  · simp [takeShard, foreign]
  · simp [takeShard, unknown]

theorem takeShard_otherStep {m : Msg} {s : State} (own : ownsShard s (field m.body 8 4) = true)
    (known : (shardRef s (field m.body 8 4)).isSome = true) (other : field m.body 0 8 ≠ curStep s) :
    takeShard m s = (0, s) := by
  have held : (shardRef s (field m.body 8 4)).isNone = false := by simpa using known
  simp [takeShard, own, held, other]

theorem takeCast_unknown {m : Msg} {s : State} (unknown : shardRef s (field m.head 8 4) = none) :
    takeCast m s = (0x0601, raiseOnceRun 0x0601 (field m.head 8 4) (count E.NOT_OWNER_REFUSED s)) := by
  simp only [takeCast, unknown]

/-! ## The Ledger -/

theorem takeLedgerUp_otherStep {m : Msg} {s : State} (other : field m.body 0 8 ≠ curStep s) : takeLedgerUp m s = (0, s) := by
  simp [takeLedgerUp, other]

theorem takeLedgerDown_known {m : Msg} {s : State} (known : hasNorm s (field m.body 0 8) = true) :
    takeLedgerDown m s = (0, s) := by
  simp [takeLedgerDown, known]

/-- The total as a member records it, before the norm lets the shards go (R156, R158). -/
def totalNoted (n : Nat) (x : Int) (s : State) : State :=
  let r := normAndClip s n x (clipMaxOf s n)
  let u := (x % (2 : Int) ^ 128).toNat
  setReg E.LAST_NORM_LEDGER_LO (u % 2 ^ 64) (setReg E.LAST_NORM_LEDGER_HI (u / 2 ^ 64)
    (setReg E.LAST_NORM r.1.1.toNat (setReg E.LAST_CLIP r.1.2.toNat (setReg E.LAST_NORM_STEP n
      (countTally r.2 { s with step := { s.step with norms := (n, r.1) :: s.step.norms } })))))

theorem recordTotal_eq (n : Nat) (x : Int) (s : State) :
    recordTotal n x s = progressShards (curStep s) (totalNoted n x s) := rfl

theorem totalNoted_norms (n : Nat) (x : Int) (s : State) :
    (totalNoted n x s).step.norms = (n, (normAndClip s n x (clipMaxOf s n)).1) :: s.step.norms := rfl

theorem totalNoted_mem (n : Nat) (x : Int) (s : State) : (totalNoted n x s).mem = s.mem := rfl

/-! ## Step agreement -/

theorem takeReport_reported {n k : Nat} {s : State} (a : Nat) (ts : List (Nat × Nat))
    (reported : (s.holds.reports.any fun r => r.1 == n && r.2.1 == k) = true) : takeReport n k a ts s = s := by
  simp only [takeReport, reported, if_true]

theorem takeVerdict_known {n : Nat} {s : State} (d : Bool) (known : s.holds.verdictFor = some n) :
    takeVerdict n d s = s := by
  simp only [takeVerdict, known, if_true]

/-- R153, R154: what a new verdict changes here: its count, and the hold with its event. -/
def noteVerdict (n : Nat) (d : Bool) (s : State) : State :=
  let k := if d then s.holds.disagreeing + 1 else 0
  let s := whenS d (count E.STEP_DISAGREEMENTS) (setHolds { s.holds with verdictFor := some n, disagreeing := k } s)
  if d && decide (setting s E.STEP_AGREE_LIMIT ≤ k) && !s.holds.disagree then
    raise 0x0605 n (setHolds { s.holds with disagree := true } s)
  else s

/-- R153: the verdict goes to the replacement, and on to the children. -/
def passVerdict (n : Nat) (d : Bool) (s : State) : State :=
  let body := natLe 8 n ++ natLe 1 (b2n d) ++ zeros 23
  let s := toReplacement 0x18 n body [] s
  let kids := (myOrders s).flatMap (verdictChildren s)
  let s := whenS (!(actsAs s (pitchFirst s))) (countForwards (kids.filter fun k => !(actsAs s k)).length body) s
  forEach kids (fun k s => if actsAs s k then s else sendToMember 0 0x18 k n body [] .nobody s) s

theorem takeVerdict_new {n : Nat} {s : State} (d : Bool) (new : s.holds.verdictFor ≠ some n) :
    takeVerdict n d s = passVerdict n d (noteVerdict n d s) := by
  rw [takeVerdict, if_neg new]
  rfl

theorem passVerdict_holds (n : Nat) (d : Bool) (s : State) : (passVerdict n d s).holds = s.holds := by
  refine holds_of_besideTraffic ?_
  unfold passVerdict
  dsimp only
  rw [besideTraffic_forEach, besideTraffic_whenS, besideTraffic_toReplacement]
  · exact fun t => besideTraffic_countN _ _ t
  · intro k t
    split
    · rfl
    · exact besideTraffic_sendToMember ..

theorem raise_holds (c n : Nat) (s : State) : (raise c n s).holds = s.holds :=
  holds_of_besideTraffic (besideTraffic_raise c n s)

/-- R154: an agreement starts the count of the disagreements in a row anew. -/
theorem noteVerdict_agree (n : Nat) (s : State) :
    (noteVerdict n false s).holds = { s.holds with verdictFor := some n, disagreeing := 0 } := rfl

/-- R154: a disagreement is counted, and holds the module at STEP_AGREE_LIMIT in a row. -/
theorem noteVerdict_disagree (n : Nat) (s : State) :
    (noteVerdict n true s).holds = { s.holds with
      verdictFor := some n
      disagreeing := s.holds.disagreeing + 1
      disagree := s.holds.disagree || decide (setting s E.STEP_AGREE_LIMIT ≤ s.holds.disagreeing + 1) } := by
  have limit : ∀ h, setting (count E.STEP_DISAGREEMENTS (setHolds h s)) E.STEP_AGREE_LIMIT =
      setting s E.STEP_AGREE_LIMIT := fun h => setting_count_other (by decide) (setHolds h s)
  simp only [noteVerdict, whenS_true, if_true, Bool.true_and, limit, count_holds, setHolds_holds]
  by_cases held : s.holds.disagree = true
  · simp [held]
  · by_cases reached : setting s E.STEP_AGREE_LIMIT ≤ s.holds.disagreeing + 1
    · simp [held, reached, raise_holds]
    · simp [held, reached]

/-- Settles O45: a message is taken by its unit, which refuses one of another's shard, drops what it knows or does not
await, and else notes it; a verdict is noted before it is passed on. -/
theorem reductionMessages : Obligations.ReductionMessages := by
  unfold Obligations.ReductionMessages
  refine ⟨fun m s wf serving arrived r taken => ?_, fun _ _ => takeShard_unowned, fun _ _ => takeShard_otherStep,
    fun m s wf serving arrived r taken => ?_, fun _ _ => takeCast_unknown,
    fun m s wf serving arrived r taken => ?_, fun _ _ => takeLedgerUp_otherStep,
    fun m s wf serving arrived r taken => ?_, fun _ _ => takeLedgerDown_known,
    fun n x s => ⟨totalNoted n x s, recordTotal_eq n x s, totalNoted_norms n x s, totalNoted_mem n x s⟩,
    fun m s wf serving arrived r taken => ?_, fun _ _ a ts _ => takeReport_reported a ts,
    fun m s wf serving arrived => ?_, fun _ d _ => takeVerdict_known d, fun n d s new => ?_⟩
  · rw [← taken, exec_shardGrad m s wf, shardGradRow, messageRow_received wf arrived serving]
  · rw [← taken, exec_shardMulticast m s wf, shardMulticastRow, messageRow_received wf arrived serving]
  · rw [← taken, exec_ledgerUp m s wf, ledgerUpRow, messageRow_received wf arrived serving]
  · rw [← taken, exec_ledgerDown m s wf, ledgerDownRow, messageRow_received wf arrived serving]
  · rw [← taken, exec_stepReport m s wf, stepReportRow, messageRow_received wf arrived serving]
    rfl
  · rw [exec_stepVerdict m s wf, stepVerdictRow, messageRow_received wf arrived serving]
    rfl
  · rw [takeVerdict_new d new, passVerdict_holds]
    cases d with
    | false => simp [noteVerdict_agree]
    | true => simp [noteVerdict_disagree]

end Sys2Proof.Machine
end

section
/-!
SUPPORT. What the settings whose writes do more store and change (R254, R289, R311, R320), and the entries that act (R154,
R241, R245, R459, R487, R499).
-/
namespace Sys2Proof.Machine

/-- TRUE as the byte that a write carries. -/
theorem natLe_true : natLe 1 1 = [1] := by decide

/-- The two bytes that clear FAULT_CODE. -/
theorem natLe_cleared : natLe 2 0 = [0, 0] := by decide

/-! ## Settings whose writes do more -/

/-- The path that carries a request is no part of a run. -/
theorem isMember_touchPath (p : Path) (s : State) : isMember (touchPath p s) = isMember s := by
  cases p <;> rfl

/-- R311: outside a run the written routes are in force at once. -/
theorem commitRoutes_alone {s : State} (alone : isMember s = false) :
    commitRoutes s = { s with fabric := { s.fabric with route := s.dict.routeTable } } := by
  simp only [commitRoutes, alone, Bool.false_eq_true, if_false]
  rfl

/-- R311: on a member they wait for the next COMMIT point. -/
theorem commitRoutes_member {s : State} (member : isMember s = true) :
    commitRoutes s = { s with fabric := { s.fabric with routePending := some s.dict.routeTable } } := by
  simp only [commitRoutes, member, if_true]
  rfl

theorem settingWritten_PORT_ENABLE_MASK (o : Option Path) (v : Nat) (s : State) :
    settingWritten o E.PORT_ENABLE_MASK v s =
      letTrain (portMaskWritten (reg s E.PORT_ENABLE_MASK) v (setReg E.PORT_ENABLE_MASK v s)) := rfl

theorem settingWritten_TSET_T (p : Path) (v : Nat) (s : State) :
    settingWritten (some p) E.TSET_T v s = updSet (sel s p E.TSET_SELECT) (fun t => { t with t := v }) s := rfl

/-- R254: the ring is freed up to a tail that lies within it. -/
theorem settingWritten_WATCH_RING_TAIL {v : Nat} {s : State} (below : s.watch.tail ≤ v) (within : v ≤ s.watch.head)
    (o : Option Path) : settingWritten o E.WATCH_RING_TAIL v s = setWatch { s.watch with tail := v } s := by
  have stored : settingWritten o E.WATCH_RING_TAIL v s = (writeTail v s).2 := rfl
  have inRing : ¬(decide (s.watch.head < v) || decide (v < s.watch.tail)) = true := by
    simpa using And.intro within below
  rw [stored, writeTail, if_neg inRing]

theorem storeEntry_COORD_TABLE {e : Entry} (key : e.key = E.COORD_TABLE) (o : Option Path) (off : Nat) (b : Bytes)
    (s : State) : storeEntry o e off b s =
      letTrain { s with dict := { s.dict with coordTable := coordTableAfter s off b } } := by
  simp only [storeEntry, key, if_true]

/-- R289: a write of a dimension, whichever it is, fills the coordinate table anew. -/
theorem requestNumber_torusDim {p : Path} {a v : Nat} {s : State} (dimension : a < 3) (small : fits 8 v = true)
    (h : accepts s p (E.TORUS_DIM_X + a) 0 (natLe 1 v)) :
    requestNumber p (E.TORUS_DIM_X + a) 1 v s =
      answered p (letTrain (refillCoords (setReg (E.TORUS_DIM_X + a) v (touchPath p s)))) := by
  match a with
  | 0 =>
    exact requestNumber_setting entry_TORUS_DIM_X writeEffect_TORUS_DIM_X (by decide +kernel) (by decide) (by decide) small h
  | 1 =>
    exact requestNumber_setting entry_TORUS_DIM_Y writeEffect_TORUS_DIM_Y (by decide +kernel) (by decide) (by decide) small h
  | 2 =>
    exact requestNumber_setting entry_TORUS_DIM_Z writeEffect_TORUS_DIM_Z (by decide +kernel) (by decide) (by decide) small h

/-- Settles O53: an accepted number is stored, and its setting does what its chapter says; ROUTE_TABLE_COMMIT acts. -/
theorem settingWrites : Obligations.SettingWrites := by
  unfold Obligations.SettingWrites
  refine ⟨fun p v u s wf ok touched => ?_, fun p u s wf ok touched => ?_,
    fun p a v s wf ok => ?_, fun s => rfl, fun p i b u s wf ok touched => ?_,
    fun p v u s wf ok touched below within => ?_, fun p v u s wf ok touched => ?_⟩
  · have small : wfPath p = true ∧ fits 8 v = true := by simpa only [Instr.wf, Bool.and_eq_true] using wf
    rw [exec_portEnableMaskWrite p v s wf, requestNumber_setting entry_PORT_ENABLE_MASK writeEffect_PORT_ENABLE_MASK
      (by decide +kernel) (by decide) (by decide) small.2 ok, touched, settingWritten_PORT_ENABLE_MASK]
  · rw [← natLe_true] at ok
    rw [exec_routeTableCommit p 1 s wf,
      (requestNumber_switch entry_ROUTE_TABLE_COMMIT writeEffect_ROUTE_TABLE_COMMIT ok).1 rfl, touched]
    rw [← isMember_touchPath p s, touched]
    exact ⟨fun alone => by rw [commitRoutes_alone alone], fun member => by rw [commitRoutes_member member]⟩
  · obtain ⟨⟨_, dimension⟩, small⟩ : (wfPath p = true ∧ a < 3) ∧ fits 8 v = true := by
      simpa only [Instr.wf, Bool.and_eq_true, decide_eq_true_eq] using wf
    rw [exec_torusDimWrite p a v s wf, requestNumber_torusDim dimension small ok]
  · obtain ⟨e, found, key⟩ := entry_COORD_TABLE
    rw [exec_coordTableWrite p i b s wf, requestWrite_accepted ok found, writeEffect_COORD_TABLE key,
      storeEntry_COORD_TABLE key, touched]
  · have small : wfPath p = true ∧ fits 64 v = true := by simpa only [Instr.wf, Bool.and_eq_true] using wf
    rw [exec_watchRingTailWrite p v s wf, requestNumber_setting entry_WATCH_RING_TAIL writeEffect_WATCH_RING_TAIL
      (by decide +kernel) (by decide) (by decide) small.2 ok, touched, settingWritten_WATCH_RING_TAIL below within]
    rfl
  · have small : wfPath p = true ∧ fits 64 v = true := by simpa only [Instr.wf, Bool.and_eq_true] using wf
    rw [exec_tsetT p v s wf, requestNumber_setting entry_TSET_T writeEffect_TSET_T
      (by decide +kernel) (by decide) (by decide) small.2 ok, touched, settingWritten_TSET_T]
    rfl

/-! ## Writes that act -/

/-- A row acts where its request does. -/
theorem next_of_switch {φ ρ : Type} {v : Nat} {c : List Instr} {s t u : State} (h : (v = 1 → s = t) ∧ (v = 0 → s = u)) :
    (v = 1 → (Host.Outcome.next (withQueue c s) : Host.Outcome State φ ρ) = .next (withQueue c t)) ∧
    (v = 0 → (Host.Outcome.next (withQueue c s) : Host.Outcome State φ ρ) = .next (withQueue c u)) :=
  ⟨fun on => by rw [h.1 on], fun off => by rw [h.2 off]⟩

/-- Settles O54: an accepted TRUE acts and an accepted FALSE does not; the histories to reset are named by number, and the
fault record is cleared by its own entry. -/
theorem actingWrites : Obligations.ActingWrites := by
  unfold Obligations.ActingWrites
  refine ⟨fun p v s wf ok => ?_, fun p v s wf ok => ?_, fun p v u s wf ok touched => ?_, fun p v s wf ok => ?_,
    fun p u s wf ok touched => ?_, fun p v s wf ok => ?_, reg_clearCounters⟩
  · have small : wfPath p = true ∧ fits 16 v = true := by simpa only [Instr.wf, Bool.and_eq_true] using wf
    obtain ⟨e, found, key⟩ := entry_WATCH_HISTORY_RESET
    rw [exec_watchHistoryReset p v s wf, requestNumber_accepted ok found, writeEffect_WATCH_HISTORY_RESET key,
      leNat_natLe_of_fits (n := 2) small.2]
  · rw [exec_watchResume p v s wf]
    have acts := requestNumber_switch entry_WATCH_RESUME writeEffect_WATCH_RESUME ok
    exact next_of_switch acts
  · rw [exec_stepAgreeResume p v s wf, ← touched]
    have acts := requestNumber_switch entry_STEP_AGREE_RESUME writeEffect_STEP_AGREE_RESUME ok
    exact next_of_switch acts
  · rw [exec_salvage p v s wf]
    have acts := requestNumber_switch entry_SALVAGE writeEffect_SALVAGE ok
    exact next_of_switch acts
  · obtain ⟨e, found, key⟩ := entry_FAULT_CODE
    rw [← natLe_cleared] at ok
    rw [exec_faultCodeClear p 0 s wf, requestNumber_accepted ok found, writeEffect_FAULT_CODE key, touched]
    rfl
  · rw [exec_countersClearAll p v s wf]
    have acts := requestNumber_switch entry_COUNTERS_CLEAR_ALL writeEffect_COUNTERS_CLEAR_ALL ok
    exact next_of_switch acts

end Sys2Proof.Machine
end

section
/-!
SUPPORT. Commands that bind (R168, R381, R389, R426): what the work of GATHER_POOL, FEED_BIND and SCHED leaves, by whether the
checks pass.
-/
namespace Sys2Proof.Machine

/-! ## Bindings -/

theorem poolBindWork_passed {r : Rec64} {s : State} (passed : poolRefusal s r = 0) :
    poolBindWork r s = ({}, { s with step := { s.step with poolBindings := s.step.poolBindings ++ [poolOf r] } }) := by
  simp [poolBindWork, passed]

theorem poolBindWork_refused {r : Rec64} {s : State} (refused : poolRefusal s r ≠ 0) :
    poolBindWork r s = ({ status := poolRefusal s r }, s) := by
  simp [poolBindWork, refused]

theorem feedBindWork_passed {r : Rec64} {s : State} (passed : feedRefusal s (feedOf r) = 0) :
    feedBindWork r s = ({}, { s with step := { s.step with feedBindings := s.step.feedBindings ++ [feedOf r] } }) := by
  simp [feedBindWork, passed]

theorem feedBindWork_refused {r : Rec64} {s : State} (refused : feedRefusal s (feedOf r) ≠ 0) :
    feedBindWork r s = ({ status := feedRefusal s (feedOf r) }, s) := by
  simp [feedBindWork, refused]

/-! ## Schedules -/

theorem schedOne_invalid {r : Rec64} {j : Nat} (invalid : (schedEntry r j).1 = false) (d : Done) (s : State) :
    schedOne r d j s = (d, s) := by
  simp [schedOne, invalid]

theorem schedOne_applied {r : Rec64} {j : Nat} {s : State} (valid : (schedEntry r j).1 = true)
    (passed : schedRefusal s (schedEntry r j).2.1 (schedEntry r j).2.2 = 0) (d : Done) :
    schedOne r d j s = (d, count E.SCHED_APPLIED
      (updSet (schedEntry r j).2.1 (fun t => { t with scheds := t.scheds ++ [(schedEntry r j).2.2] }) s)) := by
  simp [schedOne, valid, passed]

/-- R389: a bad entry is named where no entry before it was bad. -/
theorem schedOne_refused {r : Rec64} {j : Nat} {s : State} (valid : (schedEntry r j).1 = true)
    (refused : schedRefusal s (schedEntry r j).2.1 (schedEntry r j).2.2 ≠ 0) (d : Done) :
    schedOne r d j s = (if d.status = 0
      then { d with status := schedRefusal s (schedEntry r j).2.1 (schedEntry r j).2.2, detail := j } else d,
      count E.SCHED_REFUSED s) := by
  simp [schedOne, valid, refused]

/-- R389: an entry, good or bad, neither saturates nor poisons. -/
theorem schedOne_flags (r : Rec64) (d : Done) (j : Nat) (s : State) :
    (schedOne r d j s).1.saturated = d.saturated ∧ (schedOne r d j s).1.poison = d.poison := by
  by_cases valid : (schedEntry r j).1 = true
  · by_cases passed : schedRefusal s (schedEntry r j).2.1 (schedEntry r j).2.2 = 0
    · simp [schedOne_applied valid passed]
    · rw [schedOne_refused valid passed]
      split <;> simp
  · simp [schedOne_invalid (by simpa using valid)]

theorem schedWork_flags (r : Rec64) (s : State) :
    (schedWork r s).1.saturated = false ∧ (schedWork r s).1.poison = false := by
  simp [schedWork, schedOne_flags]

theorem ended_schedWork (q i : Nat) (r : Rec64) (s : State) :
    ended q i (schedWork r s) =
      endCmd q i (schedWork r s).1.status (schedWork r s).1.detail false false (schedWork r s).2 := by
  obtain ⟨saturated, poison⟩ := schedWork_flags r s
  rw [ended, saturated, poison]

/-! ## The rows -/

/-- R375: a command of one opcode that starts at once ends with what the work of its opcode leaves. -/
theorem commandRow_ended {op q i : Nat} {r : Rec64} {work : Rec64 → State → Done × State} {s : State}
    (works : ∀ t, opcodeOf r = op → commandWork q i r t = ended q i (work r t)) (wf : wfCommand op q i r = true)
    (starts : startable q i r s) : commandRow q i r s = ended q i (work r (begun q i r s)) := by
  obtain ⟨row, opcode⟩ := commandRow_work wf starts
  rw [row, works _ opcode]

theorem exec_gatherPool_started {q i : Nat} {r : Rec64} {s : State} (wf : Instr.wf (.gatherPool q i r) = true)
    (starts : startable q i r s) : exec (.gatherPool q i r) s =
      .next (withQueue s.pending (settleRun (ended q i (poolBindWork r (begun q i r s))))) := by
  rw [exec_gatherPool q i r s wf,
    commandRow_ended (op := 0x20) (work := poolBindWork) (fun t opcode => by simp only [commandWork, opcode]) wf starts]

theorem exec_feedBind_started {q i : Nat} {r : Rec64} {s : State} (wf : Instr.wf (.feedBind q i r) = true)
    (starts : startable q i r s) : exec (.feedBind q i r) s =
      .next (withQueue s.pending (settleRun (ended q i (feedBindWork r (begun q i r s))))) := by
  rw [exec_feedBind q i r s wf,
    commandRow_ended (op := 0x48) (work := feedBindWork) (fun t opcode => by simp only [commandWork, opcode]) wf starts]

theorem exec_sched_started {q i : Nat} {r : Rec64} {s : State} (wf : Instr.wf (.sched q i r) = true)
    (starts : startable q i r s) : exec (.sched q i r) s =
      .next (withQueue s.pending (settleRun (ended q i (schedWork r (begun q i r s))))) := by
  rw [exec_sched q i r s wf,
    commandRow_ended (op := 0x30) (work := schedWork) (fun t opcode => by simp only [commandWork, opcode]) wf starts]

/-- Settles O40: a started command ends with what its work leaves, which for a binding turns on its checks and for SCHED is
that of the three entries in order, each by whether it is valid and passes. -/
theorem bindingCommands : Obligations.BindingCommands := by
  unfold Obligations.BindingCommands
  refine ⟨fun q i r t s wf starts begins => ?_, fun q i r t s wf starts begins => ?_,
    fun q i r t s wf starts begins => ?_, fun r d j e s entry _ _ => ?_⟩
  · rw [exec_gatherPool_started wf starts, begins]
    exact ⟨fun passed => by rw [poolBindWork_passed passed]; rfl,
      fun refused => by rw [poolBindWork_refused refused]; rfl⟩
  · rw [exec_feedBind_started wf starts, begins]
    exact ⟨fun passed => by rw [feedBindWork_passed passed]; rfl,
      fun refused => by rw [feedBindWork_refused refused]; rfl⟩
  · rw [exec_sched_started wf starts, begins, ended_schedWork]
    rfl
  · subst entry
    exact ⟨fun invalid => schedOne_invalid invalid d s, fun valid passed => schedOne_applied valid passed d,
      fun valid refused first => by rw [schedOne_refused valid refused, if_pos first],
      fun valid refused named => by rw [schedOne_refused valid refused, if_neg named]⟩

end Sys2Proof.Machine
end

section
/-!
SUPPORT. What a chunk adds up to (R194): a NaN or an infinity decides it, else it is the sum of what lies in the window of
the largest product; the order of the products does not matter, and products within the window are added exactly.
-/
namespace Sys2Proof.Machine

/-! ## The window -/

/-- R194: a product as an integer in units of 2^lsb, and whether a non-zero bit of it was dropped. -/
def windowTerm (lsb : Int) : ExactNum → Int × Bool
  | .fin s m e => (numToInt s (windowMag m e lsb).1, (windowMag m e lsb).2)
  | _ => (0, false)

/-- R194: the sum of what lies in a window, and whether a non-zero bit was dropped. -/
def windowSum (lsb : Int) (ps : List ExactNum) : ExactNum × Bool :=
  let v := ((ps.map (windowTerm lsb)).map Prod.fst).sum
  (.fin (decide (v < 0)) v.natAbs lsb, (ps.map (windowTerm lsb)).any Prod.snd)

/-- The cases of a chunk sum: NaN, an infinity, only zeros, or a window of 41 bits from the largest leading bit. -/
theorem chunkSum_eq (ps : List ExactNum) :
    chunkSum ps =
      if ps.any numIsNan || (ps.contains (.inf true) && ps.contains (.inf false)) then (.nan, false)
      else if ps.contains (.inf true) then (.inf true, false)
      else if ps.contains (.inf false) then (.inf false, false)
      else (ps.filterMap leadExp).max?.elim (num0, false) fun top => windowSum (top - 40) ps := by
  unfold chunkSum
  cases (ps.filterMap leadExp).max? <;> rfl

/-- Where no product is a NaN or an infinity, the largest leading bit decides. -/
theorem chunkSum_of_finite {ps : List ExactNum} (finite : ∀ p ∈ ps, numNonfinite p = false) :
    chunkSum ps = (ps.filterMap leadExp).max?.elim (num0, false) fun top => windowSum (top - 40) ps := by
  have noNan : ps.any numIsNan = false := by
    rw [List.any_eq_false]
    intro p mem nan
    have number := finite p mem
    cases p with
    | nan => cases number
    | inf s => cases nan
    | fin s m e => cases nan
  have noInf (s : Bool) : ps.contains (.inf s) = false := by
    rw [← Bool.not_eq_true, List.contains_iff_mem]
    intro mem
    cases finite _ mem
  simp only [chunkSum_eq, noNan, noInf, Bool.and_false, Bool.or_false, Bool.false_eq_true, if_false]

/-! ## The order of the products -/

theorem max?_perm {l k : List Int} (h : l.Perm k) : l.max? = k.max? := by
  ext top
  simp only [List.max?_eq_some_iff, h.mem_iff]

theorem sum_perm {l k : List Int} (h : l.Perm k) : l.sum = k.sum := by
  rw [List.sum_eq_foldr, List.sum_eq_foldr]
  exact h.foldr_eq' (fun x _ y _ z => Int.add_left_comm y x z) 0

theorem windowSum_perm {ps qs : List ExactNum} (h : ps.Perm qs) (lsb : Int) : windowSum lsb ps = windowSum lsb qs := by
  have terms := h.map (windowTerm lsb)
  simp only [windowSum, sum_perm (terms.map Prod.fst), terms.any_eq]

theorem chunkSum_perm {ps qs : List ExactNum} (h : ps.Perm qs) : chunkSum ps = chunkSum qs := by
  simp only [chunkSum_eq, h.any_eq, h.contains_eq, max?_perm (h.filterMap leadExp), windowSum_perm h]

/-! ## Zeros and exact sums -/

theorem numNonfinite_of_zero {p : ExactNum} (zero : numIsZero p = true) : numNonfinite p = false := by
  cases p with
  | nan => cases zero
  | inf s => cases zero
  | fin s m e => rfl

theorem leadExp_of_zero {p : ExactNum} (zero : numIsZero p = true) : leadExp p = none := by
  cases p with
  | nan => rfl
  | inf s => rfl
  | fin s m e => exact if_pos (by simpa [numIsZero] using zero)

theorem chunkSum_zeros {ps : List ExactNum} (zeros : ∀ p ∈ ps, numIsZero p = true) : chunkSum ps = (num0, false) := by
  have noLead : ps.filterMap leadExp = [] := List.filterMap_eq_nil_iff.mpr fun p mem => leadExp_of_zero (zeros p mem)
  rw [chunkSum_of_finite fun p mem => numNonfinite_of_zero (zeros p mem), noLead]
  rfl

/-- A product whose last bit lies in the window is taken whole. -/
theorem windowTerm_within {lsb e : Int} (within : lsb ≤ e) (s : Bool) (m : Nat) :
    windowTerm lsb (.fin s m e) = (numToInt s (m * 2 ^ (e - lsb).toNat), false) := by
  simp only [windowTerm, windowMag, within, if_true, Nat.shiftLeft_eq]

/-- Settles O38: every part of a chunk sum is one of all its products at once, and in the window each is taken whole. -/
theorem chunkSumExact : Obligations.ChunkSumExact := by
  unfold Obligations.ChunkSumExact
  refine ⟨fun _ _ => chunkSum_perm, fun _ => chunkSum_zeros, fun ps top lead window => ?_⟩
  have finite : ∀ p ∈ ps, numNonfinite p = false := by
    intro p mem
    obtain ⟨s, m, e, rfl, _⟩ := window p mem
    rfl
  rw [chunkSum_of_finite finite, lead]
  refine ⟨?_, _, rfl, ?_⟩
  · have whole : ∀ p ∈ ps, (windowTerm (top - 40) p).2 = false := by
      intro p mem
      obtain ⟨s, m, e, rfl, within⟩ := window p mem
      rw [windowTerm_within within]
    simpa [windowSum] using whole
  · rw [List.map_map]
    refine congrArg List.sum (List.map_congr_left fun p mem => ?_)
    obtain ⟨s, m, e, rfl, within⟩ := window p mem
    rw [Function.comp_apply, windowTerm_within within]

end Sys2Proof.Machine
end

section
/-!
SUPPORT. Matrix and row-engine commands (R193 to R207, R224 to R230): what the work of GEMM, ROWENG_FWD and ROWENG_BWD
leaves, by whether the checks pass.
-/
namespace Sys2Proof.Machine

/-! ## GEMM -/

/-- R207: the first check finds the three tensors of the product. -/
theorem tensors_of_gemmRefusal_zero {s : State} {g : Gemm} (passed : gemmRefusal s g = 0) :
    ∃ a b c, tensorOf s g.a = some a ∧ tensorOf s g.b = some b ∧ tensorOf s g.c = some c := by
  cases first : tensorOf s g.a with
  | none => simp [gemmRefusal, first] at passed
  | some a =>
    cases second : tensorOf s g.b with
    | none => simp [gemmRefusal, first, second] at passed
    | some b =>
      cases output : tensorOf s g.c with
      | none => simp [gemmRefusal, first, second, output] at passed
      | some c => exact ⟨a, b, c, rfl, rfl, rfl⟩

/-- A GEMM that passes its checks has its operands read, with X or without. -/
theorem gemmJob_of_passed {s : State} {g : Gemm} (passed : gemmRefusal s g = 0) (step : Nat) :
    ∃ j, (gemmJob g step s).1 = some j ∧ j.g = g := by
  obtain ⟨a, b, c, first, second, output⟩ := tensors_of_gemmRefusal_zero passed
  simp only [gemmJob, first, second, output]
  split
  · exact ⟨_, rfl, rfl⟩
  · exact ⟨_, rfl, rfl⟩

/-- The tiles of a GEMM computed in ascending order, the arrays taken in turn. -/
def gemmComputed (r : Rec64) (j : Job) (s : State) : GemmAcc :=
  let g := gemmOf r
  ((gemmTiles g).zip (upto (gemmTiles g).length)).foldl (fun acc x =>
    gemmTile r j (watchSlotOf s false 0 g.c) (nthD 0 (arraysOf g.mask) (x.2 * g.split % (arraysOf g.mask).length))
      x.1.1 x.1.2 acc) ({ state := s } : GemmAcc)

/-- R200: the scale record of an output that has one. -/
def scalesWritten (g : Gemm) (j : Job) (scales : List (Nat × Bool)) (s : State) : State :=
  if scaledOut j then writeMarked g.scale (scales.flatMap fun e => natLe 1 e.1) (scales.map Prod.snd) s else s

theorem gemmWork_refused {r : Rec64} {s : State} (refused : gemmRefusal s (gemmOf r) ≠ 0) :
    gemmWork r s = ({ status := gemmRefusal s (gemmOf r) },
      countRefusal (gemmRefusal s (gemmOf r)) (count E.GEMM_REFUSED s)) := by
  simp [gemmWork, refused]

theorem gemmWork_passed {r : Rec64} {s u : State} {j : Job} (passed : gemmRefusal s (gemmOf r) = 0)
    (job : gemmJob (gemmOf r) (curStep s) s = (some j, u)) :
    gemmWork r s =
      let acc := gemmComputed r j u
      let w := writePieces j.c acc.pieces [] acc.state
      ({ saturated := acc.saturated, poison := w.1 },
        count E.GEMM_COMPLETED (scalesWritten (gemmOf r) j acc.scales w.2)) := by
  simp only [gemmWork, passed, job, bne_self_eq_false, Bool.false_eq_true, if_false]
  rfl

/-! ## The row engines -/

/-- The rows of a command in ascending order. -/
def rowsComputed (j : RowJob) (s : State) : RowAcc :=
  (upto j.c.rows).foldl (fun acc row => runRow j row acc) ({ state := s } : RowAcc)

/-- The operands of a row command, in the order in which they are read. -/
def rowJob (c : RowCmd) (bwd : Bool) (tx ty : Tensor) (tp : Option Tensor) (s : State) : RowJob × State :=
  let x := loadOperand tx s
  let dy := loadOpt bwd c.dy x.2
  let gm := loadOpt (c.op != 2) c.gamma dy.2
  let bt := loadOpt (c.op != 2 && !bwd) c.beta gm.2
  (⟨c, x.1, dy.1, gm.1, bt.1, ty, tp⟩, bt.2)

/-- A forward command reads no dy. -/
theorem rowJob_forward (c : RowCmd) (tx ty : Tensor) (s : State) :
    rowJob c false tx ty none s =
      let x := loadOperand tx s
      let gm := loadOpt (c.op != 2) c.gamma x.2
      let bt := loadOpt (c.op != 2) c.beta gm.2
      (⟨c, x.1, none, gm.1, bt.1, ty, none⟩, bt.2) := by
  simp [rowJob, loadOpt]

/-- A backward command reads no beta. -/
theorem rowJob_backward (c : RowCmd) (tx ty : Tensor) (tp : Option Tensor) (s : State) :
    rowJob c true tx ty tp s =
      let x := loadOperand tx s
      let dy := loadOpt true c.dy x.2
      let gm := loadOpt (c.op != 2) c.gamma dy.2
      (⟨c, x.1, dy.1, gm.1, none, ty, tp⟩, gm.2) := by
  simp [rowJob, loadOpt]

section
variable {bwd : Bool} {r : Rec64} {s : State} {tx ty : Tensor}

/-- R229: a command that writes no parameter gradients: a forward one, a soft maximum, or one that names none. -/
theorem rowEngWork_single (passed : rowCmdRefusal s (rowCmdOf bwd r) = 0) (input : tensorOf s (rowCmdOf bwd r).x = some tx)
    (output : tensorOf s (rowCmdOf bwd r).y = some ty)
    (single : (bwd && (rowCmdOf bwd r).op != 2 && (rowCmdOf bwd r).p != 0xFFFF) = false) :
    rowEngWork bwd r s =
      let j := rowJob (rowCmdOf bwd r) bwd tx ty none s
      let acc := rowsComputed j.1 j.2
      let w := writePieces ty acc.y [] acc.state
      ({ poison := w.1 }, countN (if bwd then E.ROWENG_ROWS_BWD else E.ROWENG_ROWS_FWD) (rowCmdOf bwd r).rows w.2) := by
  simp only [rowEngWork, passed, input, output, single, bne_self_eq_false, Bool.false_eq_true, if_false, Bool.or_false]
  rfl

/-- R229: a normalisation backward that writes its second output after its first. -/
theorem rowEngWork_double {tp : Tensor} (passed : rowCmdRefusal s (rowCmdOf true r) = 0)
    (input : tensorOf s (rowCmdOf true r).x = some tx) (output : tensorOf s (rowCmdOf true r).y = some ty)
    (norm : (rowCmdOf true r).op ≠ 2) (named : (rowCmdOf true r).p ≠ 0xFFFF)
    (second : tensorOf s (rowCmdOf true r).p = some tp) :
    rowEngWork true r s =
      let j := rowJob (rowCmdOf true r) true tx ty (some tp) s
      let acc := rowsComputed j.1 j.2
      let w := writePieces ty acc.y [] acc.state
      let w₂ := writePieces tp acc.p [] w.2
      ({ poison := w.1 || w₂.1 }, countN E.ROWENG_ROWS_BWD (rowCmdOf true r).rows w₂.2) := by
  have both : (true && (rowCmdOf true r).op != 2 && (rowCmdOf true r).p != 0xFFFF) = true := by simp [norm, named]
  simp only [rowEngWork, passed, input, output, both, second, bne_self_eq_false, Bool.false_eq_true, if_false, if_true]
  rfl

end

/-! ## The rows of the three commands -/

theorem exec_gemm_started {q i : Nat} {r : Rec64} {s : State} (wf : Instr.wf (.gemm q i r) = true)
    (starts : startable q i r s) : exec (.gemm q i r) s =
      .next (withQueue s.pending (settleRun (ended q i (gemmWork r (begun q i r s))))) := by
  rw [exec_gemm q i r s wf,
    commandRow_ended (op := 0x10) (work := gemmWork) (fun t opcode => by simp only [commandWork, opcode]) wf starts]

theorem exec_rowengFwd_started {q i : Nat} {r : Rec64} {s : State} (wf : Instr.wf (.rowengFwd q i r) = true)
    (starts : startable q i r s) : exec (.rowengFwd q i r) s =
      .next (withQueue s.pending (settleRun (ended q i (rowEngWork false r (begun q i r s))))) := by
  rw [exec_rowengFwd q i r s wf, commandRow_ended (op := 0x1C) (work := rowEngWork false)
    (fun t opcode => by simp only [commandWork, opcode]) wf starts]

theorem exec_rowengBwd_started {q i : Nat} {r : Rec64} {s : State} (wf : Instr.wf (.rowengBwd q i r) = true)
    (starts : startable q i r s) : exec (.rowengBwd q i r) s =
      .next (withQueue s.pending (settleRun (ended q i (rowEngWork true r (begun q i r s))))) := by
  rw [exec_rowengBwd q i r s wf, commandRow_ended (op := 0x1D) (work := rowEngWork true)
    (fun t opcode => by simp only [commandWork, opcode]) wf starts]

/-- Settles O37: a started command ends with what its work leaves, which turns on its checks, on the output's scale record
and on the second output of a normalisation backward. -/
theorem matrixCommands : Obligations.MatrixCommands := by
  unfold Obligations.MatrixCommands
  refine ⟨fun q i r g t s wf starts begins fields => ?_, fun g s passed => gemmJob_of_passed passed (curStep s),
    fun q i r c tx ty t s wf starts begins fields passed input output x gm bt acc w hx hgm hbt hacc hw => ?_,
    fun q i r c tx ty t s wf starts begins fields passed input output single x dy gm acc w hx hdy hgm hacc hw => ?_,
    fun q i r c tx ty tp t s wf starts begins fields passed input output norm named second x dy gm acc w w₂
      hx hdy hgm hacc hw hw₂ => ?_⟩
  · subst fields
    rw [exec_gemm_started wf starts, begins]
    refine ⟨fun refused => by rw [gemmWork_refused refused]; rfl, fun passed j u acc w job hacc hw => ?_⟩
    subst hacc hw
    rw [gemmWork_passed passed job]
    exact ⟨fun plain => by simp only [scalesWritten, plain, Bool.false_eq_true, if_false]; rfl,
      fun scaled => by simp only [scalesWritten, scaled, if_true]; rfl⟩
  · subst fields hx hgm hbt hacc hw
    rw [exec_rowengFwd_started wf starts, begins, rowEngWork_single passed input output rfl, rowJob_forward]
    rfl
  · subst fields hx hdy hgm hacc hw
    have one : (true && (rowCmdOf true r).op != 2 && (rowCmdOf true r).p != 0xFFFF) = false := by
      rcases single with soft | unnamed
      · simp [soft]
      · simp [unnamed]
    rw [exec_rowengBwd_started wf starts, begins, rowEngWork_single passed input output one, rowJob_backward]
    rfl
  · subst fields hx hdy hgm hacc hw hw₂
    have scaled : ((rowCmdOf true r).op != 2) = true := by simpa using norm
    rw [exec_rowengBwd_started wf starts, begins, rowEngWork_double passed input output norm named second, rowJob_backward,
      scaled]
    rfl

end Sys2Proof.Machine
end

section
/-!
SUPPORT. What reading and writing memory leaves alone: all but memory, the counters, the event log and what leaves the
module, and the list of pages to be copied again (R93, R94, R265, R266, R271, R455).
-/
namespace Sys2Proof.Machine

/-- A state but for what memory operations change. -/
def besideMem (s : State) : State :=
  { s with mem := {}, dict := {}, lantern := {}, host := {}, outbox := [], twin := {} }

/-- An operation on states that changes nothing beside memory. -/
def memoryWork (f : State → State) : Prop := ∀ s, besideMem (f s) = besideMem s

/-! ## What the operations are made of -/

@[simp] theorem besideMem_setMem (m : Mem) (s : State) : besideMem (setMem m s) = besideMem s := (rfl)
@[simp] theorem besideMem_count (k : Nat) (s : State) : besideMem (count k s) = besideMem s := (rfl)
@[simp] theorem besideMem_countN (k n : Nat) (s : State) : besideMem (countN k n s) = besideMem s := (rfl)
@[simp] theorem besideMem_putWord (sk w : Nat) (s : State) : besideMem (putWord sk w s) = besideMem s := (rfl)
@[simp] theorem besideMem_setStale (pk : Nat) (v : Nat × Nat) (s : State) :
    besideMem (setStale pk v s) = besideMem s := (rfl)
@[simp] theorem besideMem_setDamage (sk v : Nat) (s : State) : besideMem (setDamage sk v s) = besideMem s := (rfl)

@[simp] theorem besideMem_raiseAt (c x n : Nat) (s : State) : besideMem (raiseAt c x n s) = besideMem s := by
  obtain ⟨d, l, h, b, changed⟩ := raiseAt_frame c x n s
  rw [changed]
  rfl

@[simp] theorem besideMem_raiseOnce (c n : Nat) (s : State) : besideMem (raiseOnce c n s) = besideMem s := by
  obtain ⟨d, l, h, b, changed⟩ := raiseOnce_frame c n s
  rw [changed]
  rfl

theorem besideMem_whenS {c : Bool} {f : State → State} (work : memoryWork f) (s : State) :
    besideMem (whenS c f s) = besideMem s :=
  whenS_keeps (besideMem · = besideMem s) c f (fun t same => (work t).trans same) s rfl

theorem besideMem_forEach {α : Type} {l : List α} {f : α → State → State} (work : ∀ a, memoryWork (f a))
    (s : State) : besideMem (forEach l f s) = besideMem s :=
  forEach_keeps (besideMem · = besideMem s) l f (fun a t same => (work a t).trans same) s rfl

/-! ## Sectors and pages (R264, R265) -/

@[simp] theorem besideMem_settleBits (sk lo : Nat) (s : State) : besideMem (settleBits sk lo s) = besideMem s := by
  simp only [settleBits]
  split
  · simp
  · split <;> simp

@[simp] theorem besideMem_settle (sk err : Nat) (s : State) : besideMem (settle sk err s) = besideMem s :=
  besideMem_settleBits sk _ s

@[simp] theorem besideMem_checkSector (sk : Nat) (s : State) : besideMem (checkSector sk s).2 = besideMem s := by
  simp only [checkSector]
  split
  · rfl
  · split
    · simp
    · split <;> simp

@[simp] theorem besideMem_checkSectors (pk : Nat) (l : List Nat) (s : State) :
    besideMem (checkSectors pk l s).2 = besideMem s := by
  induction l generalizing s with
  | nil => rfl
  | cons i l ih => exact (ih _).trans (besideMem_checkSector _ s)

theorem poisonSector_memoryWork (sk : Nat) : memoryWork (poisonSector sk) := by
  intro s
  simp only [poisonSector, besideMem_raiseAt, besideMem_count, besideMem_setMem, besideMem_setDamage, besideMem_putWord]

@[simp] theorem besideMem_freshParity (pk : Nat) (s : State) : besideMem (freshParity pk s) = besideMem s := (rfl)

@[simp] theorem besideMem_poisonLost (pk : Nat) (l : List Nat) (s : State) :
    besideMem (poisonLost pk l s) = besideMem s := by
  rw [poisonLost, besideMem_freshParity, besideMem_forEach fun i => poisonSector_memoryWork _]

@[simp] theorem besideMem_rebuild (pk : Nat) (l : List Nat) (s : State) : besideMem (rebuild pk l s) = besideMem s := by
  simp only [rebuild]
  split
  · rfl
  · split
    · simp
    · rw [besideMem_whenS fun t => by simp, besideMem_whenS fun t => by simp, besideMem_countN,
        besideMem_forEach fun d t => by simp]

theorem fixSector_memoryWork (sk : Nat) : memoryWork (fixSector sk) := by
  intro s
  simp only [fixSector]
  split
  · rfl
  · split <;> simp

/-! ## Lines of SRAM (R274) -/

theorem fixLine_memoryWork (lk : Nat) : memoryWork (fixLine lk) := by
  intro s
  simp only [fixLine]
  split
  · rfl
  · split
    · simp
    · rw [besideMem_raiseOnce, besideMem_count, besideMem_forEach fun pk t => besideMem_freshParity pk t]
      simp

theorem freshLine_memoryWork (lk : Nat) : memoryWork (freshLine lk) := by
  intro s
  rw [freshLine, besideMem_setMem, besideMem_whenS fun t => besideMem_count _ t]

/-! ## The parity cache (R266 to R268, R539) -/

@[simp] theorem besideMem_applyDelta (pk : Nat) (s : State) : besideMem (applyDelta pk s) = besideMem s := by
  simp only [applyDelta]
  split
  · simp
  · split <;> simp

theorem parityWriteback_memoryWork (pk : Nat) : memoryWork (parityWriteback pk) := by
  intro s
  simp only [parityWriteback]
  split
  · rfl
  · split <;> simp [besideMem_forEach fixLine_memoryWork]

theorem takeEntry_memoryWork (pk : Nat) (d : Nat × Nat) : memoryWork (takeEntry pk d) := by
  intro s
  rw [takeEntry, besideMem_setMem, besideMem_forEach freshLine_memoryWork, besideMem_forEach parityWriteback_memoryWork]

@[simp] theorem besideMem_putSector (sk w : Nat) (s : State) : besideMem (putSector sk w s) = besideMem s := by
  simp only [putSector, parityAdd]
  split
  · rw [takeEntry_memoryWork, besideMem_putWord]
  · split <;> simp [besideMem_forEach fixLine_memoryWork]

/-! ## Reading a range -/

@[simp] theorem besideMem_fixRange (a n : Nat) (s : State) : besideMem (fixRange a n s) = besideMem s := by
  simp only [fixRange]
  split
  · split
    · rfl
    · exact besideMem_forEach fixSector_memoryWork s
  · split
    · rfl
    · exact besideMem_forEach fixLine_memoryWork s

theorem besideMem_readPiece (a n : Nat) (s : State) : besideMem (readPiece a n s).2 = besideMem s := by
  simp only [readPiece]
  split
  · exact besideMem_forEach (fun k t => fixSector_memoryWork _ t) s
  · exact besideMem_fixRange _ _ s

/-- R93, R94, R265: a read may correct and poison; it changes nothing beside memory. -/
theorem besideMem_readRange (a n : Nat) (s : State) : besideMem (readRange a n s).2 = besideMem s := by
  rw [readRange]
  split
  · refine List.foldlRecOn (motive := fun p : (Bytes × Bool) × State => besideMem p.2 = besideMem s) _ _ rfl ?_
    exact fun p same c _ => (besideMem_readPiece c.1 c.2 p.2).trans same
  · exact besideMem_readPiece a n s

/-! ## Writing a range -/

theorem writeUnit_memoryWork (a k : Nat) (b : Bytes) (start : Nat) (poison : Bool) :
    memoryWork (writeUnit a k b start poison) := by
  intro s
  simp only [writeUnit]
  split
  · rw [besideMem_putSector, besideMem_whenS fun t => besideMem_count _ t, fixSector_memoryWork]
  · rw [besideMem_setMem, besideMem_whenS fun t => besideMem_count _ t, fixLine_memoryWork, besideMem_setMem]

theorem besideMem_writePage (pk : Nat) (b : Bytes) (start : Nat) (poison : Nat → Bool) (s : State) :
    besideMem (writePage pk b start poison s) = besideMem s := by
  rw [writePage, besideMem_freshParity]
  refine besideMem_forEach (fun i t => ?_) s
  rw [besideMem_setDamage, besideMem_putWord, besideMem_whenS fun u => besideMem_count _ u]

theorem besideMem_noteDense (pk : Nat) (s : State) : besideMem (noteDense pk s) = besideMem s := by
  rw [noteDense, noteRecopy]
  split
  · split <;> rfl
  · rfl

theorem besideMem_writeRange (a : Nat) (b : Bytes) (poison : Bool) (s : State) :
    besideMem (writeRange a b poison s) = besideMem s := by
  simp only [writeRange]
  split
  · rfl
  · split
    · refine besideMem_forEach (fun pk t => ?_) s
      split
      · rw [besideMem_writePage, besideMem_noteDense]
      · rw [besideMem_forEach fun k u => writeUnit_memoryWork a k b a _ u, besideMem_noteDense]
    · exact besideMem_forEach (fun k t => writeUnit_memoryWork a k b a _ t) s

/-- R266, R271: a write changes nothing beside memory. -/
theorem besideMem_writeMarked (a : Nat) (b : Bytes) (flags : List Bool) (s : State) :
    besideMem (writeMarked a b flags s) = besideMem s := by
  simp only [writeMarked]
  split
  · exact besideMem_writeRange a b false s
  · split
    · rw [besideMem_forEach fun pk t => ?_, besideMem_countN]
      split
      · rw [besideMem_writePage, besideMem_noteDense]
      · rw [besideMem_forEach fun k u => writeUnit_memoryWork a k b a _ u, besideMem_noteDense]
    · rw [besideMem_forEach fun k t => writeUnit_memoryWork a k b a _ t, besideMem_countN]

/-! ## The current step (R345) -/

/-- The axis is a peg, and so nothing that memory operations change. -/
theorem curStep_of_besideMem {s t : State} (same : besideMem t = besideMem s) : curStep t = curStep s := by
  have pegs : t.pegs = s.pegs := show (besideMem t).pegs = (besideMem s).pegs by rw [same]
  simp only [curStep, axis, pegs]

@[simp] theorem curStep_writeMarked (a : Nat) (b : Bytes) (flags : List Bool) (s : State) :
    curStep (writeMarked a b flags s) = curStep s := curStep_of_besideMem (besideMem_writeMarked a b flags s)

@[simp] theorem curStep_loadOperand (x : Tensor) (s : State) : curStep (loadOperand x s).2 = curStep s :=
  curStep_of_besideMem (besideMem_readRange x.addr (tensorBytes x) s)

end Sys2Proof.Machine
end

section
/-!
SUPPORT. Commands that move bytes (R212, R213, R219 to R221, R280, R379): what the work of DMA_COPY, DMA_TRANSPOSE,
RUCKSACK_PUSH, RUCKSACK_POP and CHECK_SCAN leaves, by whether the checks pass.
-/
namespace Sys2Proof.Machine

/-! ## DMA copy -/

theorem copyWork_refused {r : Rec64} {s : State} (refused : copyRefusal s (copyOf r) ≠ 0) :
    copyWork r s = ({ status := copyRefusal s (copyOf r) }, countRefusal (copyRefusal s (copyOf r)) s) := by
  simp [copyWork, refused]

/-- R379: the bytes that are read go to the destination, with their poison where any is poisoned. -/
theorem copyWork_passed {r : Rec64} {s : State} (passed : copyRefusal s (copyOf r) = 0) :
    copyWork r s =
      let c := copyOf r
      let v := accessRead c.src c.n s
      ({ poison := v.1.2 }, writeMarked c.dst v.1.1 (if v.1.2 then accessPoison v.2 c.src c.n else []) v.2) := by
  simp [copyWork, passed]

/-! ## DMA transpose -/

/-- R212: what a transpose writes: the source's codes where the formats are one scalar format, else the source's blocks
converted in ascending order, the selected engines taken in turn. -/
def transposePieces (c : Transpose) (a d : Tensor) (s : State) : List Piece × State :=
  let o := loadOperand a s
  if a.format = d.format && d.format != 4 then (transposeCodes c o.1 d, o.2)
  else ((sourceBlocks c).zip (upto (sourceBlocks c).length)).foldl (fun acc b =>
    transposeBlock c o.1 d (watchSlotOf s false 0 c.dst)
      (engineCoord s (nthD 0 (enginesOf c.mask) (b.2 % (enginesOf c.mask).length))) b.1.1 b.1.2 acc) ([], o.2)

theorem transposeWork_refused {r : Rec64} {s : State} (refused : transposeRefusal s (transposeOf r) ≠ 0) :
    transposeWork r s =
      ({ status := transposeRefusal s (transposeOf r) }, countRefusal (transposeRefusal s (transposeOf r)) s) := by
  simp [transposeWork, refused]

theorem transposeWork_passed {r : Rec64} {s : State} {a d : Tensor} (passed : transposeRefusal s (transposeOf r) = 0)
    (source : tensorOf s (transposeOf r).src = some a) (destination : tensorOf s (transposeOf r).dst = some d) :
    transposeWork r s =
      let c := transposeOf r
      let p := transposePieces c a d s
      let w := writePieces d p.1 (transposeMarks c (loadOperand a s).1 d) p.2
      ({ poison := w.1 }, countN E.TRANSPOSE_BYTES (tensorBytes d) (count E.TRANSPOSE_COMMANDS w.2)) := by
  simp only [transposeWork, passed, source, destination, bne_self_eq_false, Bool.false_eq_true, if_false]
  rfl

/-! ## The Rucksack -/

/-- R219: the pages of the frame of a tensor. -/
def framePages (x : Tensor) : Nat := ceilDiv (56 + tensorBytes x) pageBytes

/-- R219, R220: a push's frame, stored above the last one of its region, and its entry in the region's list. -/
def framePushed (r : Rec64) (x : Tensor) (s : State) : State :=
  let g := rf r 163 160
  let used := pagesUsed s g
  let tail := framePages x * pageBytes - 56 - tensorBytes x
  let previous := (framesOf s g).getLast?.elim 0xFFFFFFFF Frame.firstPage
  let o := loadOperand x s
  let u := writeMarked (ruckAddr s g used)
    (frameHeader (rf r 159 144) x.number (curStep s) (tensorBytes x) previous ++ o.1.bytes ++ zeros tail)
    (if o.1.poison.any id then List.replicate 56 false ++ o.1.poison ++ List.replicate tail false else []) o.2
  setRowEng { u.rowEng with
    frames := u.rowEng.frames ++
      [⟨g, rf r 159 144, x.number, curStep s % 2 ^ 32, tensorBytes x, used, framePages x⟩]
    highWater := supd 0 u.rowEng.highWater g (max (used + framePages x)) } u

/-- R221: a pop's frame f of region g, copied into the tensor and taken off the region's list. -/
def framePopped (g : Nat) (x : Tensor) (f : Frame) (s : State) : State :=
  let a := ruckAddr s g f.firstPage + 56
  let v := readRange a f.bytes s
  let u := writeMarked x.addr v.1.1 (if v.1.2 then poisonMap v.2 a f.bytes else []) v.2
  setRowEng { u.rowEng with frames := u.rowEng.frames.filter fun x => x != f } u

/-- A push or pop that is refused ends with its code, and is counted. -/
theorem ended_ruckRefused (q i code : Nat) (s : State) :
    ended q i (ruckRefused code s) = endPlain q i code (count E.RUCKSACK_REFUSED s) := rfl

section
variable {r : Rec64} {s : State} {x : Tensor}

/-- R220: a region with too few free pages. -/
theorem pushWork_full (named : tensorOf s (rf r 143 128) = some x)
    (full : s.plan.rucksack * 4096 < pagesUsed s (rf r 163 160) + framePages x) :
    pushWork r s = ruckRefused 0x0423 s := by
  rw [framePages] at full
  simp only [pushWork, named, full, if_true]

theorem pushWork_fits (named : tensorOf s (rf r 143 128) = some x)
    (fits : pagesUsed s (rf r 163 160) + framePages x ≤ s.plan.rucksack * 4096) :
    pushWork r s =
      ({ poison := (loadOperand x s).1.poison.any id }, count E.RUCKSACK_PUSHES (framePushed r x s)) := by
  rw [framePages] at fits
  simp only [pushWork, named, Nat.not_lt.mpr fits, if_false, framePushed, curStep_writeMarked, curStep_loadOperand]
  cases (framesOf s (rf r 163 160)).getLast? <;> rfl

/-- R221: a region with no frame. -/
theorem popWork_empty (named : tensorOf s (rf r 143 128) = some x) (empty : framesOf s (rf r 163 160) = []) :
    popWork r s = ruckRefused 0x0424 s := by
  simp only [popWork, named, empty, List.getLast?_nil]

section
variable {f : Frame} (named : tensorOf s (rf r 143 128) = some x)
  (last : (framesOf s (rf r 163 160)).getLast? = some f)
include named last

/-- R221: the last frame has another tag, or is not as long as the tensor. -/
theorem popWork_mismatch (differs : f.tag ≠ rf r 159 144 ∨ f.bytes ≠ tensorBytes x) :
    popWork r s = ruckRefused 0x0424 s := by
  have mismatch : (f.tag != rf r 159 144 || f.bytes != tensorBytes x) = true := by simpa using differs
  simp only [popWork, named, last, mismatch, if_true]

theorem popWork_refused (tag : f.tag = rf r 159 144) (bytes : f.bytes = tensorBytes x)
    (refused : outputRefusal s x.addr f.bytes ≠ 0) :
    popWork r s =
      ruckRefused (outputRefusal s x.addr f.bytes) (countRefusal (outputRefusal s x.addr f.bytes) s) := by
  have code : (outputRefusal s x.addr f.bytes != 0) = true := by simpa using refused
  rw [bytes] at code
  simp only [popWork, named, last, tag, bytes, code, bne_self_eq_false, Bool.or_false, Bool.false_eq_true, if_false,
    if_true]

theorem popWork_passed (tag : f.tag = rf r 159 144) (bytes : f.bytes = tensorBytes x)
    (passed : outputRefusal s x.addr f.bytes = 0) :
    popWork r s =
      ({ poison := (readRange (ruckAddr s (rf r 163 160) f.firstPage + 56) f.bytes s).1.2 },
        count E.RUCKSACK_POPS (framePopped (rf r 163 160) x f s)) := by
  have matching : (f.tag != rf r 159 144 || f.bytes != tensorBytes x) = false := by simp [tag, bytes]
  simp only [popWork, named, last, matching, passed, bne_self_eq_false, Bool.false_eq_true, if_false]
  rfl

end

end

/-! ## CHECK_SCAN -/

theorem checkScanWork_passed {q i : Nat} {r : Rec64} {s : State} (passed : scanRefusal s (scanOf q i r) = 0) :
    checkScanWork q i r s = { s with mem := { s.mem with scans := s.mem.scans ++ [scanOf q i r] } } := by
  simp only [checkScanWork, passed, if_true]
  rfl

theorem checkScanWork_refused {q i : Nat} {r : Rec64} {s : State} (refused : scanRefusal s (scanOf q i r) ≠ 0) :
    checkScanWork q i r s =
      endPlain q i (scanRefusal s (scanOf q i r)) (countRefusal (scanRefusal s (scanOf q i r)) s) := by
  simp only [checkScanWork, refused, if_false]

/-! ## The rows of the five commands -/

section
variable {q i : Nat} {r : Rec64} {s : State}

/-- The start of a command changes its queue alone. -/
theorem begun_plan : (begun q i r s).plan = s.plan := rfl

theorem exec_dmaCopy_started (wf : Instr.wf (.dmaCopy q i r) = true) (starts : startable q i r s) :
    exec (.dmaCopy q i r) s = .next (withQueue s.pending (settleRun (ended q i (copyWork r (begun q i r s))))) := by
  rw [exec_dmaCopy q i r s wf,
    commandRow_ended (op := 0x08) (work := copyWork) (fun t opcode => by simp only [commandWork, opcode]) wf starts]

theorem exec_dmaTranspose_started (wf : Instr.wf (.dmaTranspose q i r) = true) (starts : startable q i r s) :
    exec (.dmaTranspose q i r) s =
      .next (withQueue s.pending (settleRun (ended q i (transposeWork r (begun q i r s))))) := by
  rw [exec_dmaTranspose q i r s wf,
    commandRow_ended (op := 0x09) (work := transposeWork)
      (fun t opcode => by simp only [commandWork, opcode]) wf starts]

theorem exec_rucksackPush_started (wf : Instr.wf (.rucksackPush q i r) = true) (starts : startable q i r s) :
    exec (.rucksackPush q i r) s =
      .next (withQueue s.pending (settleRun (ended q i (pushWork r (begun q i r s))))) := by
  rw [exec_rucksackPush q i r s wf,
    commandRow_ended (op := 0x0A) (work := pushWork) (fun t opcode => by simp only [commandWork, opcode]) wf starts]

theorem exec_rucksackPop_started (wf : Instr.wf (.rucksackPop q i r) = true) (starts : startable q i r s) :
    exec (.rucksackPop q i r) s = .next (withQueue s.pending (settleRun (ended q i (popWork r (begun q i r s))))) := by
  rw [exec_rucksackPop q i r s wf,
    commandRow_ended (op := 0x0B) (work := popWork) (fun t opcode => by simp only [commandWork, opcode]) wf starts]

/-- R280: a scan is queued or refused; the unit of its die ends it later. -/
theorem exec_checkScan_started (wf : Instr.wf (.checkScan q i r) = true) (starts : startable q i r s) :
    exec (.checkScan q i r) s = .next (withQueue s.pending (settleRun (checkScanWork q i r (begun q i r s)))) := by
  obtain ⟨row, opcode⟩ := commandRow_work (op := 0x38) wf starts
  rw [exec_checkScan q i r s wf, row]
  simp only [commandWork, opcode]

end

/-- Settles O36: a started command ends with what its work leaves, or queues its scan; each turns on its own checks, for
the Rucksack on the free pages of a region and on its last frame. -/
theorem copyCommands : Obligations.CopyCommands := by
  unfold Obligations.CopyCommands
  refine ⟨fun q i r c t s wf starts fields begins => ?_, fun q i r a d c t s wf starts fields begins => ?_,
    fun q i r x t s wf starts begins named => ?_, fun q i r x f t s wf starts begins named last => ?_,
    fun q i r x t s wf starts begins named empty => ?_, fun q i r t s wf starts begins => ?_⟩
  · subst fields
    rw [exec_dmaCopy_started wf starts, begins]
    refine ⟨fun passed clean => ?_, fun passed poisoned => ?_, fun refused => ?_⟩
    · rw [copyWork_passed passed]
      simp only [ended, clean, Bool.false_eq_true, if_false]
      rfl
    · rw [copyWork_passed passed]
      simp only [ended, poisoned, if_true]
    · rw [copyWork_refused refused]
      rfl
  · subst fields
    rw [exec_dmaTranspose_started wf starts, begins]
    refine ⟨fun refused => ?_, fun passed source destination o p w operand pieces written => ?_⟩
    · rw [transposeWork_refused refused]
      rfl
    · subst operand pieces written
      rw [transposeWork_passed passed source destination]
      rfl
  · rw [exec_rucksackPush_started wf starts, begins, ← begun_plan (q := q) (i := i) (r := r), begins]
    refine ⟨fun fits o u operand stored => ?_, fun full => ?_⟩
    · subst operand stored
      rw [pushWork_fits named fits, framePushed]
      cases (framesOf t (rf r 163 160)).getLast? <;> rfl
    · rw [pushWork_full named full, ended_ruckRefused]
  · rw [exec_rucksackPop_started wf starts, begins]
    refine ⟨fun tag bytes passed v u content stored => ?_, fun tag bytes c code refused => ?_, fun differs => ?_⟩
    · rw [popWork_passed named last tag bytes passed, framePopped, content, stored]
      rfl
    · subst code
      rw [popWork_refused named last tag bytes refused, ended_ruckRefused]
    · rw [popWork_mismatch named last differs, ended_ruckRefused]
  · rw [exec_rucksackPop_started wf starts, begins, popWork_empty named empty, ended_ruckRefused]
  · rw [exec_checkScan_started wf starts, begins]
    exact ⟨fun passed => by rw [checkScanWork_passed passed], fun refused => by rw [checkScanWork_refused refused]⟩

end Sys2Proof.Machine
end

section
/-!
SUPPORT. Byte strings as numbers (R8), and a sector's bytes and metadata after a store (R261).
-/
namespace Sys2Proof.Machine

/-! ## Byte strings (R8) -/

theorem natLe_length (n v : Nat) : (natLe n v).length = n := by
  induction n generalizing v with
  | zero => rfl
  | succ n ih => simp [natLe, ih]

/-- A number whose low bytes are those of a string reads as that string. -/
theorem natLe_leNat (b : Bytes) (m : Nat) : natLe b.length (leNat b + m * 256 ^ b.length) = b := by
  induction b with
  | nil => rfl
  | cons x b ih =>
    have small : x.toNat < 256 := x.isLt
    have shift : leNat (x :: b) + m * 256 ^ (b.length + 1) = x.toNat + 256 * (leNat b + m * 256 ^ b.length) := by
      rw [leNat, Nat.pow_succ, ← Nat.mul_assoc]
      omega
    rw [List.length_cons, natLe, shift, Nat.add_mul_mod_self_left, Nat.mod_eq_of_lt small,
      Nat.add_mul_div_left _ _ (by decide), Nat.div_eq_of_lt small, Nat.zero_add, ih, BitVec.ofNat_toNat,
      BitVec.setWidth_eq]

theorem leNat_lt (b : Bytes) : leNat b < 256 ^ b.length := by
  induction b with
  | nil => decide
  | cons x b ih =>
    have small : x.toNat < 256 := x.isLt
    rw [leNat, List.length_cons, Nat.pow_succ]; omega

/-! ## Sectors (R261) -/

/-- A run of stores, read back whole. -/
theorem sgets_sputs {α : Type} [DecidableEq α] (d : α) (vs : List α) (m : Sparse α) (k : Nat) :
    sgets d (sputs d m k vs) k vs.length = vs := by
  induction vs generalizing m k with
  | nil => rfl
  | cons v vs ih =>
    rw [List.length_cons, sgets, sputs, ih, sget_sputs_outside d vs _ _ _ (by omega), sget_sput_same]

theorem secBytes_length (s : State) (sk : Nat) : (secBytes s sk).length = 56 := sgets_length ..

/-- The bytes of a sector among its 60, whatever metadata stands above them. -/
theorem natLe_sector {b : Bytes} (len : b.length = 56) (m : Nat) : natLe 56 (leNat b + m * 2 ^ 448) = b := by
  have whole := natLe_leNat b m
  rwa [len, show 256 ^ 56 = 2 ^ 448 by decide +kernel] at whole

theorem sector_mark {b : Bytes} (len : b.length = 56) (m : Nat) : (leNat b + m * 2 ^ 448) / 2 ^ 448 = m := by
  have small := leNat_lt b
  rw [len, show 256 ^ 56 = 2 ^ 448 by decide +kernel] at small
  rw [Nat.add_mul_div_right _ _ (Nat.two_pow_pos _), Nat.div_eq_of_lt small, Nat.zero_add]

theorem secBytes_putWord (sk w : Nat) (s : State) : secBytes (putWord sk w s) sk = natLe 56 w := by
  have whole := sgets_sputs 0 (natLe 56 w) s.mem.cells (secAddr sk)
  rwa [natLe_length] at whole

theorem secMark_putWord (sk w : Nat) (s : State) : secMark (putWord sk w s) sk = w / 2 ^ 448 % 2 ^ 32 :=
  sget_sput_same ..

@[simp] theorem secBytes_setStale (sk pk : Nat) (v : Nat × Nat) (s : State) :
    secBytes (setStale pk v s) sk = secBytes s sk := (rfl)
@[simp] theorem secMark_setStale (sk pk : Nat) (v : Nat × Nat) (s : State) :
    secMark (setStale pk v s) sk = secMark s sk := (rfl)

/-- A sector's own bytes and metadata, stored again. -/
theorem putWord_secWord (sk : Nat) {s : State} (mark : secMark s sk < 2 ^ 32) :
    secBytes (putWord sk (secWord s sk) s) sk = secBytes s sk ∧
      secMark (putWord sk (secWord s sk) s) sk = secMark s sk := by
  have len := secBytes_length s sk
  rw [secBytes_putWord, secMark_putWord, secWord, natLe_sector len, sector_mark len, Nat.mod_eq_of_lt mark]
  exact ⟨rfl, rfl⟩

end Sys2Proof.Machine
end

section
/-!
SUPPORT. The light code (R261, R262): a CRC is linear in its bytes, one step of it loses nothing and keeps the parity of
the register, and the syndromes of the 512 single bits are one course of the register.
-/
namespace Sys2Proof.Machine

/-! ## The CRC as a linear map -/

theorem crcBit_even (p : Nat) {c : Nat} (even : c % 2 = 0) : crcBit p c = c / 2 := by
  rw [crcBit, if_neg (by omega)]

theorem crcBit_odd (p : Nat) {c : Nat} (odd : c % 2 = 1) : crcBit p c = c / 2 ^^^ p := if_pos odd

theorem crcBit_xor (p a b : Nat) : crcBit p (a ^^^ b) = crcBit p a ^^^ crcBit p b := by
  have low : (a ^^^ b) % 2 = (a % 2) ^^^ (b % 2) := Nat.xor_mod_two_pow (n := 1)
  have high : (a ^^^ b) / 2 = a / 2 ^^^ b / 2 := Nat.xor_div_two_pow (n := 1)
  rcases Nat.mod_two_eq_zero_or_one a with ha | ha <;> rcases Nat.mod_two_eq_zero_or_one b with hb | hb <;>
    rw [ha, hb] at low
  · rw [crcBit_even p low, crcBit_even p ha, crcBit_even p hb, high]
  · rw [crcBit_odd p low, crcBit_even p ha, crcBit_odd p hb, high, Nat.xor_assoc]
  · rw [crcBit_odd p low, crcBit_odd p ha, crcBit_even p hb, high]
    ac_rfl
  · have cancel : (a / 2 ^^^ p) ^^^ (b / 2 ^^^ p) = a / 2 ^^^ b / 2 ^^^ (p ^^^ p) := by ac_rfl
    rw [crcBit_even p low, crcBit_odd p ha, crcBit_odd p hb, high, cancel, Nat.xor_self, Nat.xor_zero]

theorem crcBits_xor (p n a b : Nat) : crcBits p n (a ^^^ b) = crcBits p n a ^^^ crcBits p n b := by
  induction n generalizing a b with
  | zero => rfl
  | succ n ih => rw [crcBits, crcBit_xor, ih]; rfl

theorem crcBits_add (p m n c : Nat) : crcBits p (m + n) c = crcBits p n (crcBits p m c) := by
  induction m generalizing c with
  | zero => rw [Nat.zero_add]; rfl
  | succ m ih => rw [Nat.succ_add]; exact ih _

@[simp] theorem crcBits_zero_right (p n : Nat) : crcBits p n 0 = 0 := by
  induction n with
  | zero => rfl
  | succ n ih => exact ih

theorem crcRefl_natLe_succ (p n c v : Nat) :
    crcRefl p c (natLe (n + 1) v) = crcRefl p (crcBits p 8 (c ^^^ v % 256)) (natLe n (v / 256)) := by
  have low : v % 256 % 2 ^ 8 = v % 256 := Nat.mod_mod v 256
  rw [natLe, crcRefl, List.foldl_cons, BitVec.toNat_ofNat, low]
  rfl

theorem crcRefl_natLe_xor (p n a b v w : Nat) :
    crcRefl p (a ^^^ b) (natLe n (v ^^^ w)) = crcRefl p a (natLe n v) ^^^ crcRefl p b (natLe n w) := by
  induction n generalizing a b v w with
  | zero => rfl
  | succ n ih =>
    have low : (v ^^^ w) % 256 = v % 256 ^^^ w % 256 := Nat.xor_mod_two_pow (n := 8)
    have high : (v ^^^ w) / 256 = v / 256 ^^^ w / 256 := Nat.xor_div_two_pow (n := 8)
    have swap : a ^^^ b ^^^ (v % 256 ^^^ w % 256) = (a ^^^ v % 256) ^^^ (b ^^^ w % 256) := by ac_rfl
    simp only [crcRefl_natLe_succ, low, high, swap, crcBits_xor, ih]

theorem crcRefl_zeroBytes (p n c : Nat) : crcRefl p c (natLe n 0) = crcBits p (8 * n) c := by
  induction n generalizing c with
  | zero => rfl
  | succ n ih =>
    rw [crcRefl_natLe_succ, Nat.zero_mod, Nat.zero_div, Nat.xor_zero, ih, Nat.mul_succ, Nat.add_comm, crcBits_add]

/-- The register after bytes of which the one at place `k` alone is not zero. -/
theorem crcRefl_oneByte (p : Nat) {n k e : Nat} (h : k < n) (small : e < 256) :
    crcRefl p 0 (natLe n (e * 2 ^ (8 * k))) = crcBits p (8 * (n - k)) e := by
  induction k generalizing n with
  | zero =>
    obtain ⟨n, rfl⟩ : ∃ m, n = m + 1 := ⟨n - 1, by omega⟩
    rw [crcRefl_natLe_succ]
    simp only [Nat.mul_zero, Nat.pow_zero, Nat.mul_one, Nat.mod_eq_of_lt small, Nat.div_eq_of_lt small, Nat.zero_xor,
      crcRefl_zeroBytes, ← crcBits_add]
    congr 1; omega
  | succ k ih =>
    obtain ⟨n, rfl⟩ : ∃ m, n = m + 1 := ⟨n - 1, by omega⟩
    have shift : e * 2 ^ (8 * (k + 1)) = e * 2 ^ (8 * k) * 256 := by rw [Nat.mul_succ, Nat.pow_add, Nat.mul_assoc]
    rw [crcRefl_natLe_succ, shift, Nat.mul_mod_left, Nat.mul_div_cancel _ (by decide), Nat.xor_zero, crcBits_zero_right,
      ih (by omega)]
    congr 1; omega

/-- A register whose low bits are zero moves down. -/
theorem crcBits_shift (p n c : Nat) : crcBits p n (c * 2 ^ n) = c := by
  induction n generalizing c with
  | zero => simp [crcBits]
  | succ n ih =>
    have double : c * 2 ^ (n + 1) = 2 * (c * 2 ^ n) := by rw [Nat.pow_succ, ← Nat.mul_assoc, Nat.mul_comm]
    rw [crcBits, double, crcBit_even p (Nat.mul_mod_right ..), Nat.mul_div_cancel_left _ (by decide), ih]

theorem eq_of_xor_eq_zero {a b : Nat} (h : a ^^^ b = 0) : a = b := by
  have cancel : a ^^^ b ^^^ b = a := by rw [Nat.xor_assoc, Nat.xor_self, Nat.xor_zero]
  rw [← cancel, h, Nat.zero_xor]

/-! ## The register of 32 bits -/

/-- The polynomial of CRC-32C, reflected (R261). -/
abbrev castagnoli : Nat := 0x82F63B78

theorem castagnoliBit_lt {c : Nat} (h : c < 2 ^ 32) : crcBit castagnoli c < 2 ^ 32 := by
  unfold crcBit
  split
  · exact Nat.xor_lt_two_pow (by omega) (by decide)
  · omega

theorem castagnoliBits_lt (n : Nat) {c : Nat} (h : c < 2 ^ 32) : crcBits castagnoli n c < 2 ^ 32 := by
  induction n generalizing c with
  | zero => exact h
  | succ n ih => exact ih (castagnoliBit_lt h)

/-- The highest bit of the register tells whether the bit that left it was set, so nothing is lost. -/
theorem castagnoliBit_eq_zero {c : Nat} (h : c < 2 ^ 32) (gone : crcBit castagnoli c = 0) : c = 0 := by
  unfold crcBit at gone
  split at gone
  · have halved : c / 2 = 0x82F63B78 := eq_of_xor_eq_zero gone
    omega
  · omega

theorem castagnoliBits_eq_zero (n : Nat) {c : Nat} (h : c < 2 ^ 32) (gone : crcBits castagnoli n c = 0) : c = 0 := by
  induction n generalizing c with
  | zero => exact gone
  | succ n ih => exact castagnoliBit_eq_zero h (ih (castagnoliBit_lt h) gone)

theorem castagnoliBits_inj {n a b : Nat} (ha : a < 2 ^ 32) (hb : b < 2 ^ 32)
    (same : crcBits castagnoli n a = crcBits castagnoli n b) : a = b := by
  refine eq_of_xor_eq_zero (castagnoliBits_eq_zero n (Nat.xor_lt_two_pow ha hb) ?_)
  rw [crcBits_xor, same, Nat.xor_self]

/-! ## Parity: the polynomial of R261 has x + 1 as a factor -/

/-- Whether an odd number of the low `n` bits is set. -/
def oddWeight : Nat → Nat → Bool
  | 0, _ => false
  | n + 1, c => c.testBit 0 ^^ oddWeight n (c / 2)

theorem oddWeight_xor (n a b : Nat) : oddWeight n (a ^^^ b) = (oddWeight n a ^^ oddWeight n b) := by
  induction n generalizing a b with
  | zero => rfl
  | succ n ih =>
    have high : (a ^^^ b) / 2 = a / 2 ^^^ b / 2 := Nat.xor_div_two_pow (n := 1)
    simp only [oddWeight, Nat.testBit_xor, high, ih, Bool.xor_assoc, Bool.xor_left_comm]

theorem oddWeight_succ {n c : Nat} (h : c < 2 ^ n) : oddWeight (n + 1) c = oddWeight n c := by
  induction n generalizing c with
  | zero =>
    obtain rfl : c = 0 := by omega
    rfl
  | succ n ih => rw [oddWeight, ih (by omega), oddWeight]

theorem oddWeight_castagnoliBit {c : Nat} (h : c < 2 ^ 32) : oddWeight 32 (crcBit castagnoli c) = oddWeight 32 c := by
  have shifted : oddWeight 32 (c / 2) = oddWeight 31 (c / 2) := oddWeight_succ (by omega)
  have poly : oddWeight 32 castagnoli = true := by decide +kernel
  unfold crcBit
  split
  next odd => rw [oddWeight_xor, shifted, poly, oddWeight.eq_def 32 c]; simp [odd, Bool.xor_comm]
  next even => rw [shifted, oddWeight.eq_def 32 c]; simp [even]

theorem oddWeight_castagnoliBits (n : Nat) {c : Nat} (h : c < 2 ^ 32) :
    oddWeight 32 (crcBits castagnoli n c) = oddWeight 32 c := by
  induction n generalizing c with
  | zero => rfl
  | succ n ih => rw [crcBits, ih (castagnoliBit_lt h), oddWeight_castagnoliBit h]

/-! ## The syndrome (R262) -/

theorem syndrome_xor (a b : Nat) : syndrome (a ^^^ b) = syndrome a ^^^ syndrome b := by
  have linear := crcRefl_natLe_xor castagnoli 60 0 0 (a % 2 ^ 480) (b % 2 ^ 480)
  rw [Nat.xor_self] at linear
  simp only [syndrome, lightLinear, Nat.xor_mod_two_pow, Nat.xor_div_two_pow, linear]
  ac_rfl

/-- An error confined to byte `k` of the 64: it enters the register at the top, and moves down with each later bit. -/
theorem syndrome_oneByte {k e : Nat} (h : k < 64) (small : e < 256) :
    syndrome (e * 2 ^ (8 * k)) = crcBits castagnoli (504 - 8 * k) (e * 2 ^ 24) := by
  rcases Nat.lt_or_ge k 60 with data | code
  · have within : e * 2 ^ (8 * k) < 2 ^ 480 := by
      calc e * 2 ^ (8 * k) < 2 ^ 8 * 2 ^ (8 * k) := Nat.mul_lt_mul_of_pos_right small (Nat.two_pow_pos _)
        _ = 2 ^ (8 + 8 * k) := (Nat.pow_add ..).symm
        _ ≤ 2 ^ 480 := Nat.pow_le_pow_right (by decide) (by omega)
    have bits : 504 - 8 * k = 24 + 8 * (60 - k) := by omega
    rw [syndrome, Nat.mod_eq_of_lt within, Nat.div_eq_of_lt within, Nat.xor_zero, lightLinear,
      crcRefl_oneByte _ data small, bits, crcBits_add, crcBits_shift]
  · have beyond : e * 2 ^ (8 * k) = e * 2 ^ (8 * (k - 60)) * 2 ^ 480 := by
      rw [Nat.mul_assoc, ← Nat.pow_add]
      congr 2; omega
    have above : e * 2 ^ 24 = e * 2 ^ (8 * (k - 60)) * 2 ^ (504 - 8 * k) := by
      rw [Nat.mul_assoc, ← Nat.pow_add]
      congr 2; omega
    rw [syndrome, beyond, Nat.mul_mod_left, Nat.mul_div_cancel _ (Nat.two_pow_pos _), above, crcBits_shift]
    simp [lightLinear, crcRefl_zeroBytes castagnoli 60 0]

theorem oneBit_in_byte (n : Nat) : 2 ^ n = 2 ^ (n % 8) * 2 ^ (8 * (n / 8)) := by
  rw [← Nat.pow_add, Nat.mod_add_div]

/-- What is left of the register's highest bit after `j` bits more: the syndrome of the bit that lies `j` bits before
the last of the 512. -/
def topAfter (j : Nat) : Nat := crcBits castagnoli j (2 ^ 31)

theorem topAfter_lt (j : Nat) : topAfter j < 2 ^ 32 := castagnoliBits_lt j (by decide)

theorem topAfter_succ (j : Nat) : topAfter (j + 1) = crcBit castagnoli (topAfter j) := crcBits_add castagnoli j 1 _

theorem topAfter_within {i : Nat} (h : i ≤ 31) : topAfter i = 2 ^ (31 - i) := by
  have split : 2 ^ 31 = 2 ^ (31 - i) * 2 ^ i := by rw [← Nat.pow_add, Nat.sub_add_cancel h]
  rw [topAfter, split, crcBits_shift]

theorem syndrome_oneBit {n : Nat} (h : n < 512) : syndrome (2 ^ n) = topAfter (511 - n) := by
  have small : 2 ^ (n % 8) < 256 := Nat.pow_lt_pow_right (by decide : 1 < 2) (Nat.mod_lt n (by decide : 0 < 8))
  have first : 2 ^ (n % 8) * 2 ^ 24 = crcBits castagnoli (7 - n % 8) (2 ^ 31) := by
    rw [← Nat.pow_add, show 31 = n % 8 + 24 + (7 - n % 8) by omega, Nat.pow_add _ _ (7 - n % 8), crcBits_shift]
  rw [oneBit_in_byte, syndrome_oneByte (by omega) small, first, ← crcBits_add, topAfter]
  congr 1; omega

theorem syndrome_zero : syndrome 0 = 0 := by
  simpa using syndrome_oneByte (k := 0) (e := 0) (by decide) (by decide)

/-- A register from which 504 bits more leave its highest bit alone. -/
def orbitStart : Nat := 0xB43B8272

theorem orbitStart_reaches_top : crcBits castagnoli 504 orbitStart = 2 ^ 31 := by decide +kernel

/-- Whether the registers at the places from `i` on of a course of `n` steps have a bit below the top byte, those at the
places 504 to 511 excepted. -/
def spreadBelow : Nat → Nat → Nat → Bool
  | 0, _, _ => true
  | n + 1, i, c => (c % 2 ^ 24 != 0 || (504 ≤ i && i ≤ 511)) && spreadBelow n (i + 1) (crcBit castagnoli c)

theorem spreadBelow_at {n i c k : Nat} (spread : spreadBelow n i c = true) (within : k < n)
    (low : crcBits castagnoli k c % 2 ^ 24 = 0) : 504 ≤ i + k ∧ i + k ≤ 511 := by
  induction n generalizing i c k with
  | zero => omega
  | succ n ih =>
    obtain ⟨here, later⟩ := (Bool.and_eq_true _ _).mp spread
    cases k with
    | zero =>
      have now : c % 16777216 = 0 := low
      simpa [now] using here
    | succ k =>
      have := ih later (Nat.lt_of_succ_lt_succ within) low
      omega

theorem orbit_spreadBelow : spreadBelow 1016 0 orbitStart = true := by decide +kernel

/-- Of the registers near the highest bit's, those with nothing below the top byte. -/
theorem orbit_lowBits {i : Nat} (h : i < 1016) (low : crcBits castagnoli i orbitStart % 2 ^ 24 = 0) :
    504 ≤ i ∧ i ≤ 511 := by
  simpa using spreadBelow_at orbit_spreadBelow h low

/-- A register with nothing below its top byte that meets the course of the highest bit, up to 504 bits later or 511
earlier, is a single bit. -/
theorem topByte_on_orbit {e m j : Nat} (small : e < 256) (hm : m ≤ 504) (hj : j ≤ 511)
    (meet : crcBits castagnoli m (e * 2 ^ 24) = topAfter j) : ∃ i ≤ 7, e = 2 ^ (7 - i) ∧ m + i = j := by
  have from_start : topAfter j = crcBits castagnoli m (crcBits castagnoli (504 + j - m) orbitStart) := by
    rw [topAfter, ← orbitStart_reaches_top, ← crcBits_add, ← crcBits_add]
    congr 1; omega
  have equal : e * 2 ^ 24 = crcBits castagnoli (504 + j - m) orbitStart :=
    castagnoliBits_inj (by omega) (castagnoliBits_lt _ (by decide)) (meet.trans from_start)
  obtain ⟨low, high⟩ := orbit_lowBits (i := 504 + j - m) (by omega) (equal ▸ Nat.mul_mod_left e _)
  refine ⟨j - m, by omega, ?_, by omega⟩
  rw [show 504 + j - m = 504 + (j - m) by omega, crcBits_add, orbitStart_reaches_top] at equal
  have top := topAfter_within (i := j - m) (by omega)
  rw [topAfter, ← equal, show 31 - (j - m) = 7 - (j - m) + 24 by omega, Nat.pow_add] at top
  exact Nat.eq_of_mul_eq_mul_right (by decide) top

theorem topAfter_inj_of_le {i j : Nat} (hj : j ≤ 511) (le : i ≤ j) (same : topAfter i = topAfter j) : i = j := by
  have back : 2 ^ 31 = topAfter (j - i) := by
    refine castagnoliBits_inj (n := i) (by decide) (topAfter_lt _) (same.trans ?_)
    rw [topAfter, topAfter, ← crcBits_add, Nat.sub_add_cancel le]
  obtain ⟨k, -, top, meets⟩ := topByte_on_orbit (e := 128) (m := 0) (j := j - i) (by decide) (by decide) (by omega) back
  rcases Nat.eq_zero_or_pos k with zero | pos
  · omega
  · have less : 2 ^ (7 - k) ≤ 2 ^ 6 := Nat.pow_le_pow_right (by decide) (by omega)
    omega

theorem topAfter_inj {i j : Nat} (hi : i ≤ 511) (hj : j ≤ 511) (same : topAfter i = topAfter j) : i = j := by
  rcases Nat.le_total i j with le | le
  · exact topAfter_inj_of_le hj le same
  · exact (topAfter_inj_of_le hi le same.symm).symm

theorem topAfter_ne_zero (j : Nat) : topAfter j ≠ 0 := fun gone =>
  absurd (castagnoliBits_eq_zero j (by decide) gone) (by decide)

theorem oddWeight_topAfter (j : Nat) : oddWeight 32 (topAfter j) = true := by
  rw [topAfter, oddWeight_castagnoliBits j (by decide)]
  decide

/-! ## The bit that a syndrome locates -/

theorem findBit_some {synd n k : Nat} (h : n ≤ 480) (found : findBit synd n (topAfter (512 - n)) = some k) :
    k < 480 ∧ synd = topAfter (511 - k) := by
  induction n with
  | zero => simp [findBit] at found
  | succ n ih =>
    rw [show 512 - (n + 1) = 511 - n by omega, findBit] at found
    split at found
    next here =>
      obtain rfl : n = k := by simpa [Nat.mod_eq_of_lt (show n < 480 by omega)] using found
      exact ⟨by omega, here.symm⟩
    next =>
      rw [← topAfter_succ, show 511 - n + 1 = 512 - n by omega] at found
      exact ih (by omega) found

theorem findBit_none {synd n k : Nat} (h : n ≤ 480) (missed : findBit synd n (topAfter (512 - n)) = none)
    (within : k < n) : synd ≠ topAfter (511 - k) := by
  induction n with
  | zero => omega
  | succ n ih =>
    rw [show 512 - (n + 1) = 511 - n by omega, findBit] at missed
    split at missed
    next => simp at missed
    next other =>
      rcases Nat.lt_succ_iff_lt_or_eq.mp within with lt | rfl
      · rw [← topAfter_succ, show 511 - n + 1 = 512 - n by omega] at missed
        exact ih (by omega) missed lt
      · exact fun here => other here.symm

/-- Where the search of the data bits begins. -/
theorem topAfter_32 : crcBit 0x82F63B78 1 = topAfter 32 :=
  have one : topAfter 31 = 1 := topAfter_within (Nat.le_refl 31)
  (congrArg (crcBit castagnoli) one.symm).trans (topAfter_succ 31).symm

theorem singleBit_some {synd m : Nat} (found : singleBit synd = some m) :
    ∃ n < 512, m = 2 ^ n ∧ synd = syndrome (2 ^ n) := by
  unfold singleBit at found
  split at found
  next k code =>
    have within : k < 32 := List.mem_range.mp (List.mem_of_find?_eq_some code)
    have bit : 2 ^ k = synd := by simpa using List.find?_some code
    refine ⟨480 + k, by omega, (Option.some.inj found).symm, ?_⟩
    rw [syndrome_oneBit (by omega), show 511 - (480 + k) = 31 - k by omega, topAfter_within (by omega), ← bit]
    congr 1; omega
  next =>
    split at found
    next k data =>
      rw [topAfter_32] at data
      obtain ⟨within, bit⟩ := findBit_some (Nat.le_refl 480) data
      exact ⟨k, by omega, (Option.some.inj found).symm, by rw [syndrome_oneBit (by omega), bit]⟩
    next => simp at found

theorem singleBit_none {synd n : Nat} (missed : singleBit synd = none) (h : n < 512) : synd ≠ syndrome (2 ^ n) := by
  unfold singleBit at missed
  split at missed
  next => simp at missed
  next code =>
    split at missed
    next => simp at missed
    next data =>
      rw [syndrome_oneBit h]
      rcases Nat.lt_or_ge n 480 with lt | ge
      · rw [topAfter_32] at data
        exact findBit_none (Nat.le_refl 480) data lt
      · have other := List.find?_eq_none.mp code (n - 480) (List.mem_range.mpr (by omega))
        rw [topAfter_within (by omega), show 31 - (511 - n) = n - 480 by omega]
        exact fun here => other (by simp [here])

/-- R262: every single-bit error is located. -/
theorem singleBit_oneBit {n : Nat} (h : n < 512) : singleBit (syndrome (2 ^ n)) = some (2 ^ n) := by
  cases located : singleBit (syndrome (2 ^ n)) with
  | none => exact absurd rfl (singleBit_none located h)
  | some m =>
    obtain ⟨i, within, rfl, same⟩ := singleBit_some located
    rw [syndrome_oneBit h, syndrome_oneBit within] at same
    have := topAfter_inj (by omega) (by omega) same
    rw [show n = i by omega]

theorem singleBit_of_ne {synd : Nat} (other : ∀ n < 512, synd ≠ syndrome (2 ^ n)) : singleBit synd = none := by
  cases located : singleBit synd with
  | none => rfl
  | some m =>
    obtain ⟨n, within, -, same⟩ := singleBit_some located
    exact absurd same (other n within)

/-- R262: an error of two bits is detected, by its even weight, and located nowhere. -/
theorem syndrome_twoBits {i j : Nat} (lt : i < j) (h : j < 512) :
    syndrome (2 ^ i ^^^ 2 ^ j) ≠ 0 ∧ singleBit (syndrome (2 ^ i ^^^ 2 ^ j)) = none := by
  rw [syndrome_xor, syndrome_oneBit (by omega : i < 512), syndrome_oneBit h]
  constructor
  · intro gone
    have := topAfter_inj (by omega) (by omega) (eq_of_xor_eq_zero gone)
    omega
  · refine singleBit_of_ne fun n within same => ?_
    have weights := congrArg (oddWeight 32) same
    simp [oddWeight_xor, syndrome_oneBit within, oddWeight_topAfter] at weights

/-- R262: so is an error within one byte. -/
theorem syndrome_inByte {k e : Nat} (h : k < 64) (pos : 0 < e) (small : e < 256) (several : ∀ n, e ≠ 2 ^ n) :
    syndrome (e * 2 ^ (8 * k)) ≠ 0 ∧ singleBit (syndrome (e * 2 ^ (8 * k))) = none := by
  rw [syndrome_oneByte h small]
  constructor
  · intro gone
    have := castagnoliBits_eq_zero _ (by omega) gone
    omega
  · refine singleBit_of_ne fun n within same => ?_
    rw [syndrome_oneBit within] at same
    obtain ⟨i, -, power, -⟩ := topByte_on_orbit small (by omega) (by omega) same
    exact several _ power

/-! ## A sector and its stored code (R261) -/

/-- R262: the bytes as read, `w` with the error's, give a code that differs from the stored one by the syndrome. -/
theorem syndrome_eq_codes (sk w mask : Nat) :
    syndrome mask = lightCode sk (w ^^^ mask % 2 ^ 480) ^^^ (lightCode sk w ^^^ mask / 2 ^ 480) := by
  have after (c : Nat) := crcRefl_natLe_xor castagnoli 60 c 0 w (mask % 2 ^ 480)
  simp only [Nat.xor_zero] at after
  simp only [lightCode, crc32c, crcRefl, List.foldl_append, syndrome, lightLinear]
  simp only [crcRefl] at after
  rw [after]
  generalize List.foldl _ _ (natLe 60 w) = x
  generalize List.foldl _ _ (natLe 60 (mask % 2 ^ 480)) = y
  have cancel : x ^^^ y ^^^ 4294967295 ^^^ (x ^^^ 4294967295 ^^^ mask / 2 ^ 480)
    = (x ^^^ x) ^^^ (4294967295 ^^^ 4294967295) ^^^ (y ^^^ mask / 2 ^ 480) := by ac_rfl
  rw [cancel]
  simp

/-! ## The corrected read (R265) -/

/-- A sector without an error keeps its bytes and its metadata. -/
theorem settle_zero (sk : Nat) {s : State} (mark : secMark s sk < 2 ^ 32) :
    secBytes (settle sk 0 s) sk = secBytes s sk ∧ secMark (settle sk 0 s) sk = secMark s sk := by
  rw [settle, Nat.zero_mod, settleBits]
  split
  · simp only [secBytes_setStale, secMark_setStale, and_self]
  · split
    · simp only [secBytes_setStale, secMark_setStale, and_self]
    · simpa only [secBytes_setStale, secMark_setStale, Nat.xor_zero] using putWord_secWord sk mark

/-- A sector whose single-bit error a read has corrected. -/
def correctedAt (sk : Nat) (s : State) : State :=
  let t := setDamage sk 0 (settle sk 0 s)
  count E.CE_CORRECTED (setMem { t.mem with chanCorrected := channelCount t.mem.chanCorrected (pageOfSec sk) } t)

theorem damageOf_correctedAt (sk : Nat) (s : State) : damageOf (correctedAt sk s) sk = 0 := by
  rw [damageOf, correctedAt, count_mem, setMem_mem]
  exact sget_sput_same 0 0 _ sk

theorem secBytes_correctedAt (sk : Nat) (s : State) :
    secBytes (correctedAt sk s) sk = secBytes (settle sk 0 s) sk := (rfl)

theorem secMark_correctedAt (sk : Nat) (s : State) :
    secMark (correctedAt sk s) sk = secMark (settle sk 0 s) sk := (rfl)

/-- R262, R265: a read corrects a single-bit error. -/
theorem checkSector_oneBit {sk n : Nat} {s : State} (h : n < 512) (error : damageOf s sk = 2 ^ n) :
    checkSector sk s = (false, correctedAt sk s) := by
  have some_error : damageOf s sk ≠ 0 := by rw [error]; exact Nat.pos_iff_ne_zero.mp (Nat.two_pow_pos n)
  have detected : syndrome (damageOf s sk) ≠ 0 := by rw [error, syndrome_oneBit h]; exact topAfter_ne_zero _
  have located : singleBit (syndrome (damageOf s sk)) = some (damageOf s sk) := by rw [error, singleBit_oneBit h]
  simp only [checkSector, if_neg some_error, if_neg detected, located, Nat.xor_self]
  rfl

theorem checkSector_uncorrectable {sk : Nat} {s : State} (detected : syndrome (damageOf s sk) ≠ 0)
    (unlocated : singleBit (syndrome (damageOf s sk)) = none) : checkSector sk s = (true, s) := by
  have some_error : damageOf s sk ≠ 0 := fun none => detected (by rw [none, syndrome_zero])
  simp only [checkSector, if_neg some_error, if_neg detected, unlocated]

/-- Settles O5: the syndrome is linear, and each single bit's is the register's highest bit some steps on; what a byte's
error leaves meets that course at single bits alone, and two bits' has even weight. -/
theorem lightCode_holds : Obligations.LightCode := by
  unfold Obligations.LightCode
  refine ⟨fun sk w mask _ _ => syndrome_eq_codes sk w mask, fun n => singleBit_oneBit, fun sk s n h error mark => ?_,
    fun i j => syndrome_twoBits, fun k e h pos small several => syndrome_inByte h pos small several,
    fun sk s => checkSector_uncorrectable⟩
  obtain ⟨bytes, marks⟩ := settle_zero sk mark
  rw [checkSector_oneBit h error, damageOf_correctedAt, secBytes_correctedAt, secMark_correctedAt]
  exact ⟨rfl, rfl, bytes, marks⟩

end Sys2Proof.Machine
end

section
/-!
SUPPORT. Undamaged memory (R265 to R268, R274, R539): reads change nothing, and what keeps its codes up to date leaves
its bytes alone.
-/
namespace Sys2Proof.Machine

/-! ## Reads of what is good -/

/-- A read of a good line changes nothing. -/
theorem fixLine_good {lk : Nat} {s : State} (good : sget 0 s.mem.sramBad lk = 0) : fixLine lk s = s := by
  simp only [fixLine, good, if_true]

theorem forEach_unchanged {α : Type} {l : List α} {f : α → State → State} {s : State} (h : ∀ a ∈ l, f a s = s) :
    forEach l f s = s := by
  induction l with
  | nil => rfl
  | cons a l ih =>
    rw [forEach_cons, h a List.mem_cons_self]
    exact ih fun b m => h b (List.mem_cons_of_mem a m)

theorem checkSector_good {sk : Nat} {s : State} (good : damageOf s sk = 0) : checkSector sk s = (false, s) := by
  simp only [checkSector, good, if_true]

theorem checkSectors_good {pk : Nat} {l : List Nat} {s : State} (good : ∀ i ∈ l, damageOf s (secKey pk i) = 0) :
    checkSectors pk l s = ([], s) := by
  induction l with
  | nil => rfl
  | cons i l ih =>
    simp [checkSectors, checkSector_good (good i List.mem_cons_self), ih fun j m => good j (List.mem_cons_of_mem i m)]

/-- R539: with both parity sectors good, the change is applied to them and the entry is free. -/
theorem applyDelta_good {pk : Nat} {s : State} (p : damageOf s (secKey pk 62) = 0) (q : damageOf s (secKey pk 63) = 0) :
    applyDelta pk s = setMem { s.mem with pend := sput none s.mem.pend pk none } s := by
  have good : ∀ i ∈ [62, 63], damageOf s (secKey pk i) = 0 := by simp [p, q]
  simp only [applyDelta, checkSectors_good good, List.isEmpty_nil, if_true]

/-! ## What undamaged memory keeps while its codes are kept up -/

@[simp] theorem sput_default_nil {α : Type} [DecidableEq α] (d : α) (k : Nat) : sput d [] k d = [] := by
  simp [sput, sdel]

theorem putWord_cells (sk w : Nat) (s : State) :
    (putWord sk w s).mem.cells = sputs 0 s.mem.cells (secAddr sk) (natLe 56 w) := (rfl)
theorem putWord_damage (sk w : Nat) (s : State) : (putWord sk w s).mem.damage = s.mem.damage := (rfl)
theorem putWord_sramBad (sk w : Nat) (s : State) : (putWord sk w s).mem.sramBad = s.mem.sramBad := (rfl)
theorem setDamage_cells (sk v : Nat) (s : State) : (setDamage sk v s).mem.cells = s.mem.cells := (rfl)
theorem setDamage_damage (sk v : Nat) (s : State) : (setDamage sk v s).mem.damage = sput 0 s.mem.damage sk v := (rfl)
theorem setDamage_sramBad (sk v : Nat) (s : State) : (setDamage sk v s).mem.sramBad = s.mem.sramBad := (rfl)

theorem damageOf_undamaged {s : State} (sound : s.mem.damage = []) (sk : Nat) : damageOf s sk = 0 := by
  rw [damageOf, sound, sget_nil]

/-- Two memories with the same bytes, the later one undamaged, and as sound in its lines as the earlier. -/
structure SameBytes (s t : State) : Prop where
  cells : t.mem.cells = s.mem.cells
  sound : t.mem.damage = []
  lines : s.mem.sramBad = [] → t.mem.sramBad = []

/-- An operation that keeps the bytes of undamaged memory. -/
def keepsBytes (f : State → State) : Prop := ∀ s, s.mem.damage = [] → SameBytes s (f s)

theorem SameBytes.refl {s : State} (sound : s.mem.damage = []) : SameBytes s s := ⟨rfl, sound, id⟩

theorem SameBytes.trans {s t u : State} (first : SameBytes s t) (second : SameBytes t u) : SameBytes s u :=
  ⟨second.cells.trans first.cells, second.sound, second.lines ∘ first.lines⟩

theorem SameBytes.of_mem {s t : State} (sound : s.mem.damage = []) (same : t.mem = s.mem) : SameBytes s t :=
  ⟨by rw [same], by rw [same, sound], by rw [same]; exact id⟩

theorem SameBytes.then {s t : State} (first : SameBytes s t) {f : State → State} (keeps : keepsBytes f) :
    SameBytes s (f t) :=
  first.trans (keeps t first.sound)

theorem keepsBytes_forEach {α : Type} (l : List α) {f : α → State → State} (keeps : ∀ a, keepsBytes (f a)) :
    keepsBytes (forEach l f) :=
  fun s sound => forEach_keeps (SameBytes s) l f (fun a _ same => same.then (keeps a)) s (.refl sound)

theorem keepsBytes_count (k : Nat) : keepsBytes (count k) := fun _ sound => .of_mem sound rfl

theorem keepsBytes_whenS_count (c : Bool) (k : Nat) : keepsBytes (whenS c (count k)) := by
  cases c
  · exact fun _ sound => .refl sound
  · exact keepsBytes_count k

theorem keepsBytes_raiseOnce (c n : Nat) : keepsBytes (raiseOnce c n) :=
  fun s sound => .of_mem sound (raiseOnce_mem c n s)

/-- The parity cache holds no bytes of the map. -/
theorem SameBytes.pend {s t : State} (same : SameBytes s t) (p : Sparse (Option (Nat × Nat))) :
    SameBytes s (setMem { t.mem with pend := p } t) := ⟨same.cells, same.sound, same.lines⟩

theorem SameBytes.poison {s t : State} (same : SameBytes s t) (p : Sparse Bool) :
    SameBytes s (setMem { t.mem with sramPoison := p } t) := ⟨same.cells, same.sound, same.lines⟩

theorem keepsBytes_freshParity (pk : Nat) : keepsBytes (freshParity pk) := fun s sound =>
  ⟨rfl, show sput 0 (sput 0 s.mem.damage _ 0) _ 0 = [] by simp [sound], id⟩

theorem fixSector_undamaged (sk : Nat) {s : State} (sound : s.mem.damage = []) : fixSector sk s = s := by
  simp only [fixSector, damageOf_undamaged sound, if_true]

/-- R274: a line found bad is corrected or poisoned, and the parity that it held of a page is made anew. -/
theorem keepsBytes_fixLine (lk : Nat) : keepsBytes (fixLine lk) := by
  intro s sound
  by_cases good : sget 0 s.mem.sramBad lk = 0
  · rw [fixLine_good good]
    exact .refl sound
  · have bad : s.mem.sramBad = [] → False := fun none => good (by rw [none, sget_nil])
    simp only [fixLine, good, if_false]
    have corrected : SameBytes s (countN E.SRAM_CORRECTED (badWords (sget 0 s.mem.sramBad lk) 1)
        (setMem { s.mem with sramBad := sput 0 s.mem.sramBad lk 0 } s)) := ⟨rfl, sound, fun h => (bad h).elim⟩
    split
    · exact corrected
    · exact (((corrected.poison _).then (keepsBytes_forEach _ keepsBytes_freshParity)).then (keepsBytes_count _)).then
        (keepsBytes_raiseOnce _ _)

theorem keepsBytes_freshLine (lk : Nat) : keepsBytes (freshLine lk) := by
  intro s sound
  have counted := keepsBytes_whenS_count (linePoison s lk) E.POISON_CLEARED s sound
  exact ⟨counted.cells, counted.sound, fun h => by simp [freshLine, counted.lines h]⟩

/-! ## The parity cache of undamaged memory -/

theorem keepsBytes_parityWriteback (pk : Nat) : keepsBytes (parityWriteback pk) := by
  intro s sound
  have read := keepsBytes_forEach (pendLines s pk) keepsBytes_fixLine s sound
  simp only [parityWriteback]
  split
  · exact .refl sound
  · split
    · exact read
    · rw [applyDelta_good (damageOf_undamaged read.sound _) (damageOf_undamaged read.sound _)]
      exact (read.pend _).then (keepsBytes_count _)

theorem keepsBytes_takeEntry (pk : Nat) (d : Nat × Nat) : keepsBytes (takeEntry pk d) := fun _ sound =>
  (((SameBytes.refl sound).then (keepsBytes_forEach _ keepsBytes_parityWriteback)).then
    (keepsBytes_forEach _ keepsBytes_freshLine)).pend _

theorem keepsBytes_parityAdd (pk : Nat) (d : Nat × Nat) : keepsBytes (parityAdd pk d) := by
  intro s sound
  simp only [parityAdd]
  split
  · exact keepsBytes_takeEntry pk d s sound
  · have read := keepsBytes_forEach (pendLines s pk) keepsBytes_fixLine s sound
    split
    · exact read.pend _
    · exact read

end Sys2Proof.Machine
end

section
/-!
SUPPORT. Stores into undamaged memory (R266, R274): a write stores the bytes of its range, each in the unit that holds
it, and no others.
-/
namespace Sys2Proof.Machine

/-! ## Bytes of strings and of maps -/

theorem getD_sgets (m : Sparse Byte) (k n i : Nat) :
    (sgets 0 m k n).getD i 0 = if i < n then sget 0 m (k + i) else 0 := by
  induction n generalizing k i with
  | zero => rfl
  | succ n ih =>
    cases i with
    | zero => rfl
    | succ i =>
      have := ih (k + 1) i
      simp only [sgets, List.getD_cons_succ, this, Nat.succ_lt_succ_iff, show k + 1 + i = k + (i + 1) by omega]

theorem getD_within {b : Bytes} {i : Nat} (within : i < b.length) : b.getD i 0 = b[i] := by
  rw [List.getD_eq_getElem?_getD, List.getElem?_eq_getElem within, Option.getD_some]

theorem getD_slice (b : Bytes) (k n i : Nat) :
    ((b.drop k).take n).getD i 0 = if i < n then b.getD (k + i) 0 else 0 := by
  simp only [List.getD_eq_getElem?_getD, List.getElem?_take, List.getElem?_drop]
  split <;> rfl

theorem getD_patch {b v : Bytes} {k i : Nat} (fits : k + v.length ≤ b.length ∨ v = []) :
    (patch b k v).getD i 0 = if k ≤ i ∧ i < k + v.length then v.getD (i - k) 0 else b.getD i 0 := by
  rcases fits with fits | rfl
  · simp only [patch, List.getD_eq_getElem?_getD, List.getElem?_append, List.length_append, List.length_take,
      List.getElem?_take, List.getElem?_drop, Nat.min_eq_left (show k ≤ b.length by omega)]
    rcases Nat.lt_or_ge i k with below | from_
    · simp [below, show i < k + v.length by omega, Nat.not_le.mpr below]
    · rcases Nat.lt_or_ge i (k + v.length) with within | above
      · simp [Nat.not_lt.mpr from_, from_, within]
      · simp [Nat.not_lt.mpr above, show k + v.length + (i - (k + v.length)) = i by omega]
  · have none : ¬(k ≤ i ∧ i < k + ([] : Bytes).length) := by rw [List.length_nil]; omega
    rw [if_neg none, patch, List.append_nil, List.length_nil, Nat.add_zero, List.take_append_drop]

theorem patch_length {b v : Bytes} {k : Nat} (fits : k + v.length ≤ b.length ∨ v = []) :
    (patch b k v).length = b.length := by
  rcases fits with fits | rfl
  · simp [patch]; omega
  · simp [patch]

/-! ## Stores of a byte string -/

/-- From `s` to `t` the bytes of `b` are stored at some of the addresses from `a` on, and nowhere else. -/
structure Stores (a : Nat) (b : Bytes) (s t : State) : Prop where
  cells : ∀ x, sget 0 t.mem.cells x = sget 0 s.mem.cells x ∨
    (a ≤ x ∧ x < a + b.length ∧ sget 0 t.mem.cells x = b.getD (x - a) 0)
  sound : t.mem.damage = []
  lines : s.mem.sramBad = [] → t.mem.sramBad = []

/-- The byte of `b` that belongs at `x` is there. -/
def storedAt (a : Nat) (b : Bytes) (x : Nat) (s : State) : Prop := sget 0 s.mem.cells x = b.getD (x - a) 0

section
variable {a : Nat} {b : Bytes} {s t u : State}

theorem SameBytes.stores (same : SameBytes s t) : Stores a b s t :=
  ⟨fun x => .inl (by rw [same.cells]), same.sound, same.lines⟩

theorem Stores.trans (first : Stores a b s t) (second : Stores a b t u) : Stores a b s u := by
  refine ⟨fun x => ?_, second.sound, second.lines ∘ first.lines⟩
  rcases second.cells x with kept | written
  · rw [kept]
    exact first.cells x
  · exact .inr written

/-- Stores at other addresses, and the same stores again, leave a stored byte in place. -/
theorem Stores.keeps_storedAt (stores : Stores a b s t) {x : Nat} (stored : storedAt a b x s) : storedAt a b x t := by
  rcases stores.cells x with kept | ⟨-, -, written⟩
  · exact kept.trans stored
  · exact written

theorem Stores.outside (stores : Stores a b s t) {x : Nat} (out : x < a ∨ a + b.length ≤ x) :
    sget 0 t.mem.cells x = sget 0 s.mem.cells x := by
  rcases stores.cells x with kept | ⟨low, high, -⟩
  · exact kept
  · omega

theorem Stores.forEach {α : Type} {f : α → State → State} {l : List α}
    (each : ∀ k ∈ l, ∀ s, s.mem.damage = [] → Stores a b s (f k s)) (sound : s.mem.damage = []) :
    Stores a b s (forEach l f s) := by
  induction l generalizing s with
  | nil => exact (SameBytes.refl sound).stores
  | cons k l ih =>
    have first := each k List.mem_cons_self s sound
    exact first.trans (ih (fun j m => each j (List.mem_cons_of_mem k m)) first.sound)

/-- A byte that one of the stores brings is there at the end. -/
theorem storedAt_forEach {α : Type} {f : α → State → State} {l : List α}
    (each : ∀ k ∈ l, ∀ s, s.mem.damage = [] → Stores a b s (f k s)) {k : α} {x : Nat} (here : k ∈ l)
    (brings : ∀ s, s.mem.damage = [] → storedAt a b x (f k s)) (sound : s.mem.damage = []) :
    storedAt a b x (Machine.forEach l f s) := by
  induction l generalizing s with
  | nil => simp at here
  | cons j l ih =>
    have first := each j List.mem_cons_self s sound
    have rest : ∀ k ∈ l, ∀ s, s.mem.damage = [] → Stores a b s (f k s) := fun k m => each k (List.mem_cons_of_mem j m)
    rcases List.mem_cons.mp here with rfl | later
    · exact (Stores.forEach rest first.sound).keeps_storedAt (brings s sound)
    · exact ih rest later first.sound

end

/-- From `s` to `t` the bytes of `b` that lie from `lo` up to `hi` are stored, and no others. -/
structure StoresPart (a : Nat) (b : Bytes) (lo hi : Nat) (s t : State) : Prop where
  cells : ∀ x, sget 0 t.mem.cells x = if lo ≤ x ∧ x < hi then b.getD (x - a) 0 else sget 0 s.mem.cells x
  sound : t.mem.damage = []
  lines : s.mem.sramBad = [] → t.mem.sramBad = []

section
variable {a lo hi : Nat} {b : Bytes} {s t u : State}

theorem StoresPart.stores (part : StoresPart a b lo hi s t) (low : a ≤ lo) (high : hi ≤ a + b.length) :
    Stores a b s t := by
  refine ⟨fun x => ?_, part.sound, part.lines⟩
  rw [part.cells]
  split
  next within => exact .inr ⟨by omega, by omega, rfl⟩
  next => exact .inl rfl

theorem StoresPart.storedAt (part : StoresPart a b lo hi s t) {x : Nat} (low : lo ≤ x) (high : x < hi) :
    storedAt a b x t := by
  rw [Machine.storedAt, part.cells, if_pos ⟨low, high⟩]

theorem StoresPart.after (part : StoresPart a b lo hi t u) (same : SameBytes s t) : StoresPart a b lo hi s u :=
  ⟨by rw [← same.cells]; exact part.cells, part.sound, part.lines ∘ same.lines⟩

theorem StoresPart.then (part : StoresPart a b lo hi s t) {f : State → State} (keeps : keepsBytes f) :
    StoresPart a b lo hi s (f t) :=
  have same := keeps t part.sound
  ⟨by rw [same.cells]; exact part.cells, same.sound, same.lines ∘ part.lines⟩

end

/-! ## Stores into one unit -/

/-- The bytes of `b`, a string at `a`, from address `lo` up to `hi`. -/
def between (a lo hi : Nat) (b : Bytes) : Bytes := (b.drop (lo - a)).take (hi - lo)

section
variable {a lo hi : Nat} {b : Bytes} {s t : State}

theorem between_length (low : a ≤ lo) (high : hi ≤ a + b.length) : (between a lo hi b).length = hi - lo := by
  simp only [between, List.length_take, List.length_drop]
  omega

theorem getD_between {x : Nat} (low : a ≤ lo) (from_ : lo ≤ x) (upto_ : x < hi) :
    (between a lo hi b).getD (x - lo) 0 = b.getD (x - a) 0 := by
  rw [between, getD_slice, if_pos (by omega)]
  congr 1; omega

/-- A run of the string's bytes stored as they are. -/
theorem StoresPart.of_between (low : a ≤ lo) (high : hi ≤ a + b.length)
    (cells : t.mem.cells = sputs 0 s.mem.cells lo (between a lo hi b)) (sound : t.mem.damage = [])
    (lines : s.mem.sramBad = [] → t.mem.sramBad = []) : StoresPart a b lo hi s t := by
  refine ⟨fun x => ?_, sound, lines⟩
  rw [cells, sget_sputs, between_length low high]
  split
  next within => rw [if_pos (by omega), getD_between low within.1 (by omega)]
  next => rw [if_neg (by omega)]

theorem between_fits {k : Nat} (s : State) (low : a ≤ lo) (high : hi ≤ a + b.length) (start : secAddr k ≤ lo)
    (stop : hi ≤ secAddr k + 56) :
    lo - secAddr k + (between a lo hi b).length ≤ (secBytes s k).length ∨ between a lo hi b = [] := by
  rw [secBytes_length, ← List.length_eq_zero_iff, between_length low high]
  omega

/-- A sector stored with a part of its bytes replaced by the string's. -/
theorem StoresPart.of_patch {k w : Nat} (low : a ≤ lo) (high : hi ≤ a + b.length) (start : secAddr k ≤ lo)
    (stop : hi ≤ secAddr k + 56) (word : natLe 56 w = patch (secBytes s k) (lo - secAddr k) (between a lo hi b))
    (sound : s.mem.damage = []) : StoresPart a b lo hi s (putWord k w s) := by
  have len := between_length low high
  have fits := between_fits s low high start stop
  refine ⟨fun x => ?_, sound, id⟩
  rw [putWord_cells, sget_sputs, word,
    patch_length fits, secBytes_length, getD_patch fits, len, secBytes, getD_sgets]
  rcases Nat.lt_or_ge x (secAddr k) with below | from_
  · rw [if_neg (by omega), if_neg (by omega)]
  · rcases Nat.lt_or_ge x (secAddr k + 56) with within | above
    · rw [if_pos ⟨from_, within⟩]
      by_cases part : lo ≤ x ∧ x < hi
      · rw [if_pos (by omega), if_pos part, show x - secAddr k - (lo - secAddr k) = x - lo by omega,
          getD_between low part.1 part.2]
      · rw [if_neg (by omega), if_neg part, if_pos (by rw [sectorBytes]; omega), Nat.add_sub_cancel' from_]
    · rw [if_neg (by omega), if_neg (by omega)]

end

/-- Where the part of a string at `a` that a unit takes begins, and where it ends. -/
def partStart (a k : Nat) : Nat := max a (unitStart a k)
def partEnd (a k : Nat) (b : Bytes) : Nat := min (a + b.length) (unitStart a k + unitLen a)

theorem natLe_secWord (s : State) (k : Nat) : natLe 56 (secWord s k) = secBytes s k :=
  natLe_sector (secBytes_length s k) _

theorem whenS_count_mem (c : Bool) (k : Nat) (s : State) : (whenS c (count k) s).mem = s.mem := by cases c <;> rfl

/-- The words of a good line stay good. -/
@[simp] theorem goodWords_zero (ws : List Nat) : goodWords 0 ws = 0 := by
  induction ws with
  | nil => rfl
  | cons w ws ih => simpa [goodWords, wordKind] using ih

section
variable {a k : Nat} {b : Bytes}

theorem le_partStart : a ≤ partStart a k := Nat.le_max_left ..
theorem unitStart_le_partStart : unitStart a k ≤ partStart a k := Nat.le_max_right ..
theorem partEnd_le : partEnd a k b ≤ a + b.length := Nat.min_le_left ..
theorem partEnd_le_unitEnd : partEnd a k b ≤ unitStart a k + unitLen a := Nat.min_le_right ..

/-- R266: the store of a part of a sector. -/
theorem writeUnit_sector {s : State} (dram : inDram a = true) (poison : Bool) (sound : s.mem.damage = []) :
    StoresPart a b (partStart a k) (partEnd a k b) s (writeUnit a k b a poison s) := by
  have start : secAddr k ≤ partStart a k := by simpa [unitStart, dram] using unitStart_le_partStart (a := a) (k := k)
  have stop : partEnd a k b ≤ secAddr k + 56 := by
    simpa [unitStart, unitLen, dram, sectorBytes] using partEnd_le_unitEnd (a := a) (k := k) (b := b)
  have unit : unitStart a k = secAddr k := by rw [unitStart, dram, if_pos rfl]
  simp only [writeUnit, dram, if_true, fixSector_undamaged k sound]
  generalize counted : whenS (_ && _ && _) (count E.POISON_CLEARED) s = t
  have same : t.mem = s.mem := by rw [← counted, whenS_count_mem]
  have soundNow : t.mem.damage = [] := by rw [same, sound]
  rw [natLe_secWord, putSector]
  refine StoresPart.then (StoresPart.after ?_ (.of_mem sound same)) (keepsBytes_parityAdd _ _)
  refine .of_patch le_partStart partEnd_le start stop ?_ soundNow
  have len := patch_length (between_fits t le_partStart partEnd_le start stop)
  rw [secBytes_length] at len
  change natLe 56 (leNat (patch (secBytes t k) (partStart a k - unitStart a k)
    (between a (partStart a k) (partEnd a k b) b)) + _ * 2 ^ 448) = _
  rw [unit, natLe_sector len]

/-- R274: the store of a part of a line of SRAM. -/
theorem writeUnit_line {s : State} (sram : inDram a = false) (poison : Bool) (sound : s.mem.damage = []) :
    StoresPart a b (partStart a k) (partEnd a k b) s (writeUnit a k b a poison s) := by
  simp only [writeUnit, sram, Bool.false_eq_true, if_false]
  generalize badAfter : sput 0 s.mem.sramBad k _ = bad
  have good : SameBytes s (setMem { s.mem with sramBad := bad } s) :=
    ⟨rfl, sound, fun none => by simp [← badAfter, none]⟩
  have read (c : Bool) := (good.then (keepsBytes_fixLine k)).then (keepsBytes_whenS_count c E.POISON_CLEARED)
  exact .of_between le_partStart partEnd_le (congrArg (fun m => sputs 0 m _ _) (read _).cells) (read _).sound
    (read _).lines

end

/-! ## Stores into one page -/

theorem secAddr_secKey {pk i : Nat} (h : i < 64) : secAddr (secKey pk i) = pageAddr pk + i * 56 := by
  have page : pageOfSec (secKey pk i) = pk := by rw [pageOfSec, secKey]; omega
  have place : secIn (secKey pk i) = i := by rw [secIn, secKey]; omega
  rw [secAddr, page, place, sectorBytes]

/-- R266: one sector of a page that is stored whole. -/
def storeWhole (pk : Nat) (b : Bytes) (a : Nat) (poison : Nat → Bool) (i : Nat) (s : State) : State :=
  let sk := secKey pk i
  let t := whenS (markPoison (secMark s sk) && !(poison i)) (count E.POISON_CLEARED) s
  setDamage sk 0
    (putWord sk (leNat ((b.drop (secAddr sk - a)).take sectorBytes) + b2n (poison i) * poisonBit * 2 ^ 448) t)

theorem writePage_eq (pk : Nat) (b : Bytes) (a : Nat) (poison : Nat → Bool) (s : State) :
    writePage pk b a poison s = freshParity pk (forEach (upto 62) (storeWhole pk b a poison) s) := rfl

section
variable {pk a : Nat} {b : Bytes} (whole : wholePage pk a b.length = true)
include whole

theorem wholePage_within : a ≤ pageAddr pk ∧ pageAddr pk + 3472 ≤ a + b.length := by
  obtain ⟨low, high⟩ := (Bool.and_eq_true _ _).mp whole
  exact ⟨of_decide_eq_true low, of_decide_eq_true high⟩

theorem storeWhole_part (poison : Nat → Bool) {i : Nat} (h : i < 62) {s : State} (sound : s.mem.damage = []) :
    StoresPart a b (pageAddr pk + i * 56) (pageAddr pk + i * 56 + 56) s (storeWhole pk b a poison i s) := by
  obtain ⟨low, high⟩ := wholePage_within whole
  have address : secAddr (secKey pk i) = pageAddr pk + i * 56 := secAddr_secKey (by omega)
  have run : (b.drop (secAddr (secKey pk i) - a)).take sectorBytes
      = between a (pageAddr pk + i * 56) (pageAddr pk + i * 56 + 56) b := by
    rw [between, address, Nat.add_sub_cancel_left, sectorBytes]
  have len : (between a (pageAddr pk + i * 56) (pageAddr pk + i * 56 + 56) b).length = 56 := by
    rw [between_length (by omega) (by omega), Nat.add_sub_cancel_left]
  simp only [storeWhole, run]
  generalize counted : whenS (_ && _) (count E.POISON_CLEARED) s = t
  have same : t.mem = s.mem := by rw [← counted, whenS_count_mem]
  refine .of_between (by omega) (by omega) ?_ ?_ ?_
  · rw [setDamage_cells, putWord_cells, natLe_sector len, address, same]
  · rw [setDamage_damage, putWord_damage, same, sound, sput_default_nil]
  · rw [setDamage_sramBad, putWord_sramBad, same]
    exact id

theorem storeWhole_stores (poison : Nat → Bool) (i : Nat) (m : i ∈ upto 62) (s : State) (sound : s.mem.damage = []) :
    Stores a b s (storeWhole pk b a poison i s) := by
  have h : i < 62 := List.mem_range.mp m
  obtain ⟨low, high⟩ := wholePage_within whole
  exact (storeWhole_part whole poison h sound).stores (by omega) (by omega)

theorem writePage_stores (poison : Nat → Bool) {s : State} (sound : s.mem.damage = []) :
    Stores a b s (writePage pk b a poison s) := by
  have sectors := Stores.forEach (storeWhole_stores whole poison) sound
  rw [writePage_eq]
  exact sectors.trans (keepsBytes_freshParity pk _ sectors.sound).stores

theorem writePage_storedAt (poison : Nat → Bool) {s : State} (sound : s.mem.damage = []) {x : Nat}
    (low : pageAddr pk ≤ x) (high : x < pageAddr pk + 3472) : storedAt a b x (writePage pk b a poison s) := by
  have sectors := Stores.forEach (storeWhole_stores whole poison) sound
  rw [writePage_eq]
  refine (keepsBytes_freshParity pk _ sectors.sound).stores.keeps_storedAt ?_
  refine storedAt_forEach (storeWhole_stores whole poison) (k := (x - pageAddr pk) / 56)
    (List.mem_range.mpr (by omega)) (fun t soundNow => ?_) sound
  exact (storeWhole_part whole poison (by omega) soundNow).storedAt (by omega) (by omega)

end

/-! ## Stores of a range -/

theorem noteDense_mem (pk : Nat) (s : State) : (noteDense pk s).mem = s.mem := by
  rw [noteDense, noteRecopy]
  split
  · split <;> rfl
  · rfl

theorem keepsBytes_noteDense (pk : Nat) : keepsBytes (noteDense pk) := fun s sound => .of_mem sound (noteDense_mem pk s)

section
variable {a : Nat} {b : Bytes} {s : State}

theorem writeUnit_part (poison : Bool) (k : Nat) (sound : s.mem.damage = []) :
    StoresPart a b (partStart a k) (partEnd a k b) s (writeUnit a k b a poison s) := by
  cases dram : inDram a
  · exact writeUnit_line dram poison sound
  · exact writeUnit_sector dram poison sound

theorem writeUnit_stores (poison : Bool) (k : Nat) (sound : s.mem.damage = []) :
    Stores a b s (writeUnit a k b a poison s) := (writeUnit_part poison k sound).stores le_partStart partEnd_le

theorem writeUnit_storedAt (poison : Bool) {k x : Nat} (sound : s.mem.damage = []) (low : a ≤ x)
    (high : x < a + b.length) (start : unitStart a k ≤ x) (stop : x < unitStart a k + unitLen a) :
    storedAt a b x (writeUnit a k b a poison s) :=
  (writeUnit_part poison k sound).storedAt (Nat.max_le.mpr ⟨low, start⟩) (Nat.lt_min.mpr ⟨high, stop⟩)

/-- What a write of a range does in one of its pages. -/
def writeInPage (a : Nat) (b : Bytes) (poison : Bool) (pk : Nat) (s : State) : State :=
  let s := noteDense pk s
  if wholePage pk a b.length then writePage pk b a (fun _ => poison) s
  else forEach ((touched a b.length).filter fun k => pageOfSec k == pk) (fun k => writeUnit a k b a poison) s

theorem writeRange_dram (dram : inDram a = true) (some_byte : b ≠ []) (poison : Bool) :
    writeRange a b poison s =
      forEach ((touched a b.length).map pageOfSec).eraseDups (writeInPage a b poison) s := by
  simp only [writeRange, List.isEmpty_eq_false_iff.mpr some_byte, dram, Bool.false_eq_true, if_false, if_true]
  rfl

theorem writeRange_sram (sram : inDram a = false) (some_byte : b ≠ []) (poison : Bool) :
    writeRange a b poison s = forEach (touched a b.length) (fun k => writeUnit a k b a poison) s := by
  simp only [writeRange, List.isEmpty_eq_false_iff.mpr some_byte, sram, Bool.false_eq_true, if_false]

theorem writeInPage_stores (poison : Bool) (pk : Nat) (sound : s.mem.damage = []) :
    Stores a b s (writeInPage a b poison pk s) := by
  have noted := keepsBytes_noteDense pk s sound
  refine noted.stores.trans ?_
  simp only [writeInPage]
  split
  next whole => exact writePage_stores whole _ noted.sound
  next => exact Stores.forEach (fun k _ t => writeUnit_stores poison k) noted.sound

/-- R266, R274: a write stores the bytes of its range at addresses of its range. -/
theorem writeRange_stores (poison : Bool) (sound : s.mem.damage = []) : Stores a b s (writeRange a b poison s) := by
  by_cases some_byte : b = []
  · subst some_byte
    exact (SameBytes.refl sound).stores
  · cases dram : inDram a
    · rw [writeRange_sram dram some_byte]
      exact Stores.forEach (fun k _ t => writeUnit_stores poison k) sound
    · rw [writeRange_dram dram some_byte]
      exact Stores.forEach (fun pk _ t => writeInPage_stores poison pk) sound

theorem writeInPage_storedAt (poison : Bool) {k x : Nat} (dram : inDram a = true) (sound : s.mem.damage = [])
    (unit : k ∈ touched a b.length) (payload : secIn k < 62) (low : a ≤ x) (high : x < a + b.length)
    (start : secAddr k ≤ x) (stop : x < secAddr k + 56) :
    storedAt a b x (writeInPage a b poison (pageOfSec k) s) := by
  have noted := keepsBytes_noteDense (pageOfSec k) s sound
  have address : secAddr k = pageAddr (pageOfSec k) + secIn k * 56 := rfl
  simp only [writeInPage]
  split
  next whole => exact writePage_storedAt whole _ noted.sound (by omega) (by omega)
  next =>
    have member : k ∈ (touched a b.length).filter fun j => pageOfSec j == pageOfSec k :=
      List.mem_filter.mpr ⟨unit, beq_self_eq_true _⟩
    refine storedAt_forEach (fun j _ t => writeUnit_stores poison j) member (fun t soundNow => ?_) noted.sound
    refine writeUnit_storedAt poison soundNow low high ?_ ?_
    · simpa [unitStart, dram] using start
    · simpa [unitStart, unitLen, dram, sectorBytes] using stop

/-- R266: a byte whose sector the write goes through is there afterwards. -/
theorem writeRange_storedAt_dram (poison : Bool) {k x : Nat} (dram : inDram a = true) (sound : s.mem.damage = [])
    (unit : k ∈ touched a b.length) (payload : secIn k < 62) (low : a ≤ x) (high : x < a + b.length)
    (start : secAddr k ≤ x) (stop : x < secAddr k + 56) : storedAt a b x (writeRange a b poison s) := by
  have some_byte : b ≠ [] := by rintro rfl; simp at high; omega
  rw [writeRange_dram dram some_byte]
  have page : pageOfSec k ∈ ((touched a b.length).map pageOfSec).eraseDups :=
    List.mem_eraseDups.mpr (List.mem_map_of_mem unit)
  exact storedAt_forEach (fun pk _ t => writeInPage_stores poison pk) page
    (fun t soundNow => writeInPage_storedAt poison dram soundNow unit payload low high start stop) sound

/-- R274: a byte whose line the write goes through is there afterwards. -/
theorem writeRange_storedAt_sram (poison : Bool) {k x : Nat} (sram : inDram a = false) (sound : s.mem.damage = [])
    (unit : k ∈ touched a b.length) (low : a ≤ x) (high : x < a + b.length) (start : unitStart a k ≤ x)
    (stop : x < unitStart a k + 64) : storedAt a b x (writeRange a b poison s) := by
  have some_byte : b ≠ [] := by rintro rfl; simp at high; omega
  rw [writeRange_sram sram some_byte]
  refine storedAt_forEach (fun j _ t => writeUnit_stores poison j) unit (fun t soundNow => ?_) sound
  exact writeUnit_storedAt poison soundNow low high start (by simpa [unitLen, sram] using stop)

end

end Sys2Proof.Machine
end

section
/-!
SUPPORT. Where a range of one portion lies (R23, R89, R258, R317), which sectors or lines it goes through, and what is
read there after a write.
-/
namespace Sys2Proof.Machine

/-! ## Where a portion lies (R23, R89) -/

/-- The payload windows of a die by tier, 0 slow and 1 fast: the address of offset `x` of a region's share, and how many
bytes of a share are populated. -/
def tierAddr (tier region x : Nat) : Nat := if tier = 0 then slowAddr region x else fastAddr region x
def tierPop (tier : Nat) : Nat := if tier = 0 then slowPop else fastPop

section
variable {s : State} {o : Nat}

theorem spotOf_fast (fast : o < 4 * fastShare) :
    spotOf s o =
      ⟨o / fastShare, o % fastShare, if o % fastShare < fastPop then fastPortion s (o % fastShare) else .hole⟩ := by
  rw [spotOf, if_pos fast]

theorem spotOf_slow (low : slowBase ≤ o) (high : o < slowBase + 4 * slowShare) :
    spotOf s o = ⟨(o - slowBase) / slowShare, (o - slowBase) % slowShare,
      if (o - slowBase) % slowShare < slowPop then slowPortion s ((o - slowBase) % slowShare) else .hole⟩ := by
  rw [spotOf, if_neg (by simp only [slowBase, fastShare] at *; omega), if_neg (by omega), if_pos high]

theorem spotOf_sram (low : sramBase ≤ o) (high : o < sramBase + 4 * sramShare) :
    spotOf s o = ⟨(o - sramBase) / sramShare, (o - sramBase) % sramShare,
      if (o - sramBase) % sramShare < workspaceReserved s then .sramReserved else .sram⟩ := by
  rw [spotOf, if_neg (by simp only [sramBase, fastShare] at *; omega),
    if_neg (by simp only [sramBase, slowBase] at *; omega),
    if_neg (by simp only [sramBase, slowBase, slowShare] at *; omega), if_neg (by omega), if_pos high]

/-- Outside the windows of memory there is none. -/
theorem spotOf_elsewhere (notFast : 4 * fastShare ≤ o) (notSlow : o < slowBase ∨ slowBase + 4 * slowShare ≤ o)
    (notSram : o < sramBase ∨ sramBase + 4 * sramShare ≤ o) :
    (spotOf s o).portion = .hole ∨ (spotOf s o).portion = .peg ∨ (spotOf s o).portion = .control := by
  rw [spotOf, if_neg (Nat.not_lt.mpr notFast)]
  split
  · exact .inl rfl
  · rw [if_neg (by omega)]
    split
    · exact .inl rfl
    · rw [if_neg (by omega)]
      repeat' split
      all_goals simp

end

/-- How a spot lies in its window of the map; `off` and `region` say its address back. -/
inductive SpotIn (s : State) (o : Nat) : Spot → Prop
  | fast {r x : Nat} (region : r < 4) (off : x < fastPop) (address : o = fastAddr r x) :
      SpotIn s o ⟨r, x, fastPortion s x⟩
  | slow {r x : Nat} (region : r < 4) (off : x < slowPop) (address : o = slowAddr r x) :
      SpotIn s o ⟨r, x, slowPortion s x⟩
  | sram {r x : Nat} {p : Portion} (region : r < 4) (off : x < sramShare) (address : o = sramAddr r x)
      (portion : p = .sramReserved ∨ p = .sram) : SpotIn s o ⟨r, x, p⟩
  | nowhere {sp : Spot} (portion : sp.portion = .hole ∨ sp.portion = .peg ∨ sp.portion = .control) : SpotIn s o sp

theorem spotIn (s : State) (o : Nat) : SpotIn s o (spotOf s o) := by
  by_cases fast : o < 4 * fastShare
  · rw [spotOf_fast fast]
    split
    next pop => exact .fast (by simp only [fastShare] at *; omega) pop (by simp only [fastAddr, fastShare]; omega)
    next => exact .nowhere (.inl rfl)
  by_cases slow : slowBase ≤ o ∧ o < slowBase + 4 * slowShare
  · rw [spotOf_slow slow.1 slow.2]
    split
    next pop =>
      exact .slow (by simp only [slowBase, slowShare] at *; omega) pop
        (by simp only [slowAddr, slowBase, slowShare] at *; omega)
    next => exact .nowhere (.inl rfl)
  by_cases sram : sramBase ≤ o ∧ o < sramBase + 4 * sramShare
  · rw [spotOf_sram sram.1 sram.2]
    refine .sram (by simp only [sramBase, sramShare] at *; omega) (Nat.mod_lt _ (by decide))
      (by simp only [sramAddr, sramBase, sramShare] at *; omega) ?_
    split
    · exact .inl rfl
    · exact .inr rfl
  · exact .nowhere (spotOf_elsewhere (by omega) (by omega) (by omega))

theorem fastPortion_cases (s : State) (x : Nat) :
    fastPortion s x = .fastFlat ∨ fastPortion s x = .pinned ∨ fastPortion s x = .directory ∨
      fastPortion s x = .cache := by
  simp only [fastPortion]
  repeat' split
  all_goals simp

theorem slowPortion_cases (s : State) (x : Nat) :
    slowPortion s x = .slowFlat ∨ slowPortion s x = .table ∨ slowPortion s x = .overlay ∨
      slowPortion s x = .rucksack := by
  simp only [slowPortion]
  repeat' split
  all_goals simp

/-- What is spelled out of a range of `n` bytes within one flat portion (R538): its die, tier, region and offset. -/
def FlatRange (a n : Nat) : Prop :=
  ∃ d < 4, ∃ tier < 2, ∃ r < 4, ∃ x, a = modAddr d (tierAddr tier r x) ∧ 0 < n ∧ x + n ≤ tierPop tier

/-- The same of a range in a region's workspace. -/
def WorkRange (a n : Nat) : Prop := ∃ d < 4, ∃ r < 4, ∃ x, a = modAddr d (sramAddr r x) ∧ 0 < n ∧ x + n ≤ sramShare

theorem spotIn_flat {s : State} {o : Nat} {sp : Spot} (lies : SpotIn s o sp) (flat : isFlat sp.portion = true) :
    sp.region < 4 ∧ (sp.portion = .slowFlat ∧ o = slowAddr sp.region sp.off ∧ sp.off < slowPop ∨
      sp.portion = .fastFlat ∧ o = fastAddr sp.region sp.off ∧ sp.off < fastPop) := by
  cases lies with
  | @fast r x region off address =>
    rcases fastPortion_cases s x with h | h | h | h
    case inl => exact ⟨region, .inr ⟨h, address, off⟩⟩
    all_goals simp [h, isFlat] at flat
  | @slow r x region off address =>
    rcases slowPortion_cases s x with h | h | h | h
    case inl => exact ⟨region, .inl ⟨h, address, off⟩⟩
    all_goals simp [h, isFlat] at flat
  | sram region off address portion => rcases portion with rfl | rfl <;> simp [isFlat] at flat
  | nowhere portion => rcases portion with h | h | h <;> simp [h, isFlat] at flat

theorem spotIn_workspace {s : State} {o : Nat} {sp : Spot} (lies : SpotIn s o sp) (work : sp.portion = .sram) :
    sp.region < 4 ∧ o = sramAddr sp.region sp.off ∧ sp.off < sramShare := by
  cases lies with
  | @fast r x => rcases fastPortion_cases s x with h | h | h | h <;> simp [h] at work
  | @slow r x => rcases slowPortion_cases s x with h | h | h | h <;> simp [h] at work
  | sram region off address portion => exact ⟨region, address, off⟩
  | nowhere portion => rcases portion with h | h | h <;> simp [h] at work

/-- R317: a range lies in one portion when both of its ends do, as far apart as they should. -/
theorem rangeSpot_some {s : State} {o n : Nat} {sp : Spot} (lies : rangeSpot s o n = some sp) :
    0 < n ∧ spotOf s o = sp ∧ ∃ last, spotOf s (o + n - 1) = last ∧ last.region = sp.region ∧
      last.portion = sp.portion ∧ last.off = sp.off + (n - 1) := by
  simp only [rangeSpot] at lies
  split at lies
  · cases lies
  next some_byte =>
    split at lies
    next same =>
      obtain rfl := Option.some.inj lies
      simp only [Bool.and_eq_true, decide_eq_true_eq] at same
      exact ⟨by omega, rfl, _, rfl, same.1.1.symm, same.1.2.symm, same.2⟩
    · cases lies

theorem die_and_offset {a o : Nat} (h : a < 2 ^ 43) (off : addrOff a = o) : ∃ d < 4, a = modAddr d o := by
  subst off
  refine ⟨addrDie a, ?_⟩
  simp only [addrDie, addrOff, modAddr]
  omega

theorem flatRange_of_spot {s : State} {a n : Nat} {sp : Spot} (inModule : a < 2 ^ 43)
    (lies : rangeSpot s (addrOff a) n = some sp) (flat : isFlat sp.portion = true) : FlatRange a n := by
  obtain ⟨pos, here, last, there, -, portion, off⟩ := rangeSpot_some lies
  obtain ⟨region, first⟩ := spotIn_flat (here ▸ spotIn s (addrOff a)) flat
  obtain ⟨-, final⟩ := spotIn_flat (there ▸ spotIn s (addrOff a + n - 1)) (portion ▸ flat)
  rcases first with ⟨slow, address, -⟩ | ⟨fast, address, -⟩
  · obtain ⟨d, die, whole⟩ := die_and_offset inModule address
    rcases final with ⟨-, -, within⟩ | ⟨fast, -, -⟩
    · exact ⟨d, die, 0, by decide, _, region, sp.off, whole, pos, show sp.off + n ≤ slowPop by omega⟩
    · simp [portion, slow] at fast
  · obtain ⟨d, die, whole⟩ := die_and_offset inModule address
    rcases final with ⟨slow, -, -⟩ | ⟨-, -, within⟩
    · simp [portion, fast] at slow
    · exact ⟨d, die, 1, by decide, _, region, sp.off, whole, pos, show sp.off + n ≤ fastPop by omega⟩

theorem workRange_of_spot {s : State} {a n : Nat} {sp : Spot} (inModule : a < 2 ^ 43)
    (lies : rangeSpot s (addrOff a) n = some sp) (work : sp.portion = .sram) : WorkRange a n := by
  obtain ⟨pos, here, last, there, -, portion, off⟩ := rangeSpot_some lies
  obtain ⟨region, address, -⟩ := spotIn_workspace (here ▸ spotIn s (addrOff a)) work
  obtain ⟨-, -, within⟩ := spotIn_workspace (there ▸ spotIn s (addrOff a + n - 1)) (portion.trans work)
  obtain ⟨d, die, whole⟩ := die_and_offset inModule address
  exact ⟨d, die, _, region, sp.off, whole, pos, by omega⟩

/-! ## The units of a range (R258, R274) -/

theorem addrDie_modAddr {d o : Nat} (die : d < 4) (off : o < 2 ^ 41) : addrDie (modAddr d o) = d := by
  simp only [addrDie, modAddr]; omega

theorem addrOff_modAddr {d o : Nat} (off : o < 2 ^ 41) : addrOff (modAddr d o) = o := by
  simp only [addrOff, modAddr]; omega

theorem modAddr_add (d o i : Nat) : modAddr d o + i = modAddr d (o + i) := Nat.add_assoc ..

theorem tierAddr_add (tier r x i : Nat) : tierAddr tier r x + i = tierAddr tier r (x + i) := by
  unfold tierAddr slowAddr fastAddr
  split <;> omega

section
variable {d tier r x : Nat}

theorem tierAddr_lt (two : tier < 2) (region : r < 4) (pop : x < tierPop tier) :
    tierAddr tier r x < slowBase + 4 * slowShare ∧ (tierAddr tier r x < 4 * fastShare ↔ tier = 1) := by
  obtain rfl | rfl : tier = 0 ∨ tier = 1 := by omega
  · change x < slowPop at pop
    change slowAddr r x < _ ∧ (slowAddr r x < _ ↔ _)
    simp only [slowAddr, slowBase, slowShare, slowPop, fastShare] at *
    omega
  · change x < fastPop at pop
    change fastAddr r x < _ ∧ (fastAddr r x < _ ↔ _)
    simp only [fastAddr, slowBase, slowShare, fastPop, fastShare] at *
    exact ⟨by omega, iff_of_true (by omega) trivial⟩

variable (die : d < 4) (two : tier < 2) (region : r < 4) (pop : x < tierPop tier)
include die two region pop

omit die in
theorem inDram_tier : inDram (modAddr d (tierAddr tier r x)) = true := by
  obtain ⟨dram, -⟩ := tierAddr_lt two region pop
  rw [inDram, addrOff_modAddr (by simp only [slowBase, slowShare] at dram; omega), decide_eq_true dram]

/-- R258: the sector of a byte of DRAM: 62 payload sectors of 56 bytes to a page. -/
theorem secOfAddr_tier :
    secOfAddr (modAddr d (tierAddr tier r x)) = secKey (pageKey (placeOf d tier r) (x / 3472)) (x % 3472 / 56) := by
  obtain ⟨dram, fast⟩ := tierAddr_lt two region pop
  have inDie : tierAddr tier r x < 2 ^ 41 := by simp only [slowBase, slowShare] at dram; omega
  simp only [secOfAddr, addrDie_modAddr die inDie, addrOff_modAddr inDie, fast]
  obtain rfl | rfl : tier = 0 ∨ tier = 1 := by omega
  · change x < slowPop at pop
    have share : (tierAddr 0 r x - slowBase) / slowShare = r ∧ (tierAddr 0 r x - slowBase) % slowShare = x := by
      change (slowAddr r x - _) / _ = _ ∧ (slowAddr r x - _) % _ = _
      simp only [slowAddr, slowBase, slowShare, slowPop] at *
      omega
    simp [share, b2n, pageBytes, sectorBytes]
  · change x < fastPop at pop
    have share : tierAddr 1 r x / fastShare = r ∧ tierAddr 1 r x % fastShare = x := by
      change fastAddr r x / _ = _ ∧ fastAddr r x % _ = _
      simp only [fastAddr, fastShare, fastPop] at *
      omega
    simp [share, b2n, pageBytes, sectorBytes]

/-- The number of a byte's sector among all payload sectors. -/
theorem sectorNumber_tier :
    pageOfSec (secOfAddr (modAddr d (tierAddr tier r x))) * 62 + secIn (secOfAddr (modAddr d (tierAddr tier r x))) =
      placeOf d tier r * 2 ^ 36 * 62 + x / 56 := by
  rw [secOfAddr_tier die two region pop]
  simp only [pageOfSec, secIn, secKey, pageKey]
  omega

theorem secAddr_tier :
    secAddr (secOfAddr (modAddr d (tierAddr tier r x))) = modAddr d (tierAddr tier r (x / 56 * 56)) := by
  have small : x < slowPop := by
    unfold tierPop at pop
    split at pop
    · exact pop
    · exact Nat.lt_trans pop (by decide)
  have page : x / 3472 < 2 ^ 36 := by simp only [slowPop] at small; omega
  have place : placeOfPage (pageKey (placeOf d tier r) (x / 3472)) = placeOf d tier r ∧
      pageNo (pageKey (placeOf d tier r) (x / 3472)) = x / 3472 := by
    simp only [placeOfPage, pageNo, pageKey]; omega
  have parts : placeOf d tier r / 8 = d ∧ placeOf d tier r / 4 % 2 = tier ∧ placeOf d tier r % 4 = r := by
    simp only [placeOf]; omega
  rw [secOfAddr_tier die two region pop, secAddr_secKey (by omega), pageAddr, place.1, place.2, parts.1, parts.2.1,
    parts.2.2]
  change modAddr d (tierAddr tier r (x / 3472 * 3472)) + _ = _
  rw [modAddr_add, tierAddr_add]
  congr 2; omega

end

/-- R258: the sectors that a range of one tier's share goes through. -/
theorem mem_touched_flat {d tier r x n i : Nat} (die : d < 4) (two : tier < 2) (region : r < 4)
    (pop : x + n ≤ tierPop tier) (within : i < n) :
    secOfAddr (modAddr d (tierAddr tier r (x + i))) ∈ touched (modAddr d (tierAddr tier r x)) n := by
  have last : modAddr d (tierAddr tier r x) + n - 1 = modAddr d (tierAddr tier r (x + (n - 1))) := by
    rw [← tierAddr_add, ← modAddr_add]; omega
  have n0 := sectorNumber_tier die two region (x := x) (by omega)
  have n1 := sectorNumber_tier die two region (x := x + (n - 1)) (by omega)
  have ni := sectorNumber_tier die two region (x := x + i) (by omega)
  have sec : secIn (secOfAddr (modAddr d (tierAddr tier r (x + i)))) < 62 := by
    rw [secOfAddr_tier die two region (by omega)]
    simp only [secIn, secKey]; omega
  have key : secOfAddr (modAddr d (tierAddr tier r (x + i))) =
      secKey (pageOfSec (secOfAddr (modAddr d (tierAddr tier r (x + i)))))
        (secIn (secOfAddr (modAddr d (tierAddr tier r (x + i))))) := by
    simp only [secKey, pageOfSec, secIn]; omega
  simp only [touched, show n ≠ 0 by omega, if_false, inDram_tier two region (show x < tierPop tier by omega), if_true,
    last, n0, n1, List.mem_map]
  refine ⟨(x + i) / 56 - x / 56, List.mem_range.mpr (by omega), ?_⟩
  rw [key]
  generalize pageOfSec (secOfAddr (modAddr d (tierAddr tier r (x + i)))) = p at *
  generalize secIn (secOfAddr (modAddr d (tierAddr tier r (x + i)))) = c at *
  congr 1 <;> omega

section
variable {d r x : Nat} (die : d < 4) (region : r < 4) (share : x < sramShare)
include die region share

omit die in
theorem inDram_work : inDram (modAddr d (sramAddr r x)) = false := by
  have inDie : sramAddr r x < 2 ^ 41 := by simp only [sramAddr, sramBase, sramShare] at *; omega
  rw [inDram, addrOff_modAddr inDie]
  exact decide_eq_false (by simp only [sramAddr, sramBase, slowBase, slowShare]; omega)

theorem lineOfAddr_work : lineOfAddr (modAddr d (sramAddr r x)) = d * 2 ^ 21 + r * 2 ^ 18 + x / 64 := by
  have inDie : sramAddr r x < 2 ^ 41 := by simp only [sramAddr, sramBase, sramShare] at *; omega
  simp only [lineOfAddr, addrDie_modAddr die inDie, addrOff_modAddr inDie, sramKey]
  simp only [sramAddr, sramBase, sramShare] at *
  omega

theorem unitStart_work {a : Nat} (sram : inDram a = false) :
    unitStart a (lineOfAddr (modAddr d (sramAddr r x))) = modAddr d (sramAddr r (x / 64 * 64)) := by
  have small : x / 64 < 2 ^ 18 := by simp only [sramShare] at share; omega
  have parts : (d * 2 ^ 21 + r * 2 ^ 18 + x / 64) / 2 ^ 21 = d ∧
      (d * 2 ^ 21 + r * 2 ^ 18 + x / 64) % 2 ^ 21 / 2 ^ 18 = r ∧
      (d * 2 ^ 21 + r * 2 ^ 18 + x / 64) % 2 ^ 18 = x / 64 := by omega
  rw [lineOfAddr_work die region share, unitStart, sram, if_neg Bool.false_ne_true, parts.1, parts.2.1, parts.2.2]

end

/-- R274: the lines that a range of a workspace goes through. -/
theorem mem_touched_work {d r x n i : Nat} (die : d < 4) (region : r < 4) (share : x + n ≤ sramShare) (within : i < n) :
    lineOfAddr (modAddr d (sramAddr r (x + i))) ∈ touched (modAddr d (sramAddr r x)) n := by
  have last : modAddr d (sramAddr r x) + n - 1 = modAddr d (sramAddr r (x + (n - 1))) := by
    simp only [modAddr, sramAddr]; omega
  have some_byte : n ≠ 0 := by omega
  rw [touched, if_neg some_byte, inDram_work region (by omega), if_neg Bool.false_ne_true, last,
    lineOfAddr_work die region (by omega), lineOfAddr_work die region (by omega), lineOfAddr_work die region (by omega)]
  exact List.mem_map.mpr ⟨(x + i) / 64 - x / 64, List.mem_range.mpr (by omega), by omega⟩

/-! ## Reading what was written -/

section
variable {a : Nat} {b : Bytes} {s : State} (sound : s.mem.damage = []) (poison : Bool)
include sound

theorem writeRange_storedAt_flat {i : Nat} (flat : FlatRange a b.length) (within : i < b.length) :
    storedAt a b (a + i) (writeRange a b poison s) := by
  obtain ⟨d, die, tier, two, r, region, x, rfl, -, pop⟩ := flat
  have dram := inDram_tier (d := d) two region (show x < tierPop tier by omega)
  have unit := mem_touched_flat die two region pop within
  have start := secAddr_tier die two region (show x + i < tierPop tier by omega)
  have payload : secIn (secOfAddr (modAddr d (tierAddr tier r (x + i)))) < 62 := by
    rw [secOfAddr_tier die two region (by omega), secIn, secKey]; omega
  have address :
      modAddr d (tierAddr tier r x) + i = modAddr d (tierAddr tier r ((x + i) / 56 * 56)) + (x + i) % 56 := by
    rw [modAddr_add, modAddr_add, tierAddr_add, tierAddr_add]
    congr 2; omega
  refine writeRange_storedAt_dram poison dram sound unit payload (by omega) (by omega) ?_ ?_ <;> rw [start] <;> omega

theorem writeRange_storedAt_work {i : Nat} (work : WorkRange a b.length) (within : i < b.length) :
    storedAt a b (a + i) (writeRange a b poison s) := by
  obtain ⟨d, die, r, region, x, rfl, -, share⟩ := work
  have sram := inDram_work (d := d) region (show x < sramShare by omega)
  have unit := mem_touched_work die region share within
  have start := unitStart_work die region (show x + i < sramShare by omega) sram
  have address : modAddr d (sramAddr r x) + i = modAddr d (sramAddr r ((x + i) / 64 * 64)) + (x + i) % 64 := by
    simp only [modAddr, sramAddr]; omega
  refine writeRange_storedAt_sram poison sram sound unit (by omega) (by omega) ?_ ?_ <;> rw [start] <;> omega

/-- R266, R274: every byte of a range within one flat portion, or within a workspace, is there after its write. -/
theorem writeRange_storedAt {sp : Spot} {i : Nat} (inModule : a < 2 ^ 43)
    (lies : rangeSpot s (addrOff a) b.length = some sp) (kind : isFlat sp.portion = true ∨ sp.portion = .sram)
    (within : i < b.length) : storedAt a b (a + i) (writeRange a b poison s) := by
  rcases kind with flat | work
  · exact writeRange_storedAt_flat sound poison (flatRange_of_spot inModule lies flat) within
  · exact writeRange_storedAt_work sound poison (workRange_of_spot inModule lies work) within

end

/-- The portions of the two tiers lie where the plan of the run lays them out. -/
theorem tierPortion_of_besideMem {s t : State} (same : besideMem t = besideMem s) (x : Nat) :
    fastPortion t x = fastPortion s x ∧ slowPortion t x = slowPortion s x := by
  have load : t.loadState = s.loadState := show (besideMem t).loadState = (besideMem s).loadState by rw [same]
  have plan : t.plan = s.plan := show (besideMem t).plan = (besideMem s).plan by rw [same]
  have laid : laidOut t = laidOut s := by rw [laidOut, laidOut, isMember, isMember, load]
  constructor
  · rw [fastPortion, fastPortion, laid, plan]
  · rw [slowPortion, slowPortion, laid, plan]

theorem notTable_of_besideMem {s t : State} (same : besideMem t = besideMem s) {o : Nat}
    (plain : (spotOf s o).portion ≠ .table) : (spotOf t o).portion ≠ .table := by
  by_cases fast : o < 4 * fastShare
  · rw [spotOf_fast fast] at plain ⊢
    rwa [(tierPortion_of_besideMem same _).1]
  by_cases slow : slowBase ≤ o ∧ o < slowBase + 4 * slowShare
  · rw [spotOf_slow slow.1 slow.2] at plain ⊢
    rwa [(tierPortion_of_besideMem same _).2]
  by_cases sram : sramBase ≤ o ∧ o < sramBase + 4 * sramShare
  · rw [spotOf_sram sram.1 sram.2]
    split <;> simp
  · have elsewhere := spotOf_elsewhere (s := t) (o := o) (by omega) (by omega) (by omega)
    intro table
    simp [table] at elsewhere

/-- R93, R94, R265: a read of undamaged memory outside the table area, with nothing cached, gives the bytes that are
there and changes nothing. -/
theorem readRange_plain {a n : Nat} {s : State} (sound : s.mem.damage = []) (lines : s.mem.sramBad = [])
    (uncached : s.place.cache = []) (plain : (spotOf s (addrOff a)).portion ≠ .table) :
    (readRange a n s).1.1 = sgets 0 s.mem.cells a n ∧ (readRange a n s).2 = s := by
  have outside : inTableArea s a = false := by rw [inTableArea, beq_eq_false_iff_ne]; exact plain
  have own : pinnedTwin s a = a := by simp only [pinnedTwin, plain, if_false]
  have read : fixRange a n s = s := by
    simp only [fixRange, sound, lines, List.isEmpty_nil, if_true, ite_self]
  simp only [readRange, outside, Bool.false_eq_true, if_false, readPiece, own, cachedIn, uncached, List.any_nil, read,
    and_self]

theorem portion_plain {sp : Spot} (kind : isFlat sp.portion = true ∨ sp.portion = .sram) : sp.portion ≠ .table := by
  rintro table
  simp [table, isFlat] at kind

/-- Settles O6: each unit that a write goes through takes its part of the string, its codes are kept up beside it, and
the units of a range in one portion cover it. -/
theorem memoryStores : Obligations.MemoryStores := by
  unfold Obligations.MemoryStores
  refine ⟨fun a b poison s x sound out => ?_, fun a b poison s sp i sound inModule lies kind within => ?_,
    fun a b poison s sp sound lines uncached inModule lies kind => ?_,
    fun a n s sp sound lines uncached lies kind => ?_⟩
  · exact (writeRange_stores poison sound).outside out
  · have stored := writeRange_storedAt sound poison inModule lies kind within
    rwa [storedAt, Nat.add_sub_cancel_left] at stored
  · have stores := writeRange_stores (a := a) (b := b) poison sound
    have beside := besideMem_writeRange a b poison s
    have uncachedNow : (writeRange a b poison s).place.cache = [] := by
      rw [show (writeRange a b poison s).place = s.place from
        show (besideMem _).place = (besideMem s).place by rw [beside], uncached]
    obtain ⟨-, here, -⟩ := rangeSpot_some lies
    have plain := notTable_of_besideMem beside (here ▸ portion_plain kind)
    rw [(readRange_plain stores.sound (stores.lines lines) uncachedNow plain).1]
    refine List.ext_getElem (sgets_length ..) fun i inRead within => ?_
    have stored := writeRange_storedAt sound poison inModule lies kind within
    rw [storedAt, Nat.add_sub_cancel_left] at stored
    rw [← getD_within inRead, ← getD_within within, getD_sgets, if_pos within, stored]
  · obtain ⟨-, here, -⟩ := rangeSpot_some lies
    exact readRange_plain sound lines uncached (here ▸ portion_plain kind)

end Sys2Proof.Machine
end

section
/-!
SUPPORT. The units that work on memory by themselves: the parity cache's timer (R267), the Burnisher (R276 to R278), the
check-value unit (R282 to R284) and the Proof sampler (R249).
-/
namespace Sys2Proof.Machine

/-! ## The parity cache (R267, R539) -/

theorem parityWriteback_good {pk : Nat} {d : Nat × Nat} {s : State} (entry : sget none s.mem.pend pk = some d)
    (p : damageOf s (secKey pk 62) = 0) (q : damageOf s (secKey pk 63) = 0)
    (lines : ∀ l ∈ pendLines s pk, sget 0 s.mem.sramBad l = 0) :
    parityWriteback pk s =
      count E.PARITY_WRITEBACKS (setMem { s.mem with pend := sput none s.mem.pend pk none } s) := by
  have read : forEach (pendLines s pk) fixLine s = s := forEach_unchanged fun l m => fixLine_good (lines l m)
  simp only [parityWriteback, read, entry, Option.isNone_some, Bool.false_eq_true, if_false, applyDelta_good p q]

theorem parityWriteback_free {pk : Nat} {s : State} (free : sget none s.mem.pend pk = none) :
    parityWriteback pk s = s := by
  simp only [parityWriteback, free, Option.isNone_none, if_true]

/-! ## The Burnisher (R276 to R278) -/

theorem tier_of_pageCheck {g r : Nat} {us : List Upset} (wf : Instr.wf (.burnisherPageCheck g r us) = true) :
    r % 2 = r := by
  have : r < 2 := by simp [Instr.wf] at wf; omega
  omega

/-- R276: where the Burnisher does not run, no page is checked. -/
theorem burnisherPage_stopped (g r : Nat) {s : State} (stopped : burnisherRuns s = false) :
    burnisherPage g r s = s := by
  simp only [burnisherPage, stopped, Bool.not_false, if_true]

/-- The slice of a region's tier, with the start of its lap set: the first lap begins with the first page. -/
def lapBegun (g r : Nat) (s : State) : Burn :=
  { burnOf s g r with startNs := some ((burnOf s g r).startNs.getD s.lantern.wallNs) }

/-- R277: the page that a slice comes to, checked. -/
def pageChecked (g r : Nat) (s : State) : State :=
  setBurn g r (lapBegun g r s) (checkPage g (pageKey (placeOf (g / 4) r (g % 4)) (lapBegun g r s).page) s)

section
variable {g r : Nat} (tier : r % 2 = r) {s : State} (runs : burnisherRuns s = true)
include tier runs

theorem burnisherPage_last (last : tierPages r ≤ (lapBegun g r s).page + 1) :
    burnisherPage g r s = endLap g r (pageChecked g r s) := by
  rw [lapBegun] at last
  simp only [burnisherPage, runs, tier, Bool.not_true, Bool.false_eq_true, if_false, if_pos last]
  rfl

theorem burnisherPage_more (more : (lapBegun g r s).page + 1 < tierPages r) :
    burnisherPage g r s =
      setBurn g r { lapBegun g r s with page := (lapBegun g r s).page + 1 } (pageChecked g r s) := by
  rw [lapBegun] at more
  simp only [burnisherPage, runs, tier, Bool.not_true, Bool.false_eq_true, if_false, if_neg (Nat.not_le.mpr more)]
  rfl

end

/-- R277: a page none of whose sectors has an error is looked at for stale parity alone. -/
theorem checkPage_undamaged (g : Nat) {pk : Nat} {s : State}
    (good : (s.mem.damage.any fun e => pageOfSec e.1 == pk) = false) :
    checkPage g pk s = if staleOf s pk = (0, 0) then s
      else raiseOnceAt 0x0704 (burnCoord s g) pk (count E.PARITY_REPAIRS (setStale pk (0, 0) s)) := by
  simp only [checkPage, fixPage, good, Bool.false_eq_true, if_false]

@[simp] theorem burnOf_setBurn (g r : Nat) (b : Burn) (s : State) : burnOf (setBurn g r b s) g r = b :=
  sget_sput_same ..

/-- R278: a lap ends with its count, and the next one begins now. -/
theorem burnOf_endLap (g r : Nat) (s : State) :
    ∃ d, burnOf (endLap g r s) g r = { burnOf s g r with
      page := 0, laps := min ((burnOf s g r).laps + 1) (2 ^ 32 - 1), lapS := d, startNs := some s.lantern.wallNs
      alarmed := false } := by
  rw [endLap, burnOf_setBurn]
  exact ⟨_, rfl⟩

theorem lapAlarm_due {g r : Nat} {s : State} (limit : setting s E.BURNISHER_LAP_LIMIT_S ≠ 0)
    (quiet : (burnOf s g r).alarmed = false) (begun : (burnOf s g r).startNs ≠ none) :
    lapAlarm g r s = raiseAt 0x0706 (burnCoord s g) (burnKey g r)
      (count E.BURNISHER_ALARMS (setBurn g r { burnOf s g r with alarmed := true } s)) := by
  have lap : (burnOf s g r).startNs.isNone = false :=
    Option.isNone_eq_false_iff.mpr (Option.isSome_iff_ne_none.mpr begun)
  simp [lapAlarm, limit, quiet, lap]

theorem lapAlarm_again {g r : Nat} {s : State} (alarmed : (burnOf s g r).alarmed = true) : lapAlarm g r s = s := by
  simp [lapAlarm, alarmed]

/-! ## The check-value unit (R282 to R284) -/

/-- R282: a scan that compares nothing and has no result address leaves its value in the dictionary, and ends. -/
theorem runScan_plain {d v : Nat} {c : Scan} {s t : State} (serving : serves s = true)
    (oldest : (scansAt s d).head? = some c) (unstored : c.resultAddr = 0)
    (result : scanResult c (setMem { s.mem with scans := s.mem.scans.erase c } s) = ((v, 0), t)) :
    runScan d s = endPlain c.queue c.index 0
      (setMem { t.mem with lastResult := sput 0 t.mem.lastResult d v, lastStatus := sput 0 t.mem.lastStatus d 0 }
        (count E.CHECK_SCANS t)) := by
  simp only [runScan, serving, if_true, oldest, result, unstored]
  rfl

/-- R29, R284: nothing to run, or a module out of service. -/
theorem runScan_idle {d : Nat} {s : State} (idle : scansAt s d = [] ∨ serves s = false) : runScan d s = s := by
  rcases idle with none | out
  · simp [runScan, none]
  · simp [runScan, out]

/-! ## The Proof sampler (R249) -/

section
variable {g : Nat} {p : ProofTile} {s t : State} (serving : serves s = true)
  (first : (s.watch.proofs.find? fun p => p.region == g) = some p)
include serving first

theorem proofRecompute_gone (gone : gemmJob (gemmOf p.record) p.step
      (setWatch { s.watch with proofs := s.watch.proofs.erase p } s) = (none, t)) :
    proofRecompute g s = count E.PROOF_TILES_SKIPPED t := by
  simp only [proofRecompute, serving, if_true, first, gone]

theorem proofRecompute_binned {j : Job} {rc : Operand} {u : State} {fs : List ExactNum × Tally} {ns : List ExactNum}
    (job : gemmJob (gemmOf p.record) p.step
      (setWatch { s.watch with proofs := s.watch.proofs.erase p } s) = (some j, t))
    (written : loadOperand j.c t = (rc, u))
    (references : tallyAll ((tileElems j p.tileI p.tileJ).map fun e => proofRef j e.1 e.2) = fs)
    (elements : ((tileElems j p.tileI p.tileJ).map fun e => proofNarrow j rc p.down e.1 e.2) = ns)
    (finiteReferences : fs.1.any numNonfinite = false) (finiteElements : ns.any numNonfinite = false)
    (sound : proofPoison j rc p.tileI p.tileJ (tileElems j p.tileI p.tileJ) = false) :
    proofRecompute g s =
      binProof p (proofBin (amaxList ((ns.zip fs.1).map fun x => numSub x.1 x.2)) (amaxList fs.1))
        (countTally fs.2 u) := by
  simp only [proofRecompute, serving, if_true, first, job, written, references, elements, finiteReferences,
    finiteElements, sound, Bool.or_self, Bool.false_eq_true, if_false]

end

/-- Settles O19: each unit's row does what the unit does: an entry written back whole or none there, the next page and
the lap's end, the lap's alarm, the oldest scan, the first tile of the region. -/
theorem memoryUnits : Obligations.MemoryUnits := by
  unfold Obligations.MemoryUnits
  refine ⟨fun pk d s wf entry p q lines => ?_, fun pk s wf free => ?_, fun g r us s t b wf upsets runs slice => ?_,
    fun g r s wf stopped => ?_, fun g pk s good => ?_, fun g r s _ => ?_, fun g r s wf limit quiet begun => ?_,
    fun g r s wf alarmed => ?_, fun d c v s t u wf serving oldest unstored plain result kept => ?_,
    fun d s wf idle => ?_, fun g p s t wf serving first gone => ?_,
    fun g p j rc u s t wf serving first job written => ?_⟩
  · rw [exec_parityFlushExpiry pk s wf, parityFlush, parityWriteback_good entry p q lines]
  · rw [exec_parityFlushExpiry pk s wf, parityFlush, parityWriteback_free free]
  · subst slice
    rw [exec_burnisherPageCheck g r us s wf, upsets]
    exact ⟨fun last => by rw [burnisherPage_last (tier_of_pageCheck wf) runs last]; rfl,
      fun more => by rw [burnisherPage_more (tier_of_pageCheck wf) runs more]; rfl⟩
  · rw [exec_burnisherPageCheck g r [] s wf]
    rw [withUpsets, List.foldl_nil, burnisherPage_stopped g r stopped]
  · rw [checkPage_undamaged g good]
    exact ⟨fun fresh => by rw [if_pos fresh], fun stale => by rw [if_neg stale]⟩
  · obtain ⟨d, lap⟩ := burnOf_endLap g r s
    rw [lap]
    exact ⟨rfl, rfl, rfl, rfl⟩
  · rw [exec_burnisherLapAlarm g r s wf, lapAlarm_due limit quiet begun]
  · rw [exec_burnisherLapAlarm g r s wf, lapAlarm_again alarmed, withQueue_self]
  · rw [exec_checkScanRun d s wf, runScan_plain serving oldest unstored result, kept]
  · rw [exec_checkScanRun d s wf, runScan_idle idle]
  · rw [exec_proofRecompute g s wf, proofRecompute_gone serving first gone]
  · intro es fs ns finiteReferences finiteElements sound
    rw [exec_proofRecompute g s wf,
      proofRecompute_binned serving first job written rfl rfl finiteReferences finiteElements sound]

end Sys2Proof.Machine
end

section
/-!
SUPPORT. Twin repair and the life of a pair (R279, R435, R436, R447, R448, R450): finding a record reads the directory
and no more, a request and an answer are taken in turn, and what a timer or a liveness word brings about follows from
the state of the pair.
-/
namespace Sys2Proof.Machine

/-! ## Finding the record of a key (R97, R265) -/

theorem dirReads_memoryWork (g set table row variant h n : Nat) :
    memoryWork (dirReads g set table row variant h n) := by
  intro s
  induction n generalizing s with
  | zero => rfl
  | succ n ih =>
    simp only [dirReads]
    split
    · exact fixSector_memoryWork _ s
    · split
      · exact fixSector_memoryWork _ s
      · exact (ih _).trans (fixSector_memoryWork _ s)
    · exact (ih _).trans (fixSector_memoryWork _ s)

theorem resolveReads_memoryWork (ts : TableSet) (d : TableDecl) (row variant : Nat) :
    memoryWork (resolveReads ts d row variant) := by
  intro s
  rw [resolveReads]
  split
  · rfl
  · rw [dirRead]
    split
    · rfl
    · exact dirReads_memoryWork _ _ _ _ _ _ _ s

theorem keyRead_memoryWork (k : TargetKey) : memoryWork (keyRead k) := by
  intro s
  simp only [keyRead]
  split
  · exact resolveReads_memoryWork _ _ _ _ s
  · rfl

@[simp] theorem keyRead_loadState (k : TargetKey) (s : State) : (keyRead k s).loadState = s.loadState :=
  show (besideMem (keyRead k s)).loadState = (besideMem s).loadState by rw [keyRead_memoryWork]

@[simp] theorem takeGArrival_loadState (q : GPacket) (s : State) : (takeGArrival q s).loadState = s.loadState := by
  rw [takeGArrival]
  split <;> rfl

/-! ## Requests for a record and their answers (R279, R435) -/

section
variable {p : GPacket} {h m : Nat} {s t u : State} {b : Bytes} {l : List Nat} (performs : gPerforms p s)
  (found : keyRead (keyOf p.data) (takeGArrival p s) = t) (loaded : s.loadState = .loaded)
  (home : keyHome t (keyOf p.data) = some (h, m)) (record : readRecord h 0 (recSectors m) t = ((b, l), u))
include performs found loaded home record

theorem repairRequest_poisoned (poisoned : l.any markPoison = true) :
    repairRequest p s = gAnswer p 0x0702 [] false u := by
  have loadedNow : t.loadState = .loaded := by rw [← found, keyRead_loadState, takeGArrival_loadState, loaded]
  rw [repairRequest, gServe_performs performs]
  simp only [takeGArrival_loadState, loaded, beq_self_eq_true, whenS_true, found, loadedNow, if_true, home, record,
    poisoned]

theorem repairRequest_sound (sound : l.any markPoison = false) (commit : curStation u = 5) :
    repairRequest p s = gAnswer p 0 (imageOf b l) false u := by
  have loadedNow : t.loadState = .loaded := by rw [← found, keyRead_loadState, takeGArrival_loadState, loaded]
  rw [repairRequest, gServe_performs performs]
  simp only [takeGArrival_loadState, loaded, beq_self_eq_true, whenS_true, found, loadedNow, if_true, home, record,
    sound, commit, bne_self_eq_false, Bool.false_and, Bool.false_eq_true, if_false]

end

/-- R339: the response that ends a Guyline request. -/
theorem gResponse_ends {p : GPacket} {r : GReq} {s t : State} (first : precededBy s p = false)
    (response : gIsRequest p = false) (good : gGood p = true) (taken : takeGArrival p s = t)
    (request : findGReq t p.die p.tag = some r) (operation : p.gop = r.packet.gop + 128) (now : p.status ≠ 0x0811) :
    gResponse p s = (.request r p.status p.data p.poison,
      issueWaiting (whenS (failingStatus p.status) gFailed (dropGReq p.die p.tag t))) := by
  have same : (p.gop != r.packet.gop + 128) = false := by simp [operation]
  simp only [gResponse, first, taken, response, good, request, same, now, Bool.not_true, Bool.false_eq_true, if_false]

/-- R279: a record that comes whole in the window of its COMMIT point is written. -/
theorem repairAnswered_written {k : TargetKey} {b : Bytes} {w s : State} {r : Repair} {h : Nat × Nat}
    (found : keyRead k w = s) (wanted : s.mem.repairs.find? (repairIs k) = some r) (home : keyHome s k = some h)
    (commit : curStation s = 5) (whole : b.length = imageLen h.2) {u : State}
    (stored : storeRecord h.1 (imagePayload b) (imageMarks b) (beforeRecordWrite h.1 h.2 (k.kind == 1) s) = u) :
    repairAnswered k 0 b w =
      count E.TWIN_REPAIRS (setRepairs (u.mem.repairs.filter fun x => !(repairIs k x)) u) := by
  simp only [repairAnswered, found, wanted, home, commit, whole, stored, bne_self_eq_false, Bool.or_self,
    Bool.false_eq_true, if_false]

/-! ## Heartbeats (R436, R447) -/

theorem sendHeartbeats_twin (s : State) : (sendHeartbeats s).twin = s.twin :=
  forEach_keeps (·.twin = s.twin) four _ (fun d t same => by split <;> exact same) s rfl

theorem sendHeartbeats_down {s : State} (down : (four.all fun d => (port s (8 + d)).state != .up) = true) :
    sendHeartbeats s = s := by
  refine forEach_unchanged fun d m => if_neg ?_
  simpa using List.all_eq_true.mp down d m

theorem heartbeatTick_quiet {s : State} (quiet : s.twin.reading = false) : heartbeatTick s = sendHeartbeats s := by
  simp only [heartbeatTick, sendHeartbeats_twin, quiet, Bool.false_eq_true, if_false]

/-- R447: the partner's beat is lost. -/
theorem beatLoss_paired {s t : State} (configured : gOpen s = true) (notUnpaired : s.twin.state ≠ .unpaired)
    (notSevered : s.twin.state ≠ .severed)
    (asked : readLiveness (forced s E.TWIN_PEER) .liveness (setTwin { s.twin with beat := none } s) = t) :
    beatLoss s = if inTwinRun t then t else backToTraining t := by
  have peer : forced (setTwin { s.twin with beat := none } s) E.TWIN_PEER = forced s E.TWIN_PEER := rfl
  have alive : (!gOpen s || s.twin.state == .unpaired || s.twin.state == .severed) = false := by
    simp [configured, notUnpaired, notSevered]
  simp only [beatLoss, alive, peer, asked, Bool.false_eq_true, if_false]

/-! ## The partner's liveness word (R447, R448) -/

section
variable {ok : Bool} {w : Nat} {s : State} (run : inTwinRun s = true)
  (together : s.twin.state = .paired ∨ s.twin.state = .copySource ∨ s.twin.state = .copyTarget)
include run together

theorem livenessDecision_live (answered : ok = true) (live : liveIn s w = true) :
    livenessDecision ok w s = if mySide s = 1 then sever s else setTwin { s.twin with reading := true } s := by
  rcases together with state | state | state <;>
    simp only [livenessDecision, state, run, answered, live, Bool.not_true, Bool.and_self, Bool.false_eq_true, if_false,
      if_true]

theorem livenessDecision_dead (dead : ok = false ∨ liveIn s w = false) (notTarget : s.twin.state ≠ .copyTarget) :
    livenessDecision ok w s = failOver s := by
  have silent : (ok && liveIn s w) = false := by rcases dead with h | h <;> simp [h]
  rcases together with state | state | state
  · simp only [livenessDecision, state, run, silent]
    rfl
  · simp only [livenessDecision, state, run, silent]
    rfl
  · exact absurd state notTarget

end

/-- R447: side 1 leaves the pair. -/
theorem sever_state (s : State) : (sever s).twin.state = .severed := by
  rw [sever, leaveService, setModState_twin, recordFault]
  split <;> rfl

/-! ## Probes (R450) -/

theorem probeExpiry_probes {k : Nat} {s : State} (loaded : s.loadState = .loaded) (other : k ≠ myOrder s)
    (member : k < memberCount s)
    (notAwaited : ((myOrders s).any fun o => o != myOrder s && ((ledgerChildren s o).contains k
      || (o == pitchFirst s && (pitchMembers s).contains k))) = false)
    (present : s.plan.paired = false ∨ isLost s k = false) :
    probeExpiry k s = readLiveness (memberModule s k) (.probe k) s := by
  have owes : (s.loadState != .loaded || k == myOrder s || decide (memberCount s ≤ k)) = false := by
    simp [loaded, other, member]
  have asked : (s.plan.paired && isLost s k) = false := by rcases present with h | h <;> simp [h]
  simp only [probeExpiry, owes, notAwaited, asked, Bool.false_eq_true, if_false]

/-- Settles O52: a request is performed and a response ends its request, each once its turn has come; the timers' and
the liveness word's rows turn on the state of the pair, on whether a run goes on, and on the side. -/
theorem twinRepairAndLoss : Obligations.TwinRepairAndLoss := by
  unfold Obligations.TwinRepairAndLoss
  refine ⟨fun i p q h m s t b l u wf path performs found loaded home record => ?_,
    fun i p q r s t wf path first response good taken request operation now repair => ?_,
    fun k b w s r h found wanted home commit whole u stored =>
      repairAnswered_written found wanted home commit whole stored,
    fun s wf quiet => ?_, fun s => sendHeartbeats_down, fun s t configured notUnpaired notSevered asked => ?_,
    fun ok w s wf together run =>
      ⟨fun answered live side => ?_, fun answered live side => ?_, fun dead notTarget => ?_⟩,
    sever_state, fun k s wf loaded other member notAwaited present => ?_, fun m o s => rfl⟩
  · subst path
    rw [exec_repairRequest i p s wf]
    exact ⟨fun poisoned => by rw [repairRequest_poisoned performs found loaded home record poisoned],
      fun sound commit => by rw [repairRequest_sound performs found loaded home record sound commit]⟩
  · subst path
    rw [exec_twinRepairWrite i p s wf, guylineResponse, gResponse_ends first response good taken request operation now]
    simp only [gEnded, repair]
  · rw [exec_heartbeatSendExpiry s wf, heartbeatTick_quiet quiet]
  · rw [exec_twinBeatLoss s rfl, beatLoss_paired configured notUnpaired notSevered asked]
    exact ⟨fun run => by rw [if_pos run], fun alone => by rw [alone, if_neg Bool.false_ne_true]⟩
  · rw [exec_livenessDecision ok w s wf, livenessDecision_live run together answered live, if_pos side]
  · rw [exec_livenessDecision ok w s wf, livenessDecision_live run together answered live, if_neg side]
  · rw [exec_livenessDecision ok w s wf, livenessDecision_dead run together dead notTarget]
  · rw [exec_twinProbeExpiry k s wf, probeExpiry_probes loaded other member notAwaited present]

end Sys2Proof.Machine
end

section
/-!
SUPPORT. Flits on a port that is UP (R296 to R300): what a codeword counts, what a data flit, a control flit and a NAK do
by what the decoder found of them, and what acceptance and acknowledgement leave in the port.
-/
namespace Sys2Proof.Machine

/-- A command whose effect keeps the queue of waiting commands answers its effect. -/
theorem next_withQueue_same {s t : State} (kept : t.pending = s.pending) :
    (.next (withQueue s.pending t) : Host.Outcome State Fault Refusal) = .next t := by
  rw [withQueue_same kept]

/-! ## Codewords (R296) -/

theorem decoded_corrected {i : Nat} {c : Codeword} (few : c.errors ≤ 15) (f : State → State) (s : State) :
    decoded i c f s = f (countFec i c s) :=
  if_neg (Nat.not_lt.mpr few)

theorem decoded_uncorrectable {i : Nat} {c : Codeword} (many : 15 < c.errors) (f : State → State) (s : State) :
    decoded i c f s = countFec i c s :=
  if_pos many

/-- A flit of a codeword that cannot be corrected, or of bad CRC, does nothing more than count its codeword. -/
theorem decoded_discarded {i : Nat} {c : Codeword} {good : Bool} (bad : 15 < c.errors ∨ good = false)
    (f : State → State) (s : State) : decoded i c (whenS good f) s = countFec i c s := by
  by_cases many : 15 < c.errors
  · exact decoded_uncorrectable many _ s
  · rw [decoded_corrected (Nat.not_lt.mp many), bad.resolve_left many, whenS_false]

/-- Counting a codeword changes nothing of a port but its two counters. -/
theorem port_countFec (i : Nat) (c : Codeword) (s : State) : ∃ x y, port (countFec i c s) i =
    { port s i with fecCorrected := x, fecUncorrectable := y } := by
  rw [countFec, port_updPort]
  split
  · exact ⟨_, _, rfl⟩
  · split
    · exact ⟨_, _, rfl⟩
    · exact ⟨_, _, rfl⟩

@[simp] theorem countFec_expect (i : Nat) (c : Codeword) (s : State) :
    (port (countFec i c s) i).expect = (port s i).expect := by
  obtain ⟨x, y, e⟩ := port_countFec i c s
  rw [e]

@[simp] theorem countFec_nakSent (i : Nat) (c : Codeword) (s : State) :
    (port (countFec i c s) i).nakSent = (port s i).nakSent := by
  obtain ⟨x, y, e⟩ := port_countFec i c s
  rw [e]

/-! ## Data flits (R299) -/

/-- A discarded flit of bad CRC is counted. -/
def crcCounted (i : Nat) (s : State) : State :=
  updPort i (fun p => { p with crcErrors := min (p.crcErrors + 1) (2 ^ 32 - 1) }) s

/-- The first flit discarded since an acceptance is answered with a NAK. -/
def nakOnce (i : Nat) (s : State) : State :=
  if (port s i).nakSent then s else sendControl i 2 (updPort i (fun p => { p with nakSent := true }) s)

theorem nakOnce_first {i : Nat} {s : State} (first : (port s i).nakSent = false) :
    nakOnce i s = sendControl i 2 (updPort i (fun p => { p with nakSent := true }) s) := by
  rw [nakOnce, first, if_neg Bool.false_ne_true]

theorem nakOnce_later {i : Nat} {s : State} (later : (port s i).nakSent = true) : nakOnce i s = s := by
  rw [nakOnce, later, if_pos rfl]

@[simp] theorem nakOnce_pending (i : Nat) (s : State) : (nakOnce i s).pending = s.pending := by
  unfold nakOnce
  split <;> rfl

theorem flitReceive_notUp {i : Nat} {s : State} (notUp : (port s i).state ≠ .up) (f : Flit) (c : Codeword) :
    flitReceive i f c s = s :=
  if_pos (bne_iff_ne.mpr notUp)

section
variable {i : Nat} {f : Flit} {c : Codeword} {s : State} (up : (port s i).state = .up)
include up

theorem flitReceive_uncorrectable (many : 15 < c.errors) : flitReceive i f c s = countFec i c s := by
  simp only [flitReceive, up, bne_self_eq_false, Bool.false_eq_true, if_false, decoded_uncorrectable many]

theorem flitReceive_accepted (few : c.errors ≤ 15) (good : f.crc = flitCrc f) (next : f.seq = (port s i).expect) :
    flitReceive i f c s = pumpPort i (acceptFlit i f (takeAck i f.ack (countFec i c s))) := by
  have isGood : (f.crc == flitCrc f) = true := beq_iff_eq.mpr good
  have isNext : (f.seq == (port s i).expect) = true := beq_iff_eq.mpr next
  simp only [flitReceive, up, bne_self_eq_false, Bool.false_eq_true, if_false, decoded_corrected few, countFec_expect,
    isGood, isNext, Bool.and_self, if_true]

theorem flitReceive_outOfOrder (few : c.errors ≤ 15) (good : f.crc = flitCrc f) (other : f.seq ≠ (port s i).expect) :
    flitReceive i f c s = nakOnce i (countFec i c s) := by
  have isGood : (f.crc == flitCrc f) = true := beq_iff_eq.mpr good
  have isOther : (f.seq == (port s i).expect) = false := beq_eq_false_iff_ne.mpr other
  simp only [flitReceive, up, bne_self_eq_false, Bool.false_eq_true, if_false, decoded_corrected few, countFec_expect,
    isGood, isOther, Bool.and_false, if_true, nakOnce]

theorem flitReceive_badCrc (few : c.errors ≤ 15) (bad : f.crc ≠ flitCrc f) :
    flitReceive i f c s = nakOnce i (crcCounted i (countFec i c s)) := by
  have isBad : (f.crc == flitCrc f) = false := beq_eq_false_iff_ne.mpr bad
  have nak : (port (crcCounted i (countFec i c s)) i).nakSent = (port (countFec i c s) i).nakSent := by
    rw [crcCounted, port_updPort]
  simp only [flitReceive, up, bne_self_eq_false, Bool.false_eq_true, if_false, decoded_corrected few, isBad,
    Bool.false_and, nakOnce, nak]
  rfl

end

@[simp] theorem port_deliverFlits (i vc : Nat) (bodies : List Bytes) (j : Nat) (s : State) :
    port (deliverFlits i vc bodies s) j = port s j := by
  unfold deliverFlits
  dsimp only
  split <;> rfl

/-- The bodies of a flit's packet that have come, with its own. -/
def bodiesWith (f : Flit) (p : Port) : List Bytes :=
  if f.first then [f.body] else sget [] p.partials (flitVc f) ++ [f.body]

/-- R299: a port that has accepted a flit: it expects the next SEQ, and owes the next discarded flit a NAK. -/
def flitTaken (f : Flit) (p : Port) : Port :=
  { p with
    expect := (p.expect + 1) % 4096, nakSent := false
    partials := sput [] p.partials (flitVc f) (if f.last then [] else bodiesWith f p) }

/-- A flit has been accepted and counted; nothing is made yet of its packet. -/
def flitStored (i : Nat) (f : Flit) (s : State) : State :=
  setFabric { (setPort i (flitTaken f (port s i)) s).fabric with
    flitsReceived := supd 0 s.fabric.flitsReceived f.vcClass fun n => min (n + 1) (2 ^ 64 - 1) }
    (setPort i (flitTaken f (port s i)) s)

theorem port_flitStored (i : Nat) (f : Flit) (s : State) : port (flitStored i f s) i = flitTaken f (port s i) :=
  port_setPort i _ s

theorem acceptFlit_eq (i : Nat) (f : Flit) (s : State) : acceptFlit i f s =
    if f.last then deliverFlits i (flitVc f) (bodiesWith f (port s i)) (flitStored i f s)
    else whenS (decide (vcBuffers ≤ (bodiesWith f (port s i)).length)) (freeFlits i (flitVc f) 1) (flitStored i f s) := rfl

theorem port_acceptFlit (i : Nat) (f : Flit) (s : State) :
    (port (acceptFlit i f s) i).expect = ((port s i).expect + 1) % 4096 ∧
    (port (acceptFlit i f s) i).nakSent = false := by
  rw [acceptFlit_eq]
  unfold whenS
  split
  · rw [port_deliverFlits, port_flitStored]
    exact ⟨rfl, rfl⟩
  · split
    · rw [freeFlits, port_updPort, port_flitStored]
      exact ⟨rfl, rfl⟩
    · rw [port_flitStored]
      exact ⟨rfl, rfl⟩

theorem acceptFlit_frame (i : Nat) (f : Flit) (s : State) :
    ∃ x l, acceptFlit i f s = { s with fabric := x, twin := { s.twin with arrivals := l } } := by
  rw [acceptFlit_eq]
  unfold whenS deliverFlits
  dsimp only
  split
  · split
    · exact ⟨_, _, rfl⟩
    · exact ⟨_, s.twin.arrivals, rfl⟩
  · split
    · exact ⟨_, s.twin.arrivals, rfl⟩
    · exact ⟨_, s.twin.arrivals, rfl⟩

/-- R300: an ACK leaves in the retry buffer the flits after it. -/
theorem mem_retry_takeAck (i a : Nat) (s : State) (f : Flit) : f ∈ (port (takeAck i a s) i).retry ↔
    f ∈ (port s i).retry ∧ (f.seq + 4096 - a - 1) % 4096 < 2048 := by
  have kept : (port (takeAck i a s) i).retry =
      (port s i).retry.filter fun f => decide ((f.seq + 4096 - a - 1) % 4096 < 2048) := by
    unfold takeAck
    dsimp only
    split
    · rw [port_setPort]
    · next same =>
      exact (List.filter_eq_self.mpr (List.length_filter_eq_length_iff.mp
        (Nat.le_antisymm (List.length_filter_le ..) (Nat.not_lt.mp same)))).symm
  rw [kept, List.mem_filter, decide_eq_true_eq]

/-! ## Control flits (R298, R300) -/

/-- A control flit that is not whole was not corrected, or is of bad CRC. -/
theorem discarded_of_not {c : Control} (bad : ¬(c.word.errors ≤ 15 ∧ c.crcGood = true)) :
    15 < c.word.errors ∨ c.crcGood = false := by
  by_cases many : 15 < c.word.errors
  · exact .inl many
  · exact .inr (Bool.eq_false_iff.mpr fun good => bad ⟨Nat.not_lt.mp many, good⟩)

theorem controlReceive_notUp {i : Nat} {s : State} (notUp : (port s i).state ≠ .up) (c : Control) :
    controlReceive i c s = s :=
  if_pos (bne_iff_ne.mpr notUp)

theorem nakReceive_notUp {i : Nat} {s : State} (notUp : (port s i).state ≠ .up) (c : Control) : nakReceive i c s = s :=
  if_pos (bne_iff_ne.mpr notUp)

section
variable {i : Nat} {c : Control} {s : State} (up : (port s i).state = .up)
include up

theorem controlReceive_good (few : c.word.errors ≤ 15) (good : c.crcGood = true) : controlReceive i c s =
    pumpPort i (takeCredits i c.credits (takeAck i c.ack (countFec i c.word s))) := by
  simp only [controlReceive, up, bne_self_eq_false, Bool.false_eq_true, if_false, decoded_corrected few, good, whenS_true]

theorem controlReceive_discarded (bad : 15 < c.word.errors ∨ c.crcGood = false) :
    controlReceive i c s = countFec i c.word s := by
  simp only [controlReceive, up, bne_self_eq_false, Bool.false_eq_true, if_false, decoded_discarded bad]

theorem nakReceive_good (few : c.word.errors ≤ 15) (good : c.crcGood = true) : nakReceive i c s =
    pumpPort i (replay i c.nakSeq (takeCredits i c.credits (takeAck i c.ack (countFec i c.word s)))) := by
  simp only [nakReceive, up, bne_self_eq_false, Bool.false_eq_true, if_false, decoded_corrected few, good, whenS_true]

theorem nakReceive_discarded (bad : 15 < c.word.errors ∨ c.crcGood = false) :
    nakReceive i c s = countFec i c.word s := by
  simp only [nakReceive, up, bne_self_eq_false, Bool.false_eq_true, if_false, decoded_discarded bad]

theorem controlInterval_up : controlInterval i s = emit (.control i (controlOf s i 0)) s := by
  simp only [controlInterval, up, beq_self_eq_true, if_true, sendControl]

theorem retryExpiry_replays {f : Flit} {fs : List Flit} (oldest : (port s i).retry = f :: fs) :
    retryExpiry i s = replay i f.seq s := by
  simp only [retryExpiry, oldest, up, beq_self_eq_true, if_true]

end

/-- Settles O20: a data flit by its codeword, its CRC and its SEQ, a control flit and a NAK by codeword and CRC; then what
the port counts, expects and keeps. -/
theorem flits : Obligations.Flits := by
  unfold Obligations.Flits
  refine ⟨fun i f c s wf up few good next => ?_, fun i f c s up few good other wf => ?_,
    fun i f c s t up few bad wf counted => ?_, fun i f c s up many wf => ?_,
    fun i c s wf up => ⟨fun few good => ?_, fun bad => ?_⟩, fun i c s wf up => ⟨fun few good => ?_, fun bad => ?_⟩,
    fun i s wf up => ?_, fun i f fs s wf up oldest => ?_, fun i c s => port_updPort i _ s,
    fun i f s => ?_, mem_retry_takeAck⟩
  · rw [exec_dataFlitReceive i f c s wf, flitReceive_accepted up few good next]
  · have done : exec (.dataFlitReceive i f c) s = .next (nakOnce i (countFec i c s)) := by
      rw [exec_dataFlitReceive i f c s wf, flitReceive_outOfOrder up few good other]
      exact next_withQueue_same (nakOnce_pending i _)
    rw [done]
    exact ⟨fun first => by rw [nakOnce_first (by rwa [countFec_nakSent])],
      fun later => by rw [nakOnce_later (by rwa [countFec_nakSent])]⟩
  · have done : exec (.dataFlitReceive i f c) s = .next (nakOnce i t) := by
      rw [exec_dataFlitReceive i f c s wf, flitReceive_badCrc up few bad, ← counted]
      exact next_withQueue_same (nakOnce_pending i _)
    have nak : (port t i).nakSent = (port s i).nakSent := by rw [← counted, port_updPort, countFec_nakSent]
    rw [done]
    exact ⟨fun first => by rw [nakOnce_first (nak.trans first)], fun later => by rw [nakOnce_later (nak.trans later)]⟩
  · rw [exec_dataFlitReceive i f c s wf, flitReceive_uncorrectable up many]
    exact next_withQueue_same rfl
  · rw [exec_controlFlitReceive i c s wf, controlReceive_good up few good]
  · rw [exec_controlFlitReceive i c s wf, controlReceive_discarded up bad]
    exact next_withQueue_same rfl
  · rw [exec_nakReceive i c s wf, nakReceive_good up few good]
  · rw [exec_nakReceive i c s wf, nakReceive_discarded up bad]
    exact next_withQueue_same rfl
  · rw [exec_controlFlitInterval i s wf, controlInterval_up up]
    exact next_withQueue_same rfl
  · rw [exec_linkRetryExpiry i s wf, retryExpiry_replays up oldest]
  · obtain ⟨expect, nakSent⟩ := port_acceptFlit i f s
    obtain ⟨x, l, rest⟩ := acceptFlit_frame i f s
    exact ⟨expect, nakSent, by rw [rest], by rw [rest]⟩

end Sys2Proof.Machine
end

section
/-!
SUPPORT. What the links leave alone (R298 to R304, R307, R337, R338, R436), as three frames, each wider than the one before:
of flits, of a port that trains, and of everything else that the links carry.
-/
namespace Sys2Proof.Machine

/-- The state without what flits change: the fabric, the twin's traffic, and what goes out. -/
def besideFlits (s : State) : State := { s with fabric := {}, twin := {}, outbox := [] }

/-- The state without what a training of a port changes too: which settings of the dictionary are in force. -/
def besideTraining (s : State) : State := { besideFlits s with dict := { s.dict with force := [] } }

/-- The state without what anything on the links changes: counters and events too. -/
def besideLinks (s : State) : State := { besideTraffic s with twin := {} }

section
variable {s t : State}

theorem besideTraining_of_flits (h : besideFlits t = besideFlits s) : besideTraining t = besideTraining s :=
  congrArg (fun u : State => { u with dict := { u.dict with force := [] } }) h

theorem besideLinks_of_training (h : besideTraining t = besideTraining s) : besideLinks t = besideLinks s :=
  show besideLinks (besideTraining t) = besideLinks (besideTraining s) from congrArg besideLinks h

theorem besideLinks_of_flits (h : besideFlits t = besideFlits s) : besideLinks t = besideLinks s :=
  show besideLinks (besideFlits t) = besideLinks (besideFlits s) from congrArg besideLinks h

theorem besideLinks_of_traffic (h : besideTraffic t = besideTraffic s) : besideLinks t = besideLinks s :=
  congrArg (fun u : State => { u with twin := {} }) h

theorem sameRun_of_besideLinks (h : besideLinks t = besideLinks s) : sameRun s t ∧ t.power = s.power :=
  have same {α : Type} (field : State → α) : field (besideLinks t) = field (besideLinks s) := congrArg field h
  ⟨⟨same State.mem, same State.pegs, same State.ridge, same State.loadState, same State.plan, same State.sets,
    same State.tensors, same State.programs, same State.step, same State.holds, same State.place, same State.rowOps,
    same State.gen, same State.rowEng, same State.watch, same State.life⟩, same State.power⟩

theorem frame_of_besideTraining (h : besideTraining t = besideTraining s) :
    sameRun s t ∧ t.power = s.power ∧ t.lantern = s.lantern ∧ t.dict = { s.dict with force := t.dict.force } ∧
      t.host = s.host := by
  obtain ⟨run, power⟩ := sameRun_of_besideLinks (besideLinks_of_training h)
  have same {α : Type} (field : State → α) : field (besideTraining t) = field (besideTraining s) := congrArg field h
  exact ⟨run, power, same State.lantern, same fun u => { u.dict with force := t.dict.force }, same State.host⟩

theorem frame_of_besideFlits (h : besideFlits t = besideFlits s) :
    sameRun s t ∧ t.power = s.power ∧ t.lantern = s.lantern ∧ t.dict = s.dict ∧ t.host = s.host := by
  obtain ⟨run, power⟩ := sameRun_of_besideLinks (besideLinks_of_flits h)
  have same {α : Type} (field : State → α) : field (besideFlits t) = field (besideFlits s) := congrArg field h
  exact ⟨run, power, same State.lantern, same State.dict, same State.host⟩

/-- A command leaves alone what its effect leaves alone, the queue of waiting commands apart. -/
theorem guarded_beside {beside : State → State} (queued : ∀ cs s, beside (withQueue cs s) = withQueue cs (beside s))
    {i : Instr} {f : State → State} (work : beside (f s) = beside s) (h : guarded i f s = .next t) :
    beside t = beside s := by
  rcases guarded_cases h with ⟨-, rfl⟩ | ⟨-, rfl⟩
  · rw [queued, work, ← queued, withQueue_self]
  · rfl

/-- R296: what counting a codeword and acting on its flit keep, the flit keeps. -/
theorem decoded_keeps (P : State → Prop) {i : Nat} {c : Codeword} {f : State → State}
    (counted : P (countFec i c s)) (acts : ∀ u, P u → P (f u)) : P (decoded i c f s) := by
  unfold decoded
  dsimp only
  split
  · exact counted
  · exact acts _ counted

end

/-! ## Flits (R298 to R300, R332) -/

@[simp] theorem besideFlits_emit (o : Out) (s : State) : besideFlits (emit o s) = besideFlits s := rfl
@[simp] theorem besideFlits_setTwin (t : Twin) (s : State) : besideFlits (setTwin t s) = besideFlits s := rfl
@[simp] theorem besideFlits_setPort (i : Nat) (p : Port) (s : State) : besideFlits (setPort i p s) = besideFlits s := rfl
@[simp] theorem besideFlits_updPort (i : Nat) (f : Port → Port) (s : State) :
    besideFlits (updPort i f s) = besideFlits s := rfl
@[simp] theorem besideFlits_countFec (i : Nat) (c : Codeword) (s : State) :
    besideFlits (countFec i c s) = besideFlits s := rfl
@[simp] theorem besideFlits_takeCredits (i : Nat) (cs : List (Nat × Nat)) (s : State) :
    besideFlits (takeCredits i cs s) = besideFlits s := rfl
@[simp] theorem besideFlits_pumpFlits (i : Nat) (l : List Flit) (blocked : List Nat) (s : State) :
    besideFlits (pumpFlits i l blocked s).2 = besideFlits s := by
  induction l generalizing blocked s with
  | nil => rfl
  | cons f l ih =>
    unfold pumpFlits
    dsimp only
    split
    · exact ih _ _
    · exact ih _ _

@[simp] theorem besideFlits_pumpPort (i : Nat) (s : State) : besideFlits (pumpPort i s) = besideFlits s := by
  unfold pumpPort
  split
  · simp
  · rfl

@[simp] theorem besideFlits_takeAck (i a : Nat) (s : State) : besideFlits (takeAck i a s) = besideFlits s := by
  unfold takeAck
  dsimp only
  split <;> rfl

@[simp] theorem besideFlits_acceptFlit (i : Nat) (f : Flit) (s : State) :
    besideFlits (acceptFlit i f s) = besideFlits s := by
  obtain ⟨x, l, e⟩ := acceptFlit_frame i f s
  rw [e]
  rfl

@[simp] theorem besideFlits_nakOnce (i : Nat) (s : State) : besideFlits (nakOnce i s) = besideFlits s := by
  unfold nakOnce
  split <;> rfl

theorem besideFlits_flitReceive (i : Nat) (f : Flit) (c : Codeword) (s : State) :
    besideFlits (flitReceive i f c s) = besideFlits s := by
  by_cases up : (port s i).state = .up
  · by_cases few : c.errors ≤ 15
    · by_cases good : f.crc = flitCrc f
      · by_cases next : f.seq = (port s i).expect
        · simp [flitReceive_accepted up few good next]
        · simp [flitReceive_outOfOrder up few good next]
      · simp [flitReceive_badCrc up few good, crcCounted]
    · simp [flitReceive_uncorrectable up (Nat.lt_of_not_le few)]
  · rw [flitReceive_notUp up]

theorem besideFlits_controlReceive (i : Nat) (c : Control) (s : State) :
    besideFlits (controlReceive i c s) = besideFlits s := by
  by_cases up : (port s i).state = .up
  · by_cases good : c.word.errors ≤ 15 ∧ c.crcGood = true
    · obtain ⟨few, crc⟩ := good
      simp [controlReceive_good up few crc]
    · rw [controlReceive_discarded up (discarded_of_not good), besideFlits_countFec]
  · rw [controlReceive_notUp up]

@[simp] theorem besideFlits_replayFrom (i q : Nat) (s : State) : besideFlits (replayFrom i q s) = besideFlits s := by
  unfold replayFrom
  exact forEach_inv (besideFlits · = besideFlits s) _ _ (fun _ u same => (besideFlits_emit _ u).trans same) s rfl

@[simp] theorem besideFlits_takeArrival (q : Packet) (s : State) : besideFlits (takeArrival q s) = besideFlits s := by
  obtain ⟨f, e⟩ := takeArrival_frame q s
  rw [e]
  rfl

@[simp] theorem besideFlits_dropArrivals (i : Nat) (s : State) : besideFlits (dropArrivals i s) = besideFlits s := by
  unfold dropArrivals
  split <;> rfl

@[simp] theorem besideFlits_dropPort (i : Nat) (s : State) : besideFlits (dropPort i s) = besideFlits s := by
  simp [dropPort]

/-! ## Training (R302 to R305) -/

@[simp] theorem besideTraining_capture (p : Entry → Bool) (s : State) :
    besideTraining (capture p s) = besideTraining s := rfl

@[simp] theorem besideTraining_emit (o : Out) (s : State) : besideTraining (emit o s) = besideTraining s := rfl

@[simp] theorem besideTraining_updPort (i : Nat) (f : Port → Port) (s : State) :
    besideTraining (updPort i f s) = besideTraining s := rfl

@[simp] theorem besideTraining_settleTwin (s : State) : besideTraining (settleTwin s) = besideTraining s := by
  unfold settleTwin
  dsimp only
  split
  · rfl
  · split <;> rfl

@[simp] theorem besideTraining_captureTraining (i : Nat) (s : State) :
    besideTraining (captureTraining i s) = besideTraining s := by
  unfold captureTraining
  dsimp only
  split
  · simp
  · rfl

@[simp] theorem besideTraining_disablePort (i : Nat) (s : State) : besideTraining (disablePort i s) = besideTraining s :=
  besideTraining_of_flits (besideFlits_dropPort i s)

@[simp] theorem besideTraining_startTraining (i : Nat) (s : State) :
    besideTraining (startTraining i s) = besideTraining s := by
  unfold startTraining whenS
  split
  · simp
  · split <;> simp

@[simp] theorem besideTraining_retrain (i : Nat) (s : State) : besideTraining (retrain i s) = besideTraining s := by
  unfold retrain
  split
  · rfl
  · split <;> simp

@[simp] theorem besideTraining_replay (i q : Nat) (s : State) : besideTraining (replay i q s) = besideTraining s := by
  have resent (f : Port → Port) : besideTraining (replayFrom i q (updPort i f s)) = besideTraining s :=
    besideTraining_of_flits (besideFlits_replayFrom i q _)
  unfold replay
  dsimp only
  split <;> simp [resent]

theorem besideTraining_nakReceive (i : Nat) (c : Control) (s : State) :
    besideTraining (nakReceive i c s) = besideTraining s := by
  by_cases up : (port s i).state = .up
  · by_cases good : c.word.errors ≤ 15 ∧ c.crcGood = true
    · obtain ⟨few, crc⟩ := good
      rw [nakReceive_good up few crc, besideTraining_of_flits (besideFlits_pumpPort i _), besideTraining_replay]
      exact besideTraining_of_flits (by simp)
    · rw [nakReceive_discarded up (discarded_of_not good)]
      rfl
  · rw [nakReceive_notUp up]

theorem besideTraining_retryExpiry (i : Nat) (s : State) : besideTraining (retryExpiry i s) = besideTraining s := by
  unfold retryExpiry
  dsimp only
  split
  · rfl
  · split
    · exact besideTraining_replay ..
    · rfl

theorem besideTraining_tryAgain (i : Nat) (s : State) : besideTraining (tryAgain i s) = besideTraining s := by
  unfold tryAgain
  dsimp only
  split
  · split <;> simp
  · rfl

/-! ## Packets, requests and heartbeats (R302, R307, R312, R337, R436) -/

@[simp] theorem besideLinks_returnHeld (i : Nat) (s : State) : besideLinks (returnHeld i s) = besideLinks s :=
  besideLinks_of_traffic (besideTraffic_forEach (fun _ => besideTraffic_returnPacket _ _ _) _ _)

@[simp] theorem besideLinks_raiseAt (c x n : Nat) (s : State) : besideLinks (raiseAt c x n s) = besideLinks s := by
  obtain ⟨d, l, h, b, e⟩ := raiseAt_frame c x n s
  rw [e]
  rfl

@[simp] theorem besideLinks_updPort (i : Nat) (f : Port → Port) (s : State) :
    besideLinks (updPort i f s) = besideLinks s := rfl

@[simp] theorem besideLinks_dropPort (i : Nat) (s : State) : besideLinks (dropPort i s) = besideLinks s :=
  besideLinks_of_flits (besideFlits_dropPort i s)

@[simp] theorem besideLinks_recordReceive (i : Nat) (r : TrainRec) (s : State) :
    besideLinks (recordReceive i r s) = besideLinks s := by
  unfold recordReceive
  dsimp only
  split
  · rfl
  · split
    · simp
    · split <;> rfl

theorem besideLinks_trainReceive (i : Nat) (r : TrainRec) (s : State) :
    besideLinks (trainReceive i r s) = besideLinks s := by
  refine decoded_keeps (besideLinks · = besideLinks s) rfl fun u same => ?_
  rw [besideLinks_recordReceive]
  unfold whenS
  split
  · exact (besideLinks_of_training (besideTraining_retrain i u)).trans same
  · exact same

@[simp] theorem besideTraffic_forwardHop (die : Nat) (h : Hop) (p : Packet) (s : State) :
    besideTraffic (forwardHop die h p s) = besideTraffic s := by
  unfold forwardHop
  dsimp only
  split <;> simp

theorem besideLinks_transit (i : Nat) (p : Packet) (s : State) : besideLinks (transit i p s) = besideLinks s := by
  have taken : besideLinks (takeArrival p s) = besideLinks s := besideLinks_of_flits (besideFlits_takeArrival p s)
  unfold transit
  dsimp only
  split
  · exact (besideLinks_of_traffic (besideTraffic_forwardHop ..)).trans taken
  · refine (besideLinks_of_traffic ?_).trans taken
    rw [besideTraffic_forwardHop, besideTraffic_whenS (besideTraffic_countN _ _)]

theorem besideTraffic_sendFragments (k : Nat) (m : OutMsg) (s : State) :
    besideTraffic (sendFragments k m s) = besideTraffic s := by
  unfold sendFragments
  exact besideTraffic_forEach (fun _ u => besideTraffic_issue _ _ _ _ _ _ _ u) _ s

theorem besideTraffic_backoffExpiry (t : Retry) (s : State) : besideTraffic (backoffExpiry t s) = besideTraffic s := by
  cases t with
  | guyline path tag => rfl
  | request die tag =>
    simp only [backoffExpiry]
    split
    · split
      · rw [besideTraffic_sendRequest]
        rfl
      · rfl
    · rfl
  | message key =>
    simp only [backoffExpiry, resendMsg]
    split
    · split
      · split
        · rw [besideTraffic_sendFragments]
          rfl
        · rfl
      · rfl
    · rfl

theorem besideFlits_gSend (r : GReq) (s : State) : besideFlits (gSend r s) = besideFlits s := by
  unfold gSend
  split
  · simp [gPut]
  · rfl

theorem besideFlits_gBackoff (die tag : Nat) (s : State) : besideFlits (gBackoff die tag s) = besideFlits s := by
  unfold gBackoff
  split
  · split
    · rw [besideFlits_gSend]
      rfl
    · rfl
  · rfl

theorem besideLinks_retryBackoff (t : Retry) (s : State) : besideLinks (retryBackoff t s) = besideLinks s := by
  cases t with
  | guyline path tag => exact besideLinks_of_flits (besideFlits_gBackoff path tag s)
  | request die tag => exact besideLinks_of_traffic (besideTraffic_backoffExpiry (.request die tag) s)
  | message key => exact besideLinks_of_traffic (besideTraffic_backoffExpiry (.message key) s)

@[simp] theorem besideTraffic_sendHeartbeats (s : State) : besideTraffic (sendHeartbeats s) = besideTraffic s :=
  besideTraffic_forEach (fun d t => by split <;> rfl) four s

theorem besideTraffic_heartbeatTick (s : State) : besideTraffic (heartbeatTick s) = besideTraffic s := by
  unfold heartbeatTick readLiveness
  dsimp only
  split <;> simp

/-- Settles O58: each row's effect leaves its frame alone, and so does the row, whether or not a sender can send it. -/
theorem linkFrame : Obligations.LinkFrame := by
  unfold Obligations.LinkFrame
  have flits {c : Instr} {f : State → State} {s t : State} (work : besideFlits (f s) = besideFlits s)
      (h : guarded c f s = .next t) := frame_of_besideFlits (guarded_beside (fun _ _ => rfl) work h)
  have training {c : Instr} {f : State → State} {s t : State} (work : besideTraining (f s) = besideTraining s)
      (h : guarded c f s = .next t) := frame_of_besideTraining (guarded_beside (fun _ _ => rfl) work h)
  have links {c : Instr} {f : State → State} {s t : State} (work : besideLinks (f s) = besideLinks s)
      (h : guarded c f s = .next t) := sameRun_of_besideLinks (guarded_beside (fun _ _ => rfl) work h)
  refine ⟨fun i f c s t => flits (besideFlits_flitReceive i f c s),
    fun i c s t => flits (besideFlits_controlReceive i c s),
    fun i c s t => training (besideTraining_nakReceive i c s),
    fun i s t => training (besideTraining_retryExpiry i s),
    fun i s t => training (besideTraining_retrain i s),
    fun i s t h => ?_, fun die src srcDie tag s t h => ?_,
    fun i r s t => links (besideLinks_trainReceive i r s),
    fun i s t => training (besideTraining_tryAgain i s),
    fun i p s t => links (besideLinks_transit i p s),
    fun r s t => links (besideLinks_retryBackoff r s),
    fun s t => links (besideLinks_of_traffic (besideTraffic_heartbeatTick s))⟩
  · rcases guarded_cases h with ⟨-, rfl⟩ | ⟨-, rfl⟩
    · unfold controlInterval
      split <;> rfl
    · rfl
  · rcases guarded_cases h with ⟨-, rfl⟩ | ⟨-, rfl⟩ <;> rfl

end Sys2Proof.Machine
end

section
/-!
SUPPORT. Training and loss of a port (R302 to R305, R436): what a TRAIN record brings about, how a port starts to train,
comes UP and goes DOWN, and what the traffic of others leaves of its link.
-/
namespace Sys2Proof.Machine

/-! ## Ports -/

theorem sdel_sins {α : Type} {k : Nat} {v : α} {m : Sparse α} (absent : ∀ e ∈ m, e.1 ≠ k) : sdel (sins k v m) k = m := by
  induction m with
  | nil => simp [sins, sdel]
  | cons e m ih =>
    obtain ⟨other, rest⟩ := List.forall_mem_cons.mp absent
    have kept : sdel m k = m := List.filter_eq_self.mpr fun e m => bne_iff_ne.mpr (rest e m)
    have ih := ih rest
    unfold sdel at kept ih ⊢
    unfold sins
    split
    · simp [other, kept]
    · simp [other, ih]

/-- Only the last of what is stored under a key stays. -/
theorem sput_sput {α : Type} [DecidableEq α] (d v w : α) (m : Sparse α) (k : Nat) :
    sput d (sput d m k v) k w = sput d m k w := by
  have gone : sdel (sput d m k v) k = sdel m k := by
    rw [sput]
    split
    · simp [sdel]
    · exact sdel_sins (mem_sdel_ne m k)
  rw [sput, gone, sput]

theorem updPort_updPort (i : Nat) (f g : Port → Port) (s : State) :
    updPort i g (updPort i f s) = updPort i (fun p => g (f p)) s := by
  rw [updPort, port_updPort]
  simp only [updPort, setPort, sput_sput]

theorem portCoord_congr {s t : State} (same : t.dict = s.dict) (i : Nat) : portCoord t i = portCoord s i := by
  simp only [portCoord, ownUnit, myNumber, forced, same]

/-- R305, R320: a fabric port that goes DOWN or is disabled is empty, and so are its input buffers. -/
theorem dropPort_fabric {i : Nat} (fabric : i < 8) (s : State) :
    port (dropPort i s) i = { cleared (port s i) with
      waiting := [], held := [], retraining := false, again := false, resume := false } ∧
    (dropPort i s).fabric.arrivals = s.fabric.arrivals.filter fun e => e.1 != i := by
  have notGuyline : isGuyline i = false := decide_eq_false (Nat.not_le.mpr fabric)
  refine ⟨by rw [dropPort, port_dropArrivals, port_updPort], ?_⟩
  rw [dropPort, dropArrivals, notGuyline]
  rfl

/-! ## Starting to train (R290, R305, R320, R431) -/

@[simp] theorem port_settleTwin (i : Nat) (s : State) : port (settleTwin s) i = port s i := by
  unfold settleTwin
  dsimp only
  split
  · rfl
  · split <;> rfl

theorem port_emit (o : Out) (i : Nat) (s : State) : port (emit o s) i = port s i := rfl

theorem port_setTrained (d : List Nat) (c : Sparse Nat) (i : Nat) (s : State) :
    port (setFabric { s.fabric with trainedDims := d, trainedCoords := c } s) i = port s i := rfl

/-- R290, R320: a training puts the dimensions, the table and the level cap of the port in force, as they are written. -/
theorem port_captureTraining (i : Nat) (s : State) : port (captureTraining i s) i =
    { port s i with dims := writtenDims s, coords := s.dict.coordTable, cap := reg s E.LEVEL_CAP } := by
  unfold captureTraining
  dsimp only
  split
  · rw [port_settleTwin, port_updPort]
    rfl
  · rw [port_setTrained, port_updPort]
    rfl

theorem port_startTraining {i : Nat} {s : State} (trained : trains s i = true) : port (startTraining i s) i =
    { cleared { port s i with dims := writtenDims s, coords := s.dict.coordTable, cap := reg s E.LEVEL_CAP } with
      state := .training, retraining := false, again := false, resume := false } := by
  rw [startTraining, if_pos trained]
  dsimp only
  rw [port_emit, port_updPort, port_captureTraining]

/-- R305: a port that has been DOWN for a second trains again. -/
theorem tryAgain_down {i : Nat} {s : State} (down : (port s i).state = .down) (working : portFaulty s i = false)
    (trained : trains s i = true) :
    tryAgain i s = updPort i (fun p => { p with again := true }) (startTraining i s) := by
  simp only [tryAgain, down, working, port_startTraining trained, beq_self_eq_true, Bool.true_or, Bool.not_false,
    Bool.and_self, if_true]

/-! ## Retraining (R304, R305) -/

theorem retrain_notUp {i : Nat} {s : State} (notUp : (port s i).state ≠ .up) : retrain i s = s :=
  if_pos (bne_iff_ne.mpr notUp)

section
variable {i : Nat} {s : State} (up : (port s i).state = .up)
include up

theorem retrain_trained {t : State} (trained : trains s i = true)
    (kept : updPort i (fun p => { p with
      state := .training, retraining := true, resume := true, replays := 0, selected := 0
      retrains := min (p.retrains + 1) (2 ^ 32 - 1) }) (captureTraining i s) = t) :
    retrain i s = emit (.train i (trainRecord t i 0)) t := by
  subst kept
  simp only [retrain, up, trained, bne_self_eq_false, Bool.not_true, Bool.false_eq_true, if_false]

theorem retrain_untrained (untrained : trains s i = false) : retrain i s = startTraining i s := by
  simp only [retrain, up, untrained, bne_self_eq_false, Bool.not_false, Bool.false_eq_true, if_false, if_true]

end

section
variable {i : Nat} {s : State} (training : (port s i).state = .training)
include training

theorem retrainFailed_again (again : (port s i).again = true) :
    retrainFailed i s = updPort i (fun p => { p with state := .down, again := false }) s := by
  simp only [retrainFailed, training, again, bne_self_eq_false, Bool.false_eq_true, if_false, if_true]

theorem retrainFailed_down (fabric : i < 8) (first : (port s i).again = false)
    (retraining : (port s i).retraining = true) : retrainFailed i s = portDown i s := by
  have notGuyline : ¬8 ≤ i := Nat.not_le.mpr fabric
  simp only [retrainFailed, training, first, retraining, notGuyline, bne_self_eq_false, Bool.not_true,
    Bool.false_eq_true, if_false]

end

/-! ## TRAIN records (R302, R303) -/

@[simp] theorem countFec_state (i : Nat) (c : Codeword) (s : State) :
    (port (countFec i c s) i).state = (port s i).state := by
  obtain ⟨x, y, e⟩ := port_countFec i c s
  rw [e]

/-- A TRAIN record that reaches a port in training is checked. -/
theorem trainReceive_training {i : Nat} {r : TrainRec} {s : State} (training : (port s i).state = .training)
    (few : r.word.errors ≤ 15) : trainReceive i r s = recordReceive i r (countFec i r.word s) := by
  have notUp : (port (countFec i r.word s) i).state ≠ .up := by simp [training]
  rw [trainReceive, decoded_corrected few]
  cases r.selected == 0
  · rfl
  · rw [whenS_true, retrain_notUp notUp]

/-- R312: where no packet is held for a port, none comes back. -/
theorem returnHeld_none {i : Nat} {s : State} (none : (port s i).held = []) :
    returnHeld i s = updPort i (fun q => { q with held := [] }) s := by
  simp only [returnHeld, none, forEach_nil]

theorem dropPort_updHeld (i : Nat) (s : State) :
    dropPort i (updPort i (fun q => { q with held := [] }) s) = dropPort i s := by
  rw [dropPort, updPort_updPort]
  rfl

section
variable {i : Nat} {r : TrainRec} {t : State} (training : (port t i).state = .training)
include training

theorem recordReceive_agreed (passed : trainRefusal t i r = 0) (selected : r.selected ≠ 0) :
    recordReceive i r t = updPort i (fun p => { p with
      peerModule := r.moduleNumber, peerPort := r.port, selected := commonLevel (trainRecord t i 0).levels r.levels
      resume := p.resume && (p.peerModule == r.moduleNumber && p.peerPort == r.port) }) t := by
  simp only [recordReceive, training, passed, selected, bne_self_eq_false, Bool.false_eq_true, if_false]
  rfl

theorem recordReceive_refused (refused : trainRefusal t i r ≠ 0) (none : (port t i).held = []) :
    recordReceive i r t = raiseAt (trainRefusal t i r) (portCoord t i) r.moduleNumber
      (updPort i (fun p => { p with state := .refused, refuse := trainRefusal t i r }) (dropPort i t)) := by
  have fails : (trainRefusal t i r != 0) = true := bne_iff_ne.mpr refused
  obtain ⟨-, -, -, dict, -⟩ := frame_of_besideFlits (besideFlits_dropPort i t)
  simp only [recordReceive, training, fails, bne_self_eq_false, Bool.false_eq_true, if_false, if_true,
    returnHeld_none none, dropPort_updHeld, portCoord_congr dict]

end

/-! ## What traffic leaves of the links -/

/-- Whether a port is UP, and at which level. -/
def linkOf (s : State) (i : Nat) : PortState × Nat := ((port s i).state, (port s i).level)

theorem linkOf_setPort {i : Nat} {p : Port} {s : State} (same : (p.state, p.level) = linkOf s i) (j : Nat) :
    linkOf (setPort i p s) j = linkOf s j := by
  by_cases h : j = i
  · subst h
    rw [linkOf, port_setPort, same]
  · rw [linkOf, port_setPort_other h, linkOf]

theorem linkOf_updPort {i : Nat} {f : Port → Port} (same : ∀ p, ((f p).state, (f p).level) = (p.state, p.level))
    (j : Nat) (s : State) : linkOf (updPort i f s) j = linkOf s j :=
  linkOf_setPort (same (port s i)) j

theorem linkOf_congr {s t : State} (same : t.fabric.ports = s.fabric.ports) (j : Nat) : linkOf t j = linkOf s j := by
  simp only [linkOf, port, same]

theorem linkOf_pumpFlits (i j : Nat) (l : List Flit) (blocked : List Nat) (s : State) :
    linkOf (pumpFlits i l blocked s).2 j = linkOf s j := by
  induction l generalizing blocked s with
  | nil => rfl
  | cons f l ih =>
    unfold pumpFlits
    dsimp only
    split
    · exact ih _ _
    · rw [ih]
      exact (linkOf_congr (s := setPort i _ s) rfl j).trans (linkOf_setPort (by rfl) j)

@[simp] theorem linkOf_pumpPort (i j : Nat) (s : State) : linkOf (pumpPort i s) j = linkOf s j := by
  unfold pumpPort
  split
  · exact (linkOf_updPort (fun _ => by rfl) j _).trans (linkOf_pumpFlits ..)
  · rfl

@[simp] theorem linkOf_putOnPort (i j : Nat) (p : Packet) (s : State) : linkOf (putOnPort i p s) j = linkOf s j := by
  rw [putOnPort, linkOf_pumpPort]
  exact linkOf_updPort (fun _ => by rfl) j _

@[simp] theorem linkOf_takeHop (h : Hop) (j : Nat) (p : Packet) (s : State) : linkOf (takeHop h p s) j = linkOf s j := by
  cases h with
  | here => rfl
  | port i d =>
    unfold takeHop
    dsimp only
    split
    · exact linkOf_updPort (fun _ => by rfl) j _
    · exact linkOf_putOnPort ..

@[simp] theorem linkOf_sendResponse (die j : Nat) (p : Packet) (s : State) :
    linkOf (sendResponse die p s) j = linkOf s j := by
  unfold sendResponse
  dsimp only
  split
  · exact linkOf_takeHop ..
  · rfl

theorem linkOf_raiseOnce (c n j : Nat) (s : State) : linkOf (raiseOnce c n s) j = linkOf s j := by
  obtain ⟨d, l, h, b, e⟩ := raiseOnce_frame c n s
  rw [e]
  rfl

@[simp] theorem linkOf_returnPacket (die j : Nat) (p : Packet) (code : Nat) (s : State) :
    linkOf (returnPacket die p code s) j = linkOf s j := by
  unfold returnPacket
  dsimp only
  split
  · split
    · exact linkOf_sendResponse ..
    · exact (linkOf_sendResponse ..).trans (linkOf_raiseOnce ..)
  · rfl

@[simp] theorem linkOf_releaseHeld (i j : Nat) (s : State) : linkOf (releaseHeld i s) j = linkOf s j := by
  unfold releaseHeld
  refine forEach_inv (linkOf · j = linkOf s j) _ _ (fun p u same => ?_) _ (linkOf_updPort (fun _ => by rfl) j s)
  split
  · exact (linkOf_returnPacket ..).trans same
  · exact (linkOf_putOnPort ..).trans same

@[simp] theorem linkOf_replayFrom (i q j : Nat) (s : State) : linkOf (replayFrom i q s) j = linkOf s j := by
  unfold replayFrom
  exact forEach_inv (linkOf · j = linkOf s j) _ (fun f => emit (.flit i f)) (fun _ _ same => same) s rfl

/-! ## Coming UP (R303, R304) -/

/-- The flits of a resumed port's retry buffer go out again, from the oldest. -/
def replayOldest (i : Nat) (l : List Flit) (s : State) : State :=
  match l with
  | [] => s
  | f :: _ => replayFrom i f.seq s

theorem linkOf_replayOldest (i j : Nat) (l : List Flit) (s : State) : linkOf (replayOldest i l s) j = linkOf s j := by
  cases l with
  | nil => rfl
  | cons f l => exact linkOf_replayFrom ..

theorem besideFlits_replayOldest (i : Nat) (l : List Flit) (s : State) :
    besideFlits (replayOldest i l s) = besideFlits s := by
  cases l with
  | nil => rfl
  | cons f l => exact besideFlits_replayFrom ..

@[simp] theorem besideTraffic_releaseHeld (i : Nat) (s : State) : besideTraffic (releaseHeld i s) = besideTraffic s := by
  unfold releaseHeld
  exact besideTraffic_forEach (fun p u => by split <;> simp) _ _

section
variable {i : Nat} {s : State} (training : (port s i).state = .training) (agreed : (port s i).selected ≠ 0)
include training agreed

/-- R304: a port whose peer is the one of before resumes. -/
theorem trainingDone_resumed (resumes : (port s i).resume = true) :
    trainingDone i s = pumpPort i (replayOldest i (port s i).retry (setPort i { port s i with
      state := .up, level := (port s i).selected, retraining := false, again := false, resume := false } s)) := by
  have done : ((port s i).state == .training && (port s i).selected != 0) = true := by simp [training, agreed]
  simp only [trainingDone, done, resumes, if_true]
  rfl

/-- R305: another one starts from SEQ 0, with full credits. -/
theorem trainingDone_fresh (fresh : (port s i).resume = false) :
    trainingDone i s = releaseHeld i (pumpPort i (setPort i { cleared { port s i with
      state := .up, level := (port s i).selected, retraining := false, again := false, resume := false } with
      level := (port s i).selected, selected := (port s i).selected } (dropArrivals i s))) := by
  have done : ((port s i).state == .training && (port s i).selected != 0) = true := by simp [training, agreed]
  simp only [trainingDone, done, fresh, Bool.false_eq_true, if_true, if_false]

theorem linkOf_trainingDone : linkOf (trainingDone i s) i = (.up, (port s i).selected) := by
  cases resumes : (port s i).resume
  · rw [trainingDone_fresh training agreed resumes, linkOf_releaseHeld, linkOf_pumpPort, linkOf, port_setPort]
    rfl
  · rw [trainingDone_resumed training agreed resumes, linkOf_pumpPort, linkOf_replayOldest, linkOf, port_setPort]

theorem besideLinks_trainingDone : besideLinks (trainingDone i s) = besideLinks s := by
  cases resumes : (port s i).resume
  · rw [trainingDone_fresh training agreed resumes, besideLinks_of_traffic (besideTraffic_releaseHeld i _)]
    exact besideLinks_of_flits (by simp)
  · rw [trainingDone_resumed training agreed resumes]
    exact besideLinks_of_flits (by rw [besideFlits_pumpPort, besideFlits_replayOldest, besideFlits_setPort])

end

/-- Settles O21: each row by the state of its port, and by what the port's record, settings and peer allow. -/
theorem portTraining : Obligations.PortTraining := by
  unfold Obligations.PortTraining
  refine ⟨fun i r s t wf training few counted => ?_, fun i r s wf many => ?_, fun i s t wf up trained kept => ?_,
    fun i s wf up untrained => ?_, fun i s wf training agreed => ?_,
    fun i s wf fabric training first retraining => ?_, fun i s fabric => dropPort_fabric fabric s,
    fun i s wf training again => ?_, fun i s wf down working trained => ?_, fun i s trained => ?_,
    fun i m a b x r s wf configured => ?_⟩
  · have trainingNow : (port t i).state = .training := by rw [← counted, countFec_state, training]
    have pending : t.pending = s.pending := by rw [← counted]; rfl
    have done : exec (.trainFlitReceive i r) s = .next (withQueue s.pending (recordReceive i r t)) := by
      rw [exec_trainFlitReceive i r s wf, trainReceive_training training few, counted]
    rw [done]
    refine ⟨fun passed selected => ?_, fun refused none => ?_⟩
    · rw [recordReceive_agreed trainingNow passed selected]
      exact next_withQueue_same ((updPort_pending ..).trans pending)
    · rw [recordReceive_refused trainingNow refused none]
  · rw [exec_trainFlitReceive i r s wf, trainReceive, decoded_uncorrectable many]
    exact next_withQueue_same rfl
  · rw [exec_codewordLockLoss i s wf, retrain_trained up trained kept]
  · rw [exec_codewordLockLoss i s wf, retrain_untrained up untrained]
  · have link := linkOf_trainingDone training agreed
    obtain ⟨⟨mem, -⟩, -⟩ := sameRun_of_besideLinks (besideLinks_trainingDone training agreed)
    exact ⟨exec_portTrainingDone i s wf, congrArg Prod.fst link, congrArg Prod.snd link, mem⟩
  · rw [exec_retrainTimeout i s wf, retrainFailed_down training fabric first retraining, portDown]
  · rw [exec_retrainTimeout i s wf, retrainFailed_again training again]
  · rw [exec_linkDownRetryExpiry i s wf, trainAgain, tryAgain_down down working trained]
  · rw [port_startTraining trained]
    exact ⟨rfl, rfl, rfl, rfl, rfl⟩
  · rw [exec_heartbeatReceive i m a b x r s wf, heartbeat, configured]
    rfl

end Sys2Proof.Machine
end

section
/-!
SUPPORT. A packet in transit (R307 to R312): it has arrived, goes on by a port, is held for the port's level, or comes back.
-/
namespace Sys2Proof.Machine

theorem forwardHop_passed {die : Nat} {h : Hop} {q : Packet} {s : State} (passed : hopCode s die h q = 0) :
    forwardHop die h q s = takeHop h q s :=
  if_pos passed

theorem forwardHop_refused {die : Nat} {h : Hop} {q : Packet} {s : State} (refused : hopCode s die h q ≠ 0) :
    forwardHop die h q s = returnPacket die q (hopCode s die h q) s :=
  if_neg refused

section
variable {i : Nat} {p q : Packet} {c : Option Nat} {s t : State} (taken : takeArrival p s = t)
  (turns : turned t p i = (q, c))
include taken turns

theorem transit_here (here : nextHop t q c = .here) : transit i p s = forwardHop (i / 2) .here q t := by
  simp only [transit, taken, turns, here]

theorem transit_onward {j : Nat} {d : Bool} (onward : nextHop t q c = .port j d)
    (passed : hopCode t (i / 2) (.port j d) q = 0) :
    transit i p s = forwardHop (i / 2) (.port j d) q (countN E.TRANSIT_FLITS (flitsOf q).length t) := by
  simp only [transit, taken, turns, onward, passed, beq_self_eq_true, whenS_true]

theorem transit_refused {j : Nat} {d : Bool} (onward : nextHop t q c = .port j d)
    (refused : hopCode t (i / 2) (.port j d) q ≠ 0) :
    transit i p s = returnPacket (i / 2) q (hopCode t (i / 2) (.port j d) q) t := by
  have isRefused : (hopCode t (i / 2) (.port j d) q == 0) = false := beq_eq_false_iff_ne.mpr refused
  simp only [transit, taken, turns, onward, isRefused, whenS_false, forwardHop_refused refused]

end

theorem takeHop_known {j : Nat} {s : State} (known : (port s j).state ≠ .training ∨ (port s j).retraining = true)
    (d : Bool) (q : Packet) : takeHop (.port j d) q s = putOnPort j { q with hops := q.hops + 1, dateline := d } s := by
  have goes : ((port s j).state == .training && !(port s j).retraining) = false := by
    rcases known with h | h <;> simp [h]
  simp only [takeHop, goes, Bool.false_eq_true, if_false]

theorem takeHop_held {j : Nat} {s : State} (training : (port s j).state = .training)
    (first : (port s j).retraining = false) (d : Bool) (q : Packet) : takeHop (.port j d) q s =
      updPort j (fun v => { v with held := v.held ++ [{ q with hops := q.hops + 1, dateline := d }] }) s := by
  simp only [takeHop, training, first, beq_self_eq_true, Bool.not_false, Bool.and_self, if_true]

/-- Settles O22: a packet by its next hop and by what refuses it; then a hop onto a port by what is known of its level. -/
theorem packetTransit : Obligations.PacketTransit := by
  unfold Obligations.PacketTransit
  refine ⟨fun i p s q c t wf taken turns => ?_, fun j d q s known => takeHop_known known d q,
    fun j d q s training first => takeHop_held training first d q⟩
  rw [exec_packetTransit i p s wf]
  refine ⟨fun here passed => ?_, fun here refused => ?_, fun j d u onward passed counted passedNow => ?_,
    fun j d onward refused => ?_⟩
  · rw [transit_here taken turns here, forwardHop_passed passed, takeHop]
  · rw [transit_here taken turns here, forwardHop_refused refused]
  · rw [transit_onward taken turns onward passed, counted, forwardHop_passed passedNow]
  · rw [transit_refused taken turns onward refused]

end Sys2Proof.Machine
end

section
/-!
SUPPORT. The one-sided operations at their target (R314, R316 to R318, R321, R363): what each does where nothing refuses it,
and the answer it gives.
-/
namespace Sys2Proof.Machine

/-- R317, R321: a packet carries at most 4,096 bytes. -/
theorem length_of_wfOp {op : Nat} {p : Packet} (wf : wfOp op p = true) : p.data.length ≤ 4096 := by
  simp only [wfOp, wfPacket, Bool.and_eq_true, decide_eq_true_eq] at wf
  exact wf.1.2

/-- R318: an operation that was performed is answered; one that passes no filter leaves nothing there. -/
theorem answerReq_unfiltered (p : Packet) (data : Bytes) (poison : Bool) (s : State) :
    answerReq false p 0 data poison s = respond p 0 data poison s := rfl

/-- R265: where nothing has come about since, an access finds memory as it was. -/
theorem withUpsets_nil (s : State) : withUpsets [] s = s := rfl

section
variable {p : Packet} {s : State}

theorem opRead_passed (eight : p.data.length = 8) (nonempty : 1 ≤ leNat p.data) (limit : leNat p.data ≤ 4096)
    (range : rangeRefusal s (gOff p.address) (leNat p.data) 0x080E = 0)
    (allowed : readRefusal s (gOff p.address) (leNat p.data) = 0) {r : (Bytes × Bool) × State}
    (current : accessRead (modAddr (gDie p.address) (gOff p.address)) (leNat p.data) s = r) :
    opRead p s = ((0, r.1.1, r.1.2), r.2) := by
  have shape : (decide (leNat p.data = 0) || decide (4096 < leNat p.data) || p.data.length != 8) = false := by
    simp only [eight, bne_self_eq_false, Bool.or_false, Bool.or_eq_false_iff, decide_eq_false_iff_not]
    omega
  simp only [opRead, shape, firstCode, range, allowed, current, Bool.false_eq_true, if_true, if_false, bne_self_eq_false]

section
variable (nonempty : 1 ≤ p.data.length) (limit : p.data.length ≤ 4096)
  (range : rangeRefusal s (gOff p.address) p.data.length 0x080E = 0)
  (allowed : writeRefusal s (gDie p.address) (gOff p.address) p.data.length = 0)
include nonempty limit range allowed

theorem opWrite_passed (poison : Bool) : opWrite poison p s = ((0, [], false),
    writeRange (modAddr (gDie p.address) (gOff p.address)) p.data poison
      (whenS poison (countN E.POISON_PROPAGATED
        (touched (modAddr (gDie p.address) (gOff p.address)) p.data.length).length) s)) := by
  have shape : (decide (p.data.length = 0) || decide (4096 < p.data.length)) = false := by
    simp only [Bool.or_eq_false_iff, decide_eq_false_iff_not]
    omega
  simp only [opWrite, shape, firstCode, range, allowed, Bool.false_eq_true, if_true, if_false, bne_self_eq_false]

end

theorem opAtomicAdd_passed (eight : p.data.length = 8) (aligned : gOff p.address % 8 = 0)
    (range : rangeRefusal s (gOff p.address) 8 0x080E = 0)
    (allowed : writeRefusal s (gDie p.address) (gOff p.address) 8 = 0) {r : (Bytes × Bool) × State}
    (old : readRange (modAddr (gDie p.address) (gOff p.address)) 8 s = r) :
    opAtomicAdd p s = ((0, r.1.1, r.1.2), writeRange (modAddr (gDie p.address) (gOff p.address))
      (natLe 8 ((leNat r.1.1 + leNat p.data) % 2 ^ 64)) false r.2) := by
  have shape : (gOff p.address % 8 != 0 || p.data.length != 8) = false := by simp [eight, aligned]
  simp only [opAtomicAdd, shape, firstCode, range, allowed, old, Bool.false_eq_true, if_true, if_false,
    bne_self_eq_false]

theorem opPegSignal_passed (passed : pegOpRefusal s p = 0)
    (ordinary : isRidgePeg (gDie p.address) ((spotOf s (gOff p.address)).off / 64) = false) :
    opPegSignal p s = ((0, [], false), signalPeg (gDie p.address) ((spotOf s (gOff p.address)).off / 64)
      (BitVec.ofNat 64 (leNat p.data)) s) := by
  simp only [opPegSignal, passed, ordinary, bne_self_eq_false, Bool.false_eq_true, if_false]

end

section
variable {p : Packet} {s : State}

section
variable (serving : serves s = true) (own : gModule p.address = myNumber s) (good : endCheckGood p = true)
include serving own good

theorem readRow_performed (eight : p.data.length = 8) (nonempty : 1 ≤ leNat p.data) (limit : leNat p.data ≤ 4096)
    (range : rangeRefusal (taken p s) (gOff p.address) (leNat p.data) 0x080E = 0)
    (allowed : readRefusal (taken p s) (gOff p.address) (leNat p.data) = 0) {r : (Bytes × Bool) × State}
    (current : accessRead (modAddr (gDie p.address) (gOff p.address)) (leNat p.data) (taken p s) = r) :
    readRow p [] (takeArrival p s) = settleRun (respond p 0 r.1.1 r.1.2 r.2) := by
  rw [readRow, withUpsets_nil, serveReq_plain serving own good, opRead_passed eight nonempty limit range allowed current,
    answerReq_unfiltered]

theorem writeRow_performed (nonempty : 1 ≤ p.data.length) (limit : p.data.length ≤ 4096)
    (range : rangeRefusal (taken p s) (gOff p.address) p.data.length 0x080E = 0)
    (allowed : writeRefusal (taken p s) (gDie p.address) (gOff p.address) p.data.length = 0) :
    writeRow p (takeArrival p s) = settleRun (respond p 0 [] false
      (writeRange (modAddr (gDie p.address) (gOff p.address)) p.data false (taken p s))) := by
  rw [writeRow, serveReq_plain serving own good, opWrite_passed nonempty limit range allowed, whenS_false,
    answerReq_unfiltered]

end

section
variable (performed : performs p s)
include performed

theorem poisonedWriteRow_performed (nonempty : 1 ≤ p.data.length) (limit : p.data.length ≤ 4096)
    (range : rangeRefusal (taken p s) (gOff p.address) p.data.length 0x080E = 0)
    (allowed : writeRefusal (taken p s) (gDie p.address) (gOff p.address) p.data.length = 0) :
    poisonedWriteRow p (takeArrival p s) = settleRun (answerReq true p 0 [] false
      (writeRange (modAddr (gDie p.address) (gOff p.address)) p.data true (countN E.POISON_PROPAGATED
        (touched (modAddr (gDie p.address) (gOff p.address)) p.data.length).length (taken p s)))) := by
  rw [poisonedWriteRow, serveReq_performs performed, opWrite_passed nonempty limit range allowed, whenS_true]

theorem atomicAddRow_performed (eight : p.data.length = 8) (aligned : gOff p.address % 8 = 0)
    (range : rangeRefusal (taken p s) (gOff p.address) 8 0x080E = 0)
    (allowed : writeRefusal (taken p s) (gDie p.address) (gOff p.address) 8 = 0) {r : (Bytes × Bool) × State}
    (old : readRange (modAddr (gDie p.address) (gOff p.address)) 8 (taken p s) = r) :
    atomicAddRow p (takeArrival p s) = settleRun (answerReq true p 0 r.1.1 r.1.2
      (writeRange (modAddr (gDie p.address) (gOff p.address))
        (natLe 8 ((leNat r.1.1 + leNat p.data) % 2 ^ 64)) false r.2)) := by
  rw [atomicAddRow, serveReq_performs performed, opAtomicAdd_passed eight aligned range allowed old]

theorem pegSignalRow_performed (passed : pegOpRefusal (taken p s) p = 0)
    (ordinary : isRidgePeg (gDie p.address) ((spotOf (taken p s) (gOff p.address)).off / 64) = false) :
    fabricPegSignalRow p (takeArrival p s) = answerReq true p 0 [] false
      (signalPeg (gDie p.address) ((spotOf (taken p s) (gOff p.address)).off / 64)
        (BitVec.ofNat 64 (leNat p.data)) (taken p s)) := by
  rw [fabricPegSignalRow, serveReq_performs performed, opPegSignal_passed passed ordinary]

end

end

/-- Settles O23: a request of good END_CHECK is performed, READ and WRITE at once and the others once the duplicate filter
has let them pass; what is performed is the operation, as nothing refuses it. -/
theorem oneSidedOperations : Obligations.OneSidedOperations := by
  unfold Obligations.OneSidedOperations
  intro p s serving own good s₀ a n fresh
  have performed : fresh → performs p s := fun ⟨unknown, room⟩ => ⟨serving, own, good, unknown, room⟩
  refine ⟨fun us wf none eight nonempty limit range allowed => ?_, fun wf nonempty range allowed => ?_,
    fun wf f nonempty range allowed => ?_, fun wf f eight aligned range allowed => ?_, fun wf f passed ordinary => ?_⟩
  · subst none
    rw [exec_read p [] s wf, arrive, readRow_performed serving own good eight nonempty limit range allowed rfl]
    rfl
  · rw [exec_write p s wf, arrive, writeRow_performed serving own good nonempty (length_of_wfOp wf) range allowed]
    rfl
  · rw [exec_poisonedWrite p s wf, arrive,
      poisonedWriteRow_performed (performed f) nonempty (length_of_wfOp wf) range allowed]
    rfl
  · rw [exec_atomicAdd p s wf, arrive, atomicAddRow_performed (performed f) eight aligned range allowed rfl]
    rfl
  · rw [exec_fabricPegSignal p s wf, arrive, pegSignalRow_performed (performed f) passed ordinary]
    rfl

end Sys2Proof.Machine
end

section
/-!
SUPPORT. The ends of requests (R334, R336, R337, R339): the first response, the timer, the delay after RETRY_LATER.
-/
namespace Sys2Proof.Machine

section
variable {die tag : Nat} {r : Req} {s : State}

/-- R314, R339: a good response of STATUS 0 ends the request of a command that it answers. -/
theorem responseArrives_ends {p : Packet} {q i : Nat} (response : isRequest p = false) (good : endCheckGood p = true)
    (clean : p.poison = false) (ok : p.status = 0) (outstanding : findReq s die p.tag = some r)
    (answers : p.op = r.packet.op + 128) (owner : r.origin = .command q i) :
    responseArrives die p s = (.request r 0 p.data false,
      issueQueued (dropReq die p.tag (count E.PACKETS_DELIVERED s))) := by
  have known : findReq (count E.PACKETS_DELIVERED s) die p.tag = some r := outstanding
  simp [responseArrives, response, good, known, answers, owner, clean, ok, failingStatus]

section
variable {q i : Nat} (outstanding : findReq s die tag = some r) (sent : r.backoff = false)
  (owner : r.origin = .command q i)
include outstanding sent owner

/-- R336: below the limit a request whose timer elapsed goes out again. -/
theorem requestTimeout_resends (below : r.resends < setting (count E.REQUEST_TIMEOUTS s) E.FABRIC_RETRY_LIMIT) :
    requestTimeout die tag s = (.nothing, sendRequest r.packet
      (updReq die tag (fun r => { r with resends := r.resends + 1 })
        (count E.REQUESTS_RESENT (count E.REQUEST_TIMEOUTS s)))) := by
  simp only [requestTimeout, outstanding, sent, owner, below, if_true, Bool.false_eq_true, if_false]

/-- R336: at the limit it fails. -/
theorem requestTimeout_fails (limit : setting (count E.REQUEST_TIMEOUTS s) E.FABRIC_RETRY_LIMIT ≤ r.resends) :
    requestTimeout die tag s = (.request r 0x0810 [] false, issueQueued (count E.REQUESTS_FAILED
      (dropReq die tag (count E.REQUEST_TIMEOUTS s)))) := by
  simp only [requestTimeout, outstanding, sent, owner, Nat.not_lt.mpr limit, Bool.false_eq_true, if_false]

end

/-- R337: a request that was told RETRY_LATER goes out again when its delay ends. -/
theorem backoffExpiry_resends (outstanding : findReq s die tag = some r) (delayed : r.backoff = true) :
    backoffExpiry (.request die tag) s =
      sendRequest r.packet (updReq die tag (fun r => { r with backoff := false }) s) := by
  simp only [backoffExpiry, outstanding, delayed, if_true]

theorem ended'_nothing (s : State) : ended' .nothing s = s := rfl

/-- The end of a command's request tells the command. -/
theorem ended'_ofCommand {q i : Nat} (owner : r.origin = .command q i) (status : Nat) (data : Bytes) (poison : Bool)
    (s : State) : ended' (.request r status data poison) s =
      noteLoss (gModule r.packet.address) status (cmdProgress q i status s) := by
  simp only [ended', requestEnded, owner]

end

end Sys2Proof.Machine
end

section
/-!
SUPPORT. A message of one fragment (R321 to R325, R340, R536).
-/
namespace Sys2Proof.Machine

/-- R142, R324: a message whose first fragment is its last needs no storage. -/
theorem hasRoom_ofLast {p : Packet} (last : bitAt (preFlags p) 0 = true) (s : State) : hasRoom s p = true := by
  simp only [hasRoom, last, if_true]

/-- R324, R340, R536: the only fragment of a message, of good shape, is the whole message. -/
theorem takeFragment_only {p : Packet} {s : State} (open_ : s.twin.state ≠ .copyTarget) (first : fragOffset p = 0)
    (last : bitAt (preFlags p) 0 = true) (clean : bitAt (preFlags p) 1 = false) (directed : misdirected s p = false)
    (shape : fragmentShape p = true) (new : findAssembly s p = none) :
    takeFragment true p s = (.whole (msgFrom p (fragBody p)), dropAssembly p s) := by
  simp [takeFragment, open_, first, last, clean, directed, shape, new]

/-- R306, R314, R338: a fragment that reaches a module and that no filter holds is taken; the message that it makes whole
is delivered. -/
theorem fragmentReceive_whole {p : Packet} {s t : State} {m : Msg} {room : State → Packet → Bool} (h : performs p s)
    (whole : takeFragment (room (taken p s) p) p (taken p s) = (.whole m, t)) :
    fragmentReceive room p (takeArrival p s) =
      setFabric { t.fabric with delivered := t.fabric.delivered ++ [m] } t := by
  obtain ⟨serving, own, good, unknown, space⟩ := h
  obtain ⟨f, frame⟩ := takeArrival_frame p s
  have inService : outOfService (takeArrival p s) = false := by rw [frame]; exact serves_inService serving
  have serving' : serves (takeArrival p s) = true := by rw [frame]; exact serving
  have own' : (gModule p.address != myNumber (takeArrival p s)) = false := by
    rw [frame]; exact bne_eq_false_iff_eq.mpr own
  have space' := Nat.not_le.mpr space
  unfold taken at unknown space' whole
  simp only [fragmentReceive, inService, serving', own', good, unknown, space', whole, Bool.not_true, Bool.or_self,
    Bool.false_eq_true, if_false]

theorem taken_twin (p : Packet) (s : State) : (taken p s).twin = s.twin := by
  obtain ⟨f, frame⟩ := takeArrival_frame p s
  simp only [taken, frame, count_twin]

end Sys2Proof.Machine
end

section
/-!
PROOF. The ends of requests, and messages made of fragments (R324, R334 to R339).
-/
namespace Sys2Proof.Machine

/-- Settles O24: what ends a request is handed to the command that waits for it, and what else happens to one sends it
again; a fragment that is its whole message is delivered. -/
theorem requestsAndFragments : Obligations.RequestsAndFragments := by
  unfold Obligations.RequestsAndFragments
  refine ⟨fun die p r q i s wf response good clean ok outstanding answers owner => ?_,
    fun die tag r q i s wf outstanding sent owner => ⟨fun below => ?_, fun limit => ?_⟩,
    fun die tag r s wf outstanding delayed => ?_, fun die src sd tag s wf => ?_,
    fun p s wf serving own good => ?_⟩
  · rw [exec_responseReceive _ s wf, responseArrival, responseReceive,
      responseArrives_ends response good clean ok outstanding answers owner, ended'_ofCommand owner]
  · rw [exec_fabricRequestTimeout false die tag s wf, fabricTimeout,
      requestTimeout_resends outstanding sent owner below]
    simp only [ended'_nothing, Bool.false_eq_true, if_false]
  · rw [exec_fabricRequestTimeout false die tag s wf, fabricTimeout, requestTimeout_fails outstanding sent owner limit]
    simp only [ended'_ofCommand owner, Bool.false_eq_true, if_false]
  · rw [exec_retryBackoffExpiry _ s wf, retryBackoff, backoffExpiry_resends outstanding delayed]
  · rw [exec_dupFilterEntryExpiry die src sd tag s wf]
    rfl
  · intro s₀ unknown space open_ first last clean directed shape new
    have notCopying : (taken p s).twin.state ≠ .copyTarget := by rwa [taken_twin]
    have whole : takeFragment (hasRoom (taken p s) p) p (taken p s) =
        (.whole (msgFrom p (fragBody p)), dropAssembly p (taken p s)) := by
      rw [hasRoom_ofLast last, takeFragment_only notCopying first last clean directed shape new]
    refine ⟨_, ?_, rfl⟩
    rw [exec_messageFragmentReceive p s wf, arrive, fragmentReceive_whole ⟨serving, own, good, unknown, space⟩ whole]
    rfl

end Sys2Proof.Machine
end

section
/-!
SUPPORT. What a signal and a set do to the pegs and to the waits on them (R363, R365 to R367).
-/
namespace Sys2Proof.Machine

/-! ## Events raised once -/

theorem raiseOnce_first {c : Nat} {s : State} (first : s.lantern.events.once.contains c = false) (n : Nat) :
    raiseOnce c n s = raise c n (setEvents { s.lantern.events with once := c :: s.lantern.events.once } s) := by
  simp only [raiseOnce, raiseOnceAt, first, Bool.false_eq_true, if_false]
  rfl

theorem raiseOnce_later {c : Nat} {s : State} (later : s.lantern.events.once.contains c = true) (n : Nat) :
    raiseOnce c n s = s :=
  if_pos later

@[simp] theorem raiseOnce_pegs (c n : Nat) (s : State) : (raiseOnce c n s).pegs = s.pegs := by
  obtain ⟨d, l, h, b, frame⟩ := raiseOnce_frame c n s
  rw [frame]

@[simp] theorem raiseOnce_ridge (c n : Nat) (s : State) : (raiseOnce c n s).ridge = s.ridge := by
  obtain ⟨d, l, h, b, frame⟩ := raiseOnce_frame c n s
  rw [frame]

/-! ## What a peg reads (R345) -/

/-- A peg is read off the stored values and the Ridgeline alone. -/
theorem pegValue_congr {s t : State} (values : t.pegs.values = s.pegs.values) (ridge : t.ridge = s.ridge)
    (die peg : Nat) : pegValue t die peg = pegValue s die peg := by
  simp only [pegValue, ridgeRead, values, ridge]

theorem waitHolds_congr {s t : State} (values : t.pegs.values = s.pegs.values) (ridge : t.ridge = s.ridge)
    (w : PegWaitRec) : waitHolds t w = waitHolds s w := by
  simp only [waitHolds, pegValue_congr values ridge]

theorem pegValue_setPegValue_same {die peg : Nat} (ordinary : isRidgePeg die peg = false) (v : W64) (s : State) :
    pegValue (setPegValue die peg v s) die peg = v := by
  simp [pegValue, ordinary, setPegValue]

/-- R345: no ordinary peg is stored where the axis is. -/
theorem pegKey_ne_axisKey {die peg : Nat} (bound : peg < 4096) (ordinary : isRidgePeg die peg = false) :
    axisKey ≠ pegKey die peg := by
  simp only [isRidgePeg, Bool.and_eq_false_iff, beq_eq_false_iff_ne, decide_eq_false_iff_not] at ordinary
  simp only [axisKey, pegKey]
  omega

theorem pegKey_injective {die peg die' peg' : Nat} (bound : peg < 4096) (bound' : peg' < 4096)
    (same : pegKey die' peg' = pegKey die peg) : (die', peg') = (die, peg) := by
  simp only [pegKey] at same
  simp only [Prod.mk.injEq]
  omega

theorem pegValue_setPegValue_other {die peg die' peg' : Nat} (bound : peg < 4096) (bound' : peg' < 4096)
    (other : (die', peg') ≠ (die, peg)) (ordinary : isRidgePeg die peg = false) (v : W64) (s : State) :
    pegValue (setPegValue die peg v s) die' peg' = pegValue s die' peg' := by
  have axisKept : sget 0 (sput 0 s.pegs.values (pegKey die peg) v) axisKey = sget 0 s.pegs.values axisKey :=
    sget_sput_other _ _ _ _ _ (pegKey_ne_axisKey bound ordinary)
  have otherKept : sget 0 (sput 0 s.pegs.values (pegKey die peg) v) (pegKey die' peg') =
      sget 0 s.pegs.values (pegKey die' peg') :=
    sget_sput_other _ _ _ _ _ fun same => other (pegKey_injective bound bound' same)
  simp only [pegValue, ridgeRead, setPegValue, axisKept, otherKept]

/-! ## Releasing waits (R365, R367) -/

/-- What goes on is a command of a queue. -/
theorem releaseWait_frame (w : PegWaitRec) (s : State) : ∃ h, releaseWait w s = { s with host := h } := by
  unfold releaseWait
  split
  · exact ⟨_, rfl⟩
  · exact ⟨_, rfl⟩

/-- R367: the waits whose condition does not hold stay, and commands go on; nothing else changes. -/
theorem releaseWaits_frame (s : State) : ∃ h, releaseWaits s = { s with
    pegs := { s.pegs with waits := s.pegs.waits.filter fun w => !(waitHolds s w) }, host := h } := by
  unfold releaseWaits
  refine forEach_inv (fun t => ∃ h, t = { s with
    pegs := { s.pegs with waits := s.pegs.waits.filter fun w => !(waitHolds s w) }, host := h }) _ _
    (fun w t ⟨h, kept⟩ => ?_) _ ⟨s.host, rfl⟩
  obtain ⟨h', frame⟩ := releaseWait_frame w t
  exact ⟨h', by rw [frame, kept]⟩

@[simp] theorem releaseWaits_values (s : State) : (releaseWaits s).pegs.values = s.pegs.values := by
  obtain ⟨h, frame⟩ := releaseWaits_frame s
  rw [frame]

@[simp] theorem releaseWaits_waits (s : State) :
    (releaseWaits s).pegs.waits = s.pegs.waits.filter fun w => !(waitHolds s w) := by
  obtain ⟨h, frame⟩ := releaseWaits_frame s
  rw [frame]

@[simp] theorem releaseWaits_ridge (s : State) : (releaseWaits s).ridge = s.ridge := by
  obtain ⟨h, frame⟩ := releaseWaits_frame s
  rw [frame]

@[simp] theorem pegValue_releaseWaits (die peg : Nat) (s : State) :
    pegValue (releaseWaits s) die peg = pegValue s die peg :=
  pegValue_congr (releaseWaits_values s) (releaseWaits_ridge s) die peg

@[simp] theorem waitHolds_releaseWaits (w : PegWaitRec) (s : State) : waitHolds (releaseWaits s) w = waitHolds s w :=
  waitHolds_congr (releaseWaits_values s) (releaseWaits_ridge s) w

/-- R365, R367: no wait whose condition holds is left waiting, and none is new. -/
theorem waiting_of_releaseWaits {s : State} {w : PegWaitRec} (waits : w ∈ (releaseWaits s).pegs.waits) :
    waitHolds (releaseWaits s) w = false ∧ w ∈ s.pegs.waits := by
  rw [releaseWaits_waits, List.mem_filter, Bool.not_eq_true'] at waits
  rw [waitHolds_releaseWaits]
  exact waits.symm

/-! ## Signals (R363) -/

section
variable {die peg : Nat} {inc : W64} {s : State}

theorem signalPeg_within (within : (pegValue s die peg).toNat + inc.toNat < 2 ^ 64) : signalPeg die peg inc s =
    releaseWaits (count E.PEG_SIGNALS (setPegValue die peg (pegValue s die peg + inc) s)) := by
  rw [signalPeg, addToPeg, if_neg (Nat.not_le.mpr within)]

theorem signalPeg_wraps (wraps : 2 ^ 64 ≤ (pegValue s die peg).toNat + inc.toNat) : signalPeg die peg inc s =
    releaseWaits (raiseOnce 0x0A14 (pegKey die peg) (count E.PEG_WRAPS (count E.PEG_SIGNALS
      (setPegValue die peg (pegValue s die peg + inc) s)))) := by
  rw [signalPeg, addToPeg, if_pos wraps]

end

/-- The sum is stored, whether or not it wraps; the waits and the Ridgeline are as they were. -/
theorem addToPeg_pegs (die peg : Nat) (inc : W64) (s : State) :
    (addToPeg die peg inc s).pegs = (setPegValue die peg (pegValue s die peg + inc) s).pegs ∧
    (addToPeg die peg inc s).ridge = s.ridge := by
  unfold addToPeg
  dsimp only
  split
  · simp only [raiseOnce_pegs, raiseOnce_ridge, count_pegs, count_ridge, setPegValue_ridge, and_self]
  · simp only [count_pegs, count_ridge, setPegValue_ridge, and_self]

theorem pegValue_signalPeg (die peg : Nat) (inc : W64) (s : State) (die' peg' : Nat) :
    pegValue (signalPeg die peg inc s) die' peg' =
      pegValue (setPegValue die peg (pegValue s die peg + inc) s) die' peg' := by
  obtain ⟨pegs, ridge⟩ := addToPeg_pegs die peg inc s
  rw [signalPeg, pegValue_releaseWaits]
  exact pegValue_congr (congrArg Pegs.values pegs) ridge die' peg'

/-- R363: a signal adds to its peg. -/
theorem pegValue_signalPeg_same {die peg : Nat} (ordinary : isRidgePeg die peg = false) (inc : W64) (s : State) :
    pegValue (signalPeg die peg inc s) die peg = pegValue s die peg + inc := by
  rw [pegValue_signalPeg, pegValue_setPegValue_same ordinary]

/-- R365: what waits after a signal waited before it, for more than the peg now holds. -/
theorem waiting_of_signalPeg {die peg : Nat} {inc : W64} {s : State} {w : PegWaitRec}
    (waits : w ∈ (signalPeg die peg inc s).pegs.waits) :
    waitHolds (signalPeg die peg inc s) w = false ∧ w ∈ s.pegs.waits := by
  obtain ⟨pegs, -⟩ := addToPeg_pegs die peg inc s
  obtain ⟨unmet, waited⟩ := waiting_of_releaseWaits waits
  rw [pegs] at waited
  exact ⟨unmet, waited⟩

end Sys2Proof.Machine
end

section
/-!
SUPPORT. NOP and the peg commands (R363, R365, R366, R378), and the header signal of a command that ends (R376): what
each leaves, by what it finds.
-/
namespace Sys2Proof.Machine

/-! ## The rows -/

section
variable {q i : Nat} {r : Rec64} {s : State}

/-- The start of a command changes its queue alone. -/
theorem begun_pegs : (begun q i r s).pegs = s.pegs := rfl

theorem exec_nop_started (wf : Instr.wf (.nop q i r) = true) (starts : startable q i r s) :
    exec (.nop q i r) s = .next (withQueue s.pending (settleRun (endPlain q i 0 (begun q i r s)))) := by
  obtain ⟨row, opcode⟩ := commandRow_work (op := 0x00) wf starts
  rw [exec_nop q i r s wf, row]
  simp only [commandWork, opcode]

theorem exec_pegSignal_started (wf : Instr.wf (.pegSignal q i r) = true) (starts : startable q i r s) :
    exec (.pegSignal q i r) s = .next (withQueue s.pending (settleRun (pegSignalWork q i r (begun q i r s)))) := by
  obtain ⟨row, opcode⟩ := commandRow_work (op := 0x01) wf starts
  rw [exec_pegSignal q i r s wf, row]
  simp only [commandWork, opcode]

theorem exec_pegWait_started (wf : Instr.wf (.pegWait q i r) = true) (starts : startable q i r s) :
    exec (.pegWait q i r) s = .next (withQueue s.pending (settleRun (pegWaitWork q i r (begun q i r s)))) := by
  obtain ⟨row, opcode⟩ := commandRow_work (op := 0x02) wf starts
  rw [exec_pegWait q i r s wf, row]
  simp only [commandWork, opcode]

theorem exec_pegSet_started (wf : Instr.wf (.pegSet q i r) = true) (starts : startable q i r s) :
    exec (.pegSet q i r) s = .next (withQueue s.pending (settleRun (pegSetWork q i r (begun q i r s)))) := by
  obtain ⟨row, opcode⟩ := commandRow_work (op := 0x03) wf starts
  rw [exec_pegSet q i r s wf, row]
  simp only [commandWork, opcode]

end

/-! ## PEG_SIGNAL (R363, R378) -/

section
variable {q i : Nat} {r : Rec64} {s : State}

theorem pegSignalWork_own (passed : pegSignalRefusal s (rf r 319 256) = 0) (own : gModule (rf r 319 256) = myNumber s) :
    pegSignalWork q i r s = endPlain q i 0 (signalPeg (gDie (rf r 319 256)) ((pegOfAddr (rf r 319 256)).getD 0)
      (BitVec.ofNat 64 (rf r 255 192)) s) := by
  simp only [pegSignalWork, passed, own, bne_self_eq_false, Bool.false_eq_true, if_false, if_true]

theorem pegSignalWork_remote (passed : pegSignalRefusal s (rf r 319 256) = 0)
    (remote : gModule (rf r 319 256) ≠ myNumber s) :
    pegSignalWork q i r s = issue 0 (rf r 319 256) 4 3 (natLe 8 (rf r 255 192)) false (.command q i)
      (updCmd q i (fun c => { c with outstanding := 1 }) s) := by
  simp only [pegSignalWork, passed, remote, bne_self_eq_false, Bool.false_eq_true, if_false]

theorem pegSignalWork_refused {c : Nat} (code : pegSignalRefusal s (rf r 319 256) = c) (refused : c ≠ 0) :
    pegSignalWork q i r s =
      endPlain q i c (whenS (c == 0x0801 || c == 0x080C) (count E.REQUESTS_REFUSED) s) := by
  simp only [pegSignalWork, code, bne_iff_ne.mpr refused, if_true]

/-- R363: a PEG_SIGNAL to a peg of this module, once started, signals it at once. -/
theorem exec_pegSignal_own (wf : Instr.wf (.pegSignal q i r) = true) (starts : startable q i r s)
    (passed : pegSignalRefusal (begun q i r s) (rf r 319 256) = 0) (own : gModule (rf r 319 256) = myNumber s) :
    exec (.pegSignal q i r) s = .next (withQueue s.pending (settleRun (endPlain q i 0
      (signalPeg (gDie (rf r 319 256)) ((pegOfAddr (rf r 319 256)).getD 0) (BitVec.ofNat 64 (rf r 255 192))
        (begun q i r s))))) := by
  rw [exec_pegSignal_started wf starts, pegSignalWork_own passed own]

end

/-! ## PEG_WAIT (R365, R378) -/

section
variable {w : PegWaitRec} {s : State}

theorem peghold_holds (holds : waitHolds s w = true) : peghold w s = (0, count E.PEG_WAITS s) := by
  simp only [peghold, holds, if_true]

theorem peghold_waits (unmet : waitHolds s w = false)
    (room : (s.pegs.waits.filter fun x => x.die == w.die).length < 256) :
    peghold w s = (1, count E.PEG_WAITS { s with pegs := { s.pegs with waits := s.pegs.waits ++ [w] } }) := by
  simp only [peghold, unmet, Nat.not_le.mpr room, Bool.false_eq_true, if_false]

theorem peghold_full (unmet : waitHolds s w = false)
    (full : 256 ≤ (s.pegs.waits.filter fun x => x.die == w.die).length) : peghold w s = (0x0A13, s) := by
  simp only [peghold, unmet, full, Bool.false_eq_true, if_false, if_true]

end

/-- The wait that a PEG_WAIT asks for. -/
def waitOf (q i : Nat) (r : Rec64) : PegWaitRec :=
  { die := pegDie (rf r 143 128), peg := pegNum (rf r 143 128), target := BitVec.ofNat 64 (rf r 255 192)
    cls := rf r 145 144, queue := q, index := i, header := false }

theorem pegWaitWork_eq (q i : Nat) (r : Rec64) (s : State) : pegWaitWork q i r s =
    if (peghold (waitOf q i r) s).1 = 1 then (peghold (waitOf q i r) s).2
    else endPlain q i (peghold (waitOf q i r) s).1 (peghold (waitOf q i r) s).2 := rfl

section
variable {q i : Nat} {r : Rec64} {s : State}

theorem pegWaitWork_holds (holds : waitHolds s (waitOf q i r) = true) :
    pegWaitWork q i r s = endPlain q i 0 (count E.PEG_WAITS s) := by
  rw [pegWaitWork_eq, peghold_holds holds, if_neg Nat.zero_ne_one]

theorem pegWaitWork_waits (unmet : waitHolds s (waitOf q i r) = false)
    (room : (s.pegs.waits.filter fun x => x.die == (waitOf q i r).die).length < 256) :
    pegWaitWork q i r s =
      count E.PEG_WAITS { s with pegs := { s.pegs with waits := s.pegs.waits ++ [waitOf q i r] } } := by
  rw [pegWaitWork_eq, peghold_waits unmet room, if_pos rfl]

theorem pegWaitWork_full (unmet : waitHolds s (waitOf q i r) = false)
    (full : 256 ≤ (s.pegs.waits.filter fun x => x.die == (waitOf q i r).die).length) :
    pegWaitWork q i r s = endPlain q i 0x0A13 s := by
  rw [pegWaitWork_eq, peghold_full unmet full, if_neg (show (0x0A13 : Nat) ≠ 1 by decide)]

end

/-! ## PEG_SET (R366) -/

section
variable {q i : Nat} {r : Rec64} {s : State}

theorem pegSetWork_ridge (ridge : isRidgePeg (pegDie (rf r 143 128)) (pegNum (rf r 143 128)) = true) :
    pegSetWork q i r s = endPlain q i 0x0A12 s := by
  simp only [pegSetWork, ridge, if_true]

section
variable (ordinary : isRidgePeg (pegDie (rf r 143 128)) (pegNum (rf r 143 128)) = false)
include ordinary

theorem pegSetWork_free
    (free : (s.pegs.waits.any fun w => w.die == pegDie (rf r 143 128) && w.peg == pegNum (rf r 143 128)) = false) :
    pegSetWork q i r s = endPlain q i 0 (releaseWaits
      (setPegValue (pegDie (rf r 143 128)) (pegNum (rf r 143 128)) (BitVec.ofNat 64 (rf r 255 192)) s)) := by
  simp only [pegSetWork, ordinary, setPeg, free, Bool.false_eq_true, if_false]

theorem pegSetWork_awaited
    (awaited : (s.pegs.waits.any fun w => w.die == pegDie (rf r 143 128) && w.peg == pegNum (rf r 143 128)) = true) :
    pegSetWork q i r s = endPlain q i 0x0A11 (count E.PEG_SET_REFUSED s) := by
  simp only [pegSetWork, ordinary, setPeg, awaited, Bool.false_eq_true, if_false, if_true]

end

end

/-! ## The header signal (R376) -/

/-- A command that succeeds gives its header signal, and is then recorded. -/
theorem completeCommand_signals {q i d : Nat} {x y : Bool} {c : Cmd} {s : State} (found : findCmd s q i = some c)
    (done : c.phase = .done 0 d x y) (signals : signalEn c.record = true)
    (ordinary : isRidgePeg (pegDie (signalPegOf c.record)) (pegNum (signalPegOf c.record)) = false) :
    completeCommand q i s = settleDisable q (settleRecords q (count E.COMMANDS_COMPLETED
      (signalPeg (pegDie (signalPegOf c.record)) (pegNum (signalPegOf c.record)) 1
        (setPhase q i (.recorded (summaryOf c.record 0 d x y true)) s)))) := by
  have success : succeeded 0 = true := rfl
  have someWork : ((0 : Nat) == 0x0201) = false := rfl
  simp only [completeCommand, found, done, success, signals, ordinary, someWork, Bool.true_or, Bool.and_true,
    Bool.not_false, Bool.not_true, Bool.false_and, whenS_true, whenS_false]

/-- R23, R27: where an offset lies within its share is read off the offset alone; the settings decide the portion. -/
theorem spotOf_off (s t : State) (o : Nat) : (spotOf t o).off = (spotOf s o).off := by
  simp only [spotOf, apply_ite Spot.off]

/-- Settles O7: the sum by what a peg reads after a signal, the wrap by whether its event has been raised, and the three
origins of a signal by their rows. -/
theorem pegSignals : Obligations.PegSignals := by
  unfold Obligations.PegSignals
  refine ⟨fun die peg inc s ordinary => ?_, fun die peg inc s within => signalPeg_within within,
    fun die peg inc s t wraps counted => ?_, fun q i r s wf starts passed own =>
      exec_pegSignal_own wf starts passed own,
    fun q i c d x y s wf found done signals ordinary => ?_, fun p s wf performed passed ordinary => ?_⟩
  · rw [pegValue_signalPeg_same ordinary, BitVec.toNat_add]
  · rw [signalPeg_wraps wraps, counted]
    have once : t.lantern.events.once = s.lantern.events.once := by
      rw [← counted, count_lantern, count_lantern, setPegValue_lantern]
    exact ⟨fun later => by rw [raiseOnce_later (once ▸ later)], fun first => by rw [raiseOnce_first (once ▸ first)]⟩
  · rw [exec_commandComplete q i s wf, completeCommand_signals found done signals ordinary]
  · rw [← spotOf_off s (taken p s)] at ordinary ⊢
    rw [exec_fabricPegSignal p s wf, arrive, pegSignalRow_performed performed passed ordinary]

/-- Settles O35: each command by what its work finds, where the start of the command has changed neither pegs nor waits;
then what a signal leaves of the other pegs and of the waits. -/
theorem pegCommands : Obligations.PegCommands := by
  unfold Obligations.PegCommands
  refine ⟨fun q i r s => exec_nop_started, fun q i r s wf starts passed => ⟨fun own => ?_, fun remote => ?_⟩,
    fun q i r c s wf starts code refused => ?_, fun q i r w s wf starts asked => ?_,
    fun q i r die peg s wf starts dieNamed pegNamed => ?_, fun die peg inc s ordinary => ?_,
    fun die peg die' peg' inc s bound bound' other ordinary => ?_, fun die peg inc s w => waiting_of_signalPeg⟩
  · exact exec_pegSignal_own wf starts passed own
  · rw [exec_pegSignal_started wf starts, pegSignalWork_remote passed remote]
  · rw [exec_pegSignal_started wf starts, pegSignalWork_refused code refused]
  · obtain rfl : w = waitOf q i r := asked
    rw [exec_pegWait_started wf starts]
    exact ⟨fun holds => by rw [pegWaitWork_holds holds],
      fun unmet room => by rw [pegWaitWork_waits unmet room, begun_pegs],
      fun unmet full => by rw [pegWaitWork_full unmet full]⟩
  · subst dieNamed pegNamed
    rw [exec_pegSet_started wf starts]
    exact ⟨fun ordinary free => by rw [pegSetWork_free (s := begun q i r s) ordinary free],
      fun ordinary awaited => by rw [pegSetWork_awaited (s := begun q i r s) ordinary awaited],
      fun ridge => by rw [pegSetWork_ridge ridge]⟩
  · exact pegValue_signalPeg_same ordinary inc s
  · rw [pegValue_signalPeg, pegValue_setPegValue_other bound bound' other ordinary]

end Sys2Proof.Machine
end

section
/-!
SUPPORT. Lantern's own restart, its clock and its event log (R362, R468, R471, R497).
-/
namespace Sys2Proof.Machine

theorem setLantern_setLantern (k l : Lantern) (s : State) : setLantern l (setLantern k s) = setLantern l s := rfl

/-! ## The restart (R362, R468, R471) -/

/-- A fault outside a start and outside recovery takes Lantern alone. -/
theorem lanternFault_alone {s : State} (serving : s.lantern.serving = true) (idle : s.life.start = none)
    (booted : s.life.recovery = false) (unlocked : s.lantern.ptpLocked = false) :
    lanternFault s = setLantern { s.lantern with serving := false, mbxBusy := false } (count E.LANTERN_RESTARTS s) := by
  simp only [lanternFault, serving, ptpLost, unlocked, starting, setLantern_life, count_life, idle, booted,
    Option.isSome_none, Bool.or_self, Bool.not_true, Bool.false_eq_true, if_false, count_lantern]

/-- R468: where the dies have buffered nothing, Lantern begins to serve with a new rate interval only. -/
theorem startServing_unbuffered {s : State} (empty : s.lantern.events.buffered = []) : startServing s =
    setLantern { s.lantern with serving := true, events := { s.lantern.events with inInterval := 0 } } s := by
  simp only [startServing, takeBuffered, setLantern_lantern, empty, List.map_nil, forEach_nil]
  rw [← empty]
  rfl

/-- R471: with no image on trial, a valid active image is booted. -/
theorem bootSelect_active {s : State} (confirmed : s.lantern.fw.trialB = none)
    (valid : fwValid s.lantern.fw s.lantern.fw.activeB = true) :
    bootSelect s = (true, setFw { s.lantern.fw with runningB := s.lantern.fw.activeB } s) := by
  simp only [bootSelect, confirmed, bootActive, valid, if_true]

theorem lanternServing_restarted {s : State} (stopped : s.lantern.serving = false) (powered : s.life.standbyRail = true)
    (idle : s.life.start = none) (running : s.life.startHalted = false) (confirmed : s.lantern.fw.trialB = none)
    (valid : fwValid s.lantern.fw s.lantern.fw.activeB = true) (empty : s.lantern.events.buffered = []) :
    lanternServing s = raise 0x0C18 0 (setLantern { s.lantern with
      serving := true, events := { s.lantern.events with inInterval := 0 }
      fw := { s.lantern.fw with runningB := s.lantern.fw.activeB } } s) := by
  have boots := bootSelect_active (s := setLantern { s.lantern with
    serving := true, events := { s.lantern.events with inInterval := 0 } } s) confirmed valid
  have unblocked : (s.lantern.serving || !s.life.standbyRail || (starting s && !s.life.startHalted)) = false := by
    simp [stopped, powered, starting, idle]
  rw [lanternServing, if_neg (Bool.eq_false_iff.mp unblocked)]
  simp only [startServing_unbuffered empty, boots, raise_life, setFw, setLantern_life, setLantern_lantern,
    setLantern_setLantern, running, Bool.not_true, Bool.false_eq_true, if_false]

/-! ## The event log (R497) -/

/-- A flash write finds room for every record. -/
theorem flushEvents_room {s : State} (room : s.lantern.events.records.length ≤ 262144) :
    flushEvents s = setEvents { s.lantern.events with unflushed := 0 } s := by
  simp only [flushEvents, if_neg (Nat.not_lt.mpr room)]

/-! ## The clock (R362) -/

/-- What a message of the module's domain asks of its sender: a synchronisation message, for the delay. -/
def delayAsked (m : PtpMsg) (s : State) : State := whenS m.sync (emit (.ptpDelayRequest m.domain)) s

@[simp] theorem delayAsked_lantern (m : PtpMsg) (s : State) : (delayAsked m s).lantern = s.lantern := by
  unfold delayAsked whenS
  split <;> rfl

@[simp] theorem delayAsked_pending (m : PtpMsg) (s : State) : (delayAsked m s).pending = s.pending :=
  whenS_pending _ _ (emit_pending _) s

section
variable {m : PtpMsg} {s : State}

theorem ptpMessage_otherDomain (other : m.domain ≠ setting s E.PTP_DOMAIN) (o : Int) (k : Bool) :
    ptpMessage m o k s = s := by
  simp only [ptpMessage, bne_iff_ne.mpr other, Bool.or_true, if_true]

section
variable (serving : s.lantern.serving = true) (own : m.domain = setting s E.PTP_DOMAIN) (o : Int)
include serving own

theorem ptpMessage_locked : ptpMessage m o true s = setLantern { s.lantern with
    wallNs := m.wallNs % 2 ^ 64, ptpOffset := o, ptpLocked := true } (delayAsked m s) := by
  have answered : (!s.lantern.serving || m.domain != setting s E.PTP_DOMAIN) = false := by simp [serving, own]
  rw [ptpMessage, if_neg (Bool.eq_false_iff.mp answered), ← delayAsked]
  simp only [setLantern_lantern, setLantern_setLantern, delayAsked_lantern, if_true]

/-- A message that does not lock a clock without lock raises no event. -/
theorem ptpMessage_unlocked (unlocked : s.lantern.ptpLocked = false) : ptpMessage m o false s = setLantern
    { s.lantern with wallNs := m.wallNs % 2 ^ 64, ptpOffset := o } (delayAsked m s) := by
  have answered : (!s.lantern.serving || m.domain != setting s E.PTP_DOMAIN) = false := by simp [serving, own]
  rw [ptpMessage, if_neg (Bool.eq_false_iff.mp answered), ← delayAsked]
  simp only [ptpLost, setLantern_lantern, delayAsked_lantern, unlocked, Bool.false_eq_true, if_false]

end

end

theorem ptpLost_locked {s : State} (locked : s.lantern.ptpLocked = true) :
    ptpLost s = raise 0x0A15 0 (setLantern { s.lantern with ptpLocked := false } s) :=
  if_pos locked

/-- Settles O17: a restart by what Lantern finds, a message of the clock by its domain and the lock; none of them touches
the queue of waiting commands. -/
theorem lanternRestartAndClock : Obligations.LanternRestartAndClock := by
  unfold Obligations.LanternRestartAndClock
  refine ⟨fun s serving idle booted unlocked => ?_, fun s stopped powered idle running confirmed valid empty => ?_,
    fun s => ?_, fun s room => ?_, fun m o s wf serving own => ?_, fun m o s wf serving own unlocked => ?_,
    fun m o k s wf other => ?_, fun s locked => ?_⟩
  · rw [exec_lanternFault s rfl, lanternFault_alone serving idle booted unlocked]
    exact next_withQueue_same (by rw [setLantern_pending, count_pending])
  · rw [exec_lanternServing s rfl, lanternServing_restarted stopped powered idle running confirmed valid empty]
    exact next_withQueue_same (by rw [raise_pending, setLantern_pending])
  · rw [exec_eventRateInterval s rfl]
    exact next_withQueue_same rfl
  · rw [exec_eventLogFlashWrite s rfl, flushEvents_room room]
    exact next_withQueue_same rfl
  · rw [exec_ptpMessage m o true s wf, ptpMessage_locked serving own]
    exact next_withQueue_same (delayAsked_pending m s)
  · rw [exec_ptpMessage m o false s wf, ptpMessage_unlocked serving own o unlocked]
    exact next_withQueue_same (delayAsked_pending m s)
  · rw [exec_ptpMessage m o k s wf, ptpMessage_otherDomain other]
    exact next_withQueue_same rfl
  · rw [exec_ptpUnlocked s rfl, ptpLost_locked locked]
    exact next_withQueue_same (by rw [raise_pending, setLantern_pending])

end Sys2Proof.Machine
end

section
/-!
SUPPORT. The Ridgeline's signals and rounds (R345, R347 to R349, R361): the axis, readiness, and what a signal of the
source is answered.
-/
namespace Sys2Proof.Machine

/-! ## Signals of other modules (R345) -/

theorem taken_ridge (p : Packet) (s : State) : (taken p s).ridge = s.ridge := by
  obtain ⟨f, frame⟩ := takeArrival_frame p s
  simp only [taken, frame, count_ridge]

section
variable {p : Packet} {s : State} (performed : performs p s)
include performed

/-- R357, R360: a signal that only the source may send is taken from it. -/
theorem sourceSignal_taken (source : p.srcModule = s.ridge.source) (f : Nat → State → State) :
    sourceSignal p f (takeArrival p s) = answerReq true p 0 [] false (f (leNat p.data) (taken p s)) := by
  rw [sourceSignal, memberSignal_performs performed, if_pos (by rw [taken_ridge]; exact source)]

/-- R345: it is refused from any other module. -/
theorem sourceSignal_refused (other : p.srcModule ≠ s.ridge.source) (f : Nat → State → State) :
    sourceSignal p f (takeArrival p s) =
      answerReq true p 0x0A07 [] false (count E.RIDGE_SOURCE_REFUSALS (taken p s)) := by
  rw [sourceSignal, memberSignal_performs performed, if_neg (by rw [taken_ridge]; exact other)]

end

/-! ## The axis (R345) -/

theorem axis_congr {s t : State} (values : t.pegs.values = s.pegs.values) : axis t = axis s := by
  simp only [axis, values]

@[simp] theorem axis_count (k : Nat) (s : State) : axis (count k s) = axis s := axis_congr (by rw [count_pegs])

theorem axis_setPegValue {v : Nat} (fits : v < 2 ^ 64) (s : State) :
    axis (setPegValue 0 4095 (BitVec.ofNat 64 v) s) = v := by
  have stored : sget 0 (sput 0 s.pegs.values axisKey (BitVec.ofNat 64 v)) axisKey = BitVec.ofNat 64 v :=
    sget_sput_same _ _ _ _
  show (sget 0 (sput 0 s.pegs.values axisKey (BitVec.ofNat 64 v)) axisKey).toNat = v
  rw [stored, BitVec.toNat_ofNat, Nat.mod_eq_of_lt fits]

@[simp] theorem updKeeper_pegs (f : Keeper → Keeper) (s : State) : (updKeeper f s).pegs = s.pegs := rfl

theorem openStandby_pegs (v : Nat) (s : State) : (openStandby v s).pegs = s.pegs := by
  unfold openStandby
  split
  · split
    · rfl
    · split
      · split <;> rfl
      · rfl
  · rfl

/-- The peg as an AXIS signal leaves it, before what else the value brings about. -/
def axisRaised (v : Nat) (s : State) : State :=
  if decide (axis s < v) then count E.RIDGE_POINTS_SEEN (setPegValue 0 4095 (BitVec.ofNat 64 v) s) else s

theorem axis_axisRaised {v : Nat} (fits : v < 2 ^ 64) (s : State) : axis (axisRaised v s) = max (axis s) v := by
  unfold axisRaised
  by_cases rises : axis s < v
  · rw [if_pos (decide_eq_true rises), axis_count, axis_setPegValue fits,
      Nat.max_eq_right (Nat.le_of_lt rises)]
  · rw [if_neg (by simpa using rises), Nat.max_eq_left (Nat.not_lt.mp rises)]

/-- What else the value brings about: the module follows, its standby state goes on, and a new standby takes on its
role. -/
def axisFollowed (v : Nat) (rises : Bool) (s : State) : State :=
  let s := if s.ridge.state == .waiting then setRidge { s.ridge with state := .following } s else s
  let s := if s.ridge.state == .standby && rises then updKeeper (pointReached v) s else s
  whenS (v % 8 == 0 && rises) (openStandby v) s

theorem axisTake_eq (v : Nat) (s : State) : axisTake v s =
    (decide (axis s < v), releaseWaits (axisFollowed v (decide (axis s < v)) (axisRaised v s))) := rfl

theorem pegs_ite {c : Prop} [Decidable c] {s t : State} (kept : t.pegs = s.pegs) :
    (if c then t else s).pegs = s.pegs := by
  split
  · exact kept
  · rfl

theorem axisFollowed_pegs (v : Nat) (rises : Bool) (s : State) : (axisFollowed v rises s).pegs = s.pegs :=
  (pegs_ite (openStandby_pegs v _)).trans ((pegs_ite (updKeeper_pegs _ _)).trans (pegs_ite (setRidge_pegs _ s)))

theorem axis_axisTake {v : Nat} (fits : v < 2 ^ 64) (s : State) : axis (axisTake v s).2 = max (axis s) v := by
  rw [axisTake_eq, axis_congr (releaseWaits_values _),
    axis_congr (congrArg Pegs.values (axisFollowed_pegs _ _ _)), axis_axisRaised fits]

/-- The point of an AXIS signal of the source: events of earlier points that still wait take place first. -/
def axisArrives (v : Nat) (s : State) : Bool × State := axisTake v (if axis s < v then boundNow s else s)

section
variable {p : Packet} {s : State} (performed : performs p s)
include performed

theorem axisSignal_refused (other : s.ridge.source ≠ p.srcModule) : axisSignal p (takeArrival p s) =
    settleRun (answerReq true p 0x0A07 [] false (count E.RIDGE_SOURCE_REFUSALS (taken p s))) := by
  have refused : (p.srcModule != (taken p s).ridge.source) = true := by
    rw [taken_ridge]
    exact bne_iff_ne.mpr (Ne.symm other)
  rw [axisSignal, serveReq_performs performed, if_pos refused]

section
variable (source : s.ridge.source = p.srcModule)
include source

/-- A signal of the source is answered with 0, and brings the events of its point where the axis rises and a timekeeper
is followed. -/
theorem axisSignal_taken : axisSignal p (takeArrival p s) = settleRun (answerReq true p 0 [] false
    (if (axisArrives (leNat p.data) (taken p s)).1 && s.ridge.state != .noKeeper
      then stationEvents (leNat p.data) (axisArrives (leNat p.data) (taken p s)).2
      else (axisArrives (leNat p.data) (taken p s)).2)) := by
  have fromSource : ¬(p.srcModule != (taken p s).ridge.source) = true := by
    rw [taken_ridge, source, bne_self_eq_false]
    exact Bool.false_ne_true
  rw [axisSignal, serveReq_performs performed, if_neg fromSource]
  dsimp only
  rw [taken_ridge, ← axisArrives]

theorem axisSignal_rises (rises : (axisArrives (leNat p.data) (taken p s)).1 = true)
    (kept : s.ridge.state ≠ .noKeeper) :
    axisSignal p (takeArrival p s) = settleRun (answerReq true p 0 [] false
      (stationEvents (leNat p.data) (axisArrives (leNat p.data) (taken p s)).2)) := by
  rw [axisSignal_taken performed source, rises, Bool.true_and, if_pos (bne_iff_ne.mpr kept)]

theorem axisSignal_stands (stands : (axisArrives (leNat p.data) (taken p s)).1 = false) :
    axisSignal p (takeArrival p s) = settleRun (answerReq true p 0 [] false
      (axisArrives (leNat p.data) (taken p s)).2) := by
  rw [axisSignal_taken performed source, stands, Bool.false_and, if_neg Bool.false_ne_true]

end

end

/-! ## Readiness (R348, R355) -/

theorem readyReport_ready {v : Nat} {s : State} (pending : nextPoint (axis s) = v) (member : takesPart s = true)
    (first : s.ridge.reported ≠ some v) (ready : readyFor v (beforeReport v s) = true) :
    readyReport s = report v (beforeReport v s) := by
  have due : (!takesPart s || s.ridge.reported == some v) = false := by simp [member, first]
  rw [readyReport, pending]
  simp only [due, ready, Bool.false_eq_true, if_false, if_true]

/-- A report of the pending point by a participant is its latest. -/
theorem takeReady_pending {m v : Nat} {s : State} (keeps : keepsState s = true)
    (pending : nextPoint s.ridge.keeper.point = v)
    (participant : (s.ridge.keeper.participants.any fun p => p.moduleNumber == m) = true) :
    takeReady m v s = releaseWaits (tryAdvance (updKeeper (fun k =>
      { k with reports := (s.ridge.keeper.reports.filter fun r => r.1 != m) ++ [(m, v)] }) s)) := by
  simp only [takeReady, keeps, participant, pending, decide_true, Bool.true_or, Bool.not_true, Bool.false_eq_true,
    if_false, if_true]

theorem tryAdvance_due {v : Nat} {s : State} (pending : nextPoint s.ridge.keeper.point = v) (keeper : isKeeper s = true)
    (reported : allReported s.ridge.keeper = true) (unblocked : runBlocks s.ridge.keeper v = false) :
    tryAdvance s = axisRound v (updKeeper (pointReached v) s) := by
  simp only [tryAdvance, pending, keeper, reported, unblocked, Bool.not_false, Bool.and_self, if_true]

theorem tryAdvance_idle {s : State} (idle : isKeeper s = false ∨ allReported s.ridge.keeper = false) :
    tryAdvance s = s := by
  rcases idle with other | awaited <;> simp [tryAdvance, *]

theorem beat_keeper {s : State} (keeper : isKeeper s = true) :
    beat s = axisRound s.ridge.keeper.point { s with ridge := { s.ridge with takeover := false } } :=
  if_pos keeper

/-- Settles O47: an AXIS signal by its sender and by whether the axis rises; a report by who takes it; an advance by
whether it is due. -/
theorem axisAndReadiness : Obligations.AxisAndReadiness := by
  unfold Obligations.AxisAndReadiness
  refine ⟨fun p s wf performed source => ?_, fun p s wf performed other => ?_, fun v s => rfl,
    fun v s fits => axis_axisTake fits s, fun v s pending member first ready => ?_, fun p s wf performed => ?_,
    fun m v s => takeReady_pending, fun v s => tryAdvance_due, fun s => tryAdvance_idle, fun s keeper => ?_⟩
  · rw [exec_axisSignal p s wf, arrive]
    exact ⟨fun rises kept => by rw [axisSignal_rises performed source rises kept, axisArrives],
      fun stands => by rw [axisSignal_stands performed source stands, axisArrives]⟩
  · rw [exec_axisSignal p s wf, arrive, axisSignal_refused performed other]
  · rw [exec_readyReport s rfl, readyReport_ready pending member first ready]
  · rw [exec_readySignal p s wf, arrive, readySignal, memberSignal_performs performed]
  · rw [exec_beatExpiry s rfl, beat_keeper keeper]

end Sys2Proof.Machine
end

section
/-!
SUPPORT. Joining and leaving the Ridgeline, exclusion and admission (R351 to R353, R357, R360).
-/
namespace Sys2Proof.Machine

/-! ## Joining (R351, R352) -/

theorem takeJoinStep_kept {s : State} (keeps : keepsState s = true) (m v : Nat) :
    takeJoinStep m v s =
      updKeeper (fun k => { k with joinSteps := (k.joinSteps.filter fun j => j.1 != m) ++ [(m, v)] }) s :=
  if_pos keeps

section
variable {m i n : Nat} {s : State} (keeps : keepsState s = true)
  (fresh : (s.ridge.keeper.participants.any fun p => p.runId == i) = false)
include keeps fresh

/-- R352: a JOIN of a module that has given no S0. -/
theorem takeJoin_stepless (stepless : (s.ridge.keeper.joinSteps.find? fun j => j.1 == m) = none) :
    takeJoin m i n s = (0x0A08, releaseWaits s) := by
  simp only [takeJoin, recordJoin, keeps, fresh, stepless, Bool.not_true, Bool.false_eq_true, if_false]

section
variable {j : Nat × Nat} (step : (s.ridge.keeper.joinSteps.find? fun j => j.1 == m) = some j)
  (first : (s.ridge.keeper.runs.find? fun r => r.runId == i) = none)
include step first

/-- R352: the point before S0 has passed. -/
theorem takeJoin_late (late : axisOf (j.2 - 1) 5 ≤ s.ridge.keeper.point) :
    takeJoin m i n s = (0x0A03, releaseWaits s) := by
  simp only [takeJoin, recordJoin, keeps, fresh, step, first, late, Bool.not_true, Bool.false_eq_true, if_false,
    if_true]

/-- R352: a run of more members than the first is registered, and awaits the others. -/
theorem takeJoin_registers (steps : s.ridge.keeper.participants ≠ [])
    (early : s.ridge.keeper.point < axisOf (j.2 - 1) 5)
    (more : 1 < n) : takeJoin m i n s =
      (0, releaseWaits (updKeeper (fun k => { k with runs := k.runs ++ [⟨i, j.2, n, [m]⟩] }) s)) := by
  have awaits : ∀ t, completeRun ⟨i, j.2, n, [m]⟩ t = t := fun t => if_pos more
  simp only [takeJoin, recordJoin, keeps, fresh, step, first, Nat.not_le.mpr early,
    List.isEmpty_eq_false_iff.mpr steps, awaits, Bool.not_true, Bool.false_eq_true, if_false]

end

end

/-! ## Leaving (R353, R357) -/

theorem removeParticipant_gone (m : Nat) (k : Keeper) :
    ((removeParticipant m k).participants.any fun p => p.moduleNumber == m) = false := by
  simp [removeParticipant]

/-- R353: what the timekeeper and its standby keep after a LEAVE. -/
def leftKeeper (m : Nat) (k : Keeper) : Keeper :=
  { removeParticipant m k with
    runs := (k.runs.map fun r => { r with joined := r.joined.filter fun x => x != m }).filter fun r =>
      !(r.joined.isEmpty) }

theorem leftKeeper_runs (m : Nat) (k : Keeper) : ((leftKeeper m k).runs.any fun r => r.joined.contains m) = false := by
  simp [leftKeeper]

/-- The standby keeps what the timekeeper does, and leaves the advance to it. -/
theorem takeLeave_standby {s : State} (keeps : keepsState s = true) (standby : isKeeper s = false) (m : Nat) :
    takeLeave m s = releaseWaits (updKeeper (leftKeeper m) s) := by
  have stands : tryAdvance (updKeeper (leftKeeper m) s) = updKeeper (leftKeeper m) s := tryAdvance_idle (.inl standby)
  rw [takeLeave, if_pos keeps]
  exact congrArg releaseWaits stands

/-! ## A new standby (R360) -/

theorem admitStandby_told {b : Nat} {s t : State} (new : s.ridge.keeper.newStandby = some b)
    (keeper : isKeeper s = true)
    (complete : s.ridge.keeper.runs = []) (nonempty : s.ridge.keeper.participants ≠ []) (other : b ≠ myNumber s)
    (told : forEach s.ridge.keeper.participants
      (fun p => ridgeSend b 4089 (p.moduleNumber + p.runId * 2 ^ 32) .admitted) s = t) :
    admitStandby s = setRidge { t.ridge with
      standby := some b, keeper := { t.ridge.keeper with newStandby := none } } t := by
  have admits : (isKeeper s && s.ridge.keeper.runs.isEmpty && !(s.ridge.keeper.participants.isEmpty) &&
      b != myNumber s) = true := by
    simp [keeper, complete, nonempty, other]
  simp only [admitStandby, new, admits, told, if_true]
  rfl

/-- Settles O48: each signal by who may send it and who takes it; a JOIN by whether its S0 is known and to come. -/
theorem joiningAndLeaving : Obligations.JoiningAndLeaving := by
  unfold Obligations.JoiningAndLeaving
  refine ⟨fun p s wf performed => ?_, fun m v s keeps => takeJoinStep_kept keeps m v, fun p s wf performed => ?_,
    fun m i n j s keeps fresh step first steps =>
      ⟨takeJoin_late keeps fresh step first, takeJoin_registers keeps fresh step first steps⟩,
    fun m i n s => takeJoin_stepless, fun p s wf performed => ?_,
    fun m s keeps standby => ⟨leftKeeper m s.ridge.keeper, takeLeave_standby keeps standby m, rfl,
      leftKeeper_runs m _, rfl⟩,
    fun p s wf performed source => ?_, fun p s wf performed source => ?_, fun p s wf performed other => ?_,
    removeParticipant_gone, fun b t s new keeper complete nonempty other told => ?_⟩
  · rw [exec_joinStepSignal p s wf, arrive, joinStepSignal, memberSignal_performs performed]
  · rw [exec_joinSignal p s wf, arrive, joinSignal, memberSignal_performs performed]
  · rw [exec_leaveSignal p s wf, arrive, leaveSignal, memberSignal_performs performed]
  · rw [exec_excludeSignal p s wf, arrive, excludeSignal, sourceSignal_taken performed source]
  · rw [exec_admitSignal p s wf, arrive, admitSignal, sourceSignal_taken performed source]
  · rw [exec_admitSignal p s wf, arrive, admitSignal, sourceSignal_refused performed other]
  · rw [exec_standbyAdmit s rfl, admitStandby_told new keeper complete nonempty other told]

end Sys2Proof.Machine
end

section
/-!
SUPPORT. Losses and timers of the Ridgeline (R356, R358, R359, R361, R365).
-/
namespace Sys2Proof.Machine

/-! ## The loss of the timekeeper (R358, R359) -/

/-- R358: the states in which a module listens to a timekeeper. -/
abbrev listens (s : State) : Prop :=
  s.ridge.state = .waiting ∨ s.ridge.state = .following ∨ s.ridge.state = .standby ∨ s.ridge.state = .deposed

theorem follows_of_listens {s : State} (listening : listens s) :
    (s.ridge.state == .waiting || s.ridge.state == .following || s.ridge.state == .standby ||
      s.ridge.state == .deposed) = true := by
  rcases listening with h | h | h | h <;> rw [h] <;> rfl

section
variable {s : State} (listening : listens s) (source : s.ridge.source ≠ 0xFFFF)
include listening source

/-- The module turns to the standby, once. -/
theorem sourceLoss_switches {b : Nat} (keeper : s.ridge.source = reg s E.RIDGE_KEEPER)
    (first : s.ridge.switched = false)
    (standby : s.ridge.standby = some b) : sourceLoss s =
      raise 0x0A01 s.ridge.source (setRidge { s.ridge with source := b, switched := true } s) := by
  simp only [sourceLoss, follows_of_listens listening, source, first, standby, if_pos keeper, decide_false,
    Bool.not_true, Bool.or_self, Bool.false_eq_true, if_false]

/-- With none left it follows no more. -/
theorem sourceLoss_stops (left : s.ridge.switched = true ∨ s.ridge.standby = none) : sourceLoss s =
    raise 0x0A02 s.ridge.source (setRidge { s.ridge with state := .noKeeper } s) := by
  have gone : (if s.ridge.switched then none else s.ridge.standby) = none := by
    rcases left with h | h <;> simp [h]
  simp only [sourceLoss, follows_of_listens listening, source, gone, decide_false, Bool.not_true, Bool.or_self,
    Bool.false_eq_true, if_false]

end

theorem takeover_due {s : State} (standby : s.ridge.state = .standby) (switched : s.ridge.switched = true)
    (own : s.ridge.source = myNumber s) : takeover s = releaseWaits (tryAdvance (axisRound s.ridge.keeper.point
      (count E.RIDGE_TAKEOVERS (setRidge { s.ridge with state := .keeper, takeover := true } s)))) := by
  have due : (s.ridge.state == .standby && s.ridge.switched && s.ridge.source == myNumber s) = true := by
    simp [standby, switched, own]
  rw [takeover, if_pos due]
  rfl

/-! ## The step watchdog (R356) -/

/-- The participants that the pending point waits for in vain. -/
def lateOnes (k : Keeper) : List Participant :=
  (awaited k (nextPoint k.point)).filter fun p => !(k.reports.contains (p.moduleNumber, nextPoint k.point))

def lowestOf (ps : List Participant) : Nat := ps.foldl (fun n p => min n p.moduleNumber) 0xFFFF

def membersMissing (k : Keeper) : Nat := (k.runs.map fun r => r.members - r.joined.length).sum

theorem watchdog_late {s : State} (keeper : isKeeper s = true) (enabled : setting s E.STEP_WATCHDOG_S ≠ 0)
    (running : (s.ridge.keeper.reports.any fun r => r.2 % 8 == 7) = false)
    (used : s.ridge.keeper.participants ≠ [] ∨ s.ridge.keeper.runs ≠ []) :
    watchdog s = raise 0x0A04 (lowestOf (lateOnes s.ridge.keeper)) (count E.STEP_WATCHDOG_EVENTS (updKeeper (fun k =>
      { k with lateModule := lowestOf (lateOnes s.ridge.keeper)
               lateCount := (lateOnes s.ridge.keeper).length + membersMissing s.ridge.keeper }) s)) := by
  have someone : (s.ridge.keeper.participants.isEmpty && s.ridge.keeper.runs.isEmpty) = false := by
    rcases used with h | h <;> simp [h]
  simp only [watchdog, keeper, enabled, running, someone, decide_false, Bool.not_true, Bool.or_self, Bool.false_eq_true,
    if_false]
  rfl

/-! ## Delays and timed waits (R361, R365) -/

theorem boundDelay_due {v : Nat} {s : State} (due : v ∈ s.ridge.bound) : boundDelay v s = settleRun (stationEvents v
    (setRidge { s.ridge with bound := s.ridge.bound.filter fun w => w != v } s)) :=
  if_pos (List.contains_iff_mem.mpr due)

/-- R365: a wait whose condition does not hold when its time is over is taken off, and ends its command. -/
theorem waitTimeout_unmet {q i : Nat} {w : PegWaitRec} {s : State}
    (found : (s.pegs.waits.find? fun w => w.queue == q && w.index == i && w.cls != 0) = some w)
    (unmet : waitHolds s w = false) : waitTimeout q i s = endPlain q i 0x0A10 (count E.PEG_WAIT_TIMEOUTS
      { s with pegs := { s.pegs with waits := s.pegs.waits.erase w } }) := by
  have unmetYet : waitHolds { s with pegs := { s.pegs with waits := s.pegs.waits.erase w } } w = false := unmet
  simp only [waitTimeout, found, unmetYet, Bool.false_eq_true, if_false]

/-- Settles O49: the loss by whether a standby is left, the timers by what they find. -/
theorem ridgelineLosses : Obligations.RidgelineLosses := by
  unfold Obligations.RidgelineLosses
  refine ⟨fun b s listening keeper source first standby => ?_, fun s listening source left => ?_,
    fun s standby switched own => ?_, fun s keeper enabled running used => ?_, fun v s wf due => ?_,
    fun q i w s wf found unmet => ?_⟩
  · rw [exec_ridgeSourceLoss s rfl, sourceLoss_switches listening source keeper first standby, setRidge]
  · rw [exec_ridgeSourceLoss s rfl, sourceLoss_stops listening source left, setRidge]
  · rw [exec_standbyTakeover s rfl, takeover_due standby switched own, setRidge]
  · rw [exec_stepWatchdogExpiry s rfl, watchdog_late keeper enabled running used]
    rfl
  · rw [exec_boundDelayExpiry v s wf, boundDelay_due due, setRidge]
  · rw [exec_pegWaitTimeout q i s wf, waitTimeout_unmet found unmet]

end Sys2Proof.Machine
end

section
/-!
SUPPORT. What every command and every step do with the queue of waiting commands.
-/
namespace Sys2Proof.Machine

/-- Every command acts in the one guarded way. -/
theorem exec_guarded (c : Instr) : ∃ f : State → State, ∀ s, exec c s = guarded c f s := by
  cases c <;> exact ⟨_, fun _ => rfl⟩

/-- A command gives a next state, in which the waiting commands are as they were. -/
theorem exec_next (c : Instr) (s : State) : ∃ t, exec c s = .next t ∧ t.pending = s.pending := by
  obtain ⟨f, acts⟩ := exec_guarded c
  cases wf : c.wf with
  | true => exact ⟨_, (acts s).trans (guarded_next wf f s), rfl⟩
  | false => exact ⟨s, (acts s).trans (guarded_ill wf f s), rfl⟩

theorem exec_ill {c : Instr} (ill : c.wf = false) (s : State) : exec c s = .next s := by
  obtain ⟨f, acts⟩ := exec_guarded c
  rw [acts, guarded_ill ill]

theorem step_empty {s : State} (empty : s.pending = []) : step s = .next s := by
  simp only [step, empty]

theorem step_cons {c : Instr} {cs : List Instr} {s : State} (front : s.pending = c :: cs) :
    step s = exec c { s with pending := cs } := by
  simp only [step, front]

/-- A step gives a next state, in which the first of the waiting commands is gone. -/
theorem step_next (s : State) : ∃ t, step s = .next t ∧ t.pending = s.pending.tail := by
  cases waiting : s.pending with
  | nil => exact ⟨s, step_empty waiting, waiting⟩
  | cons c cs =>
    obtain ⟨t, next, kept⟩ := exec_next c { s with pending := cs }
    exact ⟨t, (step_cons waiting).trans next, kept⟩

theorem step_tail {s t : State} (next : step s = .next t) : t.pending = s.pending.tail := by
  obtain ⟨u, next', tail⟩ := step_next s
  rw [next'] at next
  injection next with same
  rwa [← same]

theorem runsSafely_all (n : Nat) (s : State) : runsSafely n s = true := by
  induction n generalizing s with
  | zero => rfl
  | succ n ih =>
    obtain ⟨t, next, -⟩ := step_next s
    simp only [runsSafely, next, ih]

/-- The state that a step gives. -/
def stepped (s : State) : State := match step s with
  | .next t => t
  | .fault _ => s
  | .refused _ => s

theorem step_stepped (s : State) : step s = .next (stepped s) := by
  obtain ⟨t, next, -⟩ := step_next s
  simp only [stepped, next]

/-- The state after `n` steps. -/
def steps : Nat → State → State
  | 0, s => s
  | n + 1, s => stepped (steps n s)

theorem steps_pending (n : Nat) (s : State) : (steps n s).pending = s.pending.drop n := by
  induction n with
  | zero => rfl
  | succ n ih => rw [steps, step_tail (step_stepped _), ih, List.tail_drop]

/-- Settles O1: by whether a command waits. -/
theorem stepRunsTheFront : Obligations.StepRunsTheFront := by
  unfold Obligations.StepRunsTheFront
  exact ⟨fun _ _ _ => step_cons, fun _ => step_empty⟩

/-- Settles O2: every command is guarded. -/
theorem commandsComplete : Obligations.CommandsComplete := by
  unfold Obligations.CommandsComplete
  exact ⟨exec_next, fun c s ill => exec_ill ill s⟩

/-- Settles O3: a step takes the queue to its tail, so `n` steps drop its first `n` commands. -/
theorem queueIsWorkedOff : Obligations.QueueIsWorkedOff := by
  unfold Obligations.QueueIsWorkedOff
  refine ⟨fun s t => step_tail, fun s t d wf next waits => ?_, fun s n => runsSafely_all n s, fun s => ?_⟩
  · rw [step_tail next] at waits
    exact wf d (List.mem_of_mem_tail waits)
  · exact ⟨fun n => steps n s, rfl, fun n => step_stepped _, fun n => steps_pending n s,
      by rw [steps_pending, List.drop_length]⟩

end Sys2Proof.Machine
end

section
/-!
SUPPORT. Every row has the effect of its own operation, a command of the stream the work of its opcode (R375).
-/
namespace Sys2Proof.Machine

/-- A row whose effect keeps the waiting commands gives that effect. -/
theorem next_of_row {c : Instr} {s t u : State} (row : exec c s = .next (withQueue s.pending t)) (does : t = u)
    (kept : u.pending = s.pending) : exec c s = .next u := by
  rw [row, does, next_withQueue_same kept]

/-! ## Commands of the stream that start at once (R375) -/

section
variable {q i : Nat} {r : Rec64} {s : State}

/-- A row that puts a command in its queue does, where the command starts at once, the work of the command's opcode. -/
theorem started_of_row {op : Nat} {c : Instr} {work : State → State}
    (row : exec c s = .next (withQueue s.pending (settleRun (commandRow q i r s)))) (wf : wfCommand op q i r = true)
    (starts : startable q i r s) (works : ∀ t, opcodeOf r = op → commandWork q i r t = work t) :
    exec c s = .next (withQueue s.pending (settleRun (work (begun q i r s)))) := by
  obtain ⟨begins, opcode⟩ := commandRow_work wf starts
  rw [row, begins, works _ opcode]

theorem exec_rowRead_started (wf : Instr.wf (.rowRead q i r) = true) (starts : startable q i r s) :
    exec (.rowRead q i r) s = .next (withQueue s.pending (settleRun (ended q i (rowReadWork r (begun q i r s))))) :=
  started_of_row (work := fun t => ended q i (rowReadWork r t)) (exec_rowRead q i r s wf) (op := 0x18) wf starts
    fun t opcode => by simp only [commandWork, opcode]

theorem exec_rowWrite_started (wf : Instr.wf (.rowWrite q i r) = true) (starts : startable q i r s) :
    exec (.rowWrite q i r) s = .next (withQueue s.pending (settleRun (rowWriteWork q i 0x19 r (begun q i r s)))) :=
  started_of_row (work := fun t => rowWriteWork q i 0x19 r t) (exec_rowWrite q i r s wf) (op := 0x19) wf starts
    fun t opcode => by simp only [commandWork, opcode]

theorem exec_rowFreeze_started (wf : Instr.wf (.rowFreeze q i r) = true) (starts : startable q i r s) :
    exec (.rowFreeze q i r) s = .next (withQueue s.pending (settleRun (rowWriteWork q i 0x1A r (begun q i r s)))) :=
  started_of_row (work := fun t => rowWriteWork q i 0x1A r t) (exec_rowFreeze q i r s wf) (op := 0x1A) wf starts
    fun t opcode => by simp only [commandWork, opcode]

theorem exec_rowReset_started (wf : Instr.wf (.rowReset q i r) = true) (starts : startable q i r s) :
    exec (.rowReset q i r) s = .next (withQueue s.pending (settleRun (rowWriteWork q i 0x1B r (begun q i r s)))) :=
  started_of_row (work := fun t => rowWriteWork q i 0x1B r t) (exec_rowReset q i r s wf) (op := 0x1B) wf starts
    fun t opcode => by simp only [commandWork, opcode]

theorem exec_gradScatter_started (wf : Instr.wf (.gradScatter q i r) = true) (starts : startable q i r s) :
    exec (.gradScatter q i r) s = .next (withQueue s.pending (settleRun (scatterWork q i r (begun q i r s)))) :=
  started_of_row (work := fun t => scatterWork q i r t) (exec_gradScatter q i r s wf) (op := 0x21) wf starts
    fun t opcode => by simp only [commandWork, opcode]

theorem exec_denseReduce_started (wf : Instr.wf (.denseReduce q i r) = true) (starts : startable q i r s) :
    exec (.denseReduce q i r) s = .next (withQueue s.pending (settleRun (denseReduceWork q i r (begun q i r s)))) :=
  started_of_row (work := fun t => denseReduceWork q i r t) (exec_denseReduce q i r s wf) (op := 0x28) wf starts
    fun t opcode => by simp only [commandWork, opcode]

theorem exec_genSetup_started (wf : Instr.wf (.genSetup q i r) = true) (starts : startable q i r s) :
    exec (.genSetup q i r) s = .next (withQueue s.pending (settleRun (ended q i (genSetupWork r (begun q i r s))))) :=
  started_of_row (work := fun t => ended q i (genSetupWork r t)) (exec_genSetup q i r s wf) (op := 0x40) wf starts
    fun t opcode => by simp only [commandWork, opcode]

theorem exec_genCut_started (wf : Instr.wf (.genCut q i r) = true) (starts : startable q i r s) :
    exec (.genCut q i r) s = .next (withQueue s.pending (settleRun (genCutWork q i r (begun q i r s)))) :=
  started_of_row (work := fun t => genCutWork q i r t) (exec_genCut q i r s wf) (op := 0x41) wf starts
    fun t opcode => by simp only [commandWork, opcode]

theorem exec_genExport_started (wf : Instr.wf (.genExport q i r) = true) (starts : startable q i r s) :
    exec (.genExport q i r) s = .next (withQueue s.pending (settleRun (genExportWork q i r (begun q i r s)))) :=
  started_of_row (work := fun t => genExportWork q i r t) (exec_genExport q i r s wf) (op := 0x42) wf starts
    fun t opcode => by simp only [commandWork, opcode]

theorem exec_genRelease_started (wf : Instr.wf (.genRelease q i r) = true) (starts : startable q i r s) :
    exec (.genRelease q i r) s = .next (withQueue s.pending (settleRun (ended q i (genReleaseWork r (begun q i r s))))) :=
  started_of_row (work := fun t => ended q i (genReleaseWork r t)) (exec_genRelease q i r s wf) (op := 0x43) wf starts
    fun t opcode => by simp only [commandWork, opcode]

theorem exec_load_started (wf : Instr.wf (.load q i r) = true) (starts : startable q i r s) :
    exec (.load q i r) s = .next (withQueue s.pending (settleRun (loadWork q i r (begun q i r s)))) :=
  started_of_row (work := fun t => loadWork q i r t) (exec_load q i r s wf) (op := 0x50) wf starts
    fun t opcode => by simp only [commandWork, opcode]

theorem exec_unload_started (wf : Instr.wf (.unload q i r) = true) (starts : startable q i r s) :
    exec (.unload q i r) s = .next (withQueue s.pending (settleRun (unloadWork q i r (begun q i r s)))) :=
  started_of_row (work := fun t => unloadWork q i r t) (exec_unload q i r s wf) (op := 0x51) wf starts
    fun t opcode => by simp only [commandWork, opcode]

end

/-! ## All rows -/

/-- Settles O9: a command of the stream by its opcode's work, any other row by its own operation. -/
theorem runCommandsTakeEffect : Obligations.RunCommandsTakeEffect := by
  unfold Obligations.RunCommandsTakeEffect
  exact ⟨
    fun _ _ _ _ => exec_nop_started, fun _ _ _ _ => exec_pegSignal_started, fun _ _ _ _ => exec_pegWait_started,
    fun _ _ _ _ => exec_pegSet_started, fun _ _ _ _ => exec_dmaCopy_started,
    fun _ _ _ _ => exec_dmaTranspose_started, fun _ _ _ _ => exec_rucksackPush_started,
    fun _ _ _ _ => exec_rucksackPop_started, fun _ _ _ _ => exec_gemm_started, fun _ _ _ _ => exec_rowRead_started,
    fun _ _ _ _ => exec_rowWrite_started, fun _ _ _ _ => exec_rowFreeze_started,
    fun _ _ _ _ => exec_rowReset_started, fun _ _ _ _ => exec_rowengFwd_started,
    fun _ _ _ _ => exec_rowengBwd_started, fun _ _ _ _ => exec_gatherPool_started,
    fun _ _ _ _ => exec_gradScatter_started, fun _ _ _ _ => exec_denseReduce_started,
    fun _ _ _ _ => exec_sched_started, fun _ _ _ _ => exec_checkScan_started, fun _ _ _ _ => exec_genSetup_started,
    fun _ _ _ _ => exec_genCut_started, fun _ _ _ _ => exec_genExport_started,
    fun _ _ _ _ => exec_genRelease_started, fun _ _ _ _ => exec_feedBind_started, fun _ _ _ _ => exec_load_started,
    fun _ _ _ _ => exec_unload_started, exec_parityFlushExpiry, exec_burnisherPageCheck, exec_burnisherLapAlarm,
    exec_checkScanRun, exec_proofRecompute, exec_indexRun, exec_bandPartial, exec_gradMsg, exec_gradConsume,
    exec_targetSliceApply, exec_shardGrad, exec_ledgerUp, exec_ledgerDown, exec_shardMulticast, exec_stepReport,
    exec_stepVerdict, exec_commandFetch, exec_descriptorRecheckExpiry, exec_commandStart, exec_commandComplete,
    exec_completionFlushDone, exec_intCoalesceExpiry, exec_doorbellSqProducer, exec_doorbellCqHead,
    exec_queueEnable, exec_queueDisable, exec_queueRestart, exec_pcieCompletionTimeout, exec_pegWaitTimeout,
    exec_axisSignal, exec_readyReport, exec_readySignal, exec_beatExpiry, exec_joinStepSignal, exec_joinSignal,
    exec_leaveSignal, exec_excludeSignal, exec_admitSignal, exec_standbyAdmit, exec_ridgeSourceLoss,
    exec_standbyTakeover, exec_stepWatchdogExpiry, exec_boundDelayExpiry, exec_repairRequest, exec_twinRepairWrite,
    exec_heartbeatSendExpiry, exec_twinBeatLoss, exec_livenessDecision, exec_twinProbeExpiry, exec_mirrorLog,
    exec_stepOperands, exec_stepMark, exec_copyPage, exec_occurrences, exec_contributions, exec_rowChange⟩

/-- Settles O10: each row by its own operation. -/
theorem interfaceCommandsTakeEffect : Obligations.InterfaceCommandsTakeEffect := by
  unfold Obligations.InterfaceCommandsTakeEffect
  exact ⟨
    exec_portEnableMaskWrite, exec_routeTableCommit, exec_torusDimWrite, exec_coordTableWrite,
    exec_watchRingTailWrite, exec_watchHistoryReset, exec_watchResume, exec_stepAgreeResume, exec_tsetT,
    exec_salvage, exec_odpRequest, exec_odpRead, exec_odpWrite, exec_describe, exec_stage, exec_registerWrite,
    exec_i3cPrivateWrite, exec_i3cPrivateRead, exec_i3cAddressAssign, exec_uartConsoleCommand, exec_setCommit,
    exec_setRevert, exec_setConfirm, exec_setClear, exec_setConfirmTimeout, exec_faultCodeClear,
    exec_countersClearAll, exec_packetTransit, exec_read, exec_write, exec_atomicAdd, exec_fabricPegSignal,
    exec_poisonedWrite, exec_responseReceive, exec_fabricRequestTimeout, exec_retryBackoffExpiry,
    exec_messageFragmentReceive, exec_dupFilterEntryExpiry, exec_causeClear, exec_bar2Read, exec_bar2Write,
    exec_intakeWindowWrite, exec_exportWindowRead, exec_intakeProducerWrite, exec_consumedStepWrite,
    exec_ringEnable, exec_ringDisable, exec_feedExportPublish, exec_mailboxGo, exec_pcieLinkExitL0,
    exec_pcieLinkReturnL0, exec_hostLossTimeout, exec_perstAssert, exec_perstDeassert, exec_functionLevelReset,
    exec_pcieHotReset, exec_d3hotEntry, exec_configurationWrite, exec_lanternFault, exec_lanternServing,
    exec_fwBegin, exec_fwUpdateData, exec_fwVerify, exec_fwVerifyDone, exec_fwActivate, exec_fwAbort,
    exec_fwConfirm, exec_getVersion, exec_getCapabilities, exec_negotiateAlgorithms, exec_getDigests,
    exec_getCertificate, exec_challenge, exec_getMeasurements, exec_spdmUnsupported, exec_eventRateInterval,
    exec_eventLogFlashWrite, exec_eventRecords, exec_ptpMessage, exec_ptpUnlocked, exec_dataFlitReceive,
    exec_controlFlitReceive, exec_nakReceive, exec_trainFlitReceive, exec_heartbeatReceive,
    exec_controlFlitInterval, exec_linkRetryExpiry, exec_codewordLockLoss, exec_portTrainingDone,
    exec_retrainTimeout, exec_linkDownRetryExpiry, exec_inputPowerArrival, exec_bringupStageComplete,
    exec_bringupStageTimeout, exec_bringupRetryExpiry, exec_feedUndervoltage, exec_feedLost, exec_feedOvervoltage,
    exec_feedReconnect, exec_powerFailWarning, exec_bulkBusCollapse, exec_railFault, exec_thermalThrottle,
    exec_thermalShutdown, exec_coolantFlowLow, exec_powerLimitInterval, exec_throttleRaiseInterval,
    exec_senseSample, exec_enterRetention, exec_exitRetention, exec_moduleReset, exec_standbyRequest,
    exec_coldStart, exec_resetReqAssert, exec_serviceButtonShort, exec_serviceButtonHold, exec_unitFault,
    exec_hbm3RefreshDoubled⟩

end Sys2Proof.Machine
end

section
/-!
SUPPORT. The queues at the host's side: which doorbells are taken (R407), and what a queue's registers do (R406, R411).
-/
namespace Sys2Proof.Machine

/-! ## Doorbells (R407, R411) -/

section
variable {q i : Nat} {s : State}

theorem doorbellOpen_of_served (serving : serves s = true) (enabled : (queue s q).state ≠ .disabled)
    (unfenced : (queue s q).state ≠ .fenced) : doorbellOpen s (queue s q) = true := by
  simp [doorbellOpen, serving, enabled, unfenced]

theorem doorbellOpen_shut (shut : serves s = false ∨ (queue s q).state = .disabled ∨ (queue s q).state = .fenced) :
    doorbellOpen s (queue s q) = false := by
  rcases shut with h | h | h <;> simp [doorbellOpen, h]

section
variable (index : i < 2 ^ 32)
include index

section
variable (opened : doorbellOpen s (queue s q) = true) (ahead : mod32 i (queue s q).sqProducer < 2 ^ 31)
  (room : mod32 i (queue s q).cqHead ≤ queueDepth (queue s q))
include opened ahead room

theorem doorbellSq_taken (whole : (queue s q).state ≠ .stoppedTorn) :
    doorbellSq q i s = setQueue q { queue s q with sqProducer := i } s := by
  simp only [doorbellSq, Nat.mod_eq_of_lt index, opened, ahead, room, decide_true, Bool.and_self, if_true,
    beq_false_of_ne whole, Bool.false_eq_true, if_false]

theorem doorbellSq_resumes (torn : (queue s q).state = .stoppedTorn) :
    doorbellSq q i s = setQueue q { queue s q with
      sqProducer := i, state := .running, sqFetched := (queue s q).stopIndex } s := by
  simp only [doorbellSq, Nat.mod_eq_of_lt index, opened, ahead, room, decide_true, Bool.and_self, if_true, torn,
    beq_self_eq_true]

end

theorem doorbellSq_ignored (refused : doorbellOpen s (queue s q) = false ∨ 2 ^ 31 ≤ mod32 i (queue s q).sqProducer ∨
    queueDepth (queue s q) < mod32 i (queue s q).cqHead) : doorbellSq q i s = ignoreDoorbell q s := by
  have shut : (doorbellOpen s (queue s q) && decide (mod32 i (queue s q).sqProducer < 2 ^ 31) &&
      decide (mod32 i (queue s q).cqHead ≤ queueDepth (queue s q))) = false := by
    rcases refused with closed | behind | full
    · rw [closed, Bool.false_and, Bool.false_and]
    · rw [decide_eq_false (Nat.not_lt.mpr behind), Bool.and_false, Bool.false_and]
    · rw [decide_eq_false (Nat.not_le.mpr full), Bool.and_false]
  simp only [doorbellSq, Nat.mod_eq_of_lt index, shut, Bool.false_eq_true, if_false]

theorem doorbellCq_taken (opened : doorbellOpen s (queue s q) = true)
    (written : mod32 i (queue s q).cqHead ≤ mod32 (queue s q).cqProducer (queue s q).cqHead) :
    doorbellCq q i s = setQueue q { queue s q with cqHead := i } s := by
  simp only [doorbellCq, Nat.mod_eq_of_lt index, opened, written, decide_true, Bool.and_self, if_true]

theorem doorbellCq_ignored (refused : doorbellOpen s (queue s q) = false ∨
    mod32 (queue s q).cqProducer (queue s q).cqHead < mod32 i (queue s q).cqHead) :
    doorbellCq q i s = ignoreDoorbell q s := by
  have shut : (doorbellOpen s (queue s q) &&
      decide (mod32 i (queue s q).cqHead ≤ mod32 (queue s q).cqProducer (queue s q).cqHead)) = false := by
    rcases refused with closed | beyond
    · rw [closed, Bool.false_and]
    · rw [decide_eq_false (Nat.not_le.mpr beyond), Bool.and_false]
  simp only [doorbellCq, Nat.mod_eq_of_lt index, shut, Bool.false_eq_true, if_false]

end

@[simp] theorem ignoreDoorbell_pending (q : Nat) (s : State) : (ignoreDoorbell q s).pending = s.pending :=
  (raiseOnce_pending ..).trans (count_pending ..)

theorem index_of_wfSqProducer (wf : Instr.wf (.doorbellSqProducer q i) = true) : i < 2 ^ 32 := by
  simpa [fits] using (Bool.and_eq_true_iff.mp wf).2

theorem index_of_wfCqHead (wf : Instr.wf (.doorbellCqHead q i) = true) : i < 2 ^ 32 := by
  simpa [fits] using (Bool.and_eq_true_iff.mp wf).2

end

theorem ignoreDoorbell_later {q : Nat} {s : State} (later : s.lantern.events.once.contains 0x0103 = true) :
    ignoreDoorbell q s = count E.DOORBELLS_IGNORED s :=
  raiseOnce_later (s := count E.DOORBELLS_IGNORED s) later q

theorem ignoreDoorbell_first {q : Nat} {s : State} (first : s.lantern.events.once.contains 0x0103 = false) :
    ignoreDoorbell q s = raise 0x0103 q (setEvents
      { (count E.DOORBELLS_IGNORED s).lantern.events with
        once := 0x0103 :: (count E.DOORBELLS_IGNORED s).lantern.events.once } (count E.DOORBELLS_IGNORED s)) :=
  raiseOnce_first (s := count E.DOORBELLS_IGNORED s) first q

/-- Settles O8: a doorbell by whether the queue is open to it and its index within bounds, an ignored one by whether its
event has been raised. -/
theorem doorbells : Obligations.Doorbells := by
  unfold Obligations.Doorbells
  refine ⟨fun q i s wf => ?_, fun q i s wf => ?_, fun q s later => ignoreDoorbell_later later,
    fun q s t first counted => by rw [ignoreDoorbell_first first, counted]⟩
  · have index := index_of_wfSqProducer wf
    refine ⟨fun serving enabled unfenced ahead room => ?_, fun refused => ?_⟩
    · have opened := doorbellOpen_of_served serving enabled unfenced
      exact ⟨fun whole => next_of_row (exec_doorbellSqProducer q i s wf) (doorbellSq_taken index opened ahead room whole) rfl,
        fun torn => next_of_row (exec_doorbellSqProducer q i s wf) (doorbellSq_resumes index opened ahead room torn) rfl⟩
    · refine next_of_row (exec_doorbellSqProducer q i s wf) (doorbellSq_ignored index ?_) (ignoreDoorbell_pending q s)
      rcases refused with stopped | disabled | fenced | bounds
      · exact .inl (doorbellOpen_shut (.inl stopped))
      · exact .inl (doorbellOpen_shut (.inr (.inl disabled)))
      · exact .inl (doorbellOpen_shut (.inr (.inr fenced)))
      · exact .inr bounds
  · have index := index_of_wfCqHead wf
    refine ⟨fun serving enabled unfenced written => ?_, fun refused => ?_⟩
    · exact next_of_row (exec_doorbellCqHead q i s wf)
        (doorbellCq_taken index (doorbellOpen_of_served serving enabled unfenced) written) rfl
    · refine next_of_row (exec_doorbellCqHead q i s wf) (doorbellCq_ignored index ?_) (ignoreDoorbell_pending q s)
      rcases refused with stopped | disabled | fenced | beyond
      · exact .inl (doorbellOpen_shut (.inl stopped))
      · exact .inl (doorbellOpen_shut (.inr (.inl disabled)))
      · exact .inl (doorbellOpen_shut (.inr (.inr fenced)))
      · exact .inr beyond

/-! ## ENABLE, DISABLE and RESTART (R406, R411) -/

section
variable {q : Nat} {s : State}

theorem enableQueue_enabled (enabled : (queue s q).state ≠ .disabled) : enableQueue q s = s := by
  simp [enableQueue, enabled]

section
variable (disabled : (queue s q).state = .disabled)
include disabled

theorem enableQueue_unserved (stopped : serves s = false) :
    enableQueue q s = setQueue q { queue s q with stopStatus := 0x0105 } s := by
  simp [enableQueue, disabled, stopped]

theorem enableQueue_invalid (serving : serves s = true) (invalid : queueConfigOk s (queue s q) = false) :
    enableQueue q s = raise 0x0102 q (setQueue q { queue s q with stopStatus := 0x0102 } s) := by
  simp [enableQueue, disabled, serving, invalid]

theorem enableQueue_valid (serving : serves s = true) (valid : queueConfigOk s (queue s q) = true) :
    enableQueue q s = setQueue q { queue s q with
      state := .running, sqProducer := 0, sqFetched := 0, cqProducer := 0, cqHead := 0, stopIndex := 0
      epochAtEnable := s.host.epoch, cmds := [], recheck := none, flushing := false, disabling := false
      coalescing := false, uncovered := false } s := by
  simp [enableQueue, disabled, serving, valid]

end

/-- What is left of a queue once it is DISABLED. -/
def disabledQueue (v : Queue) : Queue :=
  { v with state := .disabled, disabling := false, cmds := [], recheck := none, flushing := false
           coalescing := false, uncovered := false }

theorem settleDisable_idle (disabling : (queue s q).disabling = true) (idle : (queue s q).cmds.any isRunning = false) :
    settleDisable q s = setQueue q (disabledQueue (queue s q)) s := by
  simp [settleDisable, disabling, idle, disabledQueue]

theorem settleDisable_running (running : (queue s q).cmds.any isRunning = true) : settleDisable q s = s := by
  simp only [settleDisable, running, Bool.not_true, Bool.and_false, Bool.false_eq_true, if_false]

theorem settleDisable_kept (kept : (queue s q).disabling = false) : settleDisable q s = s := by
  simp only [settleDisable, kept, Bool.false_and, Bool.false_eq_true, if_false]

theorem disableQueue_enabled (enabled : (queue s q).state ≠ .disabled) : disableQueue q s =
    settleDisable q (updQueue q (fun v => { v with disabling := true, recheck := none }) (discardUnstarted q s)) := by
  simp [disableQueue, enabled]

theorem discardUnstarted_none (none : unstarted (queue s q) = []) : discardUnstarted q s = s := by
  simp only [discardUnstarted, none]

theorem discardUnstarted_some {c : Cmd} {cs : List Cmd} (some : unstarted (queue s q) = c :: cs) :
    discardUnstarted q s = setQueue q { queue s q with
      cmds := (queue s q).cmds.filter hasStarted, sqFetched := c.index }
      (dropWaits q ((c :: cs).map fun x => x.index) s) := by
  simp only [discardUnstarted, some]

/-- What a queue has fetched and not started is dropped whole. -/
theorem unstarted_discardUnstarted (q : Nat) (s : State) : unstarted (queue (discardUnstarted q s) q) = [] := by
  cases waiting : unstarted (queue s q) with
  | nil => rw [discardUnstarted_none waiting, waiting]
  | cons c cs =>
    rw [discardUnstarted_some waiting, queue_setQueue]
    simp [unstarted, List.filter_filter]

theorem restartQueue_stopped (stopped : (queue s q).state = .stoppedError) (kept : (queue s q).disabling = false) :
    restartQueue q s = setQueue q { queue s q with state := .running } s := by
  simp [restartQueue, updQueue, stopped, kept]

theorem restartQueue_other (other : (queue s q).state ≠ .stoppedError) :
    restartQueue q s = setQueue q (queue s q) s := by
  simp [restartQueue, updQueue, other]

end

/-- Settles O34: ENABLE by the queue's state, the module's and the configuration; DISABLE by whether a command runs; RESTART
by the queue's state; and the doorbells as they are taken or ignored. -/
theorem queueRegisters : Obligations.QueueRegisters := by
  unfold Obligations.QueueRegisters
  refine ⟨fun q s wf disabled serving valid => ?_, fun q s wf disabled serving invalid => ?_,
    fun q s wf disabled stopped => ?_, fun q s wf enabled => ?_, fun q t s wf enabled dropped idle => ?_,
    fun q t s wf enabled dropped running => ?_, unstarted_discardUnstarted, fun q s wf stopped kept => ?_,
    fun q s wf other => ?_, fun q i s wf serving running ahead room => ?_, fun q i s wf refused => ?_,
    fun q i s wf opened written => ?_, fun q i s wf refused => ?_⟩
  · exact next_of_row (exec_queueEnable q s wf) (enableQueue_valid disabled serving valid) rfl
  · exact next_of_row (exec_queueEnable q s wf) (enableQueue_invalid disabled serving invalid) (raise_pending ..)
  · exact next_of_row (exec_queueEnable q s wf) (enableQueue_unserved disabled stopped) rfl
  · rw [exec_queueEnable q s wf, enableQueue_enabled enabled, withQueue_self]
  · rw [exec_queueDisable q s wf, disableQueue_enabled enabled, dropped, updQueue,
      settleDisable_idle (by rw [queue_setQueue]) (by rw [queue_setQueue]; exact idle), queue_setQueue]
    rfl
  · rw [exec_queueDisable q s wf, disableQueue_enabled enabled, dropped, updQueue,
      settleDisable_running (by rw [queue_setQueue]; exact running)]
  · exact next_of_row (exec_queueRestart q s wf) (restartQueue_stopped stopped kept) rfl
  · exact next_of_row (exec_queueRestart q s wf) (restartQueue_other other) rfl
  · have opened : doorbellOpen s (queue s q) = true :=
      doorbellOpen_of_served serving (by rw [running]; decide) (by rw [running]; decide)
    exact next_of_row (exec_doorbellSqProducer q i s wf)
      (doorbellSq_taken (index_of_wfSqProducer wf) opened ahead room (by rw [running]; decide)) rfl
  · exact next_of_row (exec_doorbellSqProducer q i s wf)
      (doorbellSq_ignored (index_of_wfSqProducer wf) (refused.imp_right .inr)) (ignoreDoorbell_pending q s)
  · exact next_of_row (exec_doorbellCqHead q i s wf) (doorbellCq_taken (index_of_wfCqHead wf) opened written) rfl
  · exact next_of_row (exec_doorbellCqHead q i s wf) (doorbellCq_ignored (index_of_wfCqHead wf) refused) (ignoreDoorbell_pending q s)

end Sys2Proof.Machine
end

section
/-!
SUPPORT. A command's way through its queue: fetching (R408 to R410), starting (R372 to R375) and completing (R376, R377,
R412 to R414).
-/
namespace Sys2Proof.Machine

/-! ## Fetching (R408 to R410) -/

section
variable {q : Nat} {s : State}

@[simp] theorem queue_count (k q : Nat) (s : State) : queue (count k s) q = queue s q := by
  rw [queue, count_host, queue]

/-- A good record is fetched, whatever has been counted. -/
theorem fetched_eq (q i : Nat) (r : Rec64) (s : State) : fetched q i r s = setQueue q { queue s q with
    cmds := (queue s q).cmds ++ [{ index := i, record := r, phase := .fetched }]
    sqFetched := (i + 1) % 2 ^ 32, recheck := none } s := rfl

/-- The record of a ring in host memory is what the host answers. -/
theorem readDescriptor_record {v : Queue} (host : v.sqInDevice = false) (i : Nat) (r : Rec64) (s : State) :
    readDescriptor v i (.record r) s = (some r, s) := by
  simp only [readDescriptor, host, Bool.false_eq_true, if_false]

theorem readDescriptor_bad {v : Queue} (host : v.sqInDevice = false) (i : Nat) (s : State) :
    readDescriptor v i .bad s = (none, s) := by
  simp only [readDescriptor, host, Bool.false_eq_true, if_false]

section
variable (due : fetchable s (queue s q) = true) (first : (queue s q).recheck = none)
  (host : (queue s q).sqInDevice = false)
include due first host

theorem fetchCommand_good {r : Rec64} (good : descriptorGood r q (queue s q).sqFetched = true) :
    fetchCommand q (.record r) s = fetched q (queue s q).sqFetched r s := by
  simp only [fetchCommand, due, first, readDescriptor_record host, Option.filter_some, good, Option.isSome_none,
    Bool.not_true, Bool.or_self, Bool.false_eq_true, if_false, if_true]

theorem fetchCommand_torn {r : Rec64} (torn : descriptorGood r q (queue s q).sqFetched = false) :
    fetchCommand q (.record r) s = setQueue q { queue s q with recheck := some ((queue s q).sqFetched, 0) } s := by
  simp only [fetchCommand, due, first, readDescriptor_record host, Option.filter_some, torn, Option.isSome_none,
    Bool.not_true, Bool.or_self, Bool.false_eq_true, if_false]
  rfl

theorem fetchCommand_bad :
    fetchCommand q .bad s = setQueue q { queue s q with recheck := some ((queue s q).sqFetched, 0) } s := by
  simp only [fetchCommand, due, first, readDescriptor_bad host, Option.filter_none, Option.isSome_none,
    Bool.not_true, Bool.or_self, Bool.false_eq_true, if_false]
  rfl

/-- R410: a completion timeout of a descriptor read is one of a record that is not good. -/
theorem completionTimeout_fetching (up : s.host.linkL0 = true) (unflushed : (queue s q).flushing = false) :
    completionTimeout q s = setQueue q { queue s q with recheck := some ((queue s q).sqFetched, 0) } s := by
  have fetches : completionTimeout q s = fetchCommand q .bad s := by
    simp only [completionTimeout, up, unflushed, first, Option.isSome_none, Bool.not_true, Bool.false_eq_true, if_false]
  rw [fetches, fetchCommand_bad due first host]

end

theorem recheckDescriptor_down (down : s.host.linkL0 = false) (x : HostReply) : recheckDescriptor q x s = s := by
  simp only [recheckDescriptor, down, Bool.not_false, Bool.true_or, if_true]
  split <;> rfl

section
variable {i n : Nat} {r : Rec64} (again : (queue s q).recheck = some (i, n)) (up : s.host.linkL0 = true)
  (may : mayRead s (queue s q) = true) (host : (queue s q).sqInDevice = false)
include again up may host

theorem recheckDescriptor_good (good : descriptorGood r q i = true) :
    recheckDescriptor q (.record r) s = fetched q i r (count E.DESC_RECHECKS s) := by
  simp only [recheckDescriptor, again, up, may, readDescriptor_record host, Option.filter_some, good,
    Bool.not_true, Bool.or_self, Bool.false_eq_true, if_false, if_true]

theorem recheckDescriptor_again (torn : descriptorGood r q i = false) (few : n + 1 < 4) :
    recheckDescriptor q (.record r) s =
      setQueue q { queue s q with recheck := some (i, n + 1) } (count E.DESC_RECHECKS s) := by
  simp only [recheckDescriptor, again, up, may, readDescriptor_record host, Option.filter_some, torn, few,
    updQueue, queue_count, Bool.not_true, Bool.or_self, Bool.false_eq_true, if_false, if_true]

theorem recheckDescriptor_stops (torn : descriptorGood r q i = false) (many : 4 ≤ n + 1) :
    recheckDescriptor q (.record r) s = raise 0x0101 q (count E.TORN_DESCRIPTORS (causeQueueStopped (setQueue q
      { queue s q with state := .stoppedTorn, stopIndex := i, stopStatus := 0x0101, recheck := none }
      (count E.DESC_RECHECKS s)))) := by
  simp only [recheckDescriptor, again, up, may, readDescriptor_record host, Option.filter_some, torn,
    Nat.not_lt.mpr many, updQueue, queue_count, Bool.not_true, Bool.or_self, Bool.false_eq_true, if_false]

end

end

/-- Settles O31: a first read and a re-read by whether the record is good, a re-read also by how many there have been. -/
theorem commandFetching : Obligations.CommandFetching := by
  unfold Obligations.CommandFetching
  refine ⟨fun q r s wf due first host => ⟨fun good => ?_, fun torn => ?_⟩,
    fun q i n r s wf again up may host => ⟨fun good => ?_, fun torn few => ?_, fun torn many => ?_⟩,
    fun q x s wf down => ?_, fun q s wf up unflushed first due host => ?_⟩
  · rw [exec_commandFetch q _ s wf, fetchCommand_good due first host good, fetched_eq]
  · rw [exec_commandFetch q _ s wf, fetchCommand_torn due first host torn]
  · rw [exec_descriptorRecheckExpiry q _ s wf, recheckDescriptor_good again up may host good, fetched_eq, queue_count]
  · rw [exec_descriptorRecheckExpiry q _ s wf, recheckDescriptor_again again up may host torn few]
  · rw [exec_descriptorRecheckExpiry q _ s wf, recheckDescriptor_stops again up may host torn many]
  · rw [exec_descriptorRecheckExpiry q x s wf, recheckDescriptor_down down]
  · rw [exec_pcieCompletionTimeout q s wf, completionTimeout_fetching due first host up unflushed]

/-! ## Starting (R372 to R375) -/

section
variable {q i : Nat} {r : Rec64} {s : State}

/-- A command that is its queue's next, waits for nothing and is held back by nothing starts. -/
theorem startCommand_starts {c : Cmd} {cs : List Cmd} (next : unstarted (queue s q) = c :: cs) (here : c.index = i)
    (waiting : c.phase = .fetched) (starts : queueStarts s (queue s q) = true) (unfenced : fenced (queue s q) c = false)
    (waitless : waitEn c.record = false) (free : heldBack s q c.record = false) :
    startCommand q i s = startNow q i c.record s := by
  have fresh : (CmdPhase.fetched == CmdPhase.waiting) = false := rfl
  simp only [startCommand, next, here, waiting, starts, unfenced, waitless, free, fresh, bne_self_eq_false, Bool.not_true,
    Bool.or_self, Bool.false_and, Bool.false_eq_true, if_false]

theorem startNow_passed (passed : startCode (setPhase q i .running s) r = 0) :
    startNow q i r s = commandWork q i r (setPhase q i .running s) := by
  simp only [startNow, passed, bne_self_eq_false, Bool.false_eq_true, if_false]

theorem startNow_failed (failed : startCode (setPhase q i .running s) r ≠ 0) (notLoad : opcodeOf r ≠ 0x50) :
    startNow q i r s = endPlain q i (startCode (setPhase q i .running s) r)
      (whenS (startCode (setPhase q i .running s) r == 0x0201) (countZeroWork (opcodeOf r))
        (setPhase q i .running s)) := by
  simp only [startNow, bne_iff_ne.mpr failed, if_true, notLoad, if_false]

end

/-- Settles O32: a command that starts, by the code of its start checks. -/
theorem commandStarts : Obligations.CommandStarts := by
  unfold Obligations.CommandStarts
  intro q i c cs s wf next here waiting starts unfenced waitless free
  rw [exec_commandStart q i s wf, startCommand_starts next here waiting starts unfenced waitless free]
  exact ⟨fun passed => by rw [startNow_passed passed], fun failed notLoad => by rw [startNow_failed failed notLoad]⟩

/-! ## Completing (R376, R377, R412 to R414) -/

section
variable {q i : Nat} {s : State}

/-- A summary without flags. -/
theorem summaryOf_plain (r : Rec64) (st d : Nat) :
    summaryOf r st d false false false = st + rf r 31 16 * 2 ^ 16 + d * 2 ^ 40 := by
  have unset : b2n false = 0 := rfl
  simp only [summaryOf, unset, Nat.zero_mul, Nat.add_zero]

section
variable {c : Cmd} {d : Nat} (found : findCmd s q i = some c) (unsignalled : signalEn c.record = false)
include found unsignalled

theorem completeCommand_succeeded (done : c.phase = .done 0 d false false) : completeCommand q i s =
    settleDisable q (settleRecords q (count E.COMMANDS_COMPLETED
      (setPhase q i (.recorded (rf c.record 31 16 * 2 ^ 16 + d * 2 ^ 40)) s))) := by
  have success : succeeded 0 = true := rfl
  have someWork : ((0 : Nat) == 0x0201) = false := rfl
  simp only [completeCommand, found, done, unsignalled, success, someWork, summaryOf_plain, Nat.zero_add,
    Bool.false_and, Bool.not_true, whenS_false, whenS_true]

theorem completeCommand_failed {st : Nat} (done : c.phase = .done st d false false) (failed : succeeded st = false)
    (stops : continueOnError c.record = false) : completeCommand q i s =
    settleDisable q (settleRecords q (stopQueue q i st (count E.COMMANDS_FAILED
      (setPhase q i (.recorded (st + rf c.record 31 16 * 2 ^ 16 + d * 2 ^ 40)) s)))) := by
  have someWork : (st == 0x0201) = false := (Bool.or_eq_false_iff.mp failed).2
  simp only [completeCommand, found, done, unsignalled, failed, someWork, stops, summaryOf_plain, Bool.false_and,
    Bool.not_false, Bool.and_self, whenS_false, whenS_true]

end

theorem flushDone_returned (flushing : (queue s q).flushing = true) (may : mayMaster s = true) :
    flushDone q s = settleDisable q (writeCompletions q (setQueue q { queue s q with flushing := false } s)) := by
  simp only [flushDone, flushing, may, Bool.and_self, if_true]
  rfl

theorem coalesceExpiry_uncovered (coalescing : (queue s q).coalescing = true)
    (uncovered : (queue s q).uncovered = true) :
    coalesceExpiry q s = msix (queue s q).vector (setQueue q { queue s q with uncovered := false } s) := by
  simp only [coalesceExpiry, coalescing, uncovered, Bool.not_true, Bool.false_eq_true, if_false, if_true]

theorem coalesceExpiry_covered (coalescing : (queue s q).coalescing = true)
    (covered : (queue s q).uncovered = false) :
    coalesceExpiry q s = setQueue q { queue s q with coalescing := false } s := by
  simp only [coalesceExpiry, coalescing, covered, Bool.not_true, Bool.false_eq_true, if_false]

end

/-- Settles O33: the end of a command by whether it succeeded, a flush that returns, and the end of a coalescing period by
whether records are still to be signalled. -/
theorem commandCompletes : Obligations.CommandCompletes := by
  unfold Obligations.CommandCompletes
  refine ⟨fun q i c d s wf found done unsignalled => ?_,
    fun q i c st d s wf found done failed unsignalled stops => ?_, fun q s wf flushing may => ?_,
    fun q s wf coalescing uncovered => ?_, fun q s wf coalescing covered => ?_⟩
  · rw [exec_commandComplete q i s wf, completeCommand_succeeded found unsignalled done]
  · rw [exec_commandComplete q i s wf, completeCommand_failed found unsignalled done failed stops]
  · rw [exec_completionFlushDone q s wf, flushDone_returned flushing may]
  · exact next_of_row (exec_intCoalesceExpiry q s wf) (coalesceExpiry_uncovered coalescing uncovered) (msix_pending ..)
  · exact next_of_row (exec_intCoalesceExpiry q s wf) (coalesceExpiry_covered coalescing covered) rfl

end Sys2Proof.Machine
end

section
/-!
SUPPORT. What the host reads and writes: CAUSE bits, configuration and BAR0 (R399, R400, R408, R416 to R418), the movable
window of BAR2 (R401, R402, R404), and the rings of BAR4 with their windows (R420 to R424, R428).
-/
namespace Sys2Proof.Machine

/-! ## Configuration writes and refused accesses of BAR0 (R399, R416 to R418) -/

/-- The endpoint's configuration after a configuration write. -/
def configured (bme mask d3 : Bool) (s : State) : State :=
  { s with host := { s.host with bme := bme, funcMask := mask, msixEnable := bme, d3hot := d3 } }

theorem configWrite_stays {d : Bool} {s : State} (stays : d = false ∨ s.host.d3hot = true) (b m : Bool) :
    configWrite b m d s = resumeHost (configured b m d s) := by
  have enters : (d && !s.host.d3hot) = false := by
    rcases stays with h | h <;> simp only [h, Bool.false_and, Bool.not_true, Bool.and_false]
  simp only [configWrite, enters, Bool.false_eq_true, if_false]
  rfl

theorem configWrite_enters {s : State} (awake : s.host.d3hot = false) (b m : Bool) :
    configWrite b m true s = hostLoss (configured b m true s) := by
  simp only [configWrite, awake, Bool.not_false, Bool.and_self, if_true]
  rfl

section
variable {o n : Nat} (odd : (n ≠ 4 ∧ n ≠ 8) ∨ o % n ≠ 0)
include odd

/-- R399: an access of another size, or not aligned to its size. -/
theorem bar0_misfit : (!(n == 4 || n == 8) || o % n != 0) = true := by
  rcases odd with ⟨four, eight⟩ | offset
  · rw [beq_false_of_ne four, beq_false_of_ne eight, Bool.or_self, Bool.not_false, Bool.true_or]
  · rw [bne_iff_ne.mpr offset, Bool.or_true]

theorem bar0Write_misfit (v : Nat) (s : State) : bar0Write o n v s = count E.BAR_ACCESS_REFUSED s :=
  if_pos (bar0_misfit odd)

theorem bar0Read_misfit (s : State) : bar0Read o n s = (zeros n, count E.BAR_ACCESS_REFUSED s) := by
  have misfit := bar0_misfit odd
  have unread : ((n == 4 || n == 8) && o % n == 0) = false := by
    rw [← Bool.not_inj_iff, Bool.not_and]
    exact misfit
  simp only [bar0Read, unread, Bool.false_and, Bool.false_eq_true, if_false]
  rfl

end

/-- Settles O25: a configuration write by whether it enters D3hot; an access of BAR0 that fits no register is refused. -/
theorem causesAndConfiguration : Obligations.CausesAndConfiguration := by
  unfold Obligations.CausesAndConfiguration
  refine ⟨fun m s wf => next_of_row (exec_causeClear m s wf) rfl rfl, fun b m d s stays => ?_, fun b m s awake => ?_,
    fun o n v s wf odd => ?_, fun o n s odd => bar0Read_misfit odd s⟩
  · rw [exec_configurationWrite b m d s rfl, configWrite_stays stays, configured]
  · rw [exec_configurationWrite b m true s rfl, configWrite_enters awake, configured]
  · rw [exec_registerWrite _ s wf, registerWrite, bar0Write_misfit odd]

/-! ## The movable window of BAR2 (R401, R402, R404) -/

section
variable {o : Nat} {s : State} (serving : serves s = true)
include serving

theorem readBar2_passed {n : Nat} (passed : readRefusal s (addrOff (windowAddr s o)) n = 0) {v : (Bytes × Bool) × State}
    (current : accessRead (windowAddr s o) n s = v) :
    readBar2 o n s = emit (.readData v.1.1 v.1.2) (whenS v.1.2 (count E.HOST_POISON_READS) v.2) := by
  simp only [readBar2, serving, passed, current, Bool.not_true, Bool.false_eq_true, if_false, bne_self_eq_false]

theorem readBar2_refused {n : Nat} (refused : readRefusal s (addrOff (windowAddr s o)) n ≠ 0) :
    readBar2 o n s = emit .unsupportedRequest (barRefused (readRefusal s (addrOff (windowAddr s o)) n) s) := by
  simp only [readBar2, serving, bne_iff_ne.mpr refused, Bool.not_true, Bool.false_eq_true, if_false, if_true]

section
variable {b : Bytes} (x : Bool)

theorem writeBar2_passed
    (passed : writeRefusal s (addrDie (windowAddr s o)) (addrOff (windowAddr s o)) b.length = 0) :
    writeBar2 o b x s = writeRange (windowAddr s o) b x (whenS x (count E.HOST_POISON_WRITES) s) := by
  simp only [writeBar2, serving, passed, Bool.not_true, Bool.false_eq_true, if_false, bne_self_eq_false]

theorem writeBar2_refused
    (refused : writeRefusal s (addrDie (windowAddr s o)) (addrOff (windowAddr s o)) b.length ≠ 0) :
    writeBar2 o b x s =
      barRefused (writeRefusal s (addrDie (windowAddr s o)) (addrOff (windowAddr s o)) b.length) s := by
  simp only [writeBar2, serving, bne_iff_ne.mpr refused, Bool.not_true, Bool.false_eq_true, if_false, if_true]

end

end

/-- Settles O26: an access by whether memory refuses its range. -/
theorem windowAccesses : Obligations.WindowAccesses := by
  unfold Obligations.WindowAccesses
  refine ⟨fun o n a s wf serving at_ => ?_, fun o b x a s wf serving at_ => ?_⟩
  · subst at_
    rw [exec_bar2Read o n s wf]
    exact ⟨fun passed v current => by rw [readBar2_passed serving passed current],
      fun refused => by rw [readBar2_refused serving refused]⟩
  · subst at_
    rw [exec_bar2Write o b x s wf]
    exact ⟨fun passed => by rw [writeBar2_passed serving x passed],
      fun refused => by rw [writeBar2_refused serving x refused]⟩

/-! ## Rings and their windows (R420 to R424, R428) -/

section
variable {r : Nat} {s : State}

section
variable (serving : serves s = true) (off : (ring s r).enable = false)
include serving off

theorem enableRing_valid (valid : ringConfigOk s r = true) : enableRing r s = setRing r { ring s r with
    enable := true, state := .active, producer := 0, consumer := 0, readyStep := 0, consumedStep := 0
    incomplete := false, parsed := 0, dropSeen := false, inFlight := [] } s := by
  simp only [enableRing, ringEnable, serving, off, valid, if_true, Bool.false_eq_true, if_false]
  rfl

theorem enableRing_invalid (invalid : ringConfigOk s r = false) : enableRing r s = raise 0x0108 r
    (setRing r { ring s r with enable := false, state := .off, stopStatus := 0x0108 } s) := by
  simp only [enableRing, ringEnable, serving, off, invalid, if_true, Bool.false_eq_true, if_false]
  rfl

end

/-- R423: a window that its requester may write. -/
theorem window_writable {q : Nat} (open_ : (ring s r).kind ≠ .outlet)
    (may : (ring s r).reqFilter = false ∨ q = (ring s r).requester) :
    ((ring s r).kind == .outlet || ((ring s r).reqFilter && q != (ring s r).requester)) = false := by
  rcases may with h | h <;> simp [open_, h]

section
variable {q o x : Nat} {b : Bytes} (y : Bool) (serving : serves s = true)
include serving

theorem intakeWrite_outside (outside : windowRing s o b.length = none) :
    intakeWrite q o b y s = count E.BAR_ACCESS_REFUSED s := by
  simp only [intakeWrite, serving, if_true, windowWrite, outside]
  rfl

variable (inside : windowRing s o b.length = some (r, x))
include inside

theorem intakeWrite_dropped (dropped : (ring s r).kind = .outlet ∨ ((ring s r).reqFilter = true ∧ q ≠ (ring s r).requester)) :
    intakeWrite q o b y s = windowDrop r s := by
  have bars : ((ring s r).kind == .outlet || ((ring s r).reqFilter && q != (ring s r).requester)) = true := by
    simpa using dropped
  simp only [intakeWrite, serving, if_true, windowWrite, inside, bars]

section
variable (open_ : (ring s r).kind ≠ .outlet) (may : (ring s r).reqFilter = false ∨ q = (ring s r).requester)
include open_ may

theorem intakeWrite_passed (passed : writeRefusal s (addrDie ((ring s r).backing + x))
    (addrOff ((ring s r).backing + x)) b.length = 0) :
    intakeWrite q o b y s =
      writeRange ((ring s r).backing + x) b y (whenS y (count E.HOST_POISON_WRITES) s) := by
  simp only [intakeWrite, serving, if_true, windowWrite, inside, window_writable open_ may, passed,
    bne_self_eq_false, Bool.false_eq_true, if_false]

theorem intakeWrite_refused (refused : writeRefusal s (addrDie ((ring s r).backing + x))
    (addrOff ((ring s r).backing + x)) b.length ≠ 0) :
    intakeWrite q o b y s = barRefused (writeRefusal s (addrDie ((ring s r).backing + x))
      (addrOff ((ring s r).backing + x)) b.length) s := by
  simp only [intakeWrite, serving, if_true, windowWrite, inside, window_writable open_ may,
    bne_iff_ne.mpr refused, Bool.false_eq_true, if_false]

end

end

section
variable {o n x : Nat} (serving : serves s = true) (window : 0x100000 ≤ o) (inside : windowRing s o n = some (r, x))
include serving window inside

theorem exportRead_outlet (outlet : (ring s r).kind = .outlet)
    (passed : readRefusal s (addrOff ((ring s r).backing + x)) n = 0) {v : (Bytes × Bool) × State}
    (current : readRange ((ring s r).backing + x) n s = v) :
    exportRead o n s = emit (.readData v.1.1 v.1.2) (whenS v.1.2 (count E.HOST_POISON_READS) v.2) := by
  simp only [exportRead, serving, Bool.not_true, Bool.false_eq_true, if_false, Nat.not_lt.mpr window, windowRead, inside,
    outlet, passed, current, bne_self_eq_false]

theorem exportRead_other (other : (ring s r).kind ≠ .outlet) :
    exportRead o n s = emit (.readData (zeros n) false) s := by
  simp only [exportRead, serving, Bool.not_true, Bool.false_eq_true, if_false, Nat.not_lt.mpr window, windowRead, inside,
    bne_iff_ne.mpr other, if_true]

end

section
variable {v : Nat} (serving : serves s = true) (active : (ring s r).state = .active)
include serving active

section
variable (kind : (ring s r).kind = .batch ∨ (ring s r).kind = .gradient)
include kind

/-- R423: a ring that takes what the host produces. -/
theorem ring_produces :
    (!(serves s) || (ring s r).state != .active || !((ring s r).kind == .batch || (ring s r).kind == .gradient)) = false := by
  rcases kind with h | h <;> rw [serving, active, h] <;> rfl

theorem producerWrite_taken (aligned : v % 64 = 0) (rises : (ring s r).producer ≤ v)
    (within : v ≤ (ring s r).consumer + (ring s r).apertureBytes) :
    producerWrite r 8 v s = ringProgress r (setRing r { ring s r with producer := v } s) := by
  simp only [producerWrite, ring_produces serving active kind, aligned, Nat.not_lt.mpr rises, Nat.not_lt.mpr within,
    bne_self_eq_false, decide_false, Bool.or_self, Bool.false_eq_true, if_false]
  rfl

theorem producerWrite_outside
    (outside : v % 64 ≠ 0 ∨ v < (ring s r).producer ∨ (ring s r).consumer + (ring s r).apertureBytes < v) :
    producerWrite r 8 v s = ringStop r 0x0106 s := by
  have stops : ((8 : Nat) != 8 || v % 64 != 0 || decide (v < (ring s r).producer) ||
      decide ((ring s r).consumer + (ring s r).apertureBytes < v)) = true := by
    rcases outside with h | h | h <;> simp [h]
  simp only [producerWrite, ring_produces serving active kind, stops, Bool.false_eq_true, if_false, if_true]

theorem producerWrite_otherSize {n : Nat} (size : n ≠ 8) : producerWrite r n v s = ringStop r 0x0106 s := by
  simp only [producerWrite, ring_produces serving active kind, bne_iff_ne.mpr size, Bool.true_or, Bool.false_eq_true,
    if_false, if_true]

end

theorem consumedStepWrite_rises (outlet : (ring s r).kind = .outlet) (rises : (ring s r).consumedStep < v) :
    consumedStepWrite r v s = setRing r { ring s r with consumedStep := v } s := by
  have takes : (serves s && (ring s r).state == .active && (ring s r).kind == .outlet &&
      decide ((ring s r).consumedStep < v)) = true := by
    rw [serving, active, outlet, decide_eq_true rises]
    rfl
  exact if_pos takes

end

theorem producerWrite_unserved (stopped : serves s = false) (n v : Nat) : producerWrite r n v s = s := by
  simp only [producerWrite, stopped, Bool.not_false, Bool.true_or, if_true]

end

/-- Settles O27: enabling by the ring's fields, a window's access by its ring and by memory, a PRODUCER write by its size,
its value and whether the module serves. -/
theorem intakeRings : Obligations.IntakeRings := by
  unfold Obligations.IntakeRings
  refine ⟨fun r s wf serving off => ⟨fun valid => ?_, fun invalid => ?_⟩, fun r s wf => ?_,
    fun q o b y r x g s wf serving inside at_ => ?_, fun q o b y s wf serving outside => ?_,
    fun o n r x g s wf window serving inside at_ => ?_, fun r v s wf serving active kind => ?_,
    fun r n v s wf serving active kind size => ?_, fun r n v s wf stopped => ?_,
    fun r v s wf serving active outlet rises => ?_⟩
  · exact next_of_row (exec_ringEnable r s wf) (enableRing_valid serving off valid) rfl
  · rw [exec_ringEnable r s wf, enableRing_invalid serving off invalid]
  · exact next_of_row (exec_ringDisable r s wf) rfl rfl
  · subst at_
    rw [exec_intakeWindowWrite q o b y s wf]
    exact ⟨fun open_ may passed => by rw [intakeWrite_passed y serving inside open_ may passed],
      fun open_ may refused => by rw [intakeWrite_refused y serving inside open_ may refused],
      fun dropped => by rw [intakeWrite_dropped y serving inside dropped]⟩
  · rw [exec_intakeWindowWrite q o b y s wf, intakeWrite_outside y serving outside]
  · subst at_
    rw [exec_exportWindowRead o n s wf]
    exact ⟨fun outlet passed v current => by rw [exportRead_outlet serving window inside outlet passed current],
      fun other => by rw [exportRead_other serving window inside other]⟩
  · rw [exec_intakeProducerWrite r 8 v s wf]
    exact ⟨fun aligned rises within => by rw [producerWrite_taken serving active kind aligned rises within],
      fun outside => by rw [producerWrite_outside serving active kind outside]⟩
  · rw [exec_intakeProducerWrite r n v s wf, producerWrite_otherSize serving active kind size]
  · rw [exec_intakeProducerWrite r n v s wf, producerWrite_unserved stopped]
  · rw [exec_consumedStepWrite r v s wf, consumedStepWrite_rises serving active outlet rises]

end Sys2Proof.Machine
end

section
/-!
SUPPORT. The PCIe link and host loss (R415 to R418): what a host loss does to each queue, and what the registers of the
host interface leave alone.
-/
namespace Sys2Proof.Machine

/-! ## What raising an event leaves of the host interface -/

/-- The registers of the host interface that only a host loss and the host itself change. -/
def hostRegs (s : State) : Sparse Queue × Sparse Ring × Nat := (s.host.queues, s.host.rings, s.host.epoch)

@[simp] theorem hostRegs_emit (o : Out) (s : State) : hostRegs (emit o s) = hostRegs s := rfl
@[simp] theorem hostRegs_count (k : Nat) (s : State) : hostRegs (count k s) = hostRegs s := rfl
@[simp] theorem hostRegs_setEvents (e : EventLog) (s : State) : hostRegs (setEvents e s) = hostRegs s := rfl

@[simp] theorem hostRegs_sendHost (o : Out) (s : State) : hostRegs (sendHost o s) = hostRegs s := by
  unfold sendHost
  split
  · rfl
  · split <;> rfl

@[simp] theorem hostRegs_msix (v : Nat) (s : State) : hostRegs (msix v s) = hostRegs s := by
  unfold msix
  split
  · exact hostRegs_sendHost ..
  · rfl

@[simp] theorem hostRegs_causeErrorEvent (s : State) : hostRegs (causeErrorEvent s) = hostRegs s := by
  unfold causeErrorEvent
  split
  · rfl
  · exact hostRegs_msix ..

@[simp] theorem hostRegs_causeHostLoss (s : State) : hostRegs (causeHostLoss s) = hostRegs s := by
  unfold causeHostLoss
  split
  · rfl
  · exact hostRegs_msix ..

@[simp] theorem hostRegs_takeEvent (r : EventRec) (s : State) : hostRegs (takeEvent r s) = hostRegs s := by
  unfold takeEvent
  dsimp only
  split
  · rw [hostRegs_count]
  · split <;> simp

@[simp] theorem hostRegs_raise (c n : Nat) (s : State) : hostRegs (raise c n s) = hostRegs s := by
  unfold raise raiseAt
  dsimp only
  split
  · exact hostRegs_takeEvent ..
  · obtain ⟨d, l, e⟩ := bufferEvent_frame (eventNow c (endpointCoord s) n s) s
    rw [e]
    rfl

theorem queue_of_hostRegs {s t : State} (same : hostRegs t = hostRegs s) (q : Nat) : queue t q = queue s q := by
  rw [queue, queue, show t.host.queues = s.host.queues from congrArg Prod.fst same]

theorem rings_of_hostRegs {s t : State} (same : hostRegs t = hostRegs s) : t.host.rings = s.host.rings :=
  congrArg (fun r => r.2.1) same

theorem epoch_of_hostRegs {s t : State} (same : hostRegs t = hostRegs s) : t.host.epoch = s.host.epoch :=
  congrArg (fun r => r.2.2) same

/-! ## Changes of one queue -/

/-- At most one queue, and which commands of it wait for pegs, has changed of what a host loss looks at. -/
structure OnlyQueue (q : Nat) (s t : State) : Prop where
  others : ∀ r, r ≠ q → queue t r = queue s r
  rings : t.host.rings = s.host.rings
  epoch : t.host.epoch = s.host.epoch
  mem : t.mem = s.mem
  values : t.pegs.values = s.pegs.values

section
variable {q : Nat} {s t u : State}

theorem OnlyQueue.refl (q : Nat) (s : State) : OnlyQueue q s s := ⟨fun _ _ => rfl, rfl, rfl, rfl, rfl⟩

theorem OnlyQueue.trans (first : OnlyQueue q s t) (second : OnlyQueue q t u) : OnlyQueue q s u :=
  ⟨fun r other => (second.others r other).trans (first.others r other), second.rings.trans first.rings,
    second.epoch.trans first.epoch, second.mem.trans first.mem, second.values.trans first.values⟩

theorem OnlyQueue.set (only : OnlyQueue q s t) (v : Queue) : OnlyQueue q s (setQueue q v t) :=
  only.trans ⟨fun _ other => queue_setQueue_other other v t, rfl, rfl, rfl, rfl⟩

theorem onlyQueue_discardUnstarted (q : Nat) (s : State) : OnlyQueue q s (discardUnstarted q s) := by
  cases waiting : unstarted (queue s q) with
  | nil =>
    rw [discardUnstarted_none waiting]
    exact .refl q s
  | cons c cs =>
    rw [discardUnstarted_some waiting]
    have waits : OnlyQueue q s (dropWaits q ((c :: cs).map fun x => x.index) s) := ⟨fun _ _ => rfl, rfl, rfl, rfl, rfl⟩
    exact waits.set _

theorem queue_discardUnstarted (q : Nat) (s : State) :
    ∃ cs n, queue (discardUnstarted q s) q = { queue s q with cmds := cs, sqFetched := n } := by
  cases waiting : unstarted (queue s q) with
  | nil => exact ⟨_, _, by rw [discardUnstarted_none waiting]⟩
  | cons c cs => exact ⟨_, _, by rw [discardUnstarted_some waiting, queue_setQueue]⟩

/-- R417: a fenced queue writes none of its records. -/
theorem settleRecords_fenced (fenced : (queue s q).state = .fenced) :
    settleRecords q s = s ∨ ∃ cs, settleRecords q s = setQueue q { queue s q with cmds := cs } s := by
  cases none : (leadingComplete (queue s q)).isEmpty with
  | true => exact .inl (by simp only [settleRecords, none, if_true])
  | false =>
    exact .inr ⟨(queue s q).cmds.filter fun c => !(isComplete c),
      by simp only [settleRecords, none, Bool.false_eq_true, if_false, fenced, beq_self_eq_true, if_true]⟩

theorem onlyQueue_settleRecords (fenced : (queue s q).state = .fenced) : OnlyQueue q s (settleRecords q s) := by
  rcases settleRecords_fenced fenced with same | ⟨cs, same⟩ <;> rw [same]
  · exact .refl q s
  · exact (OnlyQueue.refl q s).set _

theorem onlyQueue_settleDisable (q : Nat) (s : State) : OnlyQueue q s (settleDisable q s) := by
  unfold settleDisable
  dsimp only
  split
  · exact (OnlyQueue.refl q s).set _
  · exact .refl q s

end

/-! ## Fencing one queue (R417, step 2) -/

section
variable {q : Nat} {s : State}

/-- A queue that a host loss fences. -/
abbrev fences (s : State) (q : Nat) : Prop := (queue s q).state ≠ .disabled ∧ hostRings (queue s q) = true

/-- A fenced queue before its records and its DISABLE are looked at. -/
def fencedFirst (q : Nat) (s : State) : State :=
  updQueue q (fun v => { v with
    state := .fenced, recheck := none, flushing := false, coalescing := false, uncovered := false }) (discardUnstarted q s)

theorem fenceQueue_skips (skips : ¬ fences s q) : fenceQueue q s = s := by
  have out : ((queue s q).state == .disabled || !(hostRings (queue s q))) = true := by
    simpa [fences, imp_iff_not_or] using skips
  exact if_pos out

theorem fenceQueue_fences (reached : fences s q) :
    fenceQueue q s = settleDisable q (settleRecords q (fencedFirst q s)) := by
  obtain ⟨enabled, host⟩ := reached
  simp only [fenceQueue, beq_false_of_ne enabled, host, Bool.not_true, Bool.or_self, Bool.false_eq_true, if_false]
  rfl

theorem fencedFirst_state (q : Nat) (s : State) : (queue (fencedFirst q s) q).state = .fenced := by
  rw [fencedFirst, updQueue, queue_setQueue]

theorem onlyQueue_fenceQueue (q : Nat) (s : State) : OnlyQueue q s (fenceQueue q s) := by
  by_cases reached : fences s q
  · rw [fenceQueue_fences reached]
    have first : OnlyQueue q s (fencedFirst q s) := (onlyQueue_discardUnstarted q s).set _
    exact (first.trans (onlyQueue_settleRecords (fencedFirst_state q s))).trans (onlyQueue_settleDisable q _)
  · rw [fenceQueue_skips reached]
    exact .refl q s

/-- A queue that is fenced, or that the next host loss fences, and that is not being disabled. -/
abbrev fenceable (s : State) (q : Nat) : Prop := fences s q ∧ (queue s q).disabling = false

theorem fenceQueue_state (reached : fenceable s q) :
    fenceable (fenceQueue q s) q ∧ (queue (fenceQueue q s) q).state = .fenced := by
  obtain ⟨⟨enabled, host⟩, kept⟩ := reached
  obtain ⟨cs, n, discarded⟩ := queue_discardUnstarted q s
  have first : queue (fencedFirst q s) q = { queue s q with
      cmds := cs, sqFetched := n, state := .fenced, recheck := none, flushing := false, coalescing := false
      uncovered := false } := by rw [fencedFirst, updQueue, queue_setQueue, discarded]
  have records : ∃ ds, queue (settleRecords q (fencedFirst q s)) q = { queue (fencedFirst q s) q with cmds := ds } := by
    rcases settleRecords_fenced (fencedFirst_state q s) with same | ⟨ds, same⟩
    · exact ⟨_, by rw [same]⟩
    · exact ⟨ds, by rw [same, queue_setQueue]⟩
  obtain ⟨ds, records⟩ := records
  rw [first] at records
  have stays : settleDisable q (settleRecords q (fencedFirst q s)) = settleRecords q (fencedFirst q s) :=
    settleDisable_kept (by rw [records]; exact kept)
  rw [fenceQueue_fences ⟨enabled, host⟩, stays, fenceable, fences, records]
  exact ⟨⟨⟨nofun, host⟩, kept⟩, rfl⟩

end

/-! ## Fencing every queue -/

section
variable {q : Nat}

/-- Queues whose rings are both in module memory stay as they are. -/
theorem queue_forEach_fenceQueue {l : List Nat} {s : State} (device : hostRings (queue s q) = false) :
    queue (forEach l fenceQueue s) q = queue s q := by
  refine forEach_inv (fun t => queue t q = queue s q) l fenceQueue (fun r t same => ?_) s rfl
  by_cases here : q = r
  · subst here
    rw [fenceQueue_skips (by rw [fences, same, device]; simp), same]
  · rw [(onlyQueue_fenceQueue r t).others q here, same]

/-- A queue stays fenced, whichever is fenced next. -/
theorem fenceQueue_keeps_fenced (r : Nat) {s : State} (reached : fenceable s q ∧ (queue s q).state = .fenced) :
    fenceable (fenceQueue r s) q ∧ (queue (fenceQueue r s) q).state = .fenced := by
  by_cases here : q = r
  · subst here
    exact fenceQueue_state reached.1
  · rwa [fenceable, fences, (onlyQueue_fenceQueue r s).others q here]

theorem forEach_fenceQueue_state {l : List Nat} (mem : q ∈ l) :
    ∀ {s : State}, fenceable s q → (queue (forEach l fenceQueue s) q).state = .fenced := by
  induction l with
  | nil => cases mem
  | cons r l ih =>
    intro s reached
    rw [forEach_cons]
    by_cases here : q = r
    · subst here
      exact (forEach_inv (fun t => fenceable t q ∧ (queue t q).state = .fenced) l fenceQueue
        (fun r _ fenced => fenceQueue_keeps_fenced r fenced) _ (fenceQueue_state reached)).2
    · refine ih ((List.mem_cons.mp mem).resolve_left here) ?_
      rwa [fenceable, fences, (onlyQueue_fenceQueue r s).others q here]

theorem forEach_fenceQueue_kept (l : List Nat) (s : State) :
    (forEach l fenceQueue s).host.rings = s.host.rings ∧ (forEach l fenceQueue s).host.epoch = s.host.epoch ∧
    (forEach l fenceQueue s).mem = s.mem ∧ (forEach l fenceQueue s).pegs.values = s.pegs.values :=
  forEach_inv (fun t => t.host.rings = s.host.rings ∧ t.host.epoch = s.host.epoch ∧ t.mem = s.mem ∧
    t.pegs.values = s.pegs.values) l fenceQueue (fun r t ⟨rings, epoch, mem, values⟩ =>
      have only := onlyQueue_fenceQueue r t
      ⟨only.rings.trans rings, only.epoch.trans epoch, only.mem.trans mem, only.values.trans values⟩) s ⟨rfl, rfl, rfl, rfl⟩

end

/-! ## Host loss (R417) -/

/-- A host loss, counted, before the queues are fenced. -/
def lossBegun (s : State) : State :=
  count E.HOST_LOSS_EVENTS (setHostIf { s.host with heldOut := [], lost := true, lossTimer := false } s)

def nextEpoch (n : Nat) : Nat := if n = 0xFFFF then 1 else n + 1

/-- The next epoch begins. -/
def epochBegun (s : State) : State := setHostIf { s.host with epoch := nextEpoch s.host.epoch } s

/-- A host loss with its queues fenced and its epoch begun, before it is flagged. -/
def lossFenced (s : State) : State := epochBegun (forEach allQueues fenceQueue (lossBegun s))

theorem hostLoss_eq (s : State) :
    hostLoss s = raise 0x0104 (lossFenced s).host.epoch (causeHostLoss (lossFenced s)) := by
  simp only [hostLoss, lossFenced, lossBegun]
  generalize forEach allQueues fenceQueue _ = t
  rfl

theorem queue_lossBegun (q : Nat) (s : State) : queue (lossBegun s) q = queue s q := queue_count ..

theorem hostRegs_hostLoss (s : State) : hostRegs (hostLoss s) = hostRegs (lossFenced s) := by
  rw [hostLoss_eq, hostRegs_raise, hostRegs_causeHostLoss]

theorem queue_hostLoss (q : Nat) (s : State) :
    queue (hostLoss s) q = queue (forEach allQueues fenceQueue (lossBegun s)) q := by
  rw [queue_of_hostRegs (hostRegs_hostLoss s), lossFenced]
  generalize forEach allQueues fenceQueue _ = t
  rfl

theorem epochBegun_kept (s : State) : (epochBegun s).host.rings = s.host.rings ∧
    (epochBegun s).host.epoch = nextEpoch s.host.epoch ∧ (epochBegun s).mem = s.mem ∧ (epochBegun s).pegs = s.pegs :=
  ⟨rfl, rfl, rfl, rfl⟩

theorem lossBegun_kept (s : State) : (lossBegun s).host.rings = s.host.rings ∧
    (lossBegun s).host.epoch = s.host.epoch ∧ (lossBegun s).mem = s.mem ∧ (lossBegun s).pegs = s.pegs := by
  rw [lossBegun, count_host, count_mem, count_pegs]
  exact ⟨rfl, rfl, rfl, rfl⟩

/-- What a host loss leaves, but for the epoch, as it was. -/
theorem lossFenced_kept (s : State) : (lossFenced s).host.rings = s.host.rings ∧
    (lossFenced s).host.epoch = nextEpoch s.host.epoch ∧ (lossFenced s).mem = s.mem ∧
    (lossFenced s).pegs.values = s.pegs.values := by
  obtain ⟨rings, epoch, mem, pegs⟩ := lossBegun_kept s
  obtain ⟨rings', epoch', mem', values'⟩ := forEach_fenceQueue_kept allQueues (lossBegun s)
  obtain ⟨rings'', epoch'', mem'', pegs''⟩ := epochBegun_kept (forEach allQueues fenceQueue (lossBegun s))
  rw [lossFenced, rings'', epoch'', mem'', pegs'', rings', epoch', mem', values', rings, epoch, mem, pegs]
  exact ⟨rfl, rfl, rfl, rfl⟩

theorem flagged_kept (c n : Nat) (s : State) :
    (raise c n (causeHostLoss s)).mem = s.mem ∧ (raise c n (causeHostLoss s)).pegs = s.pegs := by
  obtain ⟨d, l, h, b, e⟩ := raise_frame c n (causeHostLoss s)
  obtain ⟨h', b', e'⟩ := causeHostLoss_frame s
  rw [e, e']
  exact ⟨rfl, rfl⟩

theorem hostLoss_epoch (s : State) : (hostLoss s).host.epoch = nextEpoch s.host.epoch :=
  (epoch_of_hostRegs (hostRegs_hostLoss s)).trans (lossFenced_kept s).2.1

theorem hostLoss_kept (s : State) :
    (hostLoss s).host.rings = s.host.rings ∧ (hostLoss s).mem = s.mem ∧ (hostLoss s).pegs.values = s.pegs.values := by
  obtain ⟨rings, -, mem, values⟩ := lossFenced_kept s
  obtain ⟨flaggedMem, flaggedPegs⟩ := flagged_kept 0x0104 (lossFenced s).host.epoch (lossFenced s)
  exact ⟨(rings_of_hostRegs (hostRegs_hostLoss s)).trans rings, by rw [hostLoss_eq, flaggedMem, mem],
    by rw [hostLoss_eq, flaggedPegs, values]⟩

/-! ## The link (R415, R506) -/

section
variable {s : State}

theorem linkExit_up (up : s.host.linkL0 = true) : linkExit s =
    { s with host := { s.host with lossTimer := true, linkL0 := false, speed := 0, width := 0 } } := if_pos up

theorem linkReturn_recovers (down : s.host.linkL0 = false) (released : s.host.perst = false)
    (timed : s.host.lossTimer = true) : linkReturn s = linkUp (count E.HOST_LINK_RECOVERIES s) := by
  simp only [linkReturn, down, released, timed, Bool.or_self, Bool.false_eq_true, if_false, whenS_true]

theorem lossTimeout_due (timed : s.host.lossTimer = true) : lossTimeout s = hostLoss (resetConfig s) := if_pos timed

section
variable (ready : endpointReady s = true)
include ready

theorem perstOn_ready :
    perstOn s = hostLoss (resetConfig (linkDown { s with host := { s.host with perst := true } })) :=
  if_pos (show endpointReady (setHostIf { s.host with perst := true } s) = true from ready)

theorem perstOff_ready (down : s.host.linkL0 = false) :
    perstOff s = linkUp { s with host := { s.host with perst := false } } := by
  have trains : (endpointReady (setHostIf { s.host with perst := false } s) &&
      !(setHostIf { s.host with perst := false } s).host.linkL0) = true := by
    rw [show endpointReady (setHostIf { s.host with perst := false } s) = true from ready]
    exact congrArg (!·) down
  exact if_pos trains

end

end

/-- Settles O30: each event of the link by whether the link is in L0 and its timer runs; a host loss by what it leaves of
the epoch, of the rings, and of each queue, which it fences or passes over. -/
theorem hostLoss_holds : Obligations.HostLoss := by
  unfold Obligations.HostLoss
  refine ⟨fun s up => next_of_row (exec_pcieLinkExitL0 s rfl) (linkExit_up up) rfl, fun s down released timed => ?_,
    fun s timed => ?_, fun s ready => ?_, fun s ready down => ?_, fun s => exec_functionLevelReset s rfl,
    fun s => exec_pcieHotReset s rfl, fun s => exec_d3hotEntry s rfl, hostLoss_epoch, hostLoss_kept,
    fun q s small enabled host kept => ?_, fun q s device => ?_⟩
  · rw [exec_pcieLinkReturnL0 s rfl, linkReturn_recovers down released timed]
  · rw [exec_hostLossTimeout s rfl, lossTimeout_due timed]
  · rw [exec_perstAssert s rfl, perstOn_ready ready]
  · rw [exec_perstDeassert s rfl, perstOff_ready ready down]
  · rw [queue_hostLoss]
    refine forEach_fenceQueue_state (List.mem_range.mpr small) ?_
    rw [fenceable, fences, queue_lossBegun]
    exact ⟨⟨enabled, host⟩, kept⟩
  · rw [queue_hostLoss, queue_forEach_fenceQueue (by rw [queue_lossBegun]; exact device), queue_lossBegun]

end Sys2Proof.Machine
end

section
/-!
SUPPORT. What the registers of the host interface leave alone (R400, R406, R407, R411, R414, R415, R420).
-/
namespace Sys2Proof.Machine

/-! ## A state but for the host interface, and but for what an event changes -/

def besideHost (s : State) : State := { s with host := {} }
def besideSending (s : State) : State := { s with host := {}, outbox := [] }
def besideEvents (s : State) : State := { s with dict := {}, lantern := {}, host := {}, outbox := [] }

section
variable {s t : State}

theorem host_of_besideHost (h : besideHost t = besideHost s) : t = { s with host := t.host } :=
  calc t = { besideHost t with host := t.host } := rfl
    _ = { besideHost s with host := t.host } := by rw [h]
    _ = { s with host := t.host } := rfl

theorem sending_of_besideSending (h : besideSending t = besideSending s) :
    t = { s with host := t.host, outbox := t.outbox } :=
  calc t = { besideSending t with host := t.host, outbox := t.outbox } := rfl
    _ = { besideSending s with host := t.host, outbox := t.outbox } := by rw [h]
    _ = { s with host := t.host, outbox := t.outbox } := rfl

theorem frame_of_besideEvents (h : besideEvents t = besideEvents s) :
    sameRun s t ∧ t.power = s.power ∧ t.fabric = s.fabric ∧ t.twin = s.twin := by
  have same {α : Type} (field : State → α) : field (besideEvents t) = field (besideEvents s) := congrArg field h
  exact ⟨⟨same State.mem, same State.pegs, same State.ridge, same State.loadState, same State.plan, same State.sets,
    same State.tensors, same State.programs, same State.step, same State.holds, same State.place, same State.rowOps,
    same State.gen, same State.rowEng, same State.watch, same State.life⟩, same State.power, same State.fabric,
    same State.twin⟩

end

@[simp] theorem besideHost_setQueue (q : Nat) (v : Queue) (s : State) : besideHost (setQueue q v s) = besideHost s := rfl
@[simp] theorem besideEvents_count (k : Nat) (s : State) : besideEvents (count k s) = besideEvents s := rfl
@[simp] theorem besideEvents_setQueue (q : Nat) (v : Queue) (s : State) :
    besideEvents (setQueue q v s) = besideEvents s := rfl
@[simp] theorem besideEvents_setRing (r : Nat) (g : Ring) (s : State) :
    besideEvents (setRing r g s) = besideEvents s := rfl

@[simp] theorem besideEvents_raise (c n : Nat) (s : State) : besideEvents (raise c n s) = besideEvents s := by
  obtain ⟨d, l, h, b, e⟩ := raise_frame c n s
  rw [e]
  rfl

@[simp] theorem besideEvents_raiseOnce (c n : Nat) (s : State) : besideEvents (raiseOnce c n s) = besideEvents s := by
  obtain ⟨d, l, h, b, e⟩ := raiseOnce_frame c n s
  rw [e]
  rfl

@[simp] theorem besideEvents_ignoreDoorbell (q : Nat) (s : State) :
    besideEvents (ignoreDoorbell q s) = besideEvents s :=
  (besideEvents_raiseOnce _ _ _).trans (besideEvents_count _ _)

/-! ## The rows -/

theorem besideHost_linkExit (s : State) : besideHost (linkExit s) = besideHost s := by
  unfold linkExit
  split <;> rfl

theorem besideSending_msix (v : Nat) (s : State) : besideSending (msix v s) = besideSending s := by
  obtain ⟨h, b, e⟩ := msix_frame v s
  rw [e]
  rfl

theorem besideSending_coalesceExpiry (q : Nat) (s : State) : besideSending (coalesceExpiry q s) = besideSending s := by
  unfold coalesceExpiry
  dsimp only
  split
  · rfl
  · split
    · rw [besideSending_msix]
      rfl
    · rfl

theorem besideEvents_doorbellSq (q i : Nat) (s : State) : besideEvents (doorbellSq q i s) = besideEvents s := by
  unfold doorbellSq
  dsimp only
  split
  · split <;> rfl
  · exact besideEvents_ignoreDoorbell q s

theorem besideEvents_doorbellCq (q i : Nat) (s : State) : besideEvents (doorbellCq q i s) = besideEvents s := by
  unfold doorbellCq
  dsimp only
  split
  · rfl
  · exact besideEvents_ignoreDoorbell q s

theorem besideEvents_enableQueue (q : Nat) (s : State) : besideEvents (enableQueue q s) = besideEvents s := by
  unfold enableQueue
  dsimp only
  split
  · rfl
  · split
    · rfl
    · split
      · rfl
      · rw [besideEvents_raise, besideEvents_setQueue]

theorem besideEvents_enableRing (r : Nat) (s : State) : besideEvents (enableRing r s) = besideEvents s := by
  unfold enableRing ringEnable ringInvalid
  split
  · split
    · rfl
    · split
      · rfl
      · rw [besideEvents_raise, updRing, besideEvents_setRing]
  · rfl

/-- Settles O59: each row's effect leaves its frame alone, and so does the row, whether or not a sender can send it. -/
theorem hostFrame : Obligations.HostFrame := by
  unfold Obligations.HostFrame
  have host {c : Instr} {f : State → State} {s t : State} (work : besideHost (f s) = besideHost s)
      (h : guarded c f s = .next t) := host_of_besideHost (guarded_beside (fun _ _ => rfl) work h)
  have sending {c : Instr} {f : State → State} {s t : State} (work : besideSending (f s) = besideSending s)
      (h : guarded c f s = .next t) := sending_of_besideSending (guarded_beside (fun _ _ => rfl) work h)
  have events {c : Instr} {f : State → State} {s t : State} (work : besideEvents (f s) = besideEvents s)
      (h : guarded c f s = .next t) := frame_of_besideEvents (guarded_beside (fun _ _ => rfl) work h)
  exact ⟨fun q s t => host (f := restartQueue q) rfl, fun r s t => host (f := ringDisable r) rfl,
    fun m s t => host (f := clearCauses m) rfl, fun s t => host (besideHost_linkExit s),
    fun q s t => sending (besideSending_coalesceExpiry q s), fun q i s t => events (besideEvents_doorbellSq q i s),
    fun q i s t => events (besideEvents_doorbellCq q i s), fun q s t => events (besideEvents_enableQueue q s),
    fun r s t => events (besideEvents_enableRing r s)⟩

end Sys2Proof.Machine
end

section
/-!
SUPPORT. What Lantern's own work and the sensors leave alone (R468, R471, R474, R478, R480, R484, R497, R515 to R526).
-/
namespace Sys2Proof.Machine

/-! ## A state but for what a command of Lantern or a sensor changes -/

def besideLantern (s : State) : State := { s with lantern := {} }
def besideSpdm (s : State) : State := { s with lantern := {}, outbox := [], free := 0 }
def besideReads (s : State) : State := { s with dict := {}, lantern := {}, outbox := [], free := 0 }
def besidePower (s : State) : State := { s with power := {} }
def besideSensors (s : State) : State := { s with dict := {}, lantern := {}, host := {}, power := {}, outbox := [] }

section
variable {s t : State}

theorem lantern_of_besideLantern (h : besideLantern t = besideLantern s) : t = { s with lantern := t.lantern } :=
  calc t = { besideLantern t with lantern := t.lantern } := rfl
    _ = { besideLantern s with lantern := t.lantern } := by rw [h]
    _ = { s with lantern := t.lantern } := rfl

theorem spdm_of_besideSpdm (h : besideSpdm t = besideSpdm s) :
    t = { s with lantern := t.lantern, outbox := t.outbox, free := t.free } :=
  calc t = { besideSpdm t with lantern := t.lantern, outbox := t.outbox, free := t.free } := rfl
    _ = { besideSpdm s with lantern := t.lantern, outbox := t.outbox, free := t.free } := by rw [h]
    _ = { s with lantern := t.lantern, outbox := t.outbox, free := t.free } := rfl

theorem power_of_besidePower (h : besidePower t = besidePower s) : t = { s with power := t.power } :=
  calc t = { besidePower t with power := t.power } := rfl
    _ = { besidePower s with power := t.power } := by rw [h]
    _ = { s with power := t.power } := rfl

theorem frame_of_besideReads (h : besideReads t = besideReads s) :
    sameRun s t ∧ t.power = s.power ∧ t.fabric = s.fabric ∧ t.host = s.host ∧ t.twin = s.twin := by
  have same {α : Type} (field : State → α) : field (besideReads t) = field (besideReads s) := congrArg field h
  exact ⟨⟨same State.mem, same State.pegs, same State.ridge, same State.loadState, same State.plan, same State.sets,
    same State.tensors, same State.programs, same State.step, same State.holds, same State.place, same State.rowOps,
    same State.gen, same State.rowEng, same State.watch, same State.life⟩, same State.power, same State.fabric,
    same State.host, same State.twin⟩

theorem frame_of_besideSensors (h : besideSensors t = besideSensors s) :
    sameRun s t ∧ t.fabric = s.fabric ∧ t.twin = s.twin := by
  have same {α : Type} (field : State → α) : field (besideSensors t) = field (besideSensors s) := congrArg field h
  exact ⟨⟨same State.mem, same State.pegs, same State.ridge, same State.loadState, same State.plan, same State.sets,
    same State.tensors, same State.programs, same State.step, same State.holds, same State.place, same State.rowOps,
    same State.gen, same State.rowEng, same State.watch, same State.life⟩, same State.fabric, same State.twin⟩

end

/-! ## Attestation, reads and descriptions -/

theorem besideSpdm_spdm (k : Nat) (b : Bytes) (s : State) : besideSpdm (spdm k b s) = besideSpdm s := by
  unfold spdm
  split <;> rfl

theorem besideReads_emit (x : Out) (s : State) : besideReads (emit x s) = besideReads s := rfl
theorem besideReads_setLantern (l : Lantern) (s : State) : besideReads (setLantern l s) = besideReads s := rfl
theorem besideReads_count (k : Nat) (s : State) : besideReads (count k s) = besideReads s := rfl

theorem besideReads_countRequest (p : Path) (refused : Bool) (s : State) :
    besideReads (countRequest p refused s) = besideReads s := by
  cases p with
  | odp _ _ => cases refused <;> simp only [countRequest, whenS_true, whenS_false, besideReads_count]
  | mailbox => exact besideReads_count _ _
  | _ => rfl

theorem besideReads_touchPath (p : Path) (s : State) : besideReads (touchPath p s) = besideReads s := by
  cases p <;> rfl

theorem besideReads_requested (p : Path) (writes : Bool) (f : State → Nat × Bytes × State) (s : State)
    (work : ∀ u, besideReads (f u).2.2 = besideReads u) : besideReads (requested p writes f s) = besideReads s := by
  unfold requested
  split
  · rfl
  · exact (besideReads_countRequest p _ _).trans ((work _).trans (besideReads_touchPath p s))

theorem besideReads_requestRead (p : Path) (i j : Nat) (s : State) :
    besideReads (requestRead p i j s) = besideReads s := besideReads_requested _ _ _ _ fun _ => rfl

theorem besideReads_requestDescribe (p : Path) (i j : Nat) (s : State) :
    besideReads (requestDescribe p i j s) = besideReads s := besideReads_requested _ _ _ _ fun _ => rfl

theorem besideReads_i3cRead (s : State) : besideReads (i3cRead s) = besideReads s := by
  unfold i3cRead
  split
  · rfl
  · rw [besideReads_emit, besideReads_setLantern, besideReads_count]
    rfl

/-! ## Firmware, the event log, the I3C controller and the clock -/

theorem besideLantern_fwVerifyDone (s : State) : besideLantern (fwVerifyDone s) = besideLantern s := by
  unfold fwVerifyDone
  dsimp only
  split
  · rfl
  · split <;> rfl

theorem besideLantern_i3cWrite (b : Bytes) (s : State) : besideLantern (i3cWrite b s) = besideLantern s := by
  unfold i3cWrite
  split
  · rfl
  · split <;> rfl

theorem besideLantern_i3cAssign (a : Nat) (i : Bool) (s : State) :
    besideLantern (i3cAssign a i s) = besideLantern s := by
  unfold i3cAssign
  split <;> rfl

theorem besideEvents_ptpLost (s : State) : besideEvents (ptpLost s) = besideEvents s := by
  unfold ptpLost
  split
  · exact besideEvents_raise _ _ _
  · rfl

theorem besideEvents_ptpMessage (m : PtpMsg) (o : Int) (locked : Bool) (s : State) :
    besideEvents (ptpMessage m o locked s) = besideEvents s := by
  have asked : besideEvents (whenS m.sync (emit (.ptpDelayRequest m.domain)) s) = besideEvents s := by
    cases m.sync <;> rfl
  unfold ptpMessage
  split
  · rfl
  · cases locked
    · exact (besideEvents_ptpLost _).trans asked
    · exact asked

/-! ## The sensors -/

@[simp] theorem besideSensors_raise (c n : Nat) (s : State) : besideSensors (raise c n s) = besideSensors s := by
  obtain ⟨d, l, h, b, e⟩ := raise_frame c n s
  rw [e]
  rfl

@[simp] theorem besideSensors_raiseAt (c n v : Nat) (s : State) : besideSensors (raiseAt c n v s) = besideSensors s := by
  obtain ⟨d, l, h, b, e⟩ := raiseAt_frame c n v s
  rw [e]
  rfl

@[simp] theorem besideSensors_count (k : Nat) (s : State) : besideSensors (count k s) = besideSensors s := rfl
@[simp] theorem besideSensors_countN (k n : Nat) (s : State) : besideSensors (countN k n s) = besideSensors s := by
  obtain ⟨d, e⟩ := countN_frame k n s
  rw [e]
  rfl
@[simp] theorem besideSensors_setPower (p : Power) (s : State) : besideSensors (setPower p s) = besideSensors s := rfl

@[simp] theorem besideSensors_stepDown (k : Nat) (s : State) : besideSensors (stepDown k s) = besideSensors s := by
  unfold stepDown
  split <;> rfl

theorem besideSensors_feedUnder (f : Nat) (s : State) : besideSensors (feedUnder f s) = besideSensors s := by
  unfold feedUnder
  dsimp only
  split
  · exact besideSensors_raise _ _ _
  · rfl

theorem besideSensors_thermal (hbm : Bool) (u v : Nat) (s : State) :
    besideSensors (thermal hbm u v s) = besideSensors s := by
  cases hbm <;> simp only [thermal, Bool.false_eq_true, if_false, if_true]
  all_goals
    split
    · split <;> simp only [besideSensors_raiseAt, besideSensors_stepDown, besideSensors_setPower]
    · split <;> rfl

theorem besideSensors_flowLow (low : Bool) (s : State) : besideSensors (flowLow low s) = besideSensors s := by
  unfold flowLow
  split
  · simp only [besideSensors_raise, besideSensors_count, besideSensors_setPower]
  · split <;> rfl

theorem besideSensors_meter (mw : Nat) (s : State) : besideSensors (meter mw s) = besideSensors s := by
  unfold meter
  dsimp only
  split <;> simp only [besideSensors_countN, besideSensors_setPower]

theorem besideSensors_powerInterval (mw : Nat) (s : State) : besideSensors (powerInterval mw s) = besideSensors s := by
  have told (b : Bool) (u : State) : besideSensors (whenS b (raise 0x0B09 (mw / 1000)) u) = besideSensors u := by
    cases b
    · rfl
    · exact besideSensors_raise _ _ _
  unfold powerInterval
  dsimp only
  rw [told]
  split
  · simp only [besideSensors_stepDown, besideSensors_setPower, besideSensors_meter]
  · split <;> simp only [besideSensors_stepDown, besideSensors_setPower, besideSensors_meter]

theorem besidePower_throttleRaise (mw : Nat) (s : State) : besidePower (throttleRaise mw s) = besidePower s := by
  unfold throttleRaise
  split <;> rfl

theorem besidePower_senseSample (vs : List W32) (s : State) : besidePower (senseSample vs s) = besidePower s := by
  unfold senseSample
  split
  · rfl
  · refine forEach_inv (fun t => besidePower t = besidePower s) _ _ (fun x t kept => ?_) _ rfl
    exact kept

/-- Settles O60: each row's effect leaves its frame alone, and so does the row, whether or not a sender can send it. -/
theorem lanternAndSensorFrame : Obligations.LanternAndSensorFrame := by
  unfold Obligations.LanternAndSensorFrame
  have attests {c : Instr} {k : Nat} {b : Bytes} {s t : State} (h : guarded c (spdm k b) s = .next t) :=
    spdm_of_besideSpdm (guarded_beside (fun _ _ => rfl) (besideSpdm_spdm k b s) h)
  have lantern {c : Instr} {f : State → State} {s t : State} (work : besideLantern (f s) = besideLantern s)
      (h : guarded c f s = .next t) := lantern_of_besideLantern (guarded_beside (fun _ _ => rfl) work h)
  have reads {c : Instr} {f : State → State} {s t : State} (work : besideReads (f s) = besideReads s)
      (h : guarded c f s = .next t) := frame_of_besideReads (guarded_beside (fun _ _ => rfl) work h)
  have events {c : Instr} {f : State → State} {s t : State} (work : besideEvents (f s) = besideEvents s)
      (h : guarded c f s = .next t) := frame_of_besideEvents (guarded_beside (fun _ _ => rfl) work h)
  have sensors {c : Instr} {f : State → State} {s t : State} (work : besideSensors (f s) = besideSensors s)
      (h : guarded c f s = .next t) := frame_of_besideSensors (guarded_beside (fun _ _ => rfl) work h)
  have powers {c : Instr} {f : State → State} {s t : State} (work : besidePower (f s) = besidePower s)
      (h : guarded c f s = .next t) := power_of_besidePower (guarded_beside (fun _ _ => rfl) work h)
  refine ⟨fun _ _ _ => attests, fun _ _ _ => attests, fun _ _ _ => attests, fun _ _ _ => attests, fun _ _ _ => attests,
    fun _ _ _ => attests, fun _ _ _ => attests, fun _ _ _ => attests,
    fun s t => lantern (besideLantern_fwVerifyDone s), fun s t => lantern (f := rateInterval) rfl,
    fun s t => lantern (f := flushEvents) rfl, fun b s t => lantern (besideLantern_i3cWrite b s),
    fun a i s t => lantern (besideLantern_i3cAssign a i s),
    fun p i j s t => reads (besideReads_requestDescribe p i j s), fun p i j s t => reads (besideReads_requestRead p i j s),
    fun p s t => reads (besideReads_requestRead p _ _ s), fun s t => reads (besideReads_i3cRead s),
    fun m o k s t => events (besideEvents_ptpMessage m o k s), fun s t => events (besideEvents_ptpLost s),
    fun f s t => sensors (besideSensors_feedUnder f s), fun hbm u v s t => sensors (besideSensors_thermal hbm u v s),
    fun low s t => sensors (besideSensors_flowLow low s), fun mw s t => sensors (besideSensors_powerInterval mw s),
    fun mw s t => powers (besidePower_throttleRaise mw s), fun vs s t => powers (besidePower_senseSample vs s),
    fun u hot s t => powers (f := refreshDoubled u hot) rfl, fun s t h => ?_⟩
  rcases guarded_cases h with ⟨-, rfl⟩ | ⟨-, rfl⟩ <;> rfl

end Sys2Proof.Machine
end

section
/-!
SUPPORT. How a start begins and goes on, from input power to READY (R502, R503, R508).
-/
namespace Sys2Proof.Machine

/-! ## A cold start from input power (R502, R503) -/

section
variable (s : State)

theorem coldFromPower_life : (coldFromPower s).life = { s.life with
    standbyRail := true, powState := .standby, faultUnits := [], modState := .init, start := some .cold, stage := 1
    overruns := 0, retryWait := false, startHalted := false, awaitsFeed := false, recovery := false
    bridgeErrors := 0 } := by
  simp only [coldFromPower, beginStart, resetDies, resetDict, setLife, setLantern, setFabric, capture_life,
    resetUnits_life, setLoad_life, emptyRun]

theorem coldFromPower_lantern :
    (coldFromPower s).lantern = { (resetDict s).lantern with serving := false, ptpLocked := false } := by
  simp only [coldFromPower, beginStart, resetDies, setLife, setLantern, setFabric, capture_lantern, resetUnits_lantern,
    setLoad_lantern, emptyRun]

theorem coldFromPower_fw : (coldFromPower s).lantern.fw = s.lantern.fw := by rw [coldFromPower_lantern]; rfl

theorem coldFromPower_records :
    (coldFromPower s).lantern.events.records = s.lantern.events.records := by rw [coldFromPower_lantern]; rfl

theorem coldFromPower_mem : (coldFromPower s).mem = {} := rfl

theorem coldFromPower_loadState : (coldFromPower s).loadState = .idle := by
  simp only [coldFromPower, beginStart, resetDies, setLife, setLantern, setFabric, capture_loadState,
    resetUnits_loadState, setLoad_loadState]

theorem coldFromPower_pending : (coldFromPower s).pending = s.pending := by
  simp only [coldFromPower, beginStart, resetDies, resetDict, setLife, setLantern, setFabric, capture_pending,
    resetUnits_pending, setLoad_pending, emptyRun]

theorem coldFromPower_power : (coldFromPower s).power =
    { s.power with senseMax := [], senseMin := [], sampled := false, energyUj := 0 } := by
  simp only [coldFromPower, beginStart, resetDies, resetDict, setLife, setLantern, setFabric, capture_power,
    resetUnits_power, setLoad_power, emptyRun]

end

/-- R515: a feed in range conducts, whatever the other one does. -/
theorem inFeed_settled (f : Nat) (s : State) :
    inFeed (settleFeeds (setFeed f { connected := true } s)) f = { connected := true } := by
  unfold inFeed settleFeeds setFeed
  split <;> rfl

theorem inFeed_coldFromPower (f : Nat) (s : State) : inFeed (coldFromPower s) f = inFeed s f := by
  unfold inFeed
  rw [coldFromPower_power]

theorem feedIn_unpowered {f : Nat} {s : State} (dark : s.life.standbyRail = false) (quiet : s.life.pwrFailWarn = false) :
    feedIn f s = coldFromPower (settleFeeds (setFeed f { connected := true } s)) := by
  have unwarned : (settleFeeds (setFeed f { connected := true } s)).life.pwrFailWarn = false := quiet
  have unpowered : (settleFeeds (setFeed f { connected := true } s)).life.standbyRail = false := dark
  simp only [feedIn, unwarned, whenS_false, unpowered, Bool.not_false, Bool.true_or, if_true]

/-! ## The stages (R502, R508) -/

section
variable {rails : List Nat} {s : State} {k : StartKind}

/-- A start that neither waits nor is halted. -/
abbrev goesOn (k : StartKind) (s : State) : Prop :=
  s.life.start = some k ∧ s.life.retryWait = false ∧ s.life.startHalted = false

theorem stageDone_one (on : goesOn k s) (stage : s.life.stage = 1) :
    stageDone rails s = setLife { s.life with stage := 2 } s := by
  obtain ⟨start, noWait, notHalted⟩ := on
  simp only [stageDone, start, noWait, notHalted, stage, Bool.or_self, Bool.false_eq_true, if_false]

theorem stageDone_two (on : goesOn k s) (stage : s.life.stage = 2) (confirmed : s.lantern.fw.trialB = none)
    (valid : fwValid s.lantern.fw s.lantern.fw.activeB = true) (empty : s.lantern.events.buffered = []) :
    stageDone rails s = { s with
      life := { s.life with
        stage := 3, conversion := true, powState := .active, retryWait := false, startHalted := false }
      lantern := { s.lantern with
        serving := true, events := { s.lantern.events with inInterval := 0 }
        fw := { s.lantern.fw with runningB := s.lantern.fw.activeB } } } := by
  obtain ⟨start, noWait, notHalted⟩ := on
  have boots := bootSelect_active (s := setLantern { s.lantern with
    serving := true, events := { s.lantern.events with inInterval := 0 } } s) confirmed valid
  have booted (h : (bootSelect (startServing s)).1 = true) :
      stageDone rails s = beginRails (bootSelect (startServing s)).2 := by
    simp only [stageDone, start, noWait, notHalted, stage, Bool.or_self, Bool.false_eq_true, if_false, h, if_true]
  rw [startServing_unbuffered empty, boots] at booted
  exact booted rfl

theorem stageDone_three (on : goesOn k s) (stage : s.life.stage = 3) :
    stageDone [] s = setLife { s.life with stage := 4 } s := by
  obtain ⟨start, noWait, notHalted⟩ := on
  simp only [stageDone, start, noWait, notHalted, stage, Bool.or_self, Bool.false_eq_true, if_false]

theorem stageDone_four (on : goesOn k s) (stage : s.life.stage = 4) (perst : s.host.perst = true)
    (low : s.life.pwrgd = false) :
    stageDone rails s = setLife { s.life with stage := 5, pwrgd := true } (emit (.pin "MODULE_PWRGD" true) s) := by
  obtain ⟨start, noWait, notHalted⟩ := on
  simp only [stageDone, start, noWait, notHalted, stage, Bool.or_self, Bool.false_eq_true, if_false, low,
    Bool.not_false, whenS_true, setLife_host, emit_host, perst, if_true, emit_life]

theorem stageDone_five (on : goesOn k s) (stage : s.life.stage = 5) :
    stageDone rails s = setLife { s.life with stage := if k = .cold then 6 else 7 } s := by
  obtain ⟨start, noWait, notHalted⟩ := on
  simp only [stageDone, start, noWait, notHalted, stage, Bool.or_self, Bool.false_eq_true, if_false, beq_iff_eq]

theorem stageDone_six (on : goesOn k s) (stage : s.life.stage = 6) :
    stageDone rails s = setLife { s.life with stage := 7 } (setReg E.FILL_TIME_MS
      ((Config.freeWord s.free).toNat % 2001) { fillMemory s with free := s.free + 1 }) := by
  obtain ⟨start, noWait, notHalted⟩ := on
  have filled (t : Nat × State) (h : someTime 2000 (fillMemory s) = t) :
      stageDone rails s = setLife { t.2.life with stage := 7 } (setReg E.FILL_TIME_MS t.1 t.2) := by
    simp only [stageDone, start, noWait, notHalted, stage, Bool.or_self, Bool.false_eq_true, if_false, h]
  exact filled _ rfl

theorem stageDone_seven (on : goesOn k s) (stage : s.life.stage = 7) : stageDone rails s = enterReady s := by
  obtain ⟨start, noWait, notHalted⟩ := on
  simp only [stageDone, start, noWait, notHalted, stage, Bool.or_self, Bool.false_eq_true, if_false]

end

/-- R508: READY ends the start. -/
theorem enterReady_life (s : State) :
    (enterReady s).life = { s.life with modState := .ready, start := none, stage := 0, overruns := 0 } := by
  unfold enterReady
  rw [whenS_life _ _ confirmTrial_life, startRidge_life, trainPorts_life, applyAtReset_life]
  rfl

/-- Settles O11: input power by what a cold start from it leaves, then each stage by its own lemma. -/
theorem startStages : Obligations.StartStages := by
  unfold Obligations.StartStages
  refine ⟨fun f s wf dark quiet => ?_, fun rails s k wf start noWait notHalted => ?_⟩
  · refine ⟨_, next_of_row (exec_inputPowerArrival f s wf) (feedIn_unpowered dark quiet) (coldFromPower_pending _), ?_⟩
    rw [inFeed_coldFromPower, inFeed_settled, coldFromPower_life, coldFromPower_fw, coldFromPower_records,
      coldFromPower_lantern, coldFromPower_mem, coldFromPower_loadState, coldFromPower_pending]
    exact ⟨rfl, rfl, rfl, rfl, rfl, rfl, rfl, rfl, rfl, rfl, rfl⟩
  · have on : goesOn k s := ⟨start, noWait, notHalted⟩
    rw [exec_bringupStageComplete rails s wf]
    refine ⟨fun one => ?_, fun two confirmed valid empty => ?_, fun three held => ?_, fun four perst low => ?_,
      fun five => ?_, fun six => ?_, fun seven => ?_⟩
    · rw [stageDone_one on one]; rfl
    · rw [stageDone_two on two confirmed valid empty]; rfl
    · rw [held, stageDone_three on three]; rfl
    · rw [stageDone_four on four perst low]; rfl
    · rw [stageDone_five on five]; rfl
    · rw [stageDone_six on six]
      exact ⟨_, rfl, rfl, rfl, rfl, rfl, rfl, rfl, reg_setReg_same _ _ _, rfl, rfl, rfl, rfl, rfl⟩
    · rw [stageDone_seven on seven]
      refine ⟨_, rfl, ?_⟩
      simp only [withQueue_life, enterReady_life, withQueue_pending, true_and]

end Sys2Proof.Machine
end

section
/-!
SUPPORT. The throttle: temperature, coolant flow and power limit (R523 to R526).
-/
namespace Sys2Proof.Machine

section
variable {s : State}

/-! ## Levels and trips -/

theorem stepDown_setPower {k : Nat} {p : Power} (above : 4 < p.throttleN) :
    stepDown k (setPower p s) = count k (setPower { p with throttleN := p.throttleN - 1 } s) :=
  if_neg (Nat.not_le.mpr above)

theorem isHot_false_iff : isHot s = false ↔ s.power.hotDies = [] ∧ s.power.hotStacks = [] := by
  simp only [isHot, Bool.or_eq_false_iff, Bool.not_eq_false', List.isEmpty_iff]

theorem leaveService_first {c x : Nat} (first : s.life.fault.code = 0) :
    leaveService c x s = { s with life := { s.life with
      modState := .outOfService, fault := { coord := x, code := c, step := curStep s, station := curStation s } } } := by
  simp only [leaveService, recordFault, first, bne_self_eq_false, Bool.false_eq_true, if_false]
  rfl

/-- R527, R528: what a trip leaves, as the first fault. -/
theorem powerTrip_first {c x n : Nat} (first : s.life.fault.code = 0) :
    (powerTrip c x n s).life.modState = .outOfService ∧ (powerTrip c x n s).life.fault.code = c ∧
      (powerTrip c x n s).life.fault.coord = x ∧ (powerTrip c x n s).life.conversion = false ∧
      (powerTrip c x n s).mem = {} ∧ (powerTrip c x n s).power = s.power ∧ (powerTrip c x n s).pending = s.pending := by
  have unfaulted : (railsOff (drainCores (raiseAt c x n s))).life.fault.code = 0 := by
    rw [railsOff_life, drainCores_life, raiseAt_life]
    exact first
  unfold powerTrip
  dsimp only
  rw [leaveService_first]
  · simp only [setLife, railsOff_life, railsOff_mem, railsOff_power, railsOff_pending, drainCores_power, raiseAt_power,
      drainCores_pending, raiseAt_pending, and_self]
  · exact unfaulted

/-! ## Temperature (R525) -/

theorem hotCoord_count (k : Nat) (hbm : Bool) (u : Nat) : hotCoord (count k s) hbm u = hotCoord s hbm u := rfl
theorem hotCoord_setPower (p : Power) (hbm : Bool) (u : Nat) : hotCoord (setPower p s) hbm u = hotCoord s hbm u := rfl

theorem thermal_episode {hbm : Bool} {u v : Nat} (hot : (if hbm then 90 else 100) ≤ v) (cool : isHot s = false)
    (above : 4 < s.power.throttleN) :
    thermal hbm u v s = raiseAt 0x0B06 (hotCoord s hbm u) v (count E.THERMAL_THROTTLE_STEPS
      (setPower { s.power with
        hotStacks := if hbm then [u] else [], hotDies := if hbm then [] else [u]
        throttleN := s.power.throttleN - 1 } s)) := by
  obtain ⟨noDies, noStacks⟩ := isHot_false_iff.mp cool
  cases hbm with
  | false =>
    have crossed : 100 ≤ v := hot
    simp only [thermal, Bool.false_eq_true, if_false, decide_eq_true crossed, cool, noDies, List.contains_nil,
      Bool.not_false, Bool.and_self, if_true, List.nil_append]
    rw [stepDown_setPower]
    · simp only [hotCoord_count, hotCoord_setPower, noStacks]
    · exact above
  | true =>
    have crossed : 90 ≤ v := hot
    simp only [thermal, Bool.false_eq_true, if_false, decide_eq_true crossed, cool, noStacks, List.contains_nil,
      Bool.not_false, Bool.and_self, if_true, List.nil_append]
    rw [stepDown_setPower]
    · simp only [hotCoord_count, hotCoord_setPower, noDies]
    · exact above

theorem thermal_cooled {hbm : Bool} {u v : Nat} (cooled : v < (if hbm then 88 else 98)) :
    thermal hbm u v s = setPower
      (if hbm then { s.power with hotStacks := s.power.hotStacks.filter fun x => x != u }
        else { s.power with hotDies := s.power.hotDies.filter fun x => x != u }) s := by
  have below : ¬(if hbm then 90 else 100) ≤ v := by
    cases hbm <;> simp only [Bool.false_eq_true, if_false, if_true] at cooled ⊢ <;> omega
  simp only [thermal, decide_eq_false below, decide_eq_true cooled, Bool.false_and, Bool.false_eq_true, if_false, if_true]
  cases hbm <;> rfl

theorem thermalTrip_hot {hbm : Bool} {u v : Nat} (hot : (if hbm then 95 else 105) ≤ v)
    (running : s.life.conversion = true) : thermalTrip hbm u v s = powerTrip 0x0B07 (hotCoord s hbm u) v s := by
  simp only [thermalTrip, running, decide_eq_true hot, Bool.and_self, if_true]

/-! ## Coolant flow (R526) -/

theorem flowLow_begins (clear : s.power.causeFlow = false) :
    flowLow true s = raise 0x0B08 0 (count E.FLOW_LOW_EVENTS (setPower { s.power with causeFlow := true } s)) := by
  simp only [flowLow, clear, Bool.not_false, Bool.and_self, if_true]

theorem flowLow_ends : flowLow false s = setPower { s.power with causeFlow := false } s := rfl

/-! ## Power (R523) -/

theorem setPower_setPower (p q : Power) : setPower p (setPower q s) = setPower p s := rfl
theorem countN_setPower (k n : Nat) (p : Power) : countN k n (setPower p s) = setPower p (countN k n s) := rfl

/-- R523: the energy of an interval of 10 ms: whole kilojoules are counted, the rest is kept. -/
def metered (mw : Nat) (s : State) : State :=
  countN E.ENERGY_KJ ((s.power.energyUj + 10 * mw) / 1000000000)
    (setPower { s.power with energyUj := (s.power.energyUj + 10 * mw) % 1000000000 } s)

theorem metered_power (mw : Nat) :
    (metered mw s).power = { s.power with energyUj := (s.power.energyUj + 10 * mw) % 1000000000 } := by
  obtain ⟨d, e⟩ := countN_frame E.ENERGY_KJ ((s.power.energyUj + 10 * mw) / 1000000000)
    (setPower { s.power with energyUj := (s.power.energyUj + 10 * mw) % 1000000000 } s)
  rw [metered, e]
  rfl

theorem setting_countN_other {j k : Nat} (h : j ≠ k) (n : Nat) : setting (countN k n s) j = setting s j :=
  setting_setReg_other h _ s
theorem setting_setPower (p : Power) (k : Nat) : setting (setPower p s) k = setting s k := rfl

theorem setPower_metered (p : Power) (mw : Nat) : setPower p (metered mw s) =
    setPower p (countN E.ENERGY_KJ ((s.power.energyUj + 10 * mw) / 1000000000) s) := by
  unfold metered
  rw [countN_setPower, setPower_setPower]

theorem meter_unthrottled {mw : Nat} (full : s.power.throttleN = 16) : meter mw s = metered mw s := by
  have still : ¬(metered mw s).power.throttleN < 16 := by
    rw [metered_power]
    exact Nat.not_lt.mpr full.ge
  exact if_neg still

theorem powerLimit_metered (mw : Nat) : powerLimit (metered mw s) = powerLimit s := by
  have kept : setting (metered mw s) E.POWER_LIMIT_W = setting s E.POWER_LIMIT_W := by
    rw [metered, setting_countN_other (by decide), setting_setPower]
  simp only [powerLimit, kept, metered_power]

theorem powerInterval_above {mw : Nat} (exceeds : powerLimit s * 1000 < mw) (first : s.power.causePower = false)
    (full : s.power.throttleN = 16) :
    powerInterval mw s = raise 0x0B09 (mw / 1000) (count E.POWER_LIMIT_STEPS (setPower { s.power with
      energyUj := (s.power.energyUj + 10 * mw) % 1000000000, causePower := true, throttleN := 15 }
      (countN E.ENERGY_KJ ((s.power.energyUj + 10 * mw) / 1000000000) s))) := by
  simp only [powerInterval, meter_unthrottled full, powerLimit_metered, decide_eq_true exceeds, if_true, setPower_metered,
    metered_power, first, Bool.not_false, Bool.and_self, whenS_true, full]
  rw [stepDown_setPower]
  · rfl
  · exact (by decide : 4 < 16)

theorem powerInterval_below {mw : Nat} (under : mw ≤ powerLimit s * 1000) (cool : isHot s = false)
    (full : s.power.throttleN = 16) :
    powerInterval mw s = setPower { s.power with
      energyUj := (s.power.energyUj + 10 * mw) % 1000000000, causePower := false }
      (countN E.ENERGY_KJ ((s.power.energyUj + 10 * mw) / 1000000000) s) := by
  obtain ⟨noDies, noStacks⟩ := isHot_false_iff.mp cool
  simp only [powerInterval, meter_unthrottled full, powerLimit_metered, decide_eq_false (Nat.not_lt.mpr under),
    Bool.false_and, Bool.false_eq_true, if_false, whenS_false, setPower_metered, metered_power, isHot, setPower_power,
    noDies, noStacks, List.isEmpty_nil, Bool.not_true, Bool.or_self]

theorem throttleRaise_uncaused {mw : Nat} (cool : isHot s = false) (power : s.power.causePower = false)
    (flow : s.power.causeFlow = false) (low : mw < powerLimit s * 950) :
    throttleRaise mw s = setPower { s.power with throttleN := min 16 (s.power.throttleN + 1) } s := by
  simp only [throttleRaise, cool, power, flow, decide_eq_false (Nat.not_le.mpr low), Bool.or_self, Bool.false_eq_true,
    if_false]

end

/-- Settles O14: each report of a sensor by what it does in the case named, none of which touches the waiting commands. -/
theorem throttle : Obligations.Throttle := by
  unfold Obligations.Throttle
  refine ⟨fun hbm u v s wf hot cool above => ?_, fun hbm u v s wf cooled => ?_, fun hbm u v s wf hot running first => ?_,
    fun s clear => ?_, fun s => ?_, fun mw s exceeds first full => ?_, fun mw s under cool full => ?_,
    fun mw s cool power flow low => ?_⟩
  · exact next_of_row (exec_thermalThrottle hbm u v s wf) (thermal_episode hot cool above)
      ((raiseAt_pending _ _ _ _).trans (count_pending _ _))
  · exact next_of_row (exec_thermalThrottle hbm u v s wf) (thermal_cooled cooled) (setPower_pending _ _)
  · obtain ⟨left, code, coord, off, lost, power, kept⟩ :=
      powerTrip_first (c := 0x0B07) (x := hotCoord s hbm u) (n := v) first
    exact ⟨_, next_of_row (exec_thermalShutdown hbm u v s wf) (thermalTrip_hot hot running) kept,
      left, code, coord, off, lost, power, kept⟩
  · exact next_of_row (exec_coolantFlowLow true s rfl) (flowLow_begins clear)
      ((raise_pending _ _ _).trans (count_pending _ _))
  · exact next_of_row (exec_coolantFlowLow false s rfl) flowLow_ends (setPower_pending _ _)
  · exact next_of_row (exec_powerLimitInterval mw s rfl) (powerInterval_above exceeds first full)
      (by simp only [raise_pending, count_pending, setPower_pending, countN_pending])
  · exact next_of_row (exec_powerLimitInterval mw s rfl) (powerInterval_below under cool full)
      (by simp only [setPower_pending, countN_pending])
  · exact next_of_row (exec_throttleRaiseInterval mw s rfl) (throttleRaise_uncaused cool power flow low)
      (setPower_pending _ _)

end Sys2Proof.Machine
end

section
/-!
SUPPORT. The firmware update (R470 to R473) and setting sets (R488 to R493).
-/
namespace Sys2Proof.Machine

/-- An accepted write of a number to an entry that acts does what the entry does with that number. -/
theorem requestNumber_acts {p : Path} {k n v : Nat} {s : State} {f : Nat → State → State}
    (row : ∃ e, entryOf k = some e ∧ e.key = k)
    (effect : ∀ {p : Path} {e : Entry}, e.key = k → ∀ off b s, writeEffect p e off b s = f (leNat b) s)
    (small : fits (8 * n) v = true) (h : accepts s p k 0 (natLe n v)) :
    requestNumber p k n v s = answered p (f v (touchPath p s)) := by
  obtain ⟨e, found, key⟩ := row
  rw [requestNumber_accepted h found, effect key, leNat_natLe_of_fits small]

/-! ## What the path that carries a request leaves -/

section
variable (p : Path) (s : State)

theorem touchPath_fw : (touchPath p s).lantern.fw = s.lantern.fw := by cases p <;> rfl

theorem countRequest_life (refused : Bool) : (countRequest p refused s).life = s.life := by
  cases p with
  | odp _ _ => simp only [countRequest, count_life, whenS_life _ _ (count_life E.ODP_REFUSED)]
  | mailbox => exact count_life _ _
  | _ => rfl

end

/-! ## What a drain leaves of the firmware (R457) -/

/-- An operation on states that leaves the firmware as it is. -/
def keepsFw (f : State → State) : Prop := ∀ s, (f s).lantern.fw = s.lantern.fw

@[simp] theorem msix_lantern (v : Nat) (s : State) : (msix v s).lantern = s.lantern := by
  obtain ⟨h, b, e⟩ := msix_frame v s
  rw [e]

theorem takeEvent_fw (r : EventRec) : keepsFw (takeEvent r) := by
  intro s
  have signalled (t : State) : (causeErrorEvent t).lantern = t.lantern := by
    unfold causeErrorEvent
    split
    · rfl
    · exact msix_lantern _ _
  simp only [takeEvent]
  split
  · rfl
  · split <;> simp [signalled, setEvents]

theorem raiseAt_fw (c x n : Nat) : keepsFw (raiseAt c x n) := by
  intro s
  simp only [raiseAt, bufferEvent]
  split
  · exact takeEvent_fw _ s
  · split <;> rfl

theorem raiseOnce_fw (c n : Nat) : keepsFw (raiseOnce c n) := by
  intro s
  simp only [raiseOnce, raiseOnceAt]
  split
  · rfl
  · exact raiseAt_fw _ _ _ _

theorem forEach_fw {α : Type} {l : List α} {f : α → State → State} (work : ∀ a, keepsFw (f a)) : keepsFw (forEach l f) :=
  fun s => forEach_keeps (fun t => t.lantern.fw = s.lantern.fw) l f (fun a t same => (work a t).trans same) s rfl

theorem whenS_fw {c : Bool} {f : State → State} (work : keepsFw f) : keepsFw (whenS c f) :=
  fun s => whenS_keeps (fun t => t.lantern.fw = s.lantern.fw) c f (fun t same => (work t).trans same) s rfl

theorem settle_lantern (sk err : Nat) (s : State) : (settle sk err s).lantern = s.lantern := by
  simp only [settle, settleBits]
  split
  · rw [setStale_lantern]
  · split <;> simp only [setStale_lantern, putWord_lantern]

theorem checkSector_lantern (sk : Nat) (s : State) : (checkSector sk s).2.lantern = s.lantern := by
  simp only [checkSector]
  split
  · rfl
  · split
    · exact settle_lantern _ _ _
    · split
      · exact settle_lantern _ _ _
      · rfl

theorem checkSectors_lantern (pk : Nat) (l : List Nat) (s : State) : (checkSectors pk l s).2.lantern = s.lantern := by
  induction l generalizing s with
  | nil => rfl
  | cons i l ih => exact (ih _).trans (checkSector_lantern _ s)

theorem poisonSector_fw (sk : Nat) : keepsFw (poisonSector sk) := by
  intro s
  simp only [poisonSector]
  rw [raiseAt_fw, count_lantern, setMem_lantern, setDamage_lantern, putWord_lantern]

theorem freshParity_lantern (pk : Nat) (s : State) : (freshParity pk s).lantern = s.lantern := rfl

theorem rebuild_fw (pk : Nat) (l : List Nat) : keepsFw (rebuild pk l) := by
  intro s
  simp only [rebuild]
  split
  · rfl
  · split
    · rw [poisonLost, freshParity_lantern, forEach_fw fun i => poisonSector_fw _]
    · rw [whenS_fw fun t => by simp, whenS_fw fun t => by simp, countN_lantern,
        forEach_fw fun d t => by rw [setDamage_lantern, settle_lantern]]

theorem fixLine_fw (lk : Nat) : keepsFw (fixLine lk) := by
  intro s
  simp only [fixLine]
  split
  · rfl
  · split
    · rfl
    · rw [raiseOnce_fw, count_lantern, forEach_fw fun pk t => congrArg Lantern.fw (freshParity_lantern pk t)]
      rfl

theorem applyDelta_fw (pk : Nat) : keepsFw (applyDelta pk) := by
  intro s
  have checked (l : List Nat) : (checkSectors pk l (checkSectors pk [62, 63] s).2).2.lantern = s.lantern :=
    (checkSectors_lantern _ _ _).trans (checkSectors_lantern _ _ _)
  simp only [applyDelta]
  split
  · rw [setMem_lantern, checkSectors_lantern]
  · split
    · rw [freshParity_lantern, checked]
    · rw [setMem_lantern, rebuild_fw, checked]

theorem parityWriteback_fw (pk : Nat) : keepsFw (parityWriteback pk) := by
  intro s
  simp only [parityWriteback]
  split
  · rfl
  · split
    · exact forEach_fw fixLine_fw s
    · rw [count_lantern, applyDelta_fw, forEach_fw fixLine_fw]

theorem drainCores_fw : keepsFw drainCores := by
  intro s
  have ports (t : State) : (forEach (upto 12) disablePort t).lantern = t.lantern := by
    obtain ⟨f, l, e⟩ := disablePorts_frame (upto 12) t
    rw [e]
  have stopped (t : State) : (linkDown t).lantern = t.lantern := rfl
  unfold drainCores
  split
  · simp only [drain]
    rw [stopped, ports]
    exact forEach_fw parityWriteback_fw s
  · rfl

/-! ## The firmware update (R470, R472, R473) -/

section
variable {p : Path} {s : State}

theorem spareSlot_touchPath (p : Path) (s : State) : spareSlot (touchPath p s) = spareSlot s := by
  rw [spareSlot, touchPath_fw]
  rfl

theorem fwControl_requested {v : Nat} (small : fits 8 v = true) (h : accepts s p E.FW_UPDATE_CONTROL 0 (natLe 1 v)) :
    requestNumber p E.FW_UPDATE_CONTROL 1 v s = answered p (fwControl v (touchPath p s)) :=
  requestNumber_acts entry_FW_UPDATE_CONTROL writeEffect_FW_UPDATE_CONTROL small h

theorem fwBegin_touched : fwBegin (touchPath p s) = setFw
    { putSlot (spareSlot s) [] s.lantern.fw with update := .receiving, status := 0, received := 0, verifying := false }
    (touchPath p s) := by
  rw [fwBegin, spareSlot_touchPath, touchPath_fw]

theorem fwVerify_touched :
    fwVerify (touchPath p s) = setFw { s.lantern.fw with verifying := true } (touchPath p s) := by
  rw [fwVerify, touchPath_fw]

theorem fwAbort_touched (busy : s.lantern.fw.update ≠ .idle) : fwAbort (touchPath p s) = setFw
    { putSlot (spareSlot s) [] s.lantern.fw with update := .idle, status := 0, received := 0, verifying := false }
    (touchPath p s) := by
  have going : ¬(s.lantern.fw.update == .idle) = true := fun h => busy (beq_iff_eq.mp h)
  simp only [fwAbort, touchPath_fw, if_neg going, spareSlot_touchPath]

theorem fwPiece_touched (b : Bytes) : fwPiece b (touchPath p s) = setFw
    { putSlot (spareSlot s) (sputs 0 (fwSlot s.lantern.fw (spareSlot s)) s.lantern.fw.received b) s.lantern.fw with
      received := s.lantern.fw.received + b.length } (touchPath p s) := by
  simp only [fwPiece, touchPath_fw, spareSlot_touchPath]

theorem fwVerifyDone_valid (going : s.lantern.fw.verifying = true)
    (valid : fwValid s.lantern.fw (spareSlot s) = true) :
    fwVerifyDone s = setFw { s.lantern.fw with verifying := false, update := .verified, status := 0 } s := by
  simp only [fwVerifyDone, going, valid, Bool.not_true, Bool.false_eq_true, if_false, if_true]

theorem fwVerifyDone_invalid (going : s.lantern.fw.verifying = true)
    (invalid : fwValid s.lantern.fw (spareSlot s) = false) :
    fwVerifyDone s = setFw { s.lantern.fw with
      verifying := false, update := .failed
      status := if fwSound s.lantern.fw (spareSlot s) then 0x0C13 else 0x0C11 } s := by
  simp only [fwVerifyDone, going, invalid, Bool.not_true, Bool.false_eq_true, if_false]

/-- R12: a reset ends what is pending of the setting sets. -/
theorem resetDict_sets (s : State) : (resetDict s).lantern.sets.pending = .none := by
  simp only [resetDict]
  split
  · assumption
  · rfl

/-- R472: what ACTIVATE leaves has nothing waiting to take place by itself. -/
theorem still_coldFromPower (s : State) : still (coldFromPower s) := by
  refine ⟨by rw [coldFromPower_mem], ?_, ?_⟩
  · simp only [setBusy, coldFromPower_lantern, resetDict_sets]
  · rw [coldFromPower_loadState]
    exact fun loaded => by cases loaded

theorem answered_quiet {s : State} (quiet : still s) (p : Path) :
    answered p s = emit (.dictAnswer p 0 []) (countRequest p false s) := by
  rw [answered, still_settleRun quiet]

theorem countRequest_lantern (p : Path) (refused : Bool) (s : State) :
    (countRequest p refused s).lantern = s.lantern := by
  cases p with
  | odp _ _ => cases refused <;> simp only [countRequest, whenS_true, whenS_false, count_lantern]
  | mailbox => exact count_lantern _ _
  | _ => rfl

theorem fwActivate_fw (s : State) : (fwActivate s).lantern.fw =
    { s.lantern.fw with trialB := some (spareSlot s), trialBoots := 0, update := .idle } := by
  simp only [fwActivate, coldFromPower_fw, railsOff_lantern]
  rw [drainCores_fw]
  rfl

theorem still_fwActivate (s : State) : still (fwActivate s) := still_coldFromPower _

theorem confirmTrial_touched {b : Bool} (trial : s.lantern.fw.trialB = some b) (booted : s.lantern.fw.trialBoots = 1)
    (running : s.lantern.fw.runningB = b) :
    confirmTrial (touchPath p s) = setFw { s.lantern.fw with
      activeB := b, trialB := none, trialBoots := 0, svnFloor := max s.lantern.fw.svnFloor (fwSvn s.lantern.fw b) }
      (touchPath p s) := by
  simp only [confirmTrial, touchPath_fw, trial, booted, running, decide_true, beq_self_eq_true, Bool.and_self, if_true]

end

/-- Settles O18: each accepted write by the effect of its entry; what ACTIVATE leaves settles to itself. -/
theorem firmwareUpdate : Obligations.FirmwareUpdate := by
  unfold Obligations.FirmwareUpdate
  refine ⟨fun p s wf h => ?_, fun p o b s wf h => ?_, fun p s wf h => ?_, fun s going valid => ?_,
    fun s going invalid => ?_, fun p s wf h => ?_, fun p s wf h busy => ?_, fun p s b wf h trial booted running => ?_⟩
  · rw [exec_fwBegin p s wf, fwControl_requested (v := 1) rfl h]
    exact congrArg (fun t => Host.Outcome.next (withQueue s.pending (answered p t))) fwBegin_touched
  · obtain ⟨e, found, key⟩ := entry_FW_UPDATE_DATA
    rw [exec_fwUpdateData p o b s wf, requestWrite_accepted h found, writeEffect_FW_UPDATE_DATA key, fwPiece_touched]
  · rw [exec_fwVerify p s wf, fwControl_requested (v := 2) rfl h]
    exact congrArg (fun t => Host.Outcome.next (withQueue s.pending (answered p t))) fwVerify_touched
  · exact next_of_row (exec_fwVerifyDone s rfl) (fwVerifyDone_valid going valid) rfl
  · exact next_of_row (exec_fwVerifyDone s rfl) (fwVerifyDone_invalid going invalid) rfl
  · rw [exec_fwActivate p s wf, fwControl_requested (v := 3) rfl h]
    have active : fwControl 3 (touchPath p s) = fwActivate (touchPath p s) := rfl
    rw [active, answered_quiet (still_fwActivate _)]
    refine ⟨_, rfl, ?_⟩
    simp only [withQueue, emit, countRequest_lantern, countRequest_life, fwActivate_fw, touchPath_fw,
      spareSlot_touchPath, true_and]
    simp only [fwActivate, coldFromPower_life, coldFromPower_lantern, and_self]
  · rw [exec_fwAbort p s wf, fwControl_requested (v := 4) rfl h]
    exact congrArg (fun t => Host.Outcome.next (withQueue s.pending (answered p t))) (fwAbort_touched busy)
  · rw [← natLe_true] at h
    rw [exec_fwConfirm p 1 s wf, (requestNumber_switch entry_FW_CONFIRM writeEffect_FW_CONFIRM h).1 rfl,
      confirmTrial_touched trial booted running]

/-! ## Setting sets (R488 to R493) -/

section
variable {s : State}

theorem confirmTimeout_awaiting (awaiting : s.lantern.sets.pending = .awaiting) :
    confirmTimeout s = revertSet (raise 0x0C0A s.lantern.sets.active.number s) :=
  if_pos (beq_iff_eq.mpr awaiting)

theorem confirmTimeout_other (settled : s.lantern.sets.pending ≠ .awaiting) : confirmTimeout s = s :=
  if_neg fun h => settled (beq_iff_eq.mp h)

theorem confirmSet_awaiting (awaiting : s.lantern.sets.pending = .awaiting) :
    confirmSet s = setSets { s.lantern.sets with pending := .none } s :=
  if_pos (beq_iff_eq.mpr awaiting)

theorem confirmSet_other (settled : s.lantern.sets.pending ≠ .awaiting) : confirmSet s = s :=
  if_neg fun h => settled (beq_iff_eq.mp h)

/-- R491: one write that would be refused keeps the whole set from being applied. -/
theorem applyWrites_refused {x y : SetSlot} {w : Nat × Option Bytes}
    (first : (setWrites x y).find? (fun w => setWriteRefusal s w != 0) = some w) :
    applyWrites x y s = (false, raise 0x0C0E w.1
      (setSets { s.lantern.sets with lastStatus := setWriteRefusal s w, lastDetail := w.1 } s)) := by
  simp only [applyWrites, first]

theorem applyWrites_applied {x y : SetSlot} (all : ∀ w ∈ setWrites x y, setWriteRefusal s w = 0) :
    applyWrites x y s = (true, setSets { (forEach (setWrites x y) setWriteOne s).lantern.sets with
      lastStatus := 0, lastDetail := 0 } (forEach (setWrites x y) setWriteOne s)) := by
  have none : (setWrites x y).find? (fun w => setWriteRefusal s w != 0) = .none :=
    List.find?_eq_none.mpr fun w listed => by simp [all w listed]
  simp only [applyWrites, none]

end

/-- Settles O56: each accepted write by the effect of its entry, then the application of a set by its first refused
write. -/
theorem settingSets : Obligations.SettingSets := by
  unfold Obligations.SettingSets
  refine ⟨fun p v u s wf h touched => ?_, fun p v u s wf h touched => ?_, fun p v u s wf h touched => ?_,
    fun p u s wf h touched => ?_, fun s awaiting => ?_, fun s settled => ?_, fun x y w s => applyWrites_refused,
    fun x y s => applyWrites_applied, fun s notDue => if_neg (by rw [notDue]; exact Bool.false_ne_true)⟩
  · rw [exec_setCommit p v s wf, requestNumber_acts entry_SET_COMMIT writeEffect_SET_COMMIT
      (Bool.and_eq_true_iff.mp wf).2 h, touched]
    rfl
  · rw [exec_setRevert p v s wf, requestNumber_acts (f := fun _ => revertSet) entry_SET_REVERT writeEffect_SET_REVERT
      (Bool.and_eq_true_iff.mp wf).2 h, touched]
    rfl
  · rw [exec_setConfirm p v s wf, requestNumber_acts (f := fun _ => confirmSet) entry_SET_CONFIRM
      writeEffect_SET_CONFIRM (Bool.and_eq_true_iff.mp wf).2 h, touched]
    exact ⟨fun awaiting => by rw [confirmSet_awaiting awaiting], fun settled => by rw [confirmSet_other settled]⟩
  · rw [← natLe_true] at h
    rw [exec_setClear p 1 s wf, (requestNumber_switch entry_SET_CLEAR writeEffect_SET_CLEAR h).1 rfl, touched]
    rfl
  · rw [exec_setConfirmTimeout s rfl, confirmTimeout_awaiting awaiting]
  · exact next_of_row (exec_setConfirmTimeout s rfl) (confirmTimeout_other settled) rfl

end Sys2Proof.Machine
end

section
/-!
SUPPORT. Requests to the dictionary by every path (R476 to R486), attestation and the event log (R474, R498).
-/
namespace Sys2Proof.Machine

/-! ## Requests of one operation -/

section
variable {p : Path} {s : State} {w : Bool}

/-- Lantern answers a request that its path does not refuse as a whole. -/
theorem requested_answered {f : State → Nat × Bytes × State} (serving : s.lantern.serving = true)
    (allowed : pathRefusal s p w ≠ 0x0C0B) : requested p w f s =
      emit (.dictAnswer p (f (touchPath p s)).1 (f (touchPath p s)).2.1)
        (countRequest p false (f (touchPath p s)).2.2) := by
  simp only [requested, serving, beq_false_of_ne allowed, Bool.not_true, Bool.false_eq_true, if_false]

/-- A read and a description take one free value. -/
theorem nextFree_touchPath (p : Path) (s : State) :
    (nextFree (touchPath p s)).2 = { touchPath p s with free := s.free + 1 } := by
  cases p <;> rfl

theorem requestRead_answered {i j : Nat} (serving : s.lantern.serving = true)
    (allowed : pathRefusal s p false ≠ 0x0C0B) : requestRead p i j s =
      emit (.dictAnswer p (readEntry (touchPath p s) p i j 0 none).1 (readEntry (touchPath p s) p i j 0 none).2)
        (countRequest p false { touchPath p s with free := s.free + 1 }) := by
  rw [requestRead, requested_answered serving allowed, readTaken, nextFree_touchPath]

theorem requestDescribe_answered {i j : Nat} (serving : s.lantern.serving = true)
    (allowed : pathRefusal s p false ≠ 0x0C0B) : requestDescribe p i j s =
      emit (.dictAnswer p (describeEntry (touchPath p s) p i j).1 (describeEntry (touchPath p s) p i j).2)
        (countRequest p false { touchPath p s with free := s.free + 1 }) := by
  rw [requestDescribe, requested_answered serving allowed, describeTaken, nextFree_touchPath]

theorem writeEntry_accepted {i j off : Nat} {b : Bytes} {e : Entry} (passed : writeRefused s p i j off b = 0)
    (found : entryOf (i * 256 + j) = some e) :
    writeEntry p i j off b s = (0, settleRun (writeEffect p e off b s)) := by
  simp only [writeEntry, passed, found, bne_self_eq_false, Bool.false_eq_true, if_false]

theorem writeEntry_refused {i j off : Nat} {b : Bytes} (refused : writeRefused s p i j off b ≠ 0) :
    writeEntry p i j off b s = (writeRefused s p i j off b, s) := by
  simp only [writeEntry, bne_iff_ne.mpr refused, if_true]

theorem requestWrite_answered {i j : Nat} {b : Bytes} (serving : s.lantern.serving = true)
    (allowed : pathRefusal s p true ≠ 0x0C0B) {r : Nat × State} (does : writeEntry p i j 0 b (touchPath p s) = r) :
    requestWrite p i j 0 b s = emit (.dictAnswer p r.1 []) (countRequest p false r.2) := by
  rw [requestWrite, requested_answered serving allowed, does]

theorem stageEntry_taken {i j : Nat} {b : Bytes} (passed : stageRefusal s p i j b = 0) : stageEntry p i j b s =
    (0, setSets { s.lantern.sets with staged := slotPut s.lantern.sets.staged (i * 256 + j) b } s) := by
  simp only [stageEntry, passed, bne_self_eq_false, Bool.false_eq_true, if_false]

theorem stageEntry_refused {i j : Nat} {b : Bytes} (refused : stageRefusal s p i j b ≠ 0) :
    stageEntry p i j b s = (stageRefusal s p i j b, s) := by
  simp only [stageEntry, bne_iff_ne.mpr refused, if_true]

theorem requestStage_answered {i j : Nat} {b : Bytes} (serving : s.lantern.serving = true)
    (allowed : pathRefusal s p true ≠ 0x0C0B) {r : Nat × State} (does : stageEntry p i j b (touchPath p s) = r) :
    requestStage p i j b s = emit (.dictAnswer p r.1 []) (countRequest p false r.2) := by
  rw [requestStage, requested_answered serving allowed, does]

end

/-! ## ODP requests (R480 to R482) -/

section
variable {src : Nat} {b : Bytes} {ops : List OdpOp} {s u : State}

theorem bitAt_zero : bitAt 0 0 = false := by decide
theorem bitAt_one : bitAt 1 0 = true := by decide

/-- R480: a request without a tag, not yet answered, that needs none. -/
theorem odpRequest_untagged (serving : s.lantern.serving = true) (short : b.length ≤ 1472)
    (touched : touchSource src s = u) (fresh : odpLookup u src b = none) (parsed : odpParse b false 1472 = some ops)
    (untagged : field b 2 1 = 0) (free : odpNeedsAuth u ops = false) :
    odpRequest src b s = odpSend src b (odpAnswer (.odp src false) b ops u).1 (odpAnswer (.odp src false) b ops u).2 := by
  simp only [odpRequest, serving, touched, untagged, bitAt_zero, if_neg (Nat.not_lt.mpr short), parsed, fresh, free,
    Bool.not_true, Bool.false_and, Bool.and_false, Bool.not_false, Bool.or_self, Bool.false_eq_true, if_false, whenS_false]

theorem odpRequest_unauthorised (serving : s.lantern.serving = true) (short : b.length ≤ 1472)
    (touched : touchSource src s = u) (fresh : odpLookup u src b = none) (parsed : odpParse b false 1472 = some ops)
    (untagged : field b 2 1 = 0) (needs : odpNeedsAuth u ops = true) : odpRequest src b s = odpRefuse src b u := by
  simp only [odpRequest, serving, touched, untagged, bitAt_zero, if_neg (Nat.not_lt.mpr short), parsed, fresh, needs,
    Bool.not_true, Bool.false_and, Bool.not_false, Bool.and_self, Bool.or_true, Bool.false_eq_true, if_false, if_true]

/-- R481: a request with a good tag and a new sequence number. -/
theorem odpRequest_tagged (serving : s.lantern.serving = true) (short : b.length ≤ 1472)
    (touched : touchSource src s = u) (fresh : odpLookup u src b = none) (parsed : odpParse b true 1472 = some ops)
    (tagged : field b 2 1 = 1) (good : odpTagGood u b = true) (later : u.lantern.odpLastSeq < field b 8 8)
    {r : Bytes × State} (answer : odpAnswer (.odp src true) b ops
      { u with lantern := { u.lantern with odpLastSeq := field b 8 8 } } = r) :
    odpRequest src b s = odpSend src b r.1 r.2 := by
  subst answer
  simp only [odpRequest, serving, touched, tagged, bitAt_one, if_neg (Nat.not_lt.mpr short), parsed, fresh, good,
    decide_eq_false (Nat.not_le.mpr later), Bool.not_true, Bool.and_false, Bool.false_and, Bool.or_self,
    Bool.false_eq_true, if_false, whenS_true]
  rfl

/-- R482: a request already answered is answered alike. -/
theorem odpRequest_kept {e : OdpKept} (serving : s.lantern.serving = true) (short : b.length ≤ 1472)
    (touched : touchSource src s = u) (kept : odpLookup u src b = some e) (parsed : odpParse b false 1472 = some ops)
    (untagged : field b 2 1 = 0) :
    odpRequest src b s = emit (.odpResponse src e.response) (count E.ODP_REQUESTS u) := by
  simp only [odpRequest, serving, touched, untagged, bitAt_zero, if_neg (Nat.not_lt.mpr short), parsed, kept,
    Bool.not_true, Bool.false_and, Bool.false_eq_true, if_false]

/-- R479: after a failure no further operation is attempted. -/
theorem odpAll_failed (p : Path) (ops : List OdpOp) (s : State) :
    odpAll p ops true s = ((ops.flatMap fun _ => odpResult 0x0C0F []), s) := by
  induction ops with
  | nil => rfl
  | cons o rest ih => simp only [odpAll, if_true, Bool.true_or, ih, List.flatMap_cons]

end

/-! ## I3C and the UART (R484 to R486) -/

section
variable {s : State}

/-- R484: the controller of a module that serves, outside recovery, has an address. -/
abbrev i3cReady (s : State) : Prop :=
  s.lantern.serving = true ∧ s.life.recovery = false ∧ s.lantern.i3cAddr.isSome = true

theorem i3cReady_unblocked (ready : i3cReady s) :
    (!s.lantern.serving || s.life.recovery || s.lantern.i3cAddr.isNone) = false := by
  obtain ⟨serving, booted, address⟩ := ready
  obtain ⟨a, given⟩ := Option.isSome_iff_exists.mp address
  rw [serving, booted, given]
  rfl

theorem i3cWrite_selects {b : Bytes} (ready : i3cReady s) (three : b.length = 3) :
    i3cWrite b s = { s with lantern := { s.lantern with
      i3cSelect := some (field b 0 2 * 256 + field b 2 1), i3cRefused := false } } := by
  simp only [i3cWrite, i3cReady_unblocked ready, three, Bool.false_eq_true, if_false, if_true]
  rfl

theorem i3cWrite_refused {b : Bytes} (ready : i3cReady s) (other : b.length ≠ 3) :
    i3cWrite b s = { s with lantern := { s.lantern with i3cRefused := true } } := by
  simp only [i3cWrite, i3cReady_unblocked ready, if_neg other, Bool.false_eq_true, if_false]
  rfl

theorem i3cRead_answered (ready : i3cReady s) :
    i3cRead s = emit (.i3cData (natLe 2 (i3cValue s).1 ++ (i3cValue s).2))
      (setLantern { s.lantern with i3cRefused := false } (count E.I3C_READS { s with free := s.free + 1 })) := by
  simp only [i3cRead, i3cReady_unblocked ready, Bool.false_eq_true, if_false, nextFree]

theorem i3cAssign_serving {a : Nat} {i : Bool} (serving : s.lantern.serving = true) :
    i3cAssign a i s = { s with lantern := { s.lantern with i3cAddr := some a, i3cIbi := i } } := by
  simp only [i3cAssign, serving, Bool.not_true, Bool.false_eq_true, if_false]
  rfl

theorem uartCommand_write {i j : Nat} {b : Bytes} (serving : s.lantern.serving = true) : uartCommand true i j b s =
    emit (.uart (natLe 2 (writeEntry .uart i j 0 b s).1)) (writeEntry .uart i j 0 b s).2 := by
  simp only [uartCommand, serving, Bool.not_true, Bool.false_eq_true, if_false, if_true]

theorem uartCommand_read {i j : Nat} {b : Bytes} (serving : s.lantern.serving = true) : uartCommand false i j b s =
    emit (.uart (natLe 2 (readEntry s .uart i j 0 none).1 ++ (readEntry s .uart i j 0 none).2))
      { s with free := s.free + 1 } := by
  simp only [uartCommand, serving, Bool.not_true, Bool.false_eq_true, if_false, readTaken, nextFree]

end

/-- Settles O55: each path by what Lantern does with the request that the path brings. -/
theorem dictionaryRequests : Obligations.DictionaryRequests := by
  unfold Obligations.DictionaryRequests
  refine ⟨fun p i j s wf serving allowed => ?_, fun p i j b e s wf serving allowed => ?_,
    fun p i j s wf serving allowed => ?_, fun p i j b u s wf serving allowed touched => ?_, fun o n v s wf => ?_,
    fun p i j b s wf wf' => ?_, fun src b ops u s wf serving short touched fresh parsed untagged => ?_,
    fun src b ops u s wf serving short touched fresh parsed tagged good later r answer => ?_,
    fun src b ops e u s wf serving short touched kept parsed untagged => ?_, odpAll_failed,
    fun b s wf serving booted address => ?_, fun s serving booted address => ?_, fun a i s wf serving => ?_,
    fun i j b s wf serving => ?_, fun i j b s wf serving => ?_⟩
  · rw [exec_odpRead p i j s wf, requestRead_answered serving allowed]
  · rw [exec_odpWrite p i j b s wf]
    exact ⟨fun passed found => by rw [requestWrite_answered serving allowed (writeEntry_accepted passed found)]; rfl,
      fun refused => by rw [requestWrite_answered serving allowed (writeEntry_refused refused)]⟩
  · rw [exec_describe p i j s wf, requestDescribe_answered serving allowed]
  · subst touched
    rw [exec_stage p i j b s wf]
    exact ⟨fun passed => by rw [requestStage_answered serving allowed (stageEntry_taken passed)],
      fun refused => by rw [requestStage_answered serving allowed (stageEntry_refused refused)]⟩
  · exact exec_registerWrite _ s wf
  · rw [exec_registerWrite _ s wf, exec_odpWrite p i j b s wf']
    rfl
  · rw [exec_odpRequest src b s wf]
    exact ⟨fun free r answer => by
        rw [odpRequest_untagged serving short touched fresh parsed untagged free, answer]
        rfl,
      fun needs => by
        rw [odpRequest_unauthorised serving short touched fresh parsed untagged needs]
        rfl⟩
  · rw [exec_odpRequest src b s wf, odpRequest_tagged serving short touched fresh parsed tagged good later answer]
    rfl
  · rw [exec_odpRequest src b s wf, odpRequest_kept serving short touched kept parsed untagged]
  · exact ⟨fun three =>
        next_of_row (exec_i3cPrivateWrite b s wf) (i3cWrite_selects ⟨serving, booted, address⟩ three) rfl,
      fun other => next_of_row (exec_i3cPrivateWrite b s wf) (i3cWrite_refused ⟨serving, booted, address⟩ other) rfl⟩
  · exact next_of_row (exec_i3cPrivateRead s rfl) (i3cRead_answered ⟨serving, booted, address⟩)
      (by simp only [emit_pending, setLantern_pending, count_pending])
  · exact next_of_row (exec_i3cAddressAssign a i s wf) (i3cAssign_serving serving) rfl
  · rw [exec_uartConsoleCommand true i j b s wf, uartCommand_write serving]
  · rw [exec_uartConsoleCommand false i j b s wf, uartCommand_read serving]

/-! ## Attestation (R474) -/

theorem spdm_answered {k : Nat} {b : Bytes} {s : State} (serving : s.lantern.serving = true)
    (booted : s.life.recovery = false) : spdm k b s =
      let body := Config.spdmAnswer s.free (natLe 1 k ++ b) ++ spdmContent k { s with free := s.free + 1 }
      let log := (if k = 0 then [] else s.lantern.spdmLog) ++ b ++ body
      emit (.spdm (if spdmSigned k then body ++ Config.signature log else body))
        (setLantern { s.lantern with spdmLog := log } { s with free := s.free + 1 }) := by
  simp only [spdm, serving, booted, Bool.not_true, Bool.or_self, Bool.false_eq_true, if_false, nextFree]

/-- Settles O57: the answer of each kind of SPDM request, and the read of the event log. -/
theorem attestationAndEvents : Obligations.AttestationAndEvents := by
  unfold Obligations.AttestationAndEvents
  refine ⟨fun b s serving booted => ?_, fun p s wf serving allowed r read => ?_⟩
  · refine ⟨fun wf => ?_, fun wf => ?_, fun wf => ?_, fun wf => ?_, fun wf => ?_, fun wf => ?_, fun wf x answer => ?_,
      fun wf => ?_⟩
    · exact next_of_row (exec_getVersion b s wf) (spdm_answered serving booted) rfl
    · exact next_of_row (exec_getCapabilities b s wf) (spdm_answered serving booted) rfl
    · exact next_of_row (exec_negotiateAlgorithms b s wf) (spdm_answered serving booted) rfl
    · exact next_of_row (exec_getDigests b s wf) (spdm_answered serving booted) rfl
    · exact next_of_row (exec_getCertificate b s wf) (spdm_answered serving booted) rfl
    · exact next_of_row (exec_challenge b s wf) (spdm_answered serving booted) rfl
    · subst answer
      exact next_of_row (exec_getMeasurements b s wf) (spdm_answered serving booted) rfl
    · exact next_of_row (exec_spdmUnsupported b s wf) (spdm_answered serving booted) rfl
  · subst read
    rw [exec_eventRecords p s wf, requestEvents, requestRead_answered serving allowed]

end Sys2Proof.Machine
end

section
/-!
SUPPORT. Commands that send gradients (R383, R384).
-/
namespace Sys2Proof.Machine

/-! ## GRAD_SCATTER (R383) -/

section
variable {q i : Nat} {r : Rec64} {t : State} {td : TableSet × TableDecl} {bt : Batch}

theorem scatterWork_refused (refused : scatterRefusal t r ≠ 0) :
    scatterWork q i r t = endPlain q i (scatterRefusal t r) (countRefusal (scatterRefusal t r) t) := by
  simp only [scatterWork, bne_iff_ne.mpr refused, if_true]

/-- A batch that does not hold the table. -/
theorem scatterWork_absent (passed : scatterRefusal t r = 0) (declared : rowDecl t (rf r 199 192) (rf r 215 200) = some td)
    (accepted : batchOf t (rf r 199 192) (rf r 191 128) = some bt)
    (absent : bt.segments.contains td.2.table = false) : scatterWork q i r t = endPlain q i 0 t := by
  simp only [scatterWork, passed, declared, accepted, absent, bne_self_eq_false, Bool.false_and, Bool.false_eq_true,
    if_false, awaitMsgs, List.length_nil, forEach_nil, if_true]
  rfl

theorem scatterWork_sends (passed : scatterRefusal t r = 0) (declared : rowDecl t (rf r 199 192) (rf r 215 200) = some td)
    (accepted : batchOf t (rf r 199 192) (rf r 191 128) = some bt)
    (held : bt.segments.contains td.2.table = true) (nonempty : 0 < bt.samples * td.2.width) {n : Nat}
    {v : (Bytes × Bool) × State} {ms : List (Nat × Bytes)} (size : n = bt.samples * td.2.width * (if rb r 216 then 2 else 4))
    (read : v = accessRead (rf r 319 256) n t)
    (messages : ms = scatterMsgs v.2 r td.1 td.2 bt v.1.1 (if v.1.2 then accessPoison v.2 (rf r 319 256) n else [])) :
    scatterWork q i r t =
      forEach ms (fun m s => sendOwned q i 0x12 m.1 bt.step m.2 s) (awaitMsgs q i ms.length v.1.2 v.2) := by
  have bytes : 0 < n := by
    rw [size]
    exact Nat.mul_pos nonempty (by split <;> decide)
  subst messages read size
  simp only [scatterWork, passed, declared, accepted, held, decide_eq_true bytes, bne_self_eq_false, Bool.and_self,
    Bool.false_eq_true, if_false, if_true]

end

/-! ## DENSE_REDUCE (R384) -/

section
variable {q i : Nat} {r : Rec64} {t : State} {x g : Tensor}

theorem denseReduceWork_refused (refused : denseRefusal t r ≠ 0) :
    denseReduceWork q i r t = endPlain q i (denseRefusal t r) t := by
  simp only [denseReduceWork, bne_iff_ne.mpr refused, if_true]

theorem denseReduceWork_sends (passed : denseRefusal t r = 0) (tensor : tensorOf t (rf r 215 200) = some x)
    (gradient : tensorOf t (rf r 335 320) = some g) {o : Operand × State} {ms : List (Nat × Bytes)}
    (loaded : o = loadOperand g t) (messages : ms = denseMsgs o.2 (rf r 191 128) x o.1.bytes o.1.poison) :
    denseReduceWork q i r t = forEach ms (fun m s => sendOwned q i 0x13 m.1 (rf r 191 128) m.2 s)
      (awaitMsgs q i ms.length (o.1.poison.any id) o.2) := by
  subst messages loaded
  simp only [denseReduceWork, passed, tensor, gradient, bne_self_eq_false, Bool.false_eq_true, if_false]

end

/-! ## Runs of one variant (R383) -/

theorem variantRuns_short (vs : List Nat) (i : Nat) : ∀ x ∈ variantRuns vs i, x.2.1 ≤ 1024 := by
  induction vs generalizing i with
  | nil => exact fun x listed => nomatch listed
  | cons v rest ih =>
    have later := ih (i + 1)
    rw [variantRuns]
    split
    next j n w more runs =>
      rw [runs] at later
      obtain ⟨first, others⟩ := List.forall_mem_cons.mp later
      split
      next joins =>
        have room : n < 1024 := by simp at joins; exact joins.2
        exact List.forall_mem_cons.mpr ⟨room, others⟩
      next => exact List.forall_mem_cons.mpr ⟨(by decide : 1 ≤ 1024), later⟩
    next => exact List.forall_mem_cons.mpr ⟨(by decide : 1 ≤ 1024), fun x listed => nomatch listed⟩

/-- The runs cover the samples in order. -/
theorem variantRuns_cover (vs : List Nat) (i : Nat) :
    ((variantRuns vs i).flatMap fun x => List.replicate x.2.1 x.2.2) = vs := by
  induction vs generalizing i with
  | nil => rfl
  | cons v rest ih =>
    have later := ih (i + 1)
    rw [variantRuns]
    split
    next j n w more runs =>
      rw [runs] at later
      split
      next joins =>
        have same : v = w := by simp at joins; exact joins.1
        rw [← later, List.flatMap_cons, List.flatMap_cons, List.replicate_succ, same, List.cons_append]
      next => rw [List.flatMap_cons, later]; rfl
    next runs =>
      rw [runs] at later
      rw [← later]
      rfl

/-- Settles O41: each command by its own work where it starts at once. -/
theorem sendingCommands : Obligations.SendingCommands := by
  unfold Obligations.SendingCommands
  refine ⟨fun q i r td bt t s wf starts begins => ?_, fun q i r x g t s wf starts begins => ?_,
    fun vs => ⟨variantRuns_short vs 0, variantRuns_cover vs 0⟩⟩
  · rw [exec_gradScatter_started wf starts, begins]
    exact ⟨fun refused => by rw [scatterWork_refused refused],
      fun passed declared accepted absent => by rw [scatterWork_absent passed declared accepted absent],
      fun passed declared accepted held nonempty n v ms size read messages => by
        rw [scatterWork_sends passed declared accepted held nonempty size read messages]⟩
  · rw [exec_denseReduce_started wf starts, begins]
    exact ⟨fun refused => by rw [denseReduceWork_refused refused],
      fun passed tensor gradient o ms loaded messages => by
        rw [denseReduceWork_sends passed tensor gradient loaded messages]⟩

end Sys2Proof.Machine
end

section
/-!
SUPPORT. LOAD of a module in a run (R391): the image is not read before the first check.
-/
namespace Sys2Proof.Machine

/-! ## A LOAD in a run

A LOAD that a module in a run meets ends with 0x0301 before the image is read. O43 has the image read first, and a read of
the peg window takes a free value for the window's reserved bytes (R94). -/

/-- A module that is a member of a run, with queue 0 running. -/
def inRun : State :=
  { life := { modState := .running }, loadState := .loaded, host := { queues := [(0, { state := .running })] } }

/-- A LOAD whose image lies at the first peg of die 0. -/
def loadAtPegs : Rec64 := BitVec.ofNat 512 (0x50 + pegBase * 2 ^ 128)

theorem loadAtPegs_starts : startable 0 0 loadAtPegs inRun := by decide +kernel

/-- The module ends the LOAD on the state in which it started. -/
theorem loadWork_inRun : loadWork 0 0 loadAtPegs (begun 0 0 loadAtPegs inRun) =
    loadRefused 0 0 0x0301 (begun 0 0 loadAtPegs inRun) := rfl

/-- What reading the image would leave. -/
def imageRead : State := (readImage (rf loadAtPegs 191 128) (begun 0 0 loadAtPegs inRun)).2

theorem imageRead_free : imageRead.free = 1 := by decide +kernel
theorem imageRead_notReady : isState imageRead .ready = false := by decide +kernel

theorem loadRefused_free (q i c : Nat) (s : State) : (loadRefused q i c s).free = s.free := by
  unfold loadRefused endPlain endCmd setPhase updCmd updQueue whenS
  simp only [setQueue_free]
  split
  · rw [count_free, count_free, setReg_free]
  · rw [count_free, setReg_free]

theorem free_of_next {cs ds : List Instr} {s t : State}
    (h : (.next (withQueue cs s) : Host.Outcome State Fault Refusal) = .next (withQueue ds t)) : s.free = t.free := by
  have same := congrArg State.free (Host.Outcome.next.inj h)
  exact same

/-- Refutes O43: a LOAD of a module in a run, whose image lies in the peg window, takes no free value, since nothing is read
before the check of 0x0301. -/
theorem not_loadAndUnload : ¬ Obligations.LoadAndUnload := by
  unfold Obligations.LoadAndUnload
  rintro ⟨load, -⟩
  have wf : Instr.wf (.load 0 0 loadAtPegs) = true := by decide +kernel
  have claimed := (load 0 0 loadAtPegs _ (begun 0 0 loadAtPegs inRun) imageRead inRun wf loadAtPegs_starts rfl
    Prod.mk.eta.symm).1 (.inl imageRead_notReady)
  have meant := exec_load_started wf loadAtPegs_starts
  rw [loadWork_inRun, claimed] at meant
  have quiet : still (loadRefused 0 0 0x0301 imageRead) := by decide +kernel
  have quiet' : still (loadRefused 0 0 0x0301 (begun 0 0 loadAtPegs inRun)) := by decide +kernel
  rw [still_settleRun quiet, still_settleRun quiet'] at meant
  have free : imageRead.free = 0 := calc
    imageRead.free = (loadRefused 0 0 0x0301 imageRead).free := (loadRefused_free _ _ _ _).symm
    _ = (loadRefused 0 0 0x0301 (begun 0 0 loadAtPegs inRun)).free := free_of_next meant
    _ = 0 := loadRefused_free _ _ _ _
  rw [imageRead_free] at free
  exact absurd free (by decide)

end Sys2Proof.Machine
end

section
/-!
SUPPORT. Generations (R461 to R465).
-/
namespace Sys2Proof.Machine

section
variable {q i : Nat} {r : Rec64} {t u : State}

/-! ## GEN_SETUP (R461) -/

theorem genSetupWork_fits (fit : genSetupRefusal t (rf r 287 256) (rf r 319 288) (rf r 351 320) (rf r 383 352) = 0) :
    ended q i (genSetupWork r t) = endPlain q i 0 { t with gen := { t.gen with
      setup := true, mapOff := rf r 287 256, holdOff := rf r 319 288, mapKib := rf r 351 320, holdKib := rf r 383 352 } } := by
  simp only [genSetupWork, fit, bne_self_eq_false, Bool.false_eq_true, if_false]
  rfl

theorem genSetupWork_refused {c : Nat} (refused : c ≠ 0)
    (code : genSetupRefusal t (rf r 287 256) (rf r 319 288) (rf r 351 320) (rf r 383 352) = c) :
    ended q i (genSetupWork r t) = endPlain q i c t := by
  simp only [genSetupWork, code, bne_iff_ne.mpr refused, if_true]
  rfl

/-! ## GEN_CUT (R462) -/

theorem genCutWork_waits (sound : t.holds.salvaged = false) (early : reached t (rf r 191 128) 5 = false) :
    genCutWork q i r t =
      { t with gen := { t.gen with cuts := t.gen.cuts ++ [(rf r 191 128, rf r 223 192, rb r 224, q, i)] } } := by
  simp only [genCutWork, sound, early, Bool.false_eq_true, if_false]
  rfl

theorem genCutWork_late (sound : t.holds.salvaged = false) (late : reached t (rf r 191 128) 5 = true) :
    genCutWork q i r t = endPlain q i 0x0204 t := by
  simp only [genCutWork, sound, late, Bool.false_eq_true, if_false, if_true]

theorem genCutWork_salvaged (salvaged : t.holds.salvaged = true) :
    genCutWork q i r t = makeCut (lastCommitted t, rf r 223 192, true, q, i) t := by
  simp only [genCutWork, salvaged, if_true]

theorem makeCut_opens {n g : Nat} {full : Bool} (closed : t.gen.isOpen = false) :
    makeCut (n, g, full, q, i) t = endPlain q i 0 (count E.GEN_CUTS { t with gen := { t.gen with
      current := t.gen.frozen, frozen := t.gen.current, isOpen := true, step := n, number := g, full := full
      salvage := t.holds.salvaged, exported := 0, hold := [], inexact := [] } }) := by
  simp only [makeCut, closed, Bool.false_eq_true, if_false, setGen]

theorem makeCut_refused {n g : Nat} {full : Bool} (opened : t.gen.isOpen = true) :
    makeCut (n, g, full, q, i) t = endPlain q i 0x0911 t := by
  simp only [makeCut, opened, if_true]

/-! ## GEN_EXPORT (R465) -/

theorem genExportWork_refused (refused : exportRefusal t r ≠ 0) :
    genExportWork q i r t = endPlain q i (exportRefusal t r)
      (whenS (exportRefusal t r == 0x0801 || exportRefusal t r == 0x080C) (count E.REQUESTS_REFUSED) t) := by
  simp only [genExportWork, bne_iff_ne.mpr refused, if_true]

theorem findCmd_releaseGen (s : State) : findCmd (releaseGen s) q i = findCmd s q i := rfl

/-- An export whose writes have all been answered ends at once; the last shard releases the generation. -/
theorem genExportWork_ends (passed : exportRefusal t r = 0) {v : ExportRun × State} {c : Cmd}
    (exported : v = exportFrom q i (rf r 226 225 == 1) (rf r 319 256) (rf r 383 320)
      ((genShards t).drop t.gen.exported) t.gen.exported ⟨0, 0, false⟩ t)
    (terminated : u = (if v.1.used + 64 ≤ rf r 383 320
      then exportWrite q i (rf r 226 225 == 1) (rf r 319 256 + v.1.used) (zeros 64) v.2 else v.2))
    (found : findCmd u q i = some c) (answered : c.outstanding = 0) :
    genExportWork q i r t =
      (if v.1.full then endCmd q i 0x0913 v.1.shards false false u
      else endCmd q i 0 v.1.shards false false
        { u with gen := { u.gen with isOpen := false, frozen := [], hold := [], inexact := [], exported := 0 } }) := by
  have same (full : Bool) : findCmd (if full then u else releaseGen u) q i = some c := by
    cases full
    · exact (findCmd_releaseGen u).trans found
    · exact found
  simp only [genExportWork, passed, bne_self_eq_false, Bool.false_eq_true, if_false, ← exported, ← terminated, same,
    answered, if_true]
  split <;> rfl

/-! ## GEN_RELEASE (R463) -/

theorem genReleaseWork_releases (opened : t.gen.isOpen = true) (named : rf r 223 192 = t.gen.number) :
    ended q i (genReleaseWork r t) = endPlain q i 0
      { t with gen := { t.gen with isOpen := false, frozen := [], hold := [], inexact := [], exported := 0 } } := by
  simp only [genReleaseWork, opened, named, bne_self_eq_false, Bool.not_true, Bool.or_self, Bool.false_eq_true, if_false]
  rfl

theorem genReleaseWork_refused (other : t.gen.isOpen = false ∨ rf r 223 192 ≠ t.gen.number) :
    ended q i (genReleaseWork r t) = endPlain q i 0x0912 t := by
  have refused : (!t.gen.isOpen || rf r 223 192 != t.gen.number) = true := by
    simpa only [Bool.or_eq_true, Bool.not_eq_true', bne_iff_ne] using other
  simp only [genReleaseWork, refused, if_true]
  rfl

end

/-- Settles O42: each command by its own work where it starts at once, and what a cut leaves. -/
theorem generationCommands : Obligations.GenerationCommands := by
  unfold Obligations.GenerationCommands
  refine ⟨fun q i r c t s wf starts begins code => ?_, fun q i r t s wf starts begins sound => ?_,
    fun q i r t s wf starts begins salvaged => ?_, fun n g full q i s => makeCut_opens,
    fun n g full q i s => makeCut_refused, fun q i r t s wf starts begins => ?_, fun q i r t s wf starts begins => ?_⟩
  · rw [exec_genSetup_started wf starts, begins]
    exact ⟨fun fit => by rw [genSetupWork_fits (code.trans fit)],
      fun refused => by rw [genSetupWork_refused refused code]⟩
  · rw [exec_genCut_started wf starts, begins]
    have sound' : t.holds.salvaged = false := begins ▸ sound
    exact ⟨fun early => by rw [genCutWork_waits sound' early], fun late => by rw [genCutWork_late sound' late]⟩
  · rw [exec_genCut_started wf starts, begins, genCutWork_salvaged (begins ▸ salvaged)]
  · rw [exec_genExport_started wf starts, begins]
    exact ⟨fun refused => by rw [genExportWork_refused refused],
      fun passed v c u exported terminated found answered => by
        rw [genExportWork_ends passed exported terminated found answered]⟩
  · rw [exec_genRelease_started wf starts, begins]
    exact ⟨fun opened named => by rw [genReleaseWork_releases opened named],
      fun other => by rw [genReleaseWork_refused other]⟩

end Sys2Proof.Machine
end

section
/-!
SUPPORT. What a twin takes from its partner: the mirror log (R441 to R445), copies, occurrences, contributions and row
changes (R152, R388, R454, R455).
-/
namespace Sys2Proof.Machine

/-! ## The mirror log at a follower -/

section
variable {p : GPacket} {s t : State} (performs : gPerforms p s) (taken : takeGArrival p s = t)
include performs taken

theorem takeOperands_performed : takeOperands p s = gAnswer p 0 [] false (setTwin { t.twin with
    opStep := some (field p.data 0 8), opNorm := BitVec.ofNat 32 (field p.data 8 4)
    opClip := BitVec.ofNat 32 (field p.data 12 4) } t) := by
  rw [takeOperands, gServe_performs performs, taken]

theorem takeMark_performed : takeMark p s = gAnswer p 0 [] false (setTwin { t.twin with
    partnerMarks := t.twin.partnerMarks ++ [(p.die, field p.data 0 8)] } t) := by
  rw [takeMark, gServe_performs performs, taken]

theorem mirrorLog_closed (closed : mirrorOpen t (nearStep t p.stepLo) = false) :
    mirrorLog p s = gAnswer p 0x0811 [] false t := by
  rw [mirrorLog, gServe_performs performs, taken]
  simp only [closed, Bool.false_and, Bool.false_eq_true, if_false]

section
variable {nc : W32 × W32} {u : State} (inStep : mirrorOpen t (nearStep t p.stepLo) = true) (configured : gOpen t = true)
  (operands : replayOperands t (nearStep t p.stepLo) = some nc)
include inStep configured operands

theorem mirrorLog_replayed
    (resolved : replayAll (nearStep t p.stepLo) p.die nc none ((pieces 40 p.data).map entry40) t = (false, u)) :
    mirrorLog p s = gAnswer p 0 [] false u := by
  rw [mirrorLog, gServe_performs performs, taken]
  simp only [inStep, configured, Bool.and_self, if_true, operands, resolved, Bool.false_eq_true, if_false]

theorem mirrorLog_diverged
    (diverged : replayAll (nearStep t p.stepLo) p.die nc none ((pieces 40 p.data).map entry40) t = (true, u)) :
    mirrorLog p s = leaveService 0x0906 (unitCoord u p.die 4 2 2)
      (raiseAt 0x0906 (unitCoord u p.die 4 2 2) (nearStep t p.stepLo) u) := by
  rw [mirrorLog, gServe_performs performs, taken]
  simp only [inStep, configured, Bool.and_self, if_true, operands, diverged]

end

end

/-- R433: a packet waits for those of its class that came before it on its port. -/
theorem gServe_preceded {p : GPacket} {s : State} (waits : precededBy s p = true) (f : State → State) :
    gServe p f s = s := by
  simp only [gServe, waits, if_true]

section
variable {n home occ : Nat} {k : TargetKey} {ts : TableSet} {d : TableDecl} {g : List W32} {nc : W32 × W32} {s u : State}
  (here : pageHere s home = true)
include here

theorem replayTable_applied (sound : recordPoisoned home ts.mode s = (false, u)) :
    replayTable n k ts d home occ g nc s =
      (.done, noteReplay k (updateAt n ts d k.row k.variant k.slice home occ g nc.1 nc.2 u).2) := by
  simp only [replayTable, here, sound, Bool.not_true, Bool.false_eq_true, if_false]

theorem replayTable_skipped (poisoned : recordPoisoned home ts.mode s = (true, u)) :
    replayTable n k ts d home occ g nc s = (.skipped, u) := by
  simp only [replayTable, here, poisoned, Bool.not_true, Bool.false_eq_true, if_false, if_true]

end

/-- Settles O50: each packet that is performed by its own work, and an entry on a table's record by the record's marks. -/
theorem mirrorLog_taken : Obligations.MirrorLog := by
  unfold Obligations.MirrorLog
  refine ⟨fun i p q s t wf path performs taken => ?_, fun i p q s t wf path performs taken => ?_,
    fun i p q s wf path waits => ?_, fun i p q nc s t u wf path performs taken inStep configured operands => ?_,
    fun i p q s t wf path performs taken closed => ?_, fun n k ts d home occ g nc s u => replayTable_applied,
    fun n k ts d home occ g nc s u => replayTable_skipped⟩
  · subst path
    rw [exec_stepOperands i p s wf, takeOperands_performed performs taken]
  · subst path
    rw [exec_stepMark i p s wf, takeMark_performed performs taken]
  · subst path
    rw [exec_stepMark i p s wf, takeMark, gServe_preceded waits]
  · subst path
    rw [exec_mirrorLog i p s wf]
    exact ⟨fun resolved => by rw [mirrorLog_replayed performs taken inStep configured operands resolved],
      fun diverged => by rw [mirrorLog_diverged performs taken inStep configured operands diverged]⟩
  · subst path
    rw [exec_mirrorLog i p s wf, mirrorLog_closed performs taken closed]

/-! ## Copies (R454, R455) -/

section
variable {p : GPacket} {s t : State} (performs : gPerforms p s) (taken : takeGArrival p s = t)
include performs taken

theorem copyPage_refused (other : t.twin.state ≠ .copyTarget) : copyPage p s = gAnswer p 0x0811 [] false t := by
  rw [copyPage, gServe_performs performs, taken]
  simp only [bne_iff_ne.mpr other, if_true]

section
variable {l die k : Nat} {u v : State} (target : t.twin.state = .copyTarget) (locator : field p.data 0 8 = l)
  (ofDie : l % 4 = die) (position : l / 32 * 8 + l / 8 % 4 * 2 + l / 4 % 2 = k)
  (written : writeCopied (pageAt die k) (p.data.drop 8) t = u)
  (answered : gAnswer p 0 [] false (setTwin { u.twin with
    copyGot := sput 0 u.twin.copyGot die (max (sget 0 u.twin.copyGot die) (k + 1)) } u) = v)
include target locator ofDie position written answered

/-- R437: outside a run the last page makes the target PAIRED. -/
theorem copyPage_taken : copyPage p s =
    if v.loadState == .idle && four.all fun d => (nextCopy v d (sget 0 v.twin.copyGot d)).isNone then
      setTwinState .paired (noCopy v)
    else v := by
  rw [copyPage, gServe_performs performs, taken]
  simp only [target, bne_self_eq_false, Bool.false_eq_true, if_false, locator, ofDie, position, written, answered]

end

end

/-! ## Contributions and row changes (R152, R388) -/

section
variable {p : GPacket} {s t : State}

theorem takeContributions_held
    (held : ((pieces 96 p.data).all fun e => (rowRegion s (field e 7 1) (field e 8 2) (field e 0 5)).isSome) = true) :
    (takeContributions p s).1 = 0 := by
  have none : ((pieces 96 p.data).filter fun e =>
      !(rowRegion s (field e 7 1) (field e 8 2) (field e 0 5)).isSome).isEmpty = true := by
    rw [List.isEmpty_iff, List.filter_eq_nil_iff]
    intro e listed
    have here : (rowRegion s (field e 7 1) (field e 8 2) (field e 0 5)).isSome = true :=
      List.all_eq_true.mp held e listed
    simp only [here, Bool.not_true, Bool.false_eq_true, not_false_eq_true]
  simp only [takeContributions, none, if_true]

theorem takeContributions_refused
    (other : ((pieces 96 p.data).all fun e => (rowRegion s (field e 7 1) (field e 8 2) (field e 0 5)).isSome) = false) :
    (takeContributions p s).1 = 0x0601 := by
  have listed : ((pieces 96 p.data).filter fun e =>
      !(rowRegion s (field e 7 1) (field e 8 2) (field e 0 5)).isSome).isEmpty = false := by
    obtain ⟨e, inPacket, missing⟩ := List.all_eq_false.mp other
    rw [← Bool.not_eq_true, List.isEmpty_iff]
    intro empty
    exact (List.filter_eq_nil_iff.mp empty e inPacket) (by simpa using missing)
  simp only [takeContributions, listed, Bool.false_eq_true, if_false]

theorem takeRowChange_early (early : atCommit s = false) : takeRowChange p s = (0x0811, s) := by
  simp only [takeRowChange, early, Bool.not_false, if_true]

section
variable {ts : TableSet} {d : TableDecl} (commit : atCommit s = true)
  (declared : rowDecl s (keyOf p.data).set (keyOf p.data).table = some (ts, d))
  (resolved : resolveReads ts d (keyOf p.data).row (keyOf p.data).variant s = t)
include commit declared resolved

theorem takeRowChange_written {home : Nat}
    (target : rowTarget t ts d (keyOf p.data).row (keyOf p.data).variant (keyOf p.data).slice = some home) :
    takeRowChange p s = (0, storeRecord home (imagePayload (p.data.drop 12)) (imageMarks (p.data.drop 12))
      (beforeRecordWrite home ts.mode false t)) := by
  simp only [takeRowChange, commit, declared, resolved, target, Bool.not_true, Bool.false_eq_true, if_false]

theorem takeRowChange_absent
    (target : rowTarget t ts d (keyOf p.data).row (keyOf p.data).variant (keyOf p.data).slice = none) :
    takeRowChange p s = (0x0209, t) := by
  simp only [takeRowChange, commit, declared, resolved, target, Bool.not_true, Bool.false_eq_true, if_false]

end

end

/-- Settles O51: each packet that is performed by its own work, and the statuses of contributions and row changes. -/
theorem twinCopies : Obligations.TwinCopies := by
  unfold Obligations.TwinCopies
  refine ⟨fun i p q l die k s t u wf path performs taken target locator ofDie position written v answered => ?_,
    fun i p q s t wf path performs taken other => ?_, fun i p q s t wf path performs taken => ?_,
    fun i p q s t wf path performs taken => ?_, fun p s => takeContributions_held, fun p s => takeContributions_refused,
    fun i p q s t wf path performs taken => ?_, fun p s => takeRowChange_early,
    fun p ts d s t commit declared resolved => ⟨fun home => takeRowChange_written commit declared resolved,
      takeRowChange_absent commit declared resolved⟩⟩
  · subst path
    rw [exec_copyPage i p s wf, copyPage_taken performs taken target locator ofDie position written answered]
    exact ⟨fun inRun => by rw [beq_false_of_ne inRun, Bool.false_and, if_neg Bool.false_ne_true],
      fun idle last => by rw [idle, last, beq_self_eq_true, Bool.and_self, if_pos rfl]⟩
  · subst path
    rw [exec_copyPage i p s wf, copyPage_refused performs taken other]
  · subst path
    rw [exec_occurrences i p s wf, takeOccPacket, gServe_performs performs, taken]
  · subst path
    rw [exec_contributions i p s wf, takeContribPacket, gServe_performs performs, taken]
  · subst path
    rw [exec_rowChange i p s wf, takeRowPacket, gServe_performs performs, taken]

end Sys2Proof.Machine
end
